-- ==== Sys2Proof/Word.lean ====
section
/-!
DEFINITION. The machine's word and byte (R4): a register is 64 bits, memory is bytes, a slot word is 32 bits.
-/

namespace Sys2Proof

/-- A 64-bit register or memory word. -/
abbrev Word := BitVec 64

/-- A byte of any memory. -/
abbrev Byte := BitVec 8

/-- A 32-bit slot word of a bundle (R271). -/
abbrev SlotWord := BitVec 32

end Sys2Proof
end

