-- ==== Sys2Proof/Config.lean ====
section
/-!
DEFINITION. What a part fixes and the manual leaves open: opaque constants without a body, so that nothing can be proved of
their values.
-/

namespace Sys2Proof

/-- What fuses add to the least coefficient: by die, tile and event kind; the unit of memory port k of a die is 256 + k. -/
opaque Config.fused : Nat → Nat → Nat → Nat

/-- The least and the greatest coefficient that ±2 % of R155's calibration point allow, in 2^-8 fJ, by event kind: 0 bit-product,
1 row read, 2 row write, 3 FP lane, 4 integer lane, 5 operation, 6 byte copied, 7 leakage of a column for a cyc. -/
def Config.coefRange : Nat → Nat × Nat
  | 0 => (201, 208)
  | 1 => (225792, 235008)
  | 2 => (275968, 287232)
  | 3 => (150528, 156672)
  | 4 => (50176, 52224)
  | 5 => (376320, 391680)
  | 6 => (87808, 91392)
  | _ => (3010560, 3133440)

/-- The coefficient of a tile or port in 2^-8 fJ (R155): a fused value within 2 % of the calibration point for kinds 0 to 7; 1.6 pJ
for a flit hop (kind 9); a fused value for an HBM byte (8, R48), the four neighbour refreshes (10, R45) and a reduced element
(11, R157), for which the manual states no accuracy (log 7). -/
def Config.coef (die unit kind : Nat) : Nat :=
  if kind = 9 then 409600
  else if kind ≥ 8 then Config.fused die unit kind
  else
    let r := Config.coefRange kind
    r.1 + Config.fused die unit kind % (r.2 - r.1 + 1)

/-- Flit hops of a transfer of so many bytes between a die and a UALink port (72: another tile of the package): the manual gives neither
the hops of a path nor the flits of a transfer (log 7). -/
opaque Config.flitHops : Nat → Nat → Nat → Nat

/-- Second-stage entries that a memory port caches: R120 gives no number (log 16). -/
opaque Config.portEntries : Nat

/-- Blocks of code that a sequencer holds once it has fetched them: the manual gives no number (log 52). -/
opaque Config.codeBlocks : Nat

/-- Fused tile classes (R25): whether a tile of a die is of class T. -/
opaque Config.classT : Nat → Nat → Bool

/-- Power that the arbiter measured in an epoch, in 1/16 W: by epoch and consumer, dies 0 to 7, stack n at 8 + n (R12), and the whole
package at 40, which PKGW reports (R19). -/
opaque Config.measured : Nat → Nat → Nat

/-- Refresh and standby power of a stack in an epoch, in 1/16 W (Pbg of R12). -/
opaque Config.standby : Nat → Nat → Nat

/-- Fused energy per byte of a stack, in fJ (R12). -/
opaque Config.ebyte : Nat → Nat

/-- Fused silicon revision (R85). -/
opaque Config.revn : Nat

/-- A value that the manual leaves open, by a counter of such values. -/
opaque Config.freeValue : Nat → Nat

/-- SHA-512 (R103, R105, R298). -/
opaque Config.sha512 : List Byte → List Byte

/-- RSASSA-PSS verification (R103): modulus, message, signature. -/
opaque Config.verifies : List Byte → List Byte → List Byte → Bool

/-- Whether a digest of a signing key is fused and not revoked (R102, R103). -/
opaque Config.trusted : List Byte → Bool

/-- RSASSA-PSS signature by the identity key (R105). -/
opaque Config.signed : List Byte → List Byte

/-- Public modulus of the transport key of the n-th reset (R104). -/
opaque Config.modulus : Nat → List Byte

/-- RSAES-OAEP decryption under the transport key of the n-th reset (R106). -/
opaque Config.unwrap : Nat → List Byte → Option (List Byte)

/-- The identity certificate in DER form (R104). -/
opaque Config.certificate : List Byte

/-- One byte of AES-256-XTS over a block (R107): key, VF, block number, plaintext, and the byte's place. -/
opaque Config.cipherByte : List Byte → Nat → Nat → List Byte → Nat → Byte

/-- One byte of AES-256-XTS decryption of a block (R107). -/
opaque Config.plainByte : List Byte → Nat → Nat → List Byte → Nat → Byte

/-- AES-256-XTS over a block (R107), which keeps its length. -/
def Config.encrypt (key : List Byte) (vf blk : Nat) (bs : List Byte) : List Byte :=
  (List.range bs.length).map (Config.cipherByte key vf blk bs)

/-- AES-256-XTS decryption of a block (R107), which keeps its length. -/
def Config.decrypt (key : List Byte) (vf blk : Nat) (bs : List Byte) : List Byte :=
  (List.range bs.length).map (Config.plainByte key vf blk bs)

end Sys2Proof
end

