-- ==== Sys2Proof/Syntax.lean ====
section
/-!
DEFINITION. The instruction set of the EX-9408 as syntax: one constructor of `Instr` per row of the opcode
table, slot operations (R272 to R285) and device events alike, with the plain-data types of their operands.
-/

namespace Sys2Proof

/-- What every slot word carries beside its opcode and operands (R272): the stop bit S, the predicate register
number P and the negation N. -/
structure Guard where
  stop : Bool
  p    : BitVec 3
  n    : Bool
  deriving DecidableEq, Repr

/-- An RRI6 immediate (R276, R278): 6 bits, or 14 where the bundle has a header (`hdr`). -/
structure Imm14 where
  hdr : Bool
  v   : BitVec 14
  deriving DecidableEq, Repr

/-- An RI12 immediate (R276, R278): 12 bits, or 20 where the bundle has a header (`hdr`). -/
structure Imm20 where
  hdr : Bool
  v   : BitVec 20
  deriving DecidableEq, Repr

/-- A window-row operand in position A or B (R278, R324): its number and its hold bit (R200). -/
structure VOp where
  n    : BitVec 8
  hold : Bool
  deriving DecidableEq, Repr

/-- The field groups PRECI selects (R364). -/
inductive PreciSel where
  | mat | acc | vec | all
  deriving DecidableEq, Repr

/-- One Host Link Protocol transaction (R79): the header's fields and the payload's 8-byte words.
`zero` is the OR of the bits that R79 requires to be zero. -/
structure Hlp where
  type   : Nat
  len    : Nat
  tag    : Nat
  func   : Nat
  status : Nat
  addr   : Word
  zero   : Bool
  data   : List Word
  deriving DecidableEq, Repr

/-- A row that binning found weak (R39): its stack, bank and row, and the hold after which it lost a bit
(`lost` 0: after 64 ms, retire; 1: after 128 ms, F32; 2: after 256 ms, F64). -/
structure BinnedRow where
  stack : Nat
  bank  : Nat
  row   : Nat
  lost  : Nat
  deriving DecidableEq, Repr

/-- The elements that have power states (R22). -/
inductive Element where
  | column (die tile col : Nat)
  | tile (die tile : Nat)
  | die (die : Nat)
  deriving DecidableEq, Repr

/-- The memory operations of a memory port or DSM bank: plain accesses and the atomics of R309, and the
element-wise combine of R380. -/
inductive MemOp where
  | read | write
  | aadd | amin | amax | aor | axch | acas
  | combine (fmt op : BitVec 2)
  deriving DecidableEq, Repr

/-- A remote request over UALink (R52): the port it came in by, the VF it is made for, the intermediate
address, the operation and its bytes (for ACAS the expected value and then the new one). -/
structure RemoteReq where
  port : Nat
  /-- The remote task or card that makes it (R242). -/
  src  : Nat
  vf   : Nat
  ipa  : Nat
  size : Nat
  op   : MemOp
  data : List Byte
  deriving DecidableEq, Repr

/-- A collective at a port on its tree (R66). -/
structure TreePort where
  port : Nat
  cid  : Nat
  deriving DecidableEq, Repr

/-- A stream message in flight (R55): its receiver (`destLocal`, `destRemote`) and channel, the header's fields and the payload.
`bad` says that the header has a reserved KIND or non-zero reserved bits; `port` is the receiving port, 72 for
a path inside the package; `src` is the code that its sender's package gives the task that sent it. -/
structure Msg where
  dst     : Nat
  dch     : Nat
  port    : Nat
  kind    : Nat
  bad     : Bool
  stamp   : Nat
  seq     : Nat
  payload : List Byte
  src     : Nat
  deriving DecidableEq, Repr

/-- The dispositions a pre-emption request may carry (R187, R395): save (pre-emption, quota or yield) or cancel
with the STATUS of R139. -/
inductive PreemptKind where
  | save
  | cancel (status : Nat)
  deriving DecidableEq, Repr


/-- One constructor per row of the opcode table: the slot operations of R285, then (by table order) the
device's own events, which have no bits.  `g` is the guard of R272 (stop bit, predicate, negation). -/
inductive Instr where
  /-- NOP (R281). -/
  | nop (stop : Bool)
  /-- ILLEGAL (R284). -/
  | illegal (stop : Bool) (p : BitVec 3) (n : Bool) (o : BitVec 18)
  /-- ADD (R300). -/
  | add (g : Guard) (d : BitVec 6) (a : BitVec 6) (b : BitVec 6)
  /-- SUB (R300). -/
  | sub (g : Guard) (d : BitVec 6) (a : BitVec 6) (b : BitVec 6)
  /-- ADDI (R301). -/
  | addi (g : Guard) (d : BitVec 6) (a : BitVec 6) (i : Imm14)
  /-- LIH (R301). -/
  | lih (g : Guard) (d : BitVec 6) (i : Imm20)
  /-- MUL (R300). -/
  | mul (g : Guard) (d : BitVec 6) (a : BitVec 6) (b : BitVec 6)
  /-- MULH (R300). -/
  | mulh (g : Guard) (d : BitVec 6) (a : BitVec 6) (b : BitVec 6)
  /-- MULHN (R300). -/
  | mulhn (g : Guard) (d : BitVec 6) (a : BitVec 6) (b : BitVec 6)
  /-- DIV (R302). -/
  | div (g : Guard) (d : BitVec 6) (a : BitVec 6) (b : BitVec 6)
  /-- DIVN (R302). -/
  | divn (g : Guard) (d : BitVec 6) (a : BitVec 6) (b : BitVec 6)
  /-- REM (R302). -/
  | rem (g : Guard) (d : BitVec 6) (a : BitVec 6) (b : BitVec 6)
  /-- REMN (R302). -/
  | remn (g : Guard) (d : BitVec 6) (a : BitVec 6) (b : BitVec 6)
  /-- AND (R300). -/
  | andS (g : Guard) (d : BitVec 6) (a : BitVec 6) (b : BitVec 6)
  /-- OR (R300). -/
  | orS (g : Guard) (d : BitVec 6) (a : BitVec 6) (b : BitVec 6)
  /-- XOR (R300). -/
  | xorS (g : Guard) (d : BitVec 6) (a : BitVec 6) (b : BitVec 6)
  /-- ANDI (R301). -/
  | andi (g : Guard) (d : BitVec 6) (a : BitVec 6) (i : Imm14)
  /-- ORI (R301). -/
  | ori (g : Guard) (d : BitVec 6) (a : BitVec 6) (i : Imm14)
  /-- XORI (R301). -/
  | xori (g : Guard) (d : BitVec 6) (a : BitVec 6) (i : Imm14)
  /-- SHL (R300). -/
  | shl (g : Guard) (d : BitVec 6) (a : BitVec 6) (b : BitVec 6)
  /-- SHR (R300). -/
  | shr (g : Guard) (d : BitVec 6) (a : BitVec 6) (b : BitVec 6)
  /-- SHRA (R300). -/
  | shra (g : Guard) (d : BitVec 6) (a : BitVec 6) (b : BitVec 6)
  /-- SHLI (R301). -/
  | shli (g : Guard) (d : BitVec 6) (a : BitVec 6) (i : BitVec 6)
  /-- SHRI (R301). -/
  | shri (g : Guard) (d : BitVec 6) (a : BitVec 6) (i : BitVec 6)
  /-- SHRAI (R301). -/
  | shrai (g : Guard) (d : BitVec 6) (a : BitVec 6) (i : BitVec 6)
  /-- ROTR (R300). -/
  | rotr (g : Guard) (d : BitVec 6) (a : BitVec 6) (b : BitVec 6)
  /-- CLZ (R300). -/
  | clz (g : Guard) (d : BitVec 6) (a : BitVec 6)
  /-- POPC (R300). -/
  | popc (g : Guard) (d : BitVec 6) (a : BitVec 6)
  /-- MIN (R300). -/
  | minS (g : Guard) (d : BitVec 6) (a : BitVec 6) (b : BitVec 6)
  /-- MAX (R300). -/
  | maxS (g : Guard) (d : BitVec 6) (a : BitVec 6) (b : BitVec 6)
  /-- MINN (R300). -/
  | minn (g : Guard) (d : BitVec 6) (a : BitVec 6) (b : BitVec 6)
  /-- MAXN (R300). -/
  | maxn (g : Guard) (d : BitVec 6) (a : BitVec 6) (b : BitVec 6)
  /-- SEL (R305). -/
  | sel (g : Guard) (d : BitVec 6) (a : BitVec 6) (b : BitVec 6)
  /-- CEQ (R303). -/
  | ceq (g : Guard) (q : BitVec 3) (a : BitVec 6) (b : BitVec 6)
  /-- CNE (R303). -/
  | cne (g : Guard) (q : BitVec 3) (a : BitVec 6) (b : BitVec 6)
  /-- CLT (R303). -/
  | clt (g : Guard) (q : BitVec 3) (a : BitVec 6) (b : BitVec 6)
  /-- CLE (R303). -/
  | cle (g : Guard) (q : BitVec 3) (a : BitVec 6) (b : BitVec 6)
  /-- CLTN (R303). -/
  | cltn (g : Guard) (q : BitVec 3) (a : BitVec 6) (b : BitVec 6)
  /-- CLEN (R303). -/
  | clen (g : Guard) (q : BitVec 3) (a : BitVec 6) (b : BitVec 6)
  /-- CEQI (R303). -/
  | ceqi (g : Guard) (q : BitVec 3) (a : BitVec 6) (i : Imm14)
  /-- CLTI (R303). -/
  | clti (g : Guard) (q : BitVec 3) (a : BitVec 6) (i : Imm14)
  /-- BADR (R306). -/
  | badr (g : Guard) (d : BitVec 6) (a : BitVec 6) (b : BitVec 6)
  /-- BOFF (R306). -/
  | boff (g : Guard) (d : BitVec 6) (a : BitVec 6) (i : Imm14)
  /-- LDB (R308). -/
  | ldb (g : Guard) (d : BitVec 6) (a : BitVec 6) (i : Imm14)
  /-- LDH (R308). -/
  | ldh (g : Guard) (d : BitVec 6) (a : BitVec 6) (i : Imm14)
  /-- LDW (R308). -/
  | ldw (g : Guard) (d : BitVec 6) (a : BitVec 6) (i : Imm14)
  /-- LDD (R308). -/
  | ldd (g : Guard) (d : BitVec 6) (a : BitVec 6) (i : Imm14)
  /-- STB (R308). -/
  | stb (g : Guard) (d : BitVec 6) (a : BitVec 6) (i : Imm14)
  /-- STH (R308). -/
  | sth (g : Guard) (d : BitVec 6) (a : BitVec 6) (i : Imm14)
  /-- STW (R308). -/
  | stw (g : Guard) (d : BitVec 6) (a : BitVec 6) (i : Imm14)
  /-- STD (R308). -/
  | std (g : Guard) (d : BitVec 6) (a : BitVec 6) (i : Imm14)
  /-- LDL (R310). -/
  | ldl (g : Guard) (d : BitVec 6) (a : BitVec 6) (i : Imm14)
  /-- STL (R310). -/
  | stl (g : Guard) (d : BitVec 6) (a : BitVec 6) (i : Imm14)
  /-- AADD (R309). -/
  | aadd (g : Guard) (d : BitVec 6) (a : BitVec 6) (b : BitVec 6)
  /-- AMIN (R309). -/
  | amin (g : Guard) (d : BitVec 6) (a : BitVec 6) (b : BitVec 6)
  /-- AMAX (R309). -/
  | amax (g : Guard) (d : BitVec 6) (a : BitVec 6) (b : BitVec 6)
  /-- AOR (R309). -/
  | aor (g : Guard) (d : BitVec 6) (a : BitVec 6) (b : BitVec 6)
  /-- AXCH (R309). -/
  | axch (g : Guard) (d : BitVec 6) (a : BitVec 6) (b : BitVec 6)
  /-- ACAS (R309). -/
  | acas (g : Guard) (d : BitVec 6) (a : BitVec 6) (b : BitVec 6)
  /-- QMOV (R304). -/
  | qmov (g : Guard) (q : BitVec 3) (a : BitVec 6)
  /-- MOVQ (R304). -/
  | movq (g : Guard) (d : BitVec 6)
  /-- QLOG (R304). -/
  | qlog (g : Guard) (q : BitVec 3) (qa : BitVec 3) (qb : BitVec 3) (o : BitVec 3)
  /-- PBR (R311). -/
  | pbr (g : Guard) (t : BitVec 2) (i : Imm20)
  /-- PBRR (R311). -/
  | pbrr (g : Guard) (t : BitVec 2) (a : BitVec 6)
  /-- BR (R312). -/
  | br (g : Guard) (t : BitVec 2)
  /-- BRC (R312). -/
  | brc (g : Guard) (t : BitVec 2) (a : BitVec 6)
  /-- CALL (R312). -/
  | call (g : Guard) (t : BitVec 2)
  /-- RET (R312). -/
  | ret (g : Guard)
  /-- LOOP (R314). -/
  | loop (g : Guard) (l : BitVec 3) (a : BitVec 6) (t : BitVec 2)
  /-- LOOPI (R314). -/
  | loopi (g : Guard) (l : BitVec 3) (t : BitVec 2) (i : BitVec 20)
  /-- LSTR (R316). -/
  | lstr (g : Guard) (l : BitVec 3) (a : BitVec 6) (i : Imm14)
  /-- LIDX (R316). -/
  | lidx (g : Guard) (d : BitVec 6) (l : BitVec 3)
  /-- LBRK (R317). -/
  | lbrk (g : Guard) (l : BitVec 3)
  /-- SPAWN (R165). -/
  | spawn (g : Guard) (k : BitVec 2) (a : BitVec 6) (t : BitVec 2)
  /-- JOIN (R166). -/
  | joinK (g : Guard) (k : BitVec 2)
  /-- SAFE (R185). -/
  | safe (g : Guard) (i : BitVec 12)
  /-- HALT (R183). -/
  | halt (g : Guard)
  /-- TRAP (R320). -/
  | trap (g : Guard) (i : BitVec 20)
  /-- VANY (R321). -/
  | vany (g : Guard) (q : BitVec 3) (ma : BitVec 3)
  /-- VALL (R321). -/
  | vall (g : Guard) (q : BitVec 3) (ma : BitVec 3)
  /-- WAITT (R322). -/
  | waitt (g : Guard) (a : BitVec 6)
  /-- WAITL (R322). -/
  | waitl (g : Guard) (a : BitVec 6)
  /-- PSEL (R323). -/
  | psel (g : Guard) (t : BitVec 8) (a : BitVec 6)
  /-- BRK (R320). -/
  | brk (g : Guard) (i : BitVec 20)
  /-- TRET (R262). -/
  | tret (g : Guard) (i : Bool)
  /-- PHASE (R384). -/
  | phase (g : Guard)
  /-- BAR (R385). -/
  | bar (g : Guard)
  /-- SEND (R381). -/
  | send (g : Guard) (ch : BitVec 5) (va : BitVec 8) (j : BitVec 2)
  /-- RECV (R381). -/
  | recv (g : Guard) (vd : BitVec 8) (ch : BitVec 5) (j : BitVec 2)
  /-- SENDS (R382). -/
  | sends (g : Guard) (ch : BitVec 5) (a : BitVec 6)
  /-- RECVS (R382). -/
  | recvs (g : Guard) (d : BitVec 6) (ch : BitVec 5)
  /-- BACQ (R388). -/
  | bacq (g : Guard) (m : BitVec 6)
  /-- BREL (R388). -/
  | brel (g : Guard) (m : BitVec 6)
  /-- PREC (R363). -/
  | precW (g : Guard) (d : BitVec 6) (a : BitVec 6) (b : BitVec 6)
  /-- PRECI (R364). -/
  | preci (g : Guard) (fs : PreciSel) (i : BitVec 20)
  /-- SHAPE (R365). -/
  | shape (g : Guard) (n : BitVec 2) (vec : Bool) (a : BitVec 6) (b : BitVec 6)
  /-- SHAPQ (R366). -/
  | shapq (g : Guard) (d : BitVec 6) (a : BitVec 6) (b : BitVec 6)
  /-- VIEW (R367). -/
  | view (g : Guard) (w : BitVec 5) (a : BitVec 6) (b : BitVec 6)
  /-- VIEWQ (R368). -/
  | viewq (g : Guard) (d : BitVec 6) (w : BitVec 4)
  /-- GETC (R392). -/
  | getc (g : Guard) (d : BitVec 6) (x : BitVec 8)
  /-- SETC (R394). -/
  | setc (g : Guard) (d : BitVec 6) (x : BitVec 8)
  /-- STAT (R389). -/
  | stat (g : Guard) (d : BitVec 6) (j : BitVec 2) (e : BitVec 4)
  /-- ENGY (R390). -/
  | engy (g : Guard) (d : BitVec 6)
  /-- GTC (R391). -/
  | gtc (g : Guard) (d : BitVec 6)
  /-- LCR (R391). -/
  | lcr (g : Guard) (d : BitVec 6) (a : BitVec 6)
  /-- FENCE (R386). -/
  | fence (g : Guard)
  /-- INVQ (R387). -/
  | invq (g : Guard)
  /-- SVC_YIELD (R395). -/
  | svcYield (g : Guard)
  /-- SVC_FLUSH (R395). -/
  | svcFlush (g : Guard)
  /-- CDSC (R370). -/
  | cdsc (g : Guard) (c : BitVec 4) (a : BitVec 6) (b : BitVec 6)
  /-- KZERO (R404). -/
  | kzero (g : Guard) (d : BitVec 6) (a : BitVec 6)
  /-- SCRB (R401). -/
  | scrb (g : Guard) (d : BitVec 6) (a : BitVec 6) (b : BitVec 6)
  /-- SCRQ (R402). -/
  | scrq (g : Guard) (d : BitVec 6) (a : BitVec 6) (b : BitVec 6)
  /-- FREL (R403). -/
  | frel (g : Guard) (d : BitVec 6) (a : BitVec 6) (b : BitVec 6)
  /-- PLWR (R405). -/
  | plwr (g : Guard) (d : BitVec 6) (a : BitVec 6) (b : BitVec 6)
  /-- BTWR (R406). -/
  | btwr (g : Guard) (d : BitVec 6) (a : BitVec 6) (b : BitVec 6)
  /-- QWRT (R407). -/
  | qwrt (g : Guard) (d : BitVec 6) (a : BitVec 6) (b : BitVec 6)
  /-- CUSTODIAN_RESULT (R397). -/
  | custodianResult (id : Nat)
  /-- MMA (R351). -/
  | mma (g : Guard) (sh : BitVec 2) (x : BitVec 3) (y : BitVec 3)
  /-- MMAZ (R351). -/
  | mmaz (g : Guard) (sh : BitVec 2) (x : BitVec 3) (y : BitVec 3)
  /-- MDRN (R355). -/
  | mdrn (g : Guard) (f : BitVec 2) (u : BitVec 2) (sh : BitVec 2) (add : Bool)
  /-- MCLR (R357). -/
  | mclr (g : Guard)
  /-- MSCL (R358). -/
  | mscl (g : Guard) (o : Bool) (x : BitVec 3)
  /-- MVCN (R359). -/
  | mvcn (g : Guard) (en : Bool) (i : BitVec 16)
  /-- MSTA (R360). -/
  | msta (g : Guard) (d : BitVec 6) (a : BitVec 6)
  /-- MMAT (R353). -/
  | mmat (g : Guard) (f : BitVec 2) (u : BitVec 2) (sh : BitVec 2) (x : BitVec 3) (y : BitVec 3)
  /-- MATRIX_CHECK (R237). -/
  | matrixCheck (t k : Nat) (block main check row col : Nat)
  /-- CPL (R372). -/
  | cpl (g : Guard) (rel : Bool) (u : BitVec 3) (c : BitVec 4)
  /-- CPI (R372). -/
  | cpi (g : Guard) (rel : Bool) (u : BitVec 3) (c : BitVec 4) (b : BitVec 6)
  /-- CPO (R372). -/
  | cpo (g : Guard) (rel : Bool) (u : BitVec 3) (c : BitVec 4) (b : BitVec 6)
  /-- CPDI (R372). -/
  | cpdi (g : Guard) (rel : Bool) (u : BitVec 3) (c : BitVec 4) (b : BitVec 6)
  /-- CPDO (R372). -/
  | cpdo (g : Guard) (rel : Bool) (u : BitVec 3) (c : BitVec 4) (b : BitVec 6)
  /-- CPS (R174). -/
  | cps (g : Guard) (rel : Bool) (u : BitVec 3) (c : BitVec 4) (b : BitVec 6)
  /-- CPG (R379). -/
  | cpg (g : Guard) (rel : Bool) (u : BitVec 3) (c : BitVec 4) (b : BitVec 6)
  /-- CPST (R372). -/
  | cpst (g : Guard) (rel : Bool) (u : BitVec 3) (c : BitVec 4) (b : BitVec 6)
  /-- CPB (R372). -/
  | cpb (g : Guard) (rel : Bool) (u : BitVec 3) (c : BitVec 4) (b : BitVec 6)
  /-- CPR (R380). -/
  | cpr (g : Guard) (rel : Bool) (u : BitVec 3) (c : BitVec 4) (b : BitVec 6)
  /-- COPY_COMPLETE (R373). -/
  | copyComplete (id : Nat)
  /-- VADD_VA (R330). -/
  | vaddVa (g : Guard) (d : BitVec 8) (a : VOp) (b : VOp)
  /-- VADD_VB (R330). -/
  | vaddVb (g : Guard) (d : BitVec 8) (a : VOp) (b : VOp)
  /-- VSUB_VA (R330). -/
  | vsubVa (g : Guard) (d : BitVec 8) (a : VOp) (b : VOp)
  /-- VSUB_VB (R330). -/
  | vsubVb (g : Guard) (d : BitVec 8) (a : VOp) (b : VOp)
  /-- VMUL_VA (R330). -/
  | vmulVa (g : Guard) (d : BitVec 8) (a : VOp) (b : VOp)
  /-- VMUL_VB (R330). -/
  | vmulVb (g : Guard) (d : BitVec 8) (a : VOp) (b : VOp)
  /-- VFMA_VA (R330). -/
  | vfmaVa (g : Guard) (d : BitVec 8) (a : VOp) (b : VOp)
  /-- VFMA_VB (R330). -/
  | vfmaVb (g : Guard) (d : BitVec 8) (a : VOp) (b : VOp)
  /-- VFMS_VA (R330). -/
  | vfmsVa (g : Guard) (d : BitVec 8) (a : VOp) (b : VOp)
  /-- VFMS_VB (R330). -/
  | vfmsVb (g : Guard) (d : BitVec 8) (a : VOp) (b : VOp)
  /-- VFNMA_VA (R330). -/
  | vfnmaVa (g : Guard) (d : BitVec 8) (a : VOp) (b : VOp)
  /-- VFNMA_VB (R330). -/
  | vfnmaVb (g : Guard) (d : BitVec 8) (a : VOp) (b : VOp)
  /-- VMIN_VA (R331). -/
  | vminVa (g : Guard) (d : BitVec 8) (a : VOp) (b : VOp)
  /-- VMIN_VB (R331). -/
  | vminVb (g : Guard) (d : BitVec 8) (a : VOp) (b : VOp)
  /-- VMAX_VA (R331). -/
  | vmaxVa (g : Guard) (d : BitVec 8) (a : VOp) (b : VOp)
  /-- VMAX_VB (R331). -/
  | vmaxVb (g : Guard) (d : BitVec 8) (a : VOp) (b : VOp)
  /-- VABS_VA (R331). -/
  | vabsVa (g : Guard) (d : BitVec 8) (a : VOp)
  /-- VABS_VB (R331). -/
  | vabsVb (g : Guard) (d : BitVec 8) (a : VOp)
  /-- VNEG_VA (R331). -/
  | vnegVa (g : Guard) (d : BitVec 8) (a : VOp)
  /-- VNEG_VB (R331). -/
  | vnegVb (g : Guard) (d : BitVec 8) (a : VOp)
  /-- VRCPE_VA (R333). -/
  | vrcpeVa (g : Guard) (d : BitVec 8) (a : VOp)
  /-- VRCPE_VB (R333). -/
  | vrcpeVb (g : Guard) (d : BitVec 8) (a : VOp)
  /-- VRSQE_VA (R334). -/
  | vrsqeVa (g : Guard) (d : BitVec 8) (a : VOp)
  /-- VRSQE_VB (R334). -/
  | vrsqeVb (g : Guard) (d : BitVec 8) (a : VOp)
  /-- VDIV (R330). -/
  | vdiv (g : Guard) (d : BitVec 8) (a : VOp) (b : VOp)
  /-- VSQRT (R330). -/
  | vsqrt (g : Guard) (d : BitVec 8) (a : VOp)
  /-- VEXP2 (R332). -/
  | vexp2 (g : Guard) (d : BitVec 8) (a : VOp)
  /-- VLOG2 (R332). -/
  | vlog2 (g : Guard) (d : BitVec 8) (a : VOp)
  /-- VIADD_VA (R335). -/
  | viaddVa (g : Guard) (d : BitVec 8) (a : VOp) (b : VOp)
  /-- VIADD_VB (R335). -/
  | viaddVb (g : Guard) (d : BitVec 8) (a : VOp) (b : VOp)
  /-- VISUB_VA (R335). -/
  | visubVa (g : Guard) (d : BitVec 8) (a : VOp) (b : VOp)
  /-- VISUB_VB (R335). -/
  | visubVb (g : Guard) (d : BitVec 8) (a : VOp) (b : VOp)
  /-- VIMUL_VA (R335). -/
  | vimulVa (g : Guard) (d : BitVec 8) (a : VOp) (b : VOp)
  /-- VIMUL_VB (R335). -/
  | vimulVb (g : Guard) (d : BitVec 8) (a : VOp) (b : VOp)
  /-- VIMAC_VA (R335). -/
  | vimacVa (g : Guard) (d : BitVec 8) (a : VOp) (b : VOp)
  /-- VIMAC_VB (R335). -/
  | vimacVb (g : Guard) (d : BitVec 8) (a : VOp) (b : VOp)
  /-- VAND_VA (R335). -/
  | vandVa (g : Guard) (d : BitVec 8) (a : VOp) (b : VOp)
  /-- VAND_VB (R335). -/
  | vandVb (g : Guard) (d : BitVec 8) (a : VOp) (b : VOp)
  /-- VOR_VA (R335). -/
  | vorVa (g : Guard) (d : BitVec 8) (a : VOp) (b : VOp)
  /-- VOR_VB (R335). -/
  | vorVb (g : Guard) (d : BitVec 8) (a : VOp) (b : VOp)
  /-- VXOR_VA (R335). -/
  | vxorVa (g : Guard) (d : BitVec 8) (a : VOp) (b : VOp)
  /-- VXOR_VB (R335). -/
  | vxorVb (g : Guard) (d : BitVec 8) (a : VOp) (b : VOp)
  /-- VSHL_VA (R336). -/
  | vshlVa (g : Guard) (d : BitVec 8) (a : VOp) (b : VOp)
  /-- VSHL_VB (R336). -/
  | vshlVb (g : Guard) (d : BitVec 8) (a : VOp) (b : VOp)
  /-- VSHR_VA (R336). -/
  | vshrVa (g : Guard) (d : BitVec 8) (a : VOp) (b : VOp)
  /-- VSHR_VB (R336). -/
  | vshrVb (g : Guard) (d : BitVec 8) (a : VOp) (b : VOp)
  /-- VSHRA_VA (R336). -/
  | vshraVa (g : Guard) (d : BitVec 8) (a : VOp) (b : VOp)
  /-- VSHRA_VB (R336). -/
  | vshraVb (g : Guard) (d : BitVec 8) (a : VOp) (b : VOp)
  /-- VFCEQ_VA (R337). -/
  | vfceqVa (g : Guard) (m : BitVec 3) (a : VOp) (b : VOp)
  /-- VFCEQ_VB (R337). -/
  | vfceqVb (g : Guard) (m : BitVec 3) (a : VOp) (b : VOp)
  /-- VFCLT_VA (R337). -/
  | vfcltVa (g : Guard) (m : BitVec 3) (a : VOp) (b : VOp)
  /-- VFCLT_VB (R337). -/
  | vfcltVb (g : Guard) (m : BitVec 3) (a : VOp) (b : VOp)
  /-- VFCLE_VA (R337). -/
  | vfcleVa (g : Guard) (m : BitVec 3) (a : VOp) (b : VOp)
  /-- VFCLE_VB (R337). -/
  | vfcleVb (g : Guard) (m : BitVec 3) (a : VOp) (b : VOp)
  /-- VICEQ_VA (R337). -/
  | viceqVa (g : Guard) (m : BitVec 3) (a : VOp) (b : VOp)
  /-- VICEQ_VB (R337). -/
  | viceqVb (g : Guard) (m : BitVec 3) (a : VOp) (b : VOp)
  /-- VICLT_VA (R337). -/
  | vicltVa (g : Guard) (m : BitVec 3) (a : VOp) (b : VOp)
  /-- VICLT_VB (R337). -/
  | vicltVb (g : Guard) (m : BitVec 3) (a : VOp) (b : VOp)
  /-- VICLE_VA (R337). -/
  | vicleVa (g : Guard) (m : BitVec 3) (a : VOp) (b : VOp)
  /-- VICLE_VB (R337). -/
  | vicleVb (g : Guard) (m : BitVec 3) (a : VOp) (b : VOp)
  /-- VSEL_VA (R337). -/
  | vselVa (g : Guard) (d : BitVec 8) (a : VOp) (b : VOp)
  /-- VSEL_VB (R337). -/
  | vselVb (g : Guard) (d : BitVec 8) (a : VOp) (b : VOp)
  /-- VMOV_VA (R339). -/
  | vmovVa (g : Guard) (d : BitVec 8) (a : VOp)
  /-- VMOV_VB (R339). -/
  | vmovVb (g : Guard) (d : BitVec 8) (a : VOp)
  /-- VBCST_VA (R339). -/
  | vbcstVa (g : Guard) (d : BitVec 8) (a : BitVec 6)
  /-- VBCST_VB (R339). -/
  | vbcstVb (g : Guard) (d : BitVec 8) (a : BitVec 6)
  /-- VLANE_VA (R339). -/
  | vlaneVa (g : Guard) (d : BitVec 6) (a : BitVec 6) (i : BitVec 14)
  /-- VLANE_VB (R339). -/
  | vlaneVb (g : Guard) (d : BitVec 6) (a : BitVec 6) (i : BitVec 14)
  /-- VEXT_VA (R339). -/
  | vextVa (g : Guard) (d : BitVec 6) (a : BitVec 6) (i : BitVec 14)
  /-- VEXT_VB (R339). -/
  | vextVb (g : Guard) (d : BitVec 6) (a : BitVec 6) (i : BitVec 14)
  /-- VCVT_VA (R342). -/
  | vcvtVa (g : Guard) (d : BitVec 6) (a : BitVec 6) (dst : BitVec 3) (src : BitVec 3) (part : BitVec 2) (sat : Bool)
  /-- VCVT_VB (R342). -/
  | vcvtVb (g : Guard) (d : BitVec 6) (a : BitVec 6) (dst : BitVec 3) (src : BitVec 3) (part : BitVec 2) (sat : Bool)
  /-- VPACK_VA (R344). -/
  | vpackVa (g : Guard) (d : BitVec 6) (a : BitVec 6) (f : BitVec 3) (y : BitVec 2) (x : Bool)
  /-- VPACK_VB (R344). -/
  | vpackVb (g : Guard) (d : BitVec 6) (a : BitVec 6) (f : BitVec 3) (y : BitVec 2) (x : Bool)
  /-- VUNPK_VA (R345). -/
  | vunpkVa (g : Guard) (d : BitVec 6) (a : BitVec 6) (f : BitVec 3) (y : BitVec 2)
  /-- VUNPK_VB (R345). -/
  | vunpkVb (g : Guard) (d : BitVec 6) (a : BitVec 6) (f : BitVec 3) (y : BitVec 2)
  /-- VPERM (R340). -/
  | vperm (g : Guard) (d : BitVec 8) (a : VOp) (b : VOp)
  /-- VROTL_VA (R340). -/
  | vrotlVa (g : Guard) (d : BitVec 6) (a : BitVec 6) (i : BitVec 14)
  /-- VROTL_VB (R340). -/
  | vrotlVb (g : Guard) (d : BitVec 6) (a : BitVec 6) (i : BitVec 14)
  /-- VRSUM (R341). -/
  | vrsum (g : Guard) (d : BitVec 8) (a : VOp)
  /-- VRMAX (R341). -/
  | vrmax (g : Guard) (d : BitVec 8) (a : VOp)
  /-- VLDX_VA (R346). -/
  | vldxVa (g : Guard) (d : BitVec 6) (a : BitVec 6) (i : Imm14)
  /-- VLDX_VB (R346). -/
  | vldxVb (g : Guard) (d : BitVec 6) (a : BitVec 6) (i : Imm14)
  /-- VSTX_VA (R346). -/
  | vstxVa (g : Guard) (d : BitVec 6) (a : BitVec 6) (i : Imm14)
  /-- VSTX_VB (R346). -/
  | vstxVb (g : Guard) (d : BitVec 6) (a : BitVec 6) (i : Imm14)
  /-- VTRD_VA (R347). -/
  | vtrdVa (g : Guard) (d : BitVec 6) (t : BitVec 3) (a : BitVec 6) (r : BitVec 8)
  /-- VTRD_VB (R347). -/
  | vtrdVb (g : Guard) (d : BitVec 6) (t : BitVec 3) (a : BitVec 6) (r : BitVec 8)
  /-- VTCD (R348). -/
  | vtcd (g : Guard) (d : BitVec 6) (t : BitVec 3) (a : BitVec 6)
  /-- VTRW_VA (R347). -/
  | vtrwVa (g : Guard) (d : BitVec 6) (t : BitVec 3) (a : BitVec 6) (r : BitVec 8)
  /-- VTRW_VB (R347). -/
  | vtrwVb (g : Guard) (d : BitVec 6) (t : BitVec 3) (a : BitVec 6) (r : BitVec 8)
  /-- VTCW (R348). -/
  | vtcw (g : Guard) (d : BitVec 6) (t : BitVec 3) (a : BitVec 6)
  /-- VMSK_VA (R338). -/
  | vmskVa (g : Guard) (m : BitVec 3) (ma : BitVec 3) (mb : BitVec 3) (o : BitVec 3)
  /-- VMSK_VB (R338). -/
  | vmskVb (g : Guard) (m : BitVec 3) (ma : BitVec 3) (mb : BitVec 3) (o : BitVec 3)
  /-- VIOTA_VA (R338). -/
  | viotaVa (g : Guard) (d : BitVec 8) (a : BitVec 6) (b : BitVec 6)
  /-- VIOTA_VB (R338). -/
  | viotaVb (g : Guard) (d : BitVec 8) (a : BitVec 6) (b : BitVec 6)
  /-- RESULT_LANDING (R167). -/
  | resultLanding (t : Nat)
  /-- ENDPOINT_REPLY (R169). -/
  | endpointReply (id : Nat)
  /-- PHASE_COMPLETE (R177). -/
  | phaseComplete (t : Nat)
  /-- BAR_COMPLETE (R385). -/
  | barComplete (t : Nat)
  /-- WAITT_RELEASE (R76). -/
  | waittRelease (t k : Nat)
  /-- BANK_CLEARED (R183). -/
  | bankCleared (t k bank : Nat)
  /-- STALL_TIMEOUT (R175). -/
  | stallTimeout (t : Nat)
  /-- SAFE_BOUND_OVERRUN (R188). -/
  | safeBoundOverrun (t : Nat)
  /-- HLP_RRD (R80). -/
  | hlpRrd (x : Hlp)
  /-- REGISTER_WRITE (R5). -/
  | registerWrite (x : Hlp)
  /-- HLP_MRD (R82). -/
  | hlpMrd (x : Hlp)
  /-- HLP_MWR (R82). -/
  | hlpMwr (x : Hlp)
  /-- HLP_CPLD (R80). -/
  | hlpCpld (x : Hlp)
  /-- HLP_CPL (R80). -/
  | hlpCpl (x : Hlp)
  /-- HOST_READ_TIMEOUT (R83). -/
  | hostReadTimeout (tag : Nat)
  /-- MODULE_DISABLED (R78). -/
  | moduleDisabled (m : Nat)
  /-- PCREATE (R89). -/
  | pcreate
  /-- PDESTROY (R89). -/
  | pdestroy
  /-- COLASSIGN (R89). -/
  | colassign
  /-- DSMASSIGN (R89). -/
  | dsmassign
  /-- DSM_BANK_CLEAR_DONE (R89). -/
  | dsmBankClearDone
  /-- POOLADD (R89). -/
  | pooladd
  /-- POOLREM (R89). -/
  | poolrem
  /-- UASHARE (R89). -/
  | uashare
  /-- VCREATE (R90). -/
  | vcreate
  /-- VRESET (R92). -/
  | vreset
  /-- VRESET_COMPLETE (R92). -/
  | vresetComplete (v : Nat)
  /-- VDESTROY (R89). -/
  | vdestroy
  /-- CREDIT (R93). -/
  | credit
  /-- KEYLOAD (R106). -/
  | keyload
  /-- ATTEST (R105). -/
  | attest
  /-- IDCERT (R89). -/
  | idcert
  /-- DEVICE_RESET (R86). -/
  | deviceReset
  /-- SIDEBAND_RESET (R86). -/
  | sidebandReset
  /-- FIRMWARE_VERIFY (R103). -/
  | firmwareVerify (image : List (BitVec 8))
  /-- PACKAGE_POWER_ON (R39). -/
  | packagePowerOn (stk : BitVec 32) (mods : BitVec 4)
  /-- BINNING_COMPLETE (R39). -/
  | binningComplete (rows : List BinnedRow)
  /-- PLIM_WRITE (R18). -/
  | plimWrite (w : BitVec 64)
  /-- LTOL_WRITE (R21). -/
  | ltolWrite (p : Nat) (w : BitVec 64)
  /-- SCRUBCTL_WRITE (R51). -/
  | scrubctlWrite (n : Nat) (w : BitVec 64)
  /-- UARCTX_WRITE (R71). -/
  | uarctxWrite (port j : Nat) (w : BitVec 64)
  /-- GTCINC_WRITE (R73). -/
  | gtcincWrite (w : BitVec 64)
  /-- GTCADJ_WRITE (R74). -/
  | gtcadjWrite (w : BitVec 64)
  /-- GTCSET_WRITE (R73). -/
  | gtcsetWrite (w : BitVec 64)
  /-- GTC_SLEW_DONE (R74). -/
  | gtcSlewDone
  /-- GTC_HOLDOVER (R73). -/
  | gtcHoldover
  /-- LOUPE_ARM (R87). -/
  | loupeArm (w : BitVec 64)
  /-- TAMPCTL_WRITE (R108). -/
  | tampctlWrite (w : BitVec 64)
  /-- VFSTAT_DEG_WRITE (R94). -/
  | vfstatDegWrite (v : Nat) (w : BitVec 64)
  /-- GSUB (R95). -/
  | gsub (v : Nat) (w : BitVec 64)
  /-- GCAN (R96). -/
  | gcan (v : Nat) (w : BitVec 64)
  /-- EQCTL_WRITE (R94). -/
  | eqctlWrite (v : Nat) (w : BitVec 64)
  /-- EQHEAD_WRITE (R97). -/
  | eqheadWrite (v : Nat) (w : BitVec 64)
  /-- EVENT_RECORD_WRITE (R97). -/
  | eventRecordWrite (v : Nat)
  /-- EQ_INTERRUPT_TIMER (R100). -/
  | eqInterruptTimer (v : Nat)
  /-- ARBITER_EPOCH (R12). -/
  | arbiterEpoch
  /-- FAST_LIMITER (R15). -/
  | fastLimiter (die : Nat)
  /-- SENSOR_UPDATE (R24). -/
  | sensorUpdate (dieT stkT : List (BitVec 16))
  /-- SUPPLY_EXCURSION (R24). -/
  | supplyExcursion
  /-- MESH_BREAK (R109). -/
  | meshBreak
  /-- POWER_STATE_ENTRY (R22). -/
  | powerStateEntry (e : Element)
  /-- WAKE_COMPLETE (R23). -/
  | wakeComplete (e : Element)
  /-- PORT_ADMIT (R44). -/
  | portAdmit (n : Nat)
  /-- ROW_REFRESH (R38). -/
  | rowRefresh (n bank row : Nat)
  /-- ACTIVATION_WINDOW (R45). -/
  | activationWindow
  /-- PATROL_SCRUB_STEP (R43). -/
  | patrolScrubStep (n : Nat)
  /-- HOT_SCRUB_STEP (R42). -/
  | hotScrubStep (n : Nat) (row : Nat)
  /-- PATROL_PERIOD_END (R41). -/
  | patrolPeriodEnd (n : Nat)
  /-- RETIREMENT_COPY_DONE (R41). -/
  | retirementCopyDone (n frame : Nat)
  /-- LEASE_INCREMENT (R126). -/
  | leaseIncrement (node : Nat) (n : Nat)
  /-- LEASE_REPLY (R126). -/
  | leaseReply (node : Nat) (n : Nat)
  /-- LEASE_RELEASE (R126). -/
  | leaseRelease (node : Nat) (n : Nat)
  /-- PULL_READ_REPLY (R128). -/
  | pullReadReply (id : Nat) (ok : Bool) (data : List (BitVec 8))
  /-- PULL_TIMEOUT (R128). -/
  | pullTimeout (id : Nat)
  /-- REMOTE_REQUEST (R52). -/
  | remoteRequest (x : RemoteReq)
  /-- INVALIDATION_DONE (R124). -/
  | invalidationDone (id : Nat)
  /-- INVALIDATION_TIMEOUT (R124). -/
  | invalidationTimeout (id : Nat)
  /-- POLISHER_CLEAR_BLOCK (R400). -/
  | polisherClearBlock (n : Nat)
  /-- LINK_TRAINING (R60). -/
  | linkTraining (port width rtt : Nat)
  /-- LANE_LOSS (R53). -/
  | laneLoss (port width rtt : Nat)
  /-- LINK_REPLAY (R64). -/
  | linkReplay (port : Nat) (hold : Bool)
  /-- SKID_SEND (R62). -/
  | skidSend (port : Nat)
  /-- MESSAGE_LANDING (R56). -/
  | messageLanding (x : Msg)
  /-- CREDIT_RETURN (R63). -/
  | creditReturn (t ch : Nat)
  /-- COLLECTIVE_START (R66). -/
  | collectiveStart (cid : Nat)
  /-- REDUCTION_CONTRIBUTION (R67). -/
  | reductionContribution (w : TreePort) (member group : Nat) (elems : List (BitVec 64)) (residue : Nat)
  /-- COLLECTIVE_COMPLETE (R69). -/
  | collectiveComplete (cid : Nat)
  /-- GRAPH_PARSE (R135). -/
  | graphParse (v : Nat)
  /-- SELECTION_ROUND (R149). -/
  | selectionRound (die : Nat)
  /-- GANG_TOKEN (R148). -/
  | gangToken
  /-- PRIORITY_PREEMPTION (R152). -/
  | priorityPreemption (die : Nat)
  /-- DISPATCH (R138). -/
  | dispatch (node : Nat)
  /-- SAVE_COMPLETE (R153). -/
  | saveComplete (node : Nat)
  /-- CONTEXT_RESTORE (R267). -/
  | contextRestore (node : Nat)
  /-- PHASE_RESTART (R179). -/
  | phaseRestart (node : Nat)
  /-- NODE_RETIRE (R138). -/
  | nodeRetire (node : Nat)
  /-- JOB_CARD_START (R133). -/
  | jobCardStart (node : Nat)
  /-- JOB_CARD_COMPLETE (R154). -/
  | jobCardComplete (node : Nat)
  /-- CARAT_FLUSH (R156). -/
  | caratFlush
  /-- PREEMPTION_REQUEST_ARRIVAL (R187). -/
  | preemptionRequestArrival (t : Nat) (kind : PreemptKind)
  /-- DSM_BANK_REQUEST (R117). -/
  | dsmBankRequest (die bank : Nat)
  /-- RANGE_REGISTER_FILL (R115). -/
  | rangeRegisterFill (t k : Nat)
  deriving DecidableEq, Repr

end Sys2Proof
end

