-- ==== Sys2Proof/WellFormed.lean ====
section
/-!
DEFINITION. Which instruction terms the encoding admits: the reserved-bit checks of R284 (SUB 0x01) that the
widths of the fields leave open.
-/

namespace Sys2Proof

/-- Without a header an RRI6 immediate has 6 bits (R278). -/
def Imm14.ok (i : Imm14) : Bool := i.hdr || i.v.extractLsb' 6 8 == 0#8

/-- Without a header an RI12 immediate has 12 bits (R278). -/
def Imm20.ok (i : Imm20) : Bool := i.hdr || i.v.extractLsb' 12 8 == 0#8

/-- The immediate bits of PRECI that must be zero, by selector (R364). -/
def PreciSel.fits (s : PreciSel) (i : BitVec 20) : Bool :=
  match s with
  | .mat => i.extractLsb' 12 8 == 0#8
  | .acc => i.extractLsb' 1 19 == 0#19
  | .vec => i.extractLsb' 6 14 == 0#14
  | .all => i.extractLsb' 19 1 == 0#1

/-- Width in bits of a VCVT format code (R342). -/
def cvtWidth (c : BitVec 3) : Nat :=
  match c.toNat with
  | 0 | 5 => 32
  | 1 | 2 | 6 => 16
  | _ => 8

/-- VCVT's reserved combinations (R342): P must be below the width ratio, and sat needs an 8-bit FP result. -/
def cvtOk (dst src : BitVec 3) (part : BitVec 2) (sat : Bool) : Bool :=
  let ws := cvtWidth src
  let wd := cvtWidth dst
  (part.toNat < max ws wd / min ws wd) && (!sat || dst == 3#3 || dst == 4#3)

/-- The formats of VPACK and VUNPK (R344, R345). -/
def packFmt (f : BitVec 3) : Bool := f == 3#3 || f == 4#3 || f == 7#3


/-- The static checks of R284 that the fields' widths do not already make.  Event rows have no encoding and are always well formed. -/
def Instr.wf : Instr → Bool
  | .nop _ => true
  | .illegal _ _ _ _ => true
  | .add _ _ _ _ => true
  | .sub _ _ _ _ => true
  | .addi _ _ _ i => i.ok
  | .lih _ _ i => i.ok
  | .mul _ _ _ _ => true
  | .mulh _ _ _ _ => true
  | .mulhn _ _ _ _ => true
  | .div _ _ _ _ => true
  | .divn _ _ _ _ => true
  | .rem _ _ _ _ => true
  | .remn _ _ _ _ => true
  | .andS _ _ _ _ => true
  | .orS _ _ _ _ => true
  | .xorS _ _ _ _ => true
  | .andi _ _ _ i => i.ok
  | .ori _ _ _ i => i.ok
  | .xori _ _ _ i => i.ok
  | .shl _ _ _ _ => true
  | .shr _ _ _ _ => true
  | .shra _ _ _ _ => true
  | .shli _ _ _ _ => true
  | .shri _ _ _ _ => true
  | .shrai _ _ _ _ => true
  | .rotr _ _ _ _ => true
  | .clz _ _ _ => true
  | .popc _ _ _ => true
  | .minS _ _ _ _ => true
  | .maxS _ _ _ _ => true
  | .minn _ _ _ _ => true
  | .maxn _ _ _ _ => true
  | .sel _ _ _ _ => true
  | .ceq _ _ _ _ => true
  | .cne _ _ _ _ => true
  | .clt _ _ _ _ => true
  | .cle _ _ _ _ => true
  | .cltn _ _ _ _ => true
  | .clen _ _ _ _ => true
  | .ceqi _ _ _ i => i.ok
  | .clti _ _ _ i => i.ok
  | .badr _ _ _ _ => true
  | .boff _ _ _ i => i.ok
  | .ldb _ _ _ i => i.ok
  | .ldh _ _ _ i => i.ok
  | .ldw _ _ _ i => i.ok
  | .ldd _ _ _ i => i.ok
  | .stb _ _ _ i => i.ok
  | .sth _ _ _ i => i.ok
  | .stw _ _ _ i => i.ok
  | .std _ _ _ i => i.ok
  | .ldl _ _ _ i => i.ok
  | .stl _ _ _ i => i.ok
  | .aadd _ _ _ _ => true
  | .amin _ _ _ _ => true
  | .amax _ _ _ _ => true
  | .aor _ _ _ _ => true
  | .axch _ _ _ _ => true
  | .acas _ _ _ _ => true
  | .qmov _ _ _ => true
  | .movq _ _ => true
  | .qlog _ _ _ _ _ => true
  | .pbr _ _ i => i.ok
  | .pbrr _ _ _ => true
  | .br _ _ => true
  | .brc _ _ _ => true
  | .call _ _ => true
  | .ret _ => true
  | .loop _ l _ _ => l.toNat ≤ 5
  | .loopi _ l _ _ => l.toNat ≤ 5
  | .lstr _ l _ i => i.ok && l.toNat ≤ 5
  | .lidx _ _ l => l.toNat ≤ 5
  | .lbrk _ l => l.toNat ≤ 5
  | .spawn _ _ _ _ => true
  | .joinK _ _ => true
  | .safe _ _ => true
  | .halt _ => true
  | .trap _ _ => true
  | .vany _ _ _ => true
  | .vall _ _ _ => true
  | .waitt _ _ => true
  | .waitl _ _ => true
  | .psel _ _ _ => true
  | .brk _ _ => true
  | .tret _ _ => true
  | .phase _ => true
  | .bar _ => true
  | .send _ _ _ _ => true
  | .recv _ _ _ _ => true
  | .sends _ _ _ => true
  | .recvs _ _ _ => true
  | .bacq _ _ => true
  | .brel _ _ => true
  | .precW _ _ _ _ => true
  | .preci _ fs i => fs.fits i
  | .shape _ _ vec _ b => !vec || b == 0#6
  | .shapq _ _ _ _ => true
  | .view _ w _ _ => w.toNat ≤ 12
  | .viewq _ _ w => w.toNat ≤ 11
  | .getc _ _ _ => true
  | .setc _ _ _ => true
  | .stat _ _ _ _ => true
  | .engy _ _ => true
  | .gtc _ _ => true
  | .lcr _ _ _ => true
  | .fence _ => true
  | .invq _ => true
  | .svcYield _ => true
  | .svcFlush _ => true
  | .cdsc _ _ _ _ => true
  | .kzero _ _ _ => true
  | .scrb _ _ _ _ => true
  | .scrq _ _ _ _ => true
  | .frel _ _ _ _ => true
  | .plwr _ _ _ _ => true
  | .btwr _ _ _ _ => true
  | .qwrt _ _ _ _ => true
  | .custodianResult _ => true
  | .mma _ sh _ _ => sh != 3#2
  | .mmaz _ sh _ _ => sh != 3#2
  | .mdrn _ f _ sh _ => sh != 3#2 && f != 3#2
  | .mclr _ => true
  | .mscl _ _ _ => true
  | .mvcn _ _ _ => true
  | .msta _ _ _ => true
  | .mmat _ f _ sh _ _ => sh != 3#2 && f != 3#2
  | .matrixCheck _ _ _ _ _ _ _ => true
  | .cpl _ _ _ _ => true
  | .cpi _ _ _ _ _ => true
  | .cpo _ _ _ _ _ => true
  | .cpdi _ _ _ c _ => c.getLsbD 0 == false
  | .cpdo _ _ _ _ _ => true
  | .cps _ _ _ _ _ => true
  | .cpg _ _ _ _ _ => true
  | .cpst _ _ _ _ _ => true
  | .cpb _ _ _ _ _ => true
  | .cpr _ _ _ _ _ => true
  | .copyComplete _ => true
  | .vaddVa _ _ _ _ => true
  | .vaddVb _ _ _ _ => true
  | .vsubVa _ _ _ _ => true
  | .vsubVb _ _ _ _ => true
  | .vmulVa _ _ _ _ => true
  | .vmulVb _ _ _ _ => true
  | .vfmaVa _ _ _ _ => true
  | .vfmaVb _ _ _ _ => true
  | .vfmsVa _ _ _ _ => true
  | .vfmsVb _ _ _ _ => true
  | .vfnmaVa _ _ _ _ => true
  | .vfnmaVb _ _ _ _ => true
  | .vminVa _ _ _ _ => true
  | .vminVb _ _ _ _ => true
  | .vmaxVa _ _ _ _ => true
  | .vmaxVb _ _ _ _ => true
  | .vabsVa _ _ _ => true
  | .vabsVb _ _ _ => true
  | .vnegVa _ _ _ => true
  | .vnegVb _ _ _ => true
  | .vrcpeVa _ _ _ => true
  | .vrcpeVb _ _ _ => true
  | .vrsqeVa _ _ _ => true
  | .vrsqeVb _ _ _ => true
  | .vdiv _ _ _ _ => true
  | .vsqrt _ _ _ => true
  | .vexp2 _ _ _ => true
  | .vlog2 _ _ _ => true
  | .viaddVa _ _ _ _ => true
  | .viaddVb _ _ _ _ => true
  | .visubVa _ _ _ _ => true
  | .visubVb _ _ _ _ => true
  | .vimulVa _ _ _ _ => true
  | .vimulVb _ _ _ _ => true
  | .vimacVa _ _ _ _ => true
  | .vimacVb _ _ _ _ => true
  | .vandVa _ _ _ _ => true
  | .vandVb _ _ _ _ => true
  | .vorVa _ _ _ _ => true
  | .vorVb _ _ _ _ => true
  | .vxorVa _ _ _ _ => true
  | .vxorVb _ _ _ _ => true
  | .vshlVa _ _ _ _ => true
  | .vshlVb _ _ _ _ => true
  | .vshrVa _ _ _ _ => true
  | .vshrVb _ _ _ _ => true
  | .vshraVa _ _ _ _ => true
  | .vshraVb _ _ _ _ => true
  | .vfceqVa _ _ _ _ => true
  | .vfceqVb _ _ _ _ => true
  | .vfcltVa _ _ _ _ => true
  | .vfcltVb _ _ _ _ => true
  | .vfcleVa _ _ _ _ => true
  | .vfcleVb _ _ _ _ => true
  | .viceqVa _ _ _ _ => true
  | .viceqVb _ _ _ _ => true
  | .vicltVa _ _ _ _ => true
  | .vicltVb _ _ _ _ => true
  | .vicleVa _ _ _ _ => true
  | .vicleVb _ _ _ _ => true
  | .vselVa _ _ _ _ => true
  | .vselVb _ _ _ _ => true
  | .vmovVa _ _ _ => true
  | .vmovVb _ _ _ => true
  | .vbcstVa _ _ _ => true
  | .vbcstVb _ _ _ => true
  | .vlaneVa _ _ _ _ => true
  | .vlaneVb _ _ _ _ => true
  | .vextVa _ _ _ _ => true
  | .vextVb _ _ _ _ => true
  | .vcvtVa _ _ _ dst src part sat => cvtOk dst src part sat
  | .vcvtVb _ _ _ dst src part sat => cvtOk dst src part sat
  | .vpackVa _ _ _ f _ _ => packFmt f
  | .vpackVb _ _ _ f _ _ => packFmt f
  | .vunpkVa _ _ _ f _ => packFmt f
  | .vunpkVb _ _ _ f _ => packFmt f
  | .vperm _ _ _ _ => true
  | .vrotlVa _ _ _ _ => true
  | .vrotlVb _ _ _ _ => true
  | .vrsum _ _ _ => true
  | .vrmax _ _ _ => true
  | .vldxVa _ _ _ i => i.ok
  | .vldxVb _ _ _ i => i.ok
  | .vstxVa _ _ _ i => i.ok
  | .vstxVb _ _ _ i => i.ok
  | .vtrdVa _ _ _ _ _ => true
  | .vtrdVb _ _ _ _ _ => true
  | .vtcd _ _ _ _ => true
  | .vtrwVa _ _ _ _ _ => true
  | .vtrwVb _ _ _ _ _ => true
  | .vtcw _ _ _ _ => true
  | .vmskVa _ _ _ _ _ => true
  | .vmskVb _ _ _ _ _ => true
  | .viotaVa _ _ _ _ => true
  | .viotaVb _ _ _ _ => true
  | .resultLanding _ => true
  | .endpointReply _ => true
  | .phaseComplete _ => true
  | .barComplete _ => true
  | .waittRelease _ _ => true
  | .bankCleared _ _ _ => true
  | .stallTimeout _ => true
  | .safeBoundOverrun _ => true
  | .hlpRrd _ => true
  | .registerWrite _ => true
  | .hlpMrd _ => true
  | .hlpMwr _ => true
  | .hlpCpld _ => true
  | .hlpCpl _ => true
  | .hostReadTimeout _ => true
  | .moduleDisabled _ => true
  | .pcreate => true
  | .pdestroy => true
  | .colassign => true
  | .dsmassign => true
  | .dsmBankClearDone => true
  | .pooladd => true
  | .poolrem => true
  | .uashare => true
  | .vcreate => true
  | .vreset => true
  | .vresetComplete _ => true
  | .vdestroy => true
  | .credit => true
  | .keyload => true
  | .attest => true
  | .idcert => true
  | .deviceReset => true
  | .sidebandReset => true
  | .firmwareVerify _ => true
  | .packagePowerOn _ _ => true
  | .binningComplete _ => true
  | .plimWrite _ => true
  | .ltolWrite _ _ => true
  | .scrubctlWrite _ _ => true
  | .uarctxWrite _ _ _ => true
  | .gtcincWrite _ => true
  | .gtcadjWrite _ => true
  | .gtcsetWrite _ => true
  | .gtcSlewDone => true
  | .gtcHoldover => true
  | .loupeArm _ => true
  | .tampctlWrite _ => true
  | .vfstatDegWrite _ _ => true
  | .gsub _ _ => true
  | .gcan _ _ => true
  | .eqctlWrite _ _ => true
  | .eqheadWrite _ _ => true
  | .eventRecordWrite _ => true
  | .eqInterruptTimer _ => true
  | .arbiterEpoch => true
  | .fastLimiter _ => true
  | .sensorUpdate _ _ => true
  | .supplyExcursion => true
  | .meshBreak => true
  | .powerStateEntry _ => true
  | .wakeComplete _ => true
  | .portAdmit _ => true
  | .rowRefresh _ _ _ => true
  | .activationWindow => true
  | .patrolScrubStep _ => true
  | .hotScrubStep _ _ => true
  | .patrolPeriodEnd _ => true
  | .retirementCopyDone _ _ => true
  | .leaseIncrement _ _ => true
  | .leaseReply _ _ => true
  | .leaseRelease _ _ => true
  | .pullReadReply _ _ _ => true
  | .pullTimeout _ => true
  | .remoteRequest _ => true
  | .invalidationDone _ => true
  | .invalidationTimeout _ => true
  | .polisherClearBlock _ => true
  | .linkTraining _ _ _ => true
  | .laneLoss _ _ _ => true
  | .linkReplay _ _ => true
  | .skidSend _ => true
  | .messageLanding _ => true
  | .creditReturn _ _ => true
  | .collectiveStart _ => true
  | .reductionContribution _ _ _ _ _ => true
  | .collectiveComplete _ => true
  | .graphParse _ => true
  | .selectionRound _ => true
  | .gangToken => true
  | .priorityPreemption _ => true
  | .dispatch _ => true
  | .saveComplete _ => true
  | .contextRestore _ => true
  | .phaseRestart _ => true
  | .nodeRetire _ => true
  | .jobCardStart _ => true
  | .jobCardComplete _ => true
  | .caratFlush => true
  | .preemptionRequestArrival _ _ => true
  | .dsmBankRequest _ _ => true
  | .rangeRegisterFill _ _ => true

end Sys2Proof
end

