-- ==== Sys2Proof/Decode.lean ====
section
/-!
DEFINITION. The decoder, total on every 32-bit slot word and extension byte, and the encoder written from the
same tables (R272 to R278, R285 and the encodings of chapters 13 to 17).
-/

namespace Sys2Proof

/-- Why a slot word is no operation.  The constructors are the static subcauses of R256, CAUSE 0x01. -/
inductive DecodeError where
  /-- A non-zero reserved bit or a reserved operand value (SUB 0x01). -/
  | reserved
  /-- C = 111 outside slot 0 (SUB 0x02). -/
  | headerSlot
  /-- A reserved opcode (SUB 0x06). -/
  | unknownOp
  /-- Extension bits on a field that takes none (SUB 0x07). -/
  | extension
  /-- A class-001-only opcode in class 010 (SUB 0x10). -/
  | vaOnly
  deriving DecidableEq, Repr

/-- The SUB of R256 for a decoding error. -/
def DecodeError.sub : DecodeError → Nat
  | .reserved => 0x01
  | .headerSlot => 0x02
  | .unknownOp => 0x06
  | .extension => 0x07
  | .vaOnly => 0x10

/-- A slot word cut into its fields (R272, R276), with the extension byte its bundle's header gives it (R278),
`none` where the bundle has no header. -/
structure Fields where
  guard : Guard
  cls   : BitVec 3
  op    : BitVec 6
  d     : BitVec 6
  a     : BitVec 6
  b     : BitVec 6
  ext   : Option Byte
  deriving DecidableEq, Repr

/-- Cuts a slot word (R272). -/
def cut (ext : Option Byte) (w : SlotWord) : Fields where
  guard := ⟨w.getLsbD 31, w.extractLsb' 19 3, w.getLsbD 18⟩
  cls := w.extractLsb' 28 3
  op := w.extractLsb' 22 6
  d := w.extractLsb' 12 6
  a := w.extractLsb' 6 6
  b := w.extractLsb' 0 6
  ext := ext

/-- One bit as a bit vector. -/
def b1 (b : Bool) : BitVec 1 := BitVec.ofBool b
/-- A two-bit number in a six-bit field (R299). -/
def b2 (x : BitVec 2) : BitVec 6 := 0#4 ++ x
/-- A three-bit number in a six-bit field (R299). -/
def q3 (x : BitVec 3) : BitVec 6 := 0#3 ++ x
/-- One bit in a six-bit field. -/
def bit6 (b : Bool) : BitVec 6 := 0#5 ++ b1 b

/-- The bits of an immediate that stand in the slot word, and those of the extension byte (R278). -/
def Imm14.lo (i : Imm14) : BitVec 6 := i.v.extractLsb' 0 6
def Imm14.ext (i : Imm14) : Option Byte := if i.hdr then some (i.v.extractLsb' 6 8) else none
def Imm20.lo (i : Imm20) : BitVec 6 := i.v.extractLsb' 0 6
def Imm20.mid (i : Imm20) : BitVec 6 := i.v.extractLsb' 6 6
def Imm20.ext (i : Imm20) : Option Byte := if i.hdr then some (i.v.extractLsb' 12 8) else none
def VOp.lo (v : VOp) : BitVec 6 := v.n.extractLsb' 0 6
def VOp.hi (v : VOp) : BitVec 2 := v.n.extractLsb' 6 2

/-- The extension byte of a zero-extended immediate: only where the short field does not hold it (R290). -/
def wideExt14 (i : BitVec 14) : Option Byte :=
  if i.extractLsb' 6 8 = 0#8 then none else some (i.extractLsb' 6 8)
def wideExt20 (i : BitVec 20) : Option Byte :=
  if i.extractLsb' 12 8 = 0#8 then none else some (i.extractLsb' 12 8)
/-- The extension byte of an RRR format with window rows (R278). -/
def rowExt (d a b : BitVec 2) (ha hb : Bool) : Option Byte :=
  let e : Byte := d ++ a ++ b ++ b1 ha ++ b1 hb
  if e = 0#8 then none else some e

/-- PRECI's selector as its D field (R364). -/
def PreciSel.code : PreciSel → BitVec 6
  | .mat => 0 | .acc => 1 | .vec => 2 | .all => 4

namespace Fields

/-- The extension byte, zero without a header. -/
def e (f : Fields) : Byte := f.ext.getD 0#8
/-- The RRI6 immediate with its header flag. -/
def imm14 (f : Fields) : Imm14 :=
  match f.ext with
  | none => ⟨false, 0#8 ++ f.b⟩
  | some x => ⟨true, x ++ f.b⟩
/-- The RI12 immediate with its header flag. -/
def imm20 (f : Fields) : Imm20 :=
  match f.ext with
  | none => ⟨false, 0#8 ++ f.a ++ f.b⟩
  | some x => ⟨true, x ++ f.a ++ f.b⟩
/-- The window row in D, A and B of an RRR format, with the hold bits (R278). -/
def rowD (f : Fields) : BitVec 8 := f.e.extractLsb' 6 2 ++ f.d
def rowA (f : Fields) : VOp := ⟨f.e.extractLsb' 4 2 ++ f.a, f.e.getLsbD 1⟩
def rowB (f : Fields) : VOp := ⟨f.e.extractLsb' 2 2 ++ f.b, f.e.getLsbD 0⟩

/-- Accepts the instruction where no reserved bit and no forbidden extension bit is set; a reserved bit is
reported first. -/
def accept (reserved ext : Bool) (i : Instr) : Except DecodeError Instr :=
  if !reserved then .error .reserved else if !ext then .error .extension else .ok i

/-- No extension bit at all. -/
def noExt (f : Fields) : Bool := f.e == 0#8
/-- Upper bits of a field that holds a narrower number. -/
def hi1 (x : BitVec 6) : Bool := x.getLsbD 5 == false
def hi2 (x : BitVec 6) : Bool := x.extractLsb' 4 2 == 0#2
def hi3 (x : BitVec 6) : Bool := x.extractLsb' 3 3 == 0#3
def hi4 (x : BitVec 6) : Bool := x.extractLsb' 2 4 == 0#4
def lo2 (x : BitVec 6) : BitVec 2 := x.extractLsb' 0 2
def lo3 (x : BitVec 6) : BitVec 3 := x.extractLsb' 0 3
def lo4 (x : BitVec 6) : BitVec 4 := x.extractLsb' 0 4
def lo5 (x : BitVec 6) : BitVec 5 := x.extractLsb' 0 5
/-- Loop levels 6 and 7 are reserved (R299). -/
def level (x : BitVec 3) : Bool := decide (x.toNat ≤ 5)

def shapeNop (f : Fields) : Except DecodeError Instr :=
  accept (f.guard.p == 0#3 && f.guard.n == false && f.d == 0 && f.a == 0 && f.b == 0) f.noExt (.nop f.guard.stop)
def shapeSss (f : Fields) (mk : Guard → BitVec 6 → BitVec 6 → BitVec 6 → Instr) : Except DecodeError Instr :=
  accept true f.noExt (mk f.guard f.d f.a f.b)
def shapeSs0 (f : Fields) (mk : Guard → BitVec 6 → BitVec 6 → Instr) : Except DecodeError Instr :=
  accept (f.b == 0) f.noExt (mk f.guard f.d f.a)
def shapeSi6 (f : Fields) (mk : Guard → BitVec 6 → BitVec 6 → Imm14 → Instr) : Except DecodeError Instr :=
  .ok (mk f.guard f.d f.a f.imm14)
/-- With a header, I[13:6] must be zero: a reserved bit of the instruction (R301). -/
def shapeSh6 (f : Fields) (mk : Guard → BitVec 6 → BitVec 6 → BitVec 6 → Instr) : Except DecodeError Instr :=
  accept f.noExt true (mk f.guard f.d f.a f.b)
def shapeSi12 (f : Fields) (mk : Guard → BitVec 6 → Imm20 → Instr) : Except DecodeError Instr :=
  .ok (mk f.guard f.d f.imm20)
def shapeQss (f : Fields) (mk : Guard → BitVec 3 → BitVec 6 → BitVec 6 → Instr) : Except DecodeError Instr :=
  accept (hi3 f.d) f.noExt (mk f.guard (lo3 f.d) f.a f.b)
def shapeQsi6 (f : Fields) (mk : Guard → BitVec 3 → BitVec 6 → Imm14 → Instr) : Except DecodeError Instr :=
  accept (hi3 f.d) true (mk f.guard (lo3 f.d) f.a f.imm14)
def shapeQs0 (f : Fields) (mk : Guard → BitVec 3 → BitVec 6 → Instr) : Except DecodeError Instr :=
  accept (hi3 f.d && f.b == 0) f.noExt (mk f.guard (lo3 f.d) f.a)
def shapeS00 (f : Fields) (mk : Guard → BitVec 6 → Instr) : Except DecodeError Instr :=
  accept (f.a == 0 && f.b == 0) f.noExt (mk f.guard f.d)
def shapeQlog (f : Fields) (mk : Guard → BitVec 3 → BitVec 3 → BitVec 3 → BitVec 3 → Instr) : Except DecodeError Instr :=
  accept (hi3 f.d && hi3 f.a && f.noExt) true (mk f.guard (lo3 f.d) (lo3 f.a) (f.b.extractLsb' 3 3) (lo3 f.b))
def shapePbr (f : Fields) (mk : Guard → BitVec 2 → Imm20 → Instr) : Except DecodeError Instr :=
  accept (hi4 f.d) true (mk f.guard (lo2 f.d) f.imm20)
def shapePbrr (f : Fields) (mk : Guard → BitVec 2 → BitVec 6 → Instr) : Except DecodeError Instr :=
  accept (hi4 f.d && f.b == 0) f.noExt (mk f.guard (lo2 f.d) f.a)
def shapeBt (f : Fields) (mk : Guard → BitVec 2 → Instr) : Except DecodeError Instr :=
  accept (hi4 f.d && f.a == 0 && f.b == 0) f.noExt (mk f.guard (lo2 f.d))
def shapeBts (f : Fields) (mk : Guard → BitVec 2 → BitVec 6 → Instr) : Except DecodeError Instr := f.shapePbrr mk
/-- Format Z, and the instructions whose whole operand field must be zero (R276, R385): the extension byte too. -/
def shapeZ (f : Fields) (mk : Guard → Instr) : Except DecodeError Instr :=
  accept (f.d == 0 && f.a == 0 && f.b == 0) f.noExt (mk f.guard)
/-- BAR, whose immediate is zero at either width (R278, R385). -/
def shapeBar (f : Fields) (mk : Guard → Instr) : Except DecodeError Instr :=
  accept (f.d == 0 && f.a == 0 && f.b == 0 && f.noExt) true (mk f.guard)
/-- SVC 0 and 1; the other service numbers are reserved (R395). -/
def shapeSvc (f : Fields) : Except DecodeError Instr :=
  if f.d == 0 && f.a == 0 && f.noExt && f.b == 0 then .ok (.svcYield f.guard)
  else if f.d == 0 && f.a == 0 && f.noExt && f.b == 1 then .ok (.svcFlush f.guard)
  else .error .reserved
def shapeLoop (f : Fields) (mk : Guard → BitVec 3 → BitVec 6 → BitVec 2 → Instr) : Except DecodeError Instr :=
  accept (hi3 f.d && level (lo3 f.d) && hi4 f.b) f.noExt (mk f.guard (lo3 f.d) f.a (lo2 f.b))
def shapeLoopi (f : Fields) (mk : Guard → BitVec 3 → BitVec 2 → BitVec 20 → Instr) : Except DecodeError Instr :=
  accept (hi1 f.d && level (lo3 f.d)) true (mk f.guard (lo3 f.d) (f.d.extractLsb' 3 2) f.imm20.v)
def shapeLstr (f : Fields) (mk : Guard → BitVec 3 → BitVec 6 → Imm14 → Instr) : Except DecodeError Instr :=
  accept (hi3 f.d && level (lo3 f.d)) true (mk f.guard (lo3 f.d) f.a f.imm14)
def shapeLidx (f : Fields) (mk : Guard → BitVec 6 → BitVec 3 → Instr) : Except DecodeError Instr :=
  accept (hi3 f.a && level (lo3 f.a) && f.b == 0) f.noExt (mk f.guard f.d (lo3 f.a))
def shapeLbrk (f : Fields) (mk : Guard → BitVec 3 → Instr) : Except DecodeError Instr :=
  accept (hi3 f.d && level (lo3 f.d) && f.a == 0 && f.b == 0) f.noExt (mk f.guard (lo3 f.d))
def shapeSpawn (f : Fields) (mk : Guard → BitVec 2 → BitVec 6 → BitVec 2 → Instr) : Except DecodeError Instr :=
  accept (hi4 f.d && hi4 f.b) f.noExt (mk f.guard (lo2 f.d) f.a (lo2 f.b))
def shapeJoin (f : Fields) (mk : Guard → BitVec 2 → Instr) : Except DecodeError Instr := f.shapeBt mk
/-- SAFE: I[19:8] must be zero with a header (R319). -/
def shapeSafe (f : Fields) (mk : Guard → BitVec 12 → Instr) : Except DecodeError Instr :=
  accept (f.d == 0 && (f.ext.isNone || f.imm20.v.extractLsb' 8 12 == 0#12)) true (mk f.guard (f.a ++ f.b))
def shapeI20 (f : Fields) (mk : Guard → BitVec 20 → Instr) : Except DecodeError Instr :=
  accept (f.d == 0) true (mk f.guard f.imm20.v)
def shapeTret (f : Fields) (mk : Guard → Bool → Instr) : Except DecodeError Instr :=
  accept (f.d == 0 && f.a == 0 && f.noExt && f.b.extractLsb' 1 5 == 0#5) true (mk f.guard (f.b.getLsbD 0))
def shapeVote (f : Fields) (mk : Guard → BitVec 3 → BitVec 3 → Instr) : Except DecodeError Instr :=
  accept (hi3 f.d && hi3 f.a && f.b == 0) f.noExt (mk f.guard (lo3 f.d) (lo3 f.a))
def shapeA (f : Fields) (mk : Guard → BitVec 6 → Instr) : Except DecodeError Instr :=
  accept (f.d == 0 && f.b == 0) f.noExt (mk f.guard f.a)
def shapePsel (f : Fields) (mk : Guard → BitVec 8 → BitVec 6 → Instr) : Except DecodeError Instr :=
  accept (hi4 f.d) f.noExt (mk f.guard (lo2 f.d ++ f.b) f.a)
def shapeSend (f : Fields) (mk : Guard → BitVec 5 → BitVec 8 → BitVec 2 → Instr) : Except DecodeError Instr :=
  accept (hi1 f.d && hi4 f.b) (f.e &&& 0xCF#8 == 0#8) (mk f.guard (lo5 f.d) f.rowA.n (lo2 f.b))
def shapeRecv (f : Fields) (mk : Guard → BitVec 8 → BitVec 5 → BitVec 2 → Instr) : Except DecodeError Instr :=
  accept (hi1 f.a && hi4 f.b) (f.e &&& 0x3F#8 == 0#8) (mk f.guard f.rowD (lo5 f.a) (lo2 f.b))
def shapeSends (f : Fields) (mk : Guard → BitVec 5 → BitVec 6 → Instr) : Except DecodeError Instr :=
  accept (hi1 f.d && f.b == 0) f.noExt (mk f.guard (lo5 f.d) f.a)
def shapeRecvs (f : Fields) (mk : Guard → BitVec 6 → BitVec 5 → Instr) : Except DecodeError Instr :=
  accept (hi1 f.a && f.b == 0) f.noExt (mk f.guard f.d (lo5 f.a))
def shapeMask6 (f : Fields) (mk : Guard → BitVec 6 → Instr) : Except DecodeError Instr :=
  accept (f.d == 0 && f.a == 0 && f.noExt) true (mk f.guard f.b)
def shapePreci (f : Fields) (mk : Guard → PreciSel → BitVec 20 → Instr) : Except DecodeError Instr :=
  let go (s : PreciSel) := accept (s.fits f.imm20.v) true (mk f.guard s f.imm20.v)
  match f.d.toNat with
  | 0 => go .mat
  | 1 => go .acc
  | 2 => go .vec
  | 4 => go .all
  | _ => .error .reserved
def shapeShape (f : Fields) (mk : Guard → BitVec 2 → Bool → BitVec 6 → BitVec 6 → Instr) : Except DecodeError Instr :=
  accept (hi3 f.d && (!f.d.getLsbD 2 || f.b == 0)) f.noExt (mk f.guard (lo2 f.d) (f.d.getLsbD 2) f.a f.b)
def shapeView (f : Fields) (mk : Guard → BitVec 5 → BitVec 6 → BitVec 6 → Instr) : Except DecodeError Instr :=
  accept (hi1 f.d && decide ((lo5 f.d).toNat ≤ 12)) f.noExt (mk f.guard (lo5 f.d) f.a f.b)
def shapeViewq (f : Fields) (mk : Guard → BitVec 6 → BitVec 4 → Instr) : Except DecodeError Instr :=
  accept (hi2 f.a && decide ((lo4 f.a).toNat ≤ 11) && f.b == 0) f.noExt (mk f.guard f.d (lo4 f.a))
def shapeCr (f : Fields) (mk : Guard → BitVec 6 → BitVec 8 → Instr) : Except DecodeError Instr :=
  accept (hi4 f.a && f.noExt) true (mk f.guard f.d (lo2 f.a ++ f.b))
def shapeStat (f : Fields) (mk : Guard → BitVec 6 → BitVec 2 → BitVec 4 → Instr) : Except DecodeError Instr :=
  accept (f.a == 0 && f.noExt) true (mk f.guard f.d (f.b.extractLsb' 4 2) (lo4 f.b))
def shapeCdsc (f : Fields) (mk : Guard → BitVec 4 → BitVec 6 → BitVec 6 → Instr) : Except DecodeError Instr :=
  accept (hi2 f.d) f.noExt (mk f.guard (lo4 f.d) f.a f.b)
/-- SH3 in a matrix-class field is reserved (R349). -/
def shapeMma (f : Fields) (mk : Guard → BitVec 2 → BitVec 3 → BitVec 3 → Instr) : Except DecodeError Instr :=
  accept (hi4 f.d && lo2 f.d != 3#2 && hi3 f.a && hi3 f.b) f.noExt (mk f.guard (lo2 f.d) (lo3 f.a) (lo3 f.b))
def shapeMdrn (f : Fields) (mk : Guard → BitVec 2 → BitVec 2 → BitVec 2 → Bool → Instr) : Except DecodeError Instr :=
  accept (f.d.extractLsb' 4 2 != 3#2 && lo2 f.d != 3#2 && f.a.extractLsb' 1 5 == 0#5 && f.b == 0) f.noExt
    (mk f.guard (f.d.extractLsb' 4 2) (f.d.extractLsb' 2 2) (lo2 f.d) (f.a.getLsbD 0))
def shapeMscl (f : Fields) (mk : Guard → Bool → BitVec 3 → Instr) : Except DecodeError Instr :=
  accept (f.d.extractLsb' 1 5 == 0#5 && hi3 f.a && f.b == 0) f.noExt (mk f.guard (f.d.getLsbD 0) (lo3 f.a))
def shapeMvcn (f : Fields) (mk : Guard → Bool → BitVec 16 → Instr) : Except DecodeError Instr :=
  accept (f.d.extractLsb' 1 5 == 0#5 && f.imm20.v.extractLsb' 16 4 == 0#4) true
    (mk f.guard (f.d.getLsbD 0) (f.imm20.v.extractLsb' 0 16))
def shapeMmat (f : Fields) (mk : Guard → BitVec 2 → BitVec 2 → BitVec 2 → BitVec 3 → BitVec 3 → Instr) :
    Except DecodeError Instr :=
  accept (f.d.extractLsb' 4 2 != 3#2 && lo2 f.d != 3#2 && hi3 f.a && hi3 f.b) f.noExt
    (mk f.guard (f.d.extractLsb' 4 2) (f.d.extractLsb' 2 2) (lo2 f.d) (lo3 f.a) (lo3 f.b))
def shapeCpy (f : Fields) (mk : Guard → Bool → BitVec 3 → BitVec 4 → BitVec 6 → Instr) : Except DecodeError Instr :=
  accept (hi2 f.d && hi2 f.a) f.noExt (mk f.guard (f.d.getLsbD 3) (lo3 f.d) (lo4 f.a) f.b)
/-- CPDI takes an even descriptor number (R371). -/
def shapeCpdi (f : Fields) : Except DecodeError Instr :=
  if f.a.getLsbD 0 then .error .reserved else f.shapeCpy .cpdi
def shapeCpl (f : Fields) (mk : Guard → Bool → BitVec 3 → BitVec 4 → Instr) : Except DecodeError Instr :=
  accept (hi2 f.d && hi2 f.a && f.b == 0) f.noExt (mk f.guard (f.d.getLsbD 3) (lo3 f.d) (lo4 f.a))
def shapeVvv (f : Fields) (mk : Guard → BitVec 8 → VOp → VOp → Instr) : Except DecodeError Instr :=
  .ok (mk f.guard f.rowD f.rowA f.rowB)
def shapeVv0 (f : Fields) (mk : Guard → BitVec 8 → VOp → Instr) : Except DecodeError Instr :=
  accept (f.b == 0) (f.e &&& 0x0D#8 == 0#8) (mk f.guard f.rowD f.rowA)
def shapeVcmp (f : Fields) (mk : Guard → BitVec 3 → VOp → VOp → Instr) : Except DecodeError Instr :=
  accept (hi3 f.d) (f.e &&& 0xC0#8 == 0#8) (mk f.guard (lo3 f.d) f.rowA f.rowB)
def shapeVmsk (f : Fields) (mk : Guard → BitVec 3 → BitVec 3 → BitVec 3 → BitVec 3 → Instr) : Except DecodeError Instr :=
  accept (hi3 f.d && hi3 f.a) f.noExt (mk f.guard (lo3 f.d) (lo3 f.a) (lo3 f.b) (f.b.extractLsb' 3 3))
def shapeViota (f : Fields) (mk : Guard → BitVec 8 → BitVec 6 → BitVec 6 → Instr) : Except DecodeError Instr :=
  accept true (f.e &&& 0x3F#8 == 0#8) (mk f.guard f.rowD f.a f.b)
def shapeVbcst (f : Fields) (mk : Guard → BitVec 8 → BitVec 6 → Instr) : Except DecodeError Instr :=
  accept (f.b == 0) (f.e &&& 0x3F#8 == 0#8) (mk f.guard f.rowD f.a)
def shapeVlane (f : Fields) (mk : Guard → BitVec 6 → BitVec 6 → BitVec 14 → Instr) : Except DecodeError Instr :=
  .ok (mk f.guard f.d f.a f.imm14.v)
def shapeVext (f : Fields) (mk : Guard → BitVec 6 → BitVec 6 → BitVec 14 → Instr) : Except DecodeError Instr :=
  f.shapeVlane mk
def shapeVrotl (f : Fields) (mk : Guard → BitVec 6 → BitVec 6 → BitVec 14 → Instr) : Except DecodeError Instr :=
  f.shapeVlane mk
def shapeVcvt (f : Fields) (mk : Guard → BitVec 6 → BitVec 6 → BitVec 3 → BitVec 3 → BitVec 2 → Bool → Instr) :
    Except DecodeError Instr :=
  let i := f.imm14.v
  accept (i.extractLsb' 9 5 == 0#5 &&
      cvtOk (i.extractLsb' 0 3) (i.extractLsb' 3 3) (i.extractLsb' 6 2) (i.getLsbD 8)) true
    (mk f.guard f.d f.a (i.extractLsb' 0 3) (i.extractLsb' 3 3) (i.extractLsb' 6 2) (i.getLsbD 8))
def shapeVpack (f : Fields) (mk : Guard → BitVec 6 → BitVec 6 → BitVec 3 → BitVec 2 → Bool → Instr) :
    Except DecodeError Instr :=
  accept (f.noExt && packFmt (lo3 f.b)) true (mk f.guard f.d f.a (lo3 f.b) (f.b.extractLsb' 3 2) (f.b.getLsbD 5))
def shapeVunpk (f : Fields) (mk : Guard → BitVec 6 → BitVec 6 → BitVec 3 → BitVec 2 → Instr) :
    Except DecodeError Instr :=
  accept (f.noExt && packFmt (lo3 f.b) && hi1 f.b) true (mk f.guard f.d f.a (lo3 f.b) (f.b.extractLsb' 3 2))
def shapeVldx (f : Fields) (mk : Guard → BitVec 6 → BitVec 6 → Imm14 → Instr) : Except DecodeError Instr :=
  f.shapeSi6 mk
def shapeVtrd (f : Fields) (mk : Guard → BitVec 6 → BitVec 3 → BitVec 6 → BitVec 8 → Instr) : Except DecodeError Instr :=
  accept (f.imm14.v.extractLsb' 11 3 == 0#3) true
    (mk f.guard f.d (lo3 f.b) f.a (f.imm14.v.extractLsb' 3 8))
def shapeVtcd (f : Fields) (mk : Guard → BitVec 6 → BitVec 3 → BitVec 6 → Instr) : Except DecodeError Instr :=
  accept (f.noExt && hi3 f.b) true (mk f.guard f.d (lo3 f.b) f.a)

end Fields


/-- The opcode map of class 000 (R285). -/
def decodeScalar (f : Fields) : Except DecodeError Instr :=
  match f.op.toNat with
  | 1 => f.shapeNop
  | 0 => .ok (.illegal f.guard.stop f.guard.p f.guard.n (f.d ++ f.a ++ f.b))
  | 2 => f.shapeSss .add
  | 3 => f.shapeSss .sub
  | 4 => f.shapeSi6 .addi
  | 5 => f.shapeSi12 .lih
  | 6 => f.shapeSss .mul
  | 7 => f.shapeSss .mulh
  | 8 => f.shapeSss .mulhn
  | 9 => f.shapeSss .div
  | 10 => f.shapeSss .divn
  | 11 => f.shapeSss .rem
  | 12 => f.shapeSss .remn
  | 13 => f.shapeSss .andS
  | 14 => f.shapeSss .orS
  | 15 => f.shapeSss .xorS
  | 16 => f.shapeSi6 .andi
  | 17 => f.shapeSi6 .ori
  | 18 => f.shapeSi6 .xori
  | 19 => f.shapeSss .shl
  | 20 => f.shapeSss .shr
  | 21 => f.shapeSss .shra
  | 22 => f.shapeSh6 .shli
  | 23 => f.shapeSh6 .shri
  | 24 => f.shapeSh6 .shrai
  | 25 => f.shapeSss .rotr
  | 26 => f.shapeSs0 .clz
  | 27 => f.shapeSs0 .popc
  | 28 => f.shapeSss .minS
  | 29 => f.shapeSss .maxS
  | 30 => f.shapeSss .minn
  | 31 => f.shapeSss .maxn
  | 32 => f.shapeSss .sel
  | 33 => f.shapeQss .ceq
  | 34 => f.shapeQss .cne
  | 35 => f.shapeQss .clt
  | 36 => f.shapeQss .cle
  | 37 => f.shapeQss .cltn
  | 38 => f.shapeQss .clen
  | 39 => f.shapeQsi6 .ceqi
  | 40 => f.shapeQsi6 .clti
  | 41 => f.shapeSss .badr
  | 42 => f.shapeSi6 .boff
  | 43 => f.shapeSi6 .ldb
  | 44 => f.shapeSi6 .ldh
  | 45 => f.shapeSi6 .ldw
  | 46 => f.shapeSi6 .ldd
  | 47 => f.shapeSi6 .stb
  | 48 => f.shapeSi6 .sth
  | 49 => f.shapeSi6 .stw
  | 50 => f.shapeSi6 .std
  | 51 => f.shapeSi6 .ldl
  | 52 => f.shapeSi6 .stl
  | 53 => f.shapeSss .aadd
  | 54 => f.shapeSss .amin
  | 55 => f.shapeSss .amax
  | 56 => f.shapeSss .aor
  | 57 => f.shapeSss .axch
  | 58 => f.shapeSss .acas
  | 59 => f.shapeQs0 .qmov
  | 60 => f.shapeS00 .movq
  | 61 => f.shapeQlog .qlog
  | _ => .error .unknownOp

/-- The opcode map of class 101 (R285). -/
def decodeControl (f : Fields) : Except DecodeError Instr :=
  match f.op.toNat with
  | 1 => f.shapePbr .pbr
  | 2 => f.shapePbrr .pbrr
  | 3 => f.shapeBt .br
  | 4 => f.shapeBts .brc
  | 5 => f.shapeBt .call
  | 6 => f.shapeZ .ret
  | 7 => f.shapeLoop .loop
  | 8 => f.shapeLoopi .loopi
  | 9 => f.shapeLstr .lstr
  | 10 => f.shapeLidx .lidx
  | 11 => f.shapeLbrk .lbrk
  | 12 => f.shapeSpawn .spawn
  | 13 => f.shapeJoin .joinK
  | 14 => f.shapeSafe .safe
  | 15 => f.shapeZ .halt
  | 16 => f.shapeI20 .trap
  | 17 => f.shapeVote .vany
  | 18 => f.shapeVote .vall
  | 19 => f.shapeA .waitt
  | 20 => f.shapeA .waitl
  | 21 => f.shapePsel .psel
  | 22 => f.shapeI20 .brk
  | 23 => f.shapeTret .tret
  | _ => .error .unknownOp

/-- The opcode map of class 110 (R285). -/
def decodeSystem (f : Fields) : Except DecodeError Instr :=
  match f.op.toNat with
  | 1 => f.shapeZ .phase
  | 2 => f.shapeBar .bar
  | 3 => f.shapeSend .send
  | 4 => f.shapeRecv .recv
  | 5 => f.shapeSends .sends
  | 6 => f.shapeRecvs .recvs
  | 7 => f.shapeMask6 .bacq
  | 8 => f.shapeMask6 .brel
  | 9 => f.shapeSss .precW
  | 10 => f.shapePreci .preci
  | 11 => f.shapeShape .shape
  | 12 => f.shapeSss .shapq
  | 13 => f.shapeView .view
  | 14 => f.shapeViewq .viewq
  | 15 => f.shapeCr .getc
  | 16 => f.shapeCr .setc
  | 17 => f.shapeStat .stat
  | 18 => f.shapeS00 .engy
  | 19 => f.shapeS00 .gtc
  | 20 => f.shapeSs0 .lcr
  | 21 => f.shapeZ .fence
  | 22 => f.shapeZ .invq
  | 23 => f.shapeSvc
  | 24 => f.shapeCdsc .cdsc
  | 25 => f.shapeSs0 .kzero
  | 26 => f.shapeSss .scrb
  | 27 => f.shapeSss .scrq
  | 28 => f.shapeSss .frel
  | 29 => f.shapeSss .plwr
  | 30 => f.shapeSss .btwr
  | 31 => f.shapeSss .qwrt
  | _ => .error .unknownOp

/-- The opcode map of class 001 (R285). -/
def decodeVecA (f : Fields) : Except DecodeError Instr :=
  match f.op.toNat with
  | 1 => f.shapeVvv .vaddVa
  | 2 => f.shapeVvv .vsubVa
  | 3 => f.shapeVvv .vmulVa
  | 4 => f.shapeVvv .vfmaVa
  | 5 => f.shapeVvv .vfmsVa
  | 6 => f.shapeVvv .vfnmaVa
  | 7 => f.shapeVvv .vminVa
  | 8 => f.shapeVvv .vmaxVa
  | 9 => f.shapeVv0 .vabsVa
  | 10 => f.shapeVv0 .vnegVa
  | 11 => f.shapeVv0 .vrcpeVa
  | 12 => f.shapeVv0 .vrsqeVa
  | 13 => f.shapeVvv .vdiv
  | 14 => f.shapeVv0 .vsqrt
  | 15 => f.shapeVv0 .vexp2
  | 16 => f.shapeVv0 .vlog2
  | 17 => f.shapeVvv .viaddVa
  | 18 => f.shapeVvv .visubVa
  | 19 => f.shapeVvv .vimulVa
  | 20 => f.shapeVvv .vimacVa
  | 21 => f.shapeVvv .vandVa
  | 22 => f.shapeVvv .vorVa
  | 23 => f.shapeVvv .vxorVa
  | 24 => f.shapeVvv .vshlVa
  | 25 => f.shapeVvv .vshrVa
  | 26 => f.shapeVvv .vshraVa
  | 27 => f.shapeVcmp .vfceqVa
  | 28 => f.shapeVcmp .vfcltVa
  | 29 => f.shapeVcmp .vfcleVa
  | 30 => f.shapeVcmp .viceqVa
  | 31 => f.shapeVcmp .vicltVa
  | 32 => f.shapeVcmp .vicleVa
  | 33 => f.shapeVvv .vselVa
  | 34 => f.shapeVv0 .vmovVa
  | 35 => f.shapeVbcst .vbcstVa
  | 36 => f.shapeVlane .vlaneVa
  | 37 => f.shapeVext .vextVa
  | 38 => f.shapeVcvt .vcvtVa
  | 39 => f.shapeVpack .vpackVa
  | 40 => f.shapeVunpk .vunpkVa
  | 41 => f.shapeVvv .vperm
  | 42 => f.shapeVrotl .vrotlVa
  | 43 => f.shapeVv0 .vrsum
  | 44 => f.shapeVv0 .vrmax
  | 45 => f.shapeVldx .vldxVa
  | 46 => f.shapeVldx .vstxVa
  | 47 => f.shapeVtrd .vtrdVa
  | 48 => f.shapeVtcd .vtcd
  | 49 => f.shapeVtrd .vtrwVa
  | 50 => f.shapeVtcd .vtcw
  | 51 => f.shapeVmsk .vmskVa
  | 52 => f.shapeViota .viotaVa
  | _ => .error .unknownOp

/-- The opcode map of class 010 (R285). -/
def decodeVecB (f : Fields) : Except DecodeError Instr :=
  match f.op.toNat with
  | 1 => f.shapeVvv .vaddVb
  | 2 => f.shapeVvv .vsubVb
  | 3 => f.shapeVvv .vmulVb
  | 4 => f.shapeVvv .vfmaVb
  | 5 => f.shapeVvv .vfmsVb
  | 6 => f.shapeVvv .vfnmaVb
  | 7 => f.shapeVvv .vminVb
  | 8 => f.shapeVvv .vmaxVb
  | 9 => f.shapeVv0 .vabsVb
  | 10 => f.shapeVv0 .vnegVb
  | 11 => f.shapeVv0 .vrcpeVb
  | 12 => f.shapeVv0 .vrsqeVb
  | 13 => .error .vaOnly
  | 14 => .error .vaOnly
  | 15 => .error .vaOnly
  | 16 => .error .vaOnly
  | 17 => f.shapeVvv .viaddVb
  | 18 => f.shapeVvv .visubVb
  | 19 => f.shapeVvv .vimulVb
  | 20 => f.shapeVvv .vimacVb
  | 21 => f.shapeVvv .vandVb
  | 22 => f.shapeVvv .vorVb
  | 23 => f.shapeVvv .vxorVb
  | 24 => f.shapeVvv .vshlVb
  | 25 => f.shapeVvv .vshrVb
  | 26 => f.shapeVvv .vshraVb
  | 27 => f.shapeVcmp .vfceqVb
  | 28 => f.shapeVcmp .vfcltVb
  | 29 => f.shapeVcmp .vfcleVb
  | 30 => f.shapeVcmp .viceqVb
  | 31 => f.shapeVcmp .vicltVb
  | 32 => f.shapeVcmp .vicleVb
  | 33 => f.shapeVvv .vselVb
  | 34 => f.shapeVv0 .vmovVb
  | 35 => f.shapeVbcst .vbcstVb
  | 36 => f.shapeVlane .vlaneVb
  | 37 => f.shapeVext .vextVb
  | 38 => f.shapeVcvt .vcvtVb
  | 39 => f.shapeVpack .vpackVb
  | 40 => f.shapeVunpk .vunpkVb
  | 41 => .error .vaOnly
  | 42 => f.shapeVrotl .vrotlVb
  | 43 => .error .vaOnly
  | 44 => .error .vaOnly
  | 45 => f.shapeVldx .vldxVb
  | 46 => f.shapeVldx .vstxVb
  | 47 => f.shapeVtrd .vtrdVb
  | 48 => .error .vaOnly
  | 49 => f.shapeVtrd .vtrwVb
  | 50 => .error .vaOnly
  | 51 => f.shapeVmsk .vmskVb
  | 52 => f.shapeViota .viotaVb
  | _ => .error .unknownOp

/-- The opcode map of class 011 (R285). -/
def decodeMatrix (f : Fields) : Except DecodeError Instr :=
  match f.op.toNat with
  | 1 => f.shapeMma .mma
  | 2 => f.shapeMma .mmaz
  | 3 => f.shapeMdrn .mdrn
  | 4 => f.shapeZ .mclr
  | 5 => f.shapeMscl .mscl
  | 6 => f.shapeMvcn .mvcn
  | 7 => f.shapeSs0 .msta
  | 8 => f.shapeMmat .mmat
  | _ => .error .unknownOp

/-- The opcode map of class 100 (R285). -/
def decodeCopy (f : Fields) : Except DecodeError Instr :=
  match f.op.toNat with
  | 1 => f.shapeCpl .cpl
  | 2 => f.shapeCpy .cpi
  | 3 => f.shapeCpy .cpo
  | 4 => f.shapeCpdi
  | 5 => f.shapeCpy .cpdo
  | 6 => f.shapeCpy .cps
  | 7 => f.shapeCpy .cpg
  | 8 => f.shapeCpy .cpst
  | 9 => f.shapeCpy .cpb
  | 10 => f.shapeCpy .cpr
  | _ => .error .unknownOp

/-- The slot decoder (R275, R284): the class and the opcode alone choose the format. -/
def decode (ext : Option Byte) (w : SlotWord) : Except DecodeError Instr :=
  let f := cut ext w
  match f.cls.toNat with
  | 0 => decodeScalar f
  | 1 => decodeVecA f
  | 2 => decodeVecB f
  | 3 => decodeMatrix f
  | 4 => decodeCopy f
  | 5 => decodeControl f
  | 6 => decodeSystem f
  | _ => .error .headerSlot

/-- A slot word from its fields (R272): S, C, OP, P, N, D, A, B from the top bit down. -/
def slotWord (g : Guard) (c : BitVec 3) (o d a b : BitVec 6) : SlotWord :=
  b1 g.stop ++ c ++ o ++ g.p ++ b1 g.n ++ d ++ a ++ b

/-- The encoder: an instruction's slot word and the extension byte it needs (`none`: the bundle needs no header
for it).  Event rows have no encoding. -/
def encode : Instr → Option (SlotWord × Option Byte)
  | .nop stop => some (slotWord ⟨stop, 0, false⟩ 0 1 0 0 0, none)
  | .illegal stop p n o => some (slotWord ⟨stop, p, n⟩ 0 0 (o.extractLsb' 12 6) (o.extractLsb' 6 6) (o.extractLsb' 0 6), none)
  | .add g d a b => some (slotWord g 0 2 (d) (a) (b), none)
  | .sub g d a b => some (slotWord g 0 3 (d) (a) (b), none)
  | .addi g d a i => some (slotWord g 0 4 (d) (a) (i.lo), i.ext)
  | .lih g d i => some (slotWord g 0 5 (d) (i.mid) (i.lo), i.ext)
  | .mul g d a b => some (slotWord g 0 6 (d) (a) (b), none)
  | .mulh g d a b => some (slotWord g 0 7 (d) (a) (b), none)
  | .mulhn g d a b => some (slotWord g 0 8 (d) (a) (b), none)
  | .div g d a b => some (slotWord g 0 9 (d) (a) (b), none)
  | .divn g d a b => some (slotWord g 0 10 (d) (a) (b), none)
  | .rem g d a b => some (slotWord g 0 11 (d) (a) (b), none)
  | .remn g d a b => some (slotWord g 0 12 (d) (a) (b), none)
  | .andS g d a b => some (slotWord g 0 13 (d) (a) (b), none)
  | .orS g d a b => some (slotWord g 0 14 (d) (a) (b), none)
  | .xorS g d a b => some (slotWord g 0 15 (d) (a) (b), none)
  | .andi g d a i => some (slotWord g 0 16 (d) (a) (i.lo), i.ext)
  | .ori g d a i => some (slotWord g 0 17 (d) (a) (i.lo), i.ext)
  | .xori g d a i => some (slotWord g 0 18 (d) (a) (i.lo), i.ext)
  | .shl g d a b => some (slotWord g 0 19 (d) (a) (b), none)
  | .shr g d a b => some (slotWord g 0 20 (d) (a) (b), none)
  | .shra g d a b => some (slotWord g 0 21 (d) (a) (b), none)
  | .shli g d a i => some (slotWord g 0 22 (d) (a) (i), none)
  | .shri g d a i => some (slotWord g 0 23 (d) (a) (i), none)
  | .shrai g d a i => some (slotWord g 0 24 (d) (a) (i), none)
  | .rotr g d a b => some (slotWord g 0 25 (d) (a) (b), none)
  | .clz g d a => some (slotWord g 0 26 (d) (a) (0), none)
  | .popc g d a => some (slotWord g 0 27 (d) (a) (0), none)
  | .minS g d a b => some (slotWord g 0 28 (d) (a) (b), none)
  | .maxS g d a b => some (slotWord g 0 29 (d) (a) (b), none)
  | .minn g d a b => some (slotWord g 0 30 (d) (a) (b), none)
  | .maxn g d a b => some (slotWord g 0 31 (d) (a) (b), none)
  | .sel g d a b => some (slotWord g 0 32 (d) (a) (b), none)
  | .ceq g q a b => some (slotWord g 0 33 (q3 q) (a) (b), none)
  | .cne g q a b => some (slotWord g 0 34 (q3 q) (a) (b), none)
  | .clt g q a b => some (slotWord g 0 35 (q3 q) (a) (b), none)
  | .cle g q a b => some (slotWord g 0 36 (q3 q) (a) (b), none)
  | .cltn g q a b => some (slotWord g 0 37 (q3 q) (a) (b), none)
  | .clen g q a b => some (slotWord g 0 38 (q3 q) (a) (b), none)
  | .ceqi g q a i => some (slotWord g 0 39 (q3 q) (a) (i.lo), i.ext)
  | .clti g q a i => some (slotWord g 0 40 (q3 q) (a) (i.lo), i.ext)
  | .badr g d a b => some (slotWord g 0 41 (d) (a) (b), none)
  | .boff g d a i => some (slotWord g 0 42 (d) (a) (i.lo), i.ext)
  | .ldb g d a i => some (slotWord g 0 43 (d) (a) (i.lo), i.ext)
  | .ldh g d a i => some (slotWord g 0 44 (d) (a) (i.lo), i.ext)
  | .ldw g d a i => some (slotWord g 0 45 (d) (a) (i.lo), i.ext)
  | .ldd g d a i => some (slotWord g 0 46 (d) (a) (i.lo), i.ext)
  | .stb g d a i => some (slotWord g 0 47 (d) (a) (i.lo), i.ext)
  | .sth g d a i => some (slotWord g 0 48 (d) (a) (i.lo), i.ext)
  | .stw g d a i => some (slotWord g 0 49 (d) (a) (i.lo), i.ext)
  | .std g d a i => some (slotWord g 0 50 (d) (a) (i.lo), i.ext)
  | .ldl g d a i => some (slotWord g 0 51 (d) (a) (i.lo), i.ext)
  | .stl g d a i => some (slotWord g 0 52 (d) (a) (i.lo), i.ext)
  | .aadd g d a b => some (slotWord g 0 53 (d) (a) (b), none)
  | .amin g d a b => some (slotWord g 0 54 (d) (a) (b), none)
  | .amax g d a b => some (slotWord g 0 55 (d) (a) (b), none)
  | .aor g d a b => some (slotWord g 0 56 (d) (a) (b), none)
  | .axch g d a b => some (slotWord g 0 57 (d) (a) (b), none)
  | .acas g d a b => some (slotWord g 0 58 (d) (a) (b), none)
  | .qmov g q a => some (slotWord g 0 59 (q3 q) (a) (0), none)
  | .movq g d => some (slotWord g 0 60 (d) (0) (0), none)
  | .qlog g q qa qb o => some (slotWord g 0 61 (q3 q) (q3 qa) (qb ++ o), none)
  | .pbr g t i => some (slotWord g 5 1 (b2 t) (i.mid) (i.lo), i.ext)
  | .pbrr g t a => some (slotWord g 5 2 (b2 t) (a) (0), none)
  | .br g t => some (slotWord g 5 3 (b2 t) (0) (0), none)
  | .brc g t a => some (slotWord g 5 4 (b2 t) (a) (0), none)
  | .call g t => some (slotWord g 5 5 (b2 t) (0) (0), none)
  | .ret g => some (slotWord g 5 6 (0) (0) (0), none)
  | .loop g l a t => some (slotWord g 5 7 (q3 l) (a) (b2 t), none)
  | .loopi g l t i => some (slotWord g 5 8 (0#1 ++ t ++ l) ((Imm20.mk true i).mid) ((Imm20.mk true i).lo), wideExt20 i)
  | .lstr g l a i => some (slotWord g 5 9 (q3 l) (a) (i.lo), i.ext)
  | .lidx g d l => some (slotWord g 5 10 (d) (q3 l) (0), none)
  | .lbrk g l => some (slotWord g 5 11 (q3 l) (0) (0), none)
  | .spawn g k a t => some (slotWord g 5 12 (b2 k) (a) (b2 t), none)
  | .joinK g k => some (slotWord g 5 13 (b2 k) (0) (0), none)
  | .safe g i => some (slotWord g 5 14 (0) (i.extractLsb' 6 6) (i.extractLsb' 0 6), none)
  | .halt g => some (slotWord g 5 15 (0) (0) (0), none)
  | .trap g i => some (slotWord g 5 16 (0) ((Imm20.mk true i).mid) ((Imm20.mk true i).lo), wideExt20 i)
  | .vany g q ma => some (slotWord g 5 17 (q3 q) (q3 ma) (0), none)
  | .vall g q ma => some (slotWord g 5 18 (q3 q) (q3 ma) (0), none)
  | .waitt g a => some (slotWord g 5 19 (0) (a) (0), none)
  | .waitl g a => some (slotWord g 5 20 (0) (a) (0), none)
  | .psel g t a => some (slotWord g 5 21 (b2 (t.extractLsb' 6 2)) (a) (t.extractLsb' 0 6), none)
  | .brk g i => some (slotWord g 5 22 (0) ((Imm20.mk true i).mid) ((Imm20.mk true i).lo), wideExt20 i)
  | .tret g i => some (slotWord g 5 23 (0) (0) (bit6 i), none)
  | .phase g => some (slotWord g 6 1 (0) (0) (0), none)
  | .bar g => some (slotWord g 6 2 (0) (0) (0), none)
  | .send g ch va j => some (slotWord g 6 3 (0#1 ++ ch) (va.extractLsb' 0 6) (b2 j), rowExt 0 (va.extractLsb' 6 2) 0 false false)
  | .recv g vd ch j => some (slotWord g 6 4 (vd.extractLsb' 0 6) (0#1 ++ ch) (b2 j), rowExt (vd.extractLsb' 6 2) 0 0 false false)
  | .sends g ch a => some (slotWord g 6 5 (0#1 ++ ch) (a) (0), none)
  | .recvs g d ch => some (slotWord g 6 6 (d) (0#1 ++ ch) (0), none)
  | .bacq g m => some (slotWord g 6 7 (0) (0) (m), none)
  | .brel g m => some (slotWord g 6 8 (0) (0) (m), none)
  | .precW g d a b => some (slotWord g 6 9 (d) (a) (b), none)
  | .preci g fs i => some (slotWord g 6 10 (fs.code) ((Imm20.mk true i).mid) ((Imm20.mk true i).lo), wideExt20 i)
  | .shape g n vec a b => some (slotWord g 6 11 (0#3 ++ b1 vec ++ n) (a) (b), none)
  | .shapq g d a b => some (slotWord g 6 12 (d) (a) (b), none)
  | .view g w a b => some (slotWord g 6 13 (0#1 ++ w) (a) (b), none)
  | .viewq g d w => some (slotWord g 6 14 (d) (0#2 ++ w) (0), none)
  | .getc g d x => some (slotWord g 6 15 (d) (0#4 ++ x.extractLsb' 6 2) (x.extractLsb' 0 6), none)
  | .setc g d x => some (slotWord g 6 16 (d) (0#4 ++ x.extractLsb' 6 2) (x.extractLsb' 0 6), none)
  | .stat g d j e => some (slotWord g 6 17 (d) (0) (j ++ e), none)
  | .engy g d => some (slotWord g 6 18 (d) (0) (0), none)
  | .gtc g d => some (slotWord g 6 19 (d) (0) (0), none)
  | .lcr g d a => some (slotWord g 6 20 (d) (a) (0), none)
  | .fence g => some (slotWord g 6 21 (0) (0) (0), none)
  | .invq g => some (slotWord g 6 22 (0) (0) (0), none)
  | .svcYield g => some (slotWord g 6 23 (0) (0) (0), none)
  | .svcFlush g => some (slotWord g 6 23 (0) (0) (1), none)
  | .cdsc g c a b => some (slotWord g 6 24 (0#2 ++ c) (a) (b), none)
  | .kzero g d a => some (slotWord g 6 25 (d) (a) (0), none)
  | .scrb g d a b => some (slotWord g 6 26 (d) (a) (b), none)
  | .scrq g d a b => some (slotWord g 6 27 (d) (a) (b), none)
  | .frel g d a b => some (slotWord g 6 28 (d) (a) (b), none)
  | .plwr g d a b => some (slotWord g 6 29 (d) (a) (b), none)
  | .btwr g d a b => some (slotWord g 6 30 (d) (a) (b), none)
  | .qwrt g d a b => some (slotWord g 6 31 (d) (a) (b), none)
  | .mma g sh x y => some (slotWord g 3 1 (b2 sh) (q3 x) (q3 y), none)
  | .mmaz g sh x y => some (slotWord g 3 2 (b2 sh) (q3 x) (q3 y), none)
  | .mdrn g f u sh add => some (slotWord g 3 3 (f ++ u ++ sh) (bit6 add) (0), none)
  | .mclr g => some (slotWord g 3 4 (0) (0) (0), none)
  | .mscl g o x => some (slotWord g 3 5 (bit6 o) (q3 x) (0), none)
  | .mvcn g en i => some (slotWord g 3 6 (bit6 en) ((Imm20.mk true (0#4 ++ i)).mid) ((Imm20.mk true (0#4 ++ i)).lo), wideExt20 (0#4 ++ i))
  | .msta g d a => some (slotWord g 3 7 (d) (a) (0), none)
  | .mmat g f u sh x y => some (slotWord g 3 8 (f ++ u ++ sh) (q3 x) (q3 y), none)
  | .cpl g rel u c => some (slotWord g 4 1 (0#2 ++ b1 rel ++ u) (0#2 ++ c) (0), none)
  | .cpi g rel u c b => some (slotWord g 4 2 (0#2 ++ b1 rel ++ u) (0#2 ++ c) (b), none)
  | .cpo g rel u c b => some (slotWord g 4 3 (0#2 ++ b1 rel ++ u) (0#2 ++ c) (b), none)
  | .cpdi g rel u c b => some (slotWord g 4 4 (0#2 ++ b1 rel ++ u) (0#2 ++ c) (b), none)
  | .cpdo g rel u c b => some (slotWord g 4 5 (0#2 ++ b1 rel ++ u) (0#2 ++ c) (b), none)
  | .cps g rel u c b => some (slotWord g 4 6 (0#2 ++ b1 rel ++ u) (0#2 ++ c) (b), none)
  | .cpg g rel u c b => some (slotWord g 4 7 (0#2 ++ b1 rel ++ u) (0#2 ++ c) (b), none)
  | .cpst g rel u c b => some (slotWord g 4 8 (0#2 ++ b1 rel ++ u) (0#2 ++ c) (b), none)
  | .cpb g rel u c b => some (slotWord g 4 9 (0#2 ++ b1 rel ++ u) (0#2 ++ c) (b), none)
  | .cpr g rel u c b => some (slotWord g 4 10 (0#2 ++ b1 rel ++ u) (0#2 ++ c) (b), none)
  | .vaddVa g d a b => some (slotWord g 1 1 (d.extractLsb' 0 6) (a.lo) (b.lo), rowExt (d.extractLsb' 6 2) a.hi b.hi a.hold b.hold)
  | .vaddVb g d a b => some (slotWord g 2 1 (d.extractLsb' 0 6) (a.lo) (b.lo), rowExt (d.extractLsb' 6 2) a.hi b.hi a.hold b.hold)
  | .vsubVa g d a b => some (slotWord g 1 2 (d.extractLsb' 0 6) (a.lo) (b.lo), rowExt (d.extractLsb' 6 2) a.hi b.hi a.hold b.hold)
  | .vsubVb g d a b => some (slotWord g 2 2 (d.extractLsb' 0 6) (a.lo) (b.lo), rowExt (d.extractLsb' 6 2) a.hi b.hi a.hold b.hold)
  | .vmulVa g d a b => some (slotWord g 1 3 (d.extractLsb' 0 6) (a.lo) (b.lo), rowExt (d.extractLsb' 6 2) a.hi b.hi a.hold b.hold)
  | .vmulVb g d a b => some (slotWord g 2 3 (d.extractLsb' 0 6) (a.lo) (b.lo), rowExt (d.extractLsb' 6 2) a.hi b.hi a.hold b.hold)
  | .vfmaVa g d a b => some (slotWord g 1 4 (d.extractLsb' 0 6) (a.lo) (b.lo), rowExt (d.extractLsb' 6 2) a.hi b.hi a.hold b.hold)
  | .vfmaVb g d a b => some (slotWord g 2 4 (d.extractLsb' 0 6) (a.lo) (b.lo), rowExt (d.extractLsb' 6 2) a.hi b.hi a.hold b.hold)
  | .vfmsVa g d a b => some (slotWord g 1 5 (d.extractLsb' 0 6) (a.lo) (b.lo), rowExt (d.extractLsb' 6 2) a.hi b.hi a.hold b.hold)
  | .vfmsVb g d a b => some (slotWord g 2 5 (d.extractLsb' 0 6) (a.lo) (b.lo), rowExt (d.extractLsb' 6 2) a.hi b.hi a.hold b.hold)
  | .vfnmaVa g d a b => some (slotWord g 1 6 (d.extractLsb' 0 6) (a.lo) (b.lo), rowExt (d.extractLsb' 6 2) a.hi b.hi a.hold b.hold)
  | .vfnmaVb g d a b => some (slotWord g 2 6 (d.extractLsb' 0 6) (a.lo) (b.lo), rowExt (d.extractLsb' 6 2) a.hi b.hi a.hold b.hold)
  | .vminVa g d a b => some (slotWord g 1 7 (d.extractLsb' 0 6) (a.lo) (b.lo), rowExt (d.extractLsb' 6 2) a.hi b.hi a.hold b.hold)
  | .vminVb g d a b => some (slotWord g 2 7 (d.extractLsb' 0 6) (a.lo) (b.lo), rowExt (d.extractLsb' 6 2) a.hi b.hi a.hold b.hold)
  | .vmaxVa g d a b => some (slotWord g 1 8 (d.extractLsb' 0 6) (a.lo) (b.lo), rowExt (d.extractLsb' 6 2) a.hi b.hi a.hold b.hold)
  | .vmaxVb g d a b => some (slotWord g 2 8 (d.extractLsb' 0 6) (a.lo) (b.lo), rowExt (d.extractLsb' 6 2) a.hi b.hi a.hold b.hold)
  | .vabsVa g d a => some (slotWord g 1 9 (d.extractLsb' 0 6) (a.lo) (0), rowExt (d.extractLsb' 6 2) a.hi 0 a.hold false)
  | .vabsVb g d a => some (slotWord g 2 9 (d.extractLsb' 0 6) (a.lo) (0), rowExt (d.extractLsb' 6 2) a.hi 0 a.hold false)
  | .vnegVa g d a => some (slotWord g 1 10 (d.extractLsb' 0 6) (a.lo) (0), rowExt (d.extractLsb' 6 2) a.hi 0 a.hold false)
  | .vnegVb g d a => some (slotWord g 2 10 (d.extractLsb' 0 6) (a.lo) (0), rowExt (d.extractLsb' 6 2) a.hi 0 a.hold false)
  | .vrcpeVa g d a => some (slotWord g 1 11 (d.extractLsb' 0 6) (a.lo) (0), rowExt (d.extractLsb' 6 2) a.hi 0 a.hold false)
  | .vrcpeVb g d a => some (slotWord g 2 11 (d.extractLsb' 0 6) (a.lo) (0), rowExt (d.extractLsb' 6 2) a.hi 0 a.hold false)
  | .vrsqeVa g d a => some (slotWord g 1 12 (d.extractLsb' 0 6) (a.lo) (0), rowExt (d.extractLsb' 6 2) a.hi 0 a.hold false)
  | .vrsqeVb g d a => some (slotWord g 2 12 (d.extractLsb' 0 6) (a.lo) (0), rowExt (d.extractLsb' 6 2) a.hi 0 a.hold false)
  | .vdiv g d a b => some (slotWord g 1 13 (d.extractLsb' 0 6) (a.lo) (b.lo), rowExt (d.extractLsb' 6 2) a.hi b.hi a.hold b.hold)
  | .vsqrt g d a => some (slotWord g 1 14 (d.extractLsb' 0 6) (a.lo) (0), rowExt (d.extractLsb' 6 2) a.hi 0 a.hold false)
  | .vexp2 g d a => some (slotWord g 1 15 (d.extractLsb' 0 6) (a.lo) (0), rowExt (d.extractLsb' 6 2) a.hi 0 a.hold false)
  | .vlog2 g d a => some (slotWord g 1 16 (d.extractLsb' 0 6) (a.lo) (0), rowExt (d.extractLsb' 6 2) a.hi 0 a.hold false)
  | .viaddVa g d a b => some (slotWord g 1 17 (d.extractLsb' 0 6) (a.lo) (b.lo), rowExt (d.extractLsb' 6 2) a.hi b.hi a.hold b.hold)
  | .viaddVb g d a b => some (slotWord g 2 17 (d.extractLsb' 0 6) (a.lo) (b.lo), rowExt (d.extractLsb' 6 2) a.hi b.hi a.hold b.hold)
  | .visubVa g d a b => some (slotWord g 1 18 (d.extractLsb' 0 6) (a.lo) (b.lo), rowExt (d.extractLsb' 6 2) a.hi b.hi a.hold b.hold)
  | .visubVb g d a b => some (slotWord g 2 18 (d.extractLsb' 0 6) (a.lo) (b.lo), rowExt (d.extractLsb' 6 2) a.hi b.hi a.hold b.hold)
  | .vimulVa g d a b => some (slotWord g 1 19 (d.extractLsb' 0 6) (a.lo) (b.lo), rowExt (d.extractLsb' 6 2) a.hi b.hi a.hold b.hold)
  | .vimulVb g d a b => some (slotWord g 2 19 (d.extractLsb' 0 6) (a.lo) (b.lo), rowExt (d.extractLsb' 6 2) a.hi b.hi a.hold b.hold)
  | .vimacVa g d a b => some (slotWord g 1 20 (d.extractLsb' 0 6) (a.lo) (b.lo), rowExt (d.extractLsb' 6 2) a.hi b.hi a.hold b.hold)
  | .vimacVb g d a b => some (slotWord g 2 20 (d.extractLsb' 0 6) (a.lo) (b.lo), rowExt (d.extractLsb' 6 2) a.hi b.hi a.hold b.hold)
  | .vandVa g d a b => some (slotWord g 1 21 (d.extractLsb' 0 6) (a.lo) (b.lo), rowExt (d.extractLsb' 6 2) a.hi b.hi a.hold b.hold)
  | .vandVb g d a b => some (slotWord g 2 21 (d.extractLsb' 0 6) (a.lo) (b.lo), rowExt (d.extractLsb' 6 2) a.hi b.hi a.hold b.hold)
  | .vorVa g d a b => some (slotWord g 1 22 (d.extractLsb' 0 6) (a.lo) (b.lo), rowExt (d.extractLsb' 6 2) a.hi b.hi a.hold b.hold)
  | .vorVb g d a b => some (slotWord g 2 22 (d.extractLsb' 0 6) (a.lo) (b.lo), rowExt (d.extractLsb' 6 2) a.hi b.hi a.hold b.hold)
  | .vxorVa g d a b => some (slotWord g 1 23 (d.extractLsb' 0 6) (a.lo) (b.lo), rowExt (d.extractLsb' 6 2) a.hi b.hi a.hold b.hold)
  | .vxorVb g d a b => some (slotWord g 2 23 (d.extractLsb' 0 6) (a.lo) (b.lo), rowExt (d.extractLsb' 6 2) a.hi b.hi a.hold b.hold)
  | .vshlVa g d a b => some (slotWord g 1 24 (d.extractLsb' 0 6) (a.lo) (b.lo), rowExt (d.extractLsb' 6 2) a.hi b.hi a.hold b.hold)
  | .vshlVb g d a b => some (slotWord g 2 24 (d.extractLsb' 0 6) (a.lo) (b.lo), rowExt (d.extractLsb' 6 2) a.hi b.hi a.hold b.hold)
  | .vshrVa g d a b => some (slotWord g 1 25 (d.extractLsb' 0 6) (a.lo) (b.lo), rowExt (d.extractLsb' 6 2) a.hi b.hi a.hold b.hold)
  | .vshrVb g d a b => some (slotWord g 2 25 (d.extractLsb' 0 6) (a.lo) (b.lo), rowExt (d.extractLsb' 6 2) a.hi b.hi a.hold b.hold)
  | .vshraVa g d a b => some (slotWord g 1 26 (d.extractLsb' 0 6) (a.lo) (b.lo), rowExt (d.extractLsb' 6 2) a.hi b.hi a.hold b.hold)
  | .vshraVb g d a b => some (slotWord g 2 26 (d.extractLsb' 0 6) (a.lo) (b.lo), rowExt (d.extractLsb' 6 2) a.hi b.hi a.hold b.hold)
  | .vfceqVa g m a b => some (slotWord g 1 27 (q3 m) (a.lo) (b.lo), rowExt 0 a.hi b.hi a.hold b.hold)
  | .vfceqVb g m a b => some (slotWord g 2 27 (q3 m) (a.lo) (b.lo), rowExt 0 a.hi b.hi a.hold b.hold)
  | .vfcltVa g m a b => some (slotWord g 1 28 (q3 m) (a.lo) (b.lo), rowExt 0 a.hi b.hi a.hold b.hold)
  | .vfcltVb g m a b => some (slotWord g 2 28 (q3 m) (a.lo) (b.lo), rowExt 0 a.hi b.hi a.hold b.hold)
  | .vfcleVa g m a b => some (slotWord g 1 29 (q3 m) (a.lo) (b.lo), rowExt 0 a.hi b.hi a.hold b.hold)
  | .vfcleVb g m a b => some (slotWord g 2 29 (q3 m) (a.lo) (b.lo), rowExt 0 a.hi b.hi a.hold b.hold)
  | .viceqVa g m a b => some (slotWord g 1 30 (q3 m) (a.lo) (b.lo), rowExt 0 a.hi b.hi a.hold b.hold)
  | .viceqVb g m a b => some (slotWord g 2 30 (q3 m) (a.lo) (b.lo), rowExt 0 a.hi b.hi a.hold b.hold)
  | .vicltVa g m a b => some (slotWord g 1 31 (q3 m) (a.lo) (b.lo), rowExt 0 a.hi b.hi a.hold b.hold)
  | .vicltVb g m a b => some (slotWord g 2 31 (q3 m) (a.lo) (b.lo), rowExt 0 a.hi b.hi a.hold b.hold)
  | .vicleVa g m a b => some (slotWord g 1 32 (q3 m) (a.lo) (b.lo), rowExt 0 a.hi b.hi a.hold b.hold)
  | .vicleVb g m a b => some (slotWord g 2 32 (q3 m) (a.lo) (b.lo), rowExt 0 a.hi b.hi a.hold b.hold)
  | .vselVa g d a b => some (slotWord g 1 33 (d.extractLsb' 0 6) (a.lo) (b.lo), rowExt (d.extractLsb' 6 2) a.hi b.hi a.hold b.hold)
  | .vselVb g d a b => some (slotWord g 2 33 (d.extractLsb' 0 6) (a.lo) (b.lo), rowExt (d.extractLsb' 6 2) a.hi b.hi a.hold b.hold)
  | .vmovVa g d a => some (slotWord g 1 34 (d.extractLsb' 0 6) (a.lo) (0), rowExt (d.extractLsb' 6 2) a.hi 0 a.hold false)
  | .vmovVb g d a => some (slotWord g 2 34 (d.extractLsb' 0 6) (a.lo) (0), rowExt (d.extractLsb' 6 2) a.hi 0 a.hold false)
  | .vbcstVa g d a => some (slotWord g 1 35 (d.extractLsb' 0 6) (a) (0), rowExt (d.extractLsb' 6 2) 0 0 false false)
  | .vbcstVb g d a => some (slotWord g 2 35 (d.extractLsb' 0 6) (a) (0), rowExt (d.extractLsb' 6 2) 0 0 false false)
  | .vlaneVa g d a i => some (slotWord g 1 36 (d) (a) (i.extractLsb' 0 6), wideExt14 i)
  | .vlaneVb g d a i => some (slotWord g 2 36 (d) (a) (i.extractLsb' 0 6), wideExt14 i)
  | .vextVa g d a i => some (slotWord g 1 37 (d) (a) (i.extractLsb' 0 6), wideExt14 i)
  | .vextVb g d a i => some (slotWord g 2 37 (d) (a) (i.extractLsb' 0 6), wideExt14 i)
  | .vcvtVa g d a dst src part sat => some (slotWord g 1 38 (d) (a) (src ++ dst), wideExt14 (0#5 ++ b1 sat ++ part ++ src ++ dst))
  | .vcvtVb g d a dst src part sat => some (slotWord g 2 38 (d) (a) (src ++ dst), wideExt14 (0#5 ++ b1 sat ++ part ++ src ++ dst))
  | .vpackVa g d a f y x => some (slotWord g 1 39 (d) (a) (b1 x ++ y ++ f), none)
  | .vpackVb g d a f y x => some (slotWord g 2 39 (d) (a) (b1 x ++ y ++ f), none)
  | .vunpkVa g d a f y => some (slotWord g 1 40 (d) (a) (0#1 ++ y ++ f), none)
  | .vunpkVb g d a f y => some (slotWord g 2 40 (d) (a) (0#1 ++ y ++ f), none)
  | .vperm g d a b => some (slotWord g 1 41 (d.extractLsb' 0 6) (a.lo) (b.lo), rowExt (d.extractLsb' 6 2) a.hi b.hi a.hold b.hold)
  | .vrotlVa g d a i => some (slotWord g 1 42 (d) (a) (i.extractLsb' 0 6), wideExt14 i)
  | .vrotlVb g d a i => some (slotWord g 2 42 (d) (a) (i.extractLsb' 0 6), wideExt14 i)
  | .vrsum g d a => some (slotWord g 1 43 (d.extractLsb' 0 6) (a.lo) (0), rowExt (d.extractLsb' 6 2) a.hi 0 a.hold false)
  | .vrmax g d a => some (slotWord g 1 44 (d.extractLsb' 0 6) (a.lo) (0), rowExt (d.extractLsb' 6 2) a.hi 0 a.hold false)
  | .vldxVa g d a i => some (slotWord g 1 45 (d) (a) (i.lo), i.ext)
  | .vldxVb g d a i => some (slotWord g 2 45 (d) (a) (i.lo), i.ext)
  | .vstxVa g d a i => some (slotWord g 1 46 (d) (a) (i.lo), i.ext)
  | .vstxVb g d a i => some (slotWord g 2 46 (d) (a) (i.lo), i.ext)
  | .vtrdVa g d t a r => some (slotWord g 1 47 (d) (a) (r.extractLsb' 0 3 ++ t), wideExt14 (0#3 ++ r ++ t))
  | .vtrdVb g d t a r => some (slotWord g 2 47 (d) (a) (r.extractLsb' 0 3 ++ t), wideExt14 (0#3 ++ r ++ t))
  | .vtcd g d t a => some (slotWord g 1 48 (d) (a) (q3 t), none)
  | .vtrwVa g d t a r => some (slotWord g 1 49 (d) (a) (r.extractLsb' 0 3 ++ t), wideExt14 (0#3 ++ r ++ t))
  | .vtrwVb g d t a r => some (slotWord g 2 49 (d) (a) (r.extractLsb' 0 3 ++ t), wideExt14 (0#3 ++ r ++ t))
  | .vtcw g d t a => some (slotWord g 1 50 (d) (a) (q3 t), none)
  | .vmskVa g m ma mb o => some (slotWord g 1 51 (q3 m) (q3 ma) (o ++ mb), none)
  | .vmskVb g m ma mb o => some (slotWord g 2 51 (q3 m) (q3 ma) (o ++ mb), none)
  | .viotaVa g d a b => some (slotWord g 1 52 (d.extractLsb' 0 6) (a) (b), rowExt (d.extractLsb' 6 2) 0 0 false false)
  | .viotaVb g d a b => some (slotWord g 2 52 (d.extractLsb' 0 6) (a) (b), rowExt (d.extractLsb' 6 2) 0 0 false false)
  | .custodianResult _ => none
  | .matrixCheck _ _ _ _ _ _ _ => none
  | .copyComplete _ => none
  | .resultLanding _ => none
  | .endpointReply _ => none
  | .phaseComplete _ => none
  | .barComplete _ => none
  | .waittRelease _ _ => none
  | .bankCleared _ _ _ => none
  | .stallTimeout _ => none
  | .safeBoundOverrun _ => none
  | .hlpRrd _ => none
  | .registerWrite _ => none
  | .hlpMrd _ => none
  | .hlpMwr _ => none
  | .hlpCpld _ => none
  | .hlpCpl _ => none
  | .hostReadTimeout _ => none
  | .moduleDisabled _ => none
  | .pcreate => none
  | .pdestroy => none
  | .colassign => none
  | .dsmassign => none
  | .dsmBankClearDone => none
  | .pooladd => none
  | .poolrem => none
  | .uashare => none
  | .vcreate => none
  | .vreset => none
  | .vresetComplete _ => none
  | .vdestroy => none
  | .credit => none
  | .keyload => none
  | .attest => none
  | .idcert => none
  | .deviceReset => none
  | .sidebandReset => none
  | .firmwareVerify _ => none
  | .packagePowerOn _ _ => none
  | .binningComplete _ => none
  | .plimWrite _ => none
  | .ltolWrite _ _ => none
  | .scrubctlWrite _ _ => none
  | .uarctxWrite _ _ _ => none
  | .gtcincWrite _ => none
  | .gtcadjWrite _ => none
  | .gtcsetWrite _ => none
  | .gtcSlewDone => none
  | .gtcHoldover => none
  | .loupeArm _ => none
  | .tampctlWrite _ => none
  | .vfstatDegWrite _ _ => none
  | .gsub _ _ => none
  | .gcan _ _ => none
  | .eqctlWrite _ _ => none
  | .eqheadWrite _ _ => none
  | .eventRecordWrite _ => none
  | .eqInterruptTimer _ => none
  | .arbiterEpoch => none
  | .fastLimiter _ => none
  | .sensorUpdate _ _ => none
  | .supplyExcursion => none
  | .meshBreak => none
  | .powerStateEntry _ => none
  | .wakeComplete _ => none
  | .portAdmit _ => none
  | .rowRefresh _ _ _ => none
  | .activationWindow => none
  | .patrolScrubStep _ => none
  | .hotScrubStep _ _ => none
  | .patrolPeriodEnd _ => none
  | .retirementCopyDone _ _ => none
  | .leaseIncrement _ _ => none
  | .leaseReply _ _ => none
  | .leaseRelease _ _ => none
  | .pullReadReply _ _ _ => none
  | .pullTimeout _ => none
  | .remoteRequest _ => none
  | .invalidationDone _ => none
  | .invalidationTimeout _ => none
  | .polisherClearBlock _ => none
  | .linkTraining _ _ _ => none
  | .laneLoss _ _ _ => none
  | .linkReplay _ _ => none
  | .skidSend _ => none
  | .messageLanding _ => none
  | .creditReturn _ _ => none
  | .collectiveStart _ => none
  | .reductionContribution _ _ _ _ _ => none
  | .collectiveComplete _ => none
  | .graphParse _ => none
  | .selectionRound _ => none
  | .gangToken => none
  | .priorityPreemption _ => none
  | .dispatch _ => none
  | .saveComplete _ => none
  | .contextRestore _ => none
  | .phaseRestart _ => none
  | .nodeRetire _ => none
  | .jobCardStart _ => none
  | .jobCardComplete _ => none
  | .caratFlush => none
  | .preemptionRequestArrival _ _ => none
  | .dsmBankRequest _ _ => none
  | .rangeRegisterFill _ _ => none

/-- The instruction the decoder reads from a row's bits as the opcode table numbers them: one slot word outside
a bundle with a header. -/
def decodeTableWord (nbits w : Nat) : Option Instr :=
  if nbits = 32 then (decode none (BitVec.ofNat 32 w)).toOption else none

end Sys2Proof
end

