-- ==== Sys2Proof/Machine/Tab.lean ====
section
/-!
DEFINITION. Sparse tables in one canonical form: the keys rise strictly and no entry holds the value that an unlisted key
reads as.  Register files, memories and every other table of the state are kept this way, so that equal tables are equal data.
-/

namespace Sys2Proof.Machine

/-- A table from numbers to values.  The value an unlisted key reads as is given to every operation. -/
abbrev Tab (α : Type) := List (Nat × α)

/-- The value at key `k`. -/
def tabGet {α : Type} (d : α) : Tab α → Nat → α
  | [], _ => d
  | (j, v) :: t, k => if j = k then v else tabGet d t k

/-- Puts `v` at key `k`, at its place in the order of the keys. -/
def tabPut {α : Type} : Tab α → Nat → α → Tab α
  | [], k, v => [(k, v)]
  | (j, w) :: t, k, v =>
    if k < j then (k, v) :: (j, w) :: t else if k = j then (k, v) :: t else (j, w) :: tabPut t k v

/-- Removes key `k`. -/
def tabDel {α : Type} (t : Tab α) (k : Nat) : Tab α := t.filter (fun e => e.1 != k)

/-- The table with `v` at key `k`; writing the default removes the entry. -/
def tabSet {α : Type} [DecidableEq α] (d : α) (t : Tab α) (k : Nat) (v : α) : Tab α :=
  if v = d then tabDel t k else tabPut t k v

/-- Every key of the table is above `b`, the keys rise strictly and no value is the default. -/
def tabAbove {α : Type} [DecidableEq α] (d : α) : Nat → Tab α → Bool
  | _, [] => true
  | b, (j, v) :: t => decide (b < j + 1) && decide (v ≠ d) && tabAbove d (j + 1) t

/-- The canonical form of a table. -/
def tabWf {α : Type} [DecidableEq α] (d : α) (t : Tab α) : Bool := tabAbove d 0 t

/-- Writes a list of entries in order. -/
def tabSets {α : Type} [DecidableEq α] (d : α) (t : Tab α) (ws : List (Nat × α)) : Tab α :=
  ws.foldl (fun a w => tabSet d a w.1 w.2) t

/-- An optional table: a key is absent or holds a value. -/
def tabFind {α : Type} : Tab α → Nat → Option α
  | [], _ => none
  | (j, v) :: t, k => if j = k then some v else tabFind t k

/-- The `n` bytes from key `a` up. -/
def tabBytes (t : Tab Byte) (a : Nat) : Nat → List Byte
  | 0 => []
  | n + 1 => tabGet 0#8 t a :: tabBytes t (a + 1) n

/-- Writes consecutive bytes from key `a` up. -/
def tabSetBytes (t : Tab Byte) (a : Nat) : List Byte → Tab Byte
  | [] => t
  | b :: bs => tabSetBytes (tabSet 0#8 t a b) (a + 1) bs

/-- A little-endian number from its bytes (R4). -/
def leNat : List Byte → Nat
  | [] => 0
  | b :: bs => b.toNat + 256 * leNat bs

/-- The `n` low bytes of a number, least significant first (R4). -/
def natLe : Nat → Nat → List Byte
  | 0, _ => []
  | n + 1, v => BitVec.ofNat 8 v :: natLe n (v / 256)

end Sys2Proof.Machine
end

