-- ==== Sys2Proof/Machine/Types.lean ====
section
/-!
DEFINITION. The pieces of a task's state: sequencers with their column group's registers, LRS, matrix and copy units,
results that have not landed yet, memory requests, and the task around them (chapters 07, 08, 11, 13, 15, 16).
-/

namespace Sys2Proof.Machine

/-- A vector row as its 32-bit lanes (R216). -/
abbrev Row := List (BitVec 32)

/-- A group position (R269): bundle index and slot of the group's first operation. -/
structure Pos where
  bundle : Nat
  slot   : Nat
  deriving DecidableEq, Repr

/-- How a group was reached, which decides the subcause of a fetch past code end (R266). -/
inductive Via where
  | sequential | target | handler | spawn
  deriving DecidableEq, Repr

/-- A bt register that holds a bundle index (R311), with the LC and the count of issued groups at its write. -/
structure Bt where
  bundle : Nat
  lc     : Nat
  grp    : Nat
  deriving DecidableEq, Repr

/-- A loop level (R314 to R316, R269).  `stride` is the running stride, `start` and `next` what LSTR wrote for the next LOOP. -/
structure Loop where
  active : Bool
  lstr   : Bool
  count  : Nat
  iter   : Nat
  idx    : Word
  stride : Word
  start  : Word
  next   : Word
  sB     : Nat
  eB     : Nat
  deriving DecidableEq, Repr

/-- A pending transfer (R312).  `drop` is the level of an LBRK (levels from it up end when the transfer takes effect, R317), 6 otherwise. -/
structure Pend where
  target : Nat
  left   : Nat
  drop   : Nat
  deriving DecidableEq, Repr

/-- The trap-return state of a sequencer in its handler (R261). -/
structure TrapRet where
  ret   : Pos
  via   : Via
  pend  : Option Pend
  loops : Tab Loop
  deriving DecidableEq, Repr

/-- A trap (R255 to R257): cause, subcause, slot, TINFO words and, for CAUSE 0x04, 0x0E and 0x0F, the data's address (R263). -/
structure Trap where
  cause : Nat
  sub   : Nat
  slot  : Nat
  ti0   : Word
  ti1   : Word
  ti2   : Word
  ti3   : Word
  gaddr : Option Word
  deriving DecidableEq, Repr

/-- An accumulator of a BMU (R212, R233). -/
structure Acc where
  s   : Word
  e   : BitVec 16
  nan : Bool
  ovm : Bool
  deriving DecidableEq, Repr

/-- An element of a drained row waiting to land (R355): its bit in the row, its accumulator as read, and its column and quadrant as
4 × column + quadrant (R212). -/
structure DrainElem where
  bit  : Nat
  acc  : Acc
  quad : Nat
  deriving DecidableEq, Repr

/-- A matrix operation that has issued (R351, R353), with what it has read: whether it is an MMAT, whether it zeroes the
accumulators, PREC, the drain format, the views A, B and of the accumulators, the grant, the MVALID cut and the scales; `c` begins its
cost window. -/
structure MatOp where
  mmat : Bool
  zero : Bool
  prec : Word
  fmt  : BitVec 2
  va   : Word
  vb   : Word
  av   : Word
  gr   : Word
  cut  : Nat
  sa   : Tab Byte
  sb   : Tab Byte
  c    : Nat
  deriving DecidableEq, Repr

/-- Where a result lands (R167), one constructor per kind of destination. -/
inductive Dst where
  /-- A scalar register. -/
  | sreg (n : BitVec 6) (v : Word)
  /-- lk, from CALL (R312): the bundle after the group that issues second after the CALL's group, as it turns out to be. -/
  | link
  /-- A scalar register, from the bytes of endpoint reply `id` to an access of a kind of R257 (R308, R309, R397). -/
  | load (n : BitVec 6) (id : Nat) (kind : Nat)
  /-- A predicate register. -/
  | pred (n : BitVec 3) (v : Bool)
  /-- The enabled bits of a mask register, with the flags of the compare (R329, R337). -/
  | mask (n : BitVec 3) (en v : BitVec 128) (fl : BitVec 5)
  /-- Bytes of LRS group row `x` in columns `cols` (a bit per column), with the flags of the result (R328). -/
  | row (x : Nat) (cols : BitVec 4) (ws : List (Nat × Byte)) (fl : BitVec 5)
  /-- Bytes of several group rows that VTCW writes through the write ports it holds (R348). -/
  | slice (rows : List Nat) (ws : List (Nat × Byte))
  /-- A 128-byte row of a copy, from endpoint reply `id`, or zeroed bytes given (R373). -/
  | copyRow (x : Nat) (cols : BitVec 4) (id off : Nat)
  /-- A drained accumulator row (R355): group row, format, rounding mode, add, elements, and whether MMAT drains it (R354). -/
  | drain (x : Nat) (fmt rm : BitVec 2) (add mmat : Bool) (es : List DrainElem)
  /-- The accumulators of the group as an operation leaves them (R234, R357). -/
  | accs (t : Tab Acc)
  /-- The scale bytes of A (`false`) or B (`true`) rows (R358). -/
  | scale (b : Bool) (t : Tab Byte)
  /-- A control register's value comes into force (R222). -/
  | ctrl (idx : Nat) (v : Word)
  /-- A copy descriptor comes into force (R370). -/
  | desc (n : Nat) (v : BitVec 128)
  /-- A matrix operation whose group had conflict cycles reads its operand rows, as they stand when its cost window begins (R215). -/
  | matrix (x : MatOp)
  /-- Matrix status bits become visible: NAN by column and quadrant and OV by column, or their clearing (R219, R220). -/
  | stat (clear : Bool) (nan : BitVec 16) (ov : BitVec 4)
  /-- LBANK bits set and cleared (R182 to R184). -/
  | banks (set clr : BitVec 6)
  /-- Energy of a chunk of a matrix operation: bit-products, and group rows read (R221, R362). -/
  | energy (bits rows : Nat)
  /-- A trap that falls at a fixed cycle of a unit (R237, R265). -/
  | trap (t : Trap)
  deriving DecidableEq, Repr

/-- A result that has not landed: issued at LC `iss`, it lands at the end of cycle `lc`. -/
structure Landing where
  iss : Nat
  lc  : Nat
  dst : Dst
  deriving DecidableEq, Repr

/-- A copy in progress or scheduled (R371 to R379), with what it captured at its issue. -/
structure Copy where
  /-- Its reads answer reply `id`, its writes reply `id + 1`. -/
  id    : Nat
  /-- LC of its issue, and its slot's position in the group. -/
  iss   : Nat
  slot  : Nat
  unit  : Nat
  kind  : Nat
  rel   : Bool
  cd    : Nat
  start : Nat
  lat   : Nat
  rows  : Nat
  /-- Rows at or above this index are skipped (R377). -/
  cut   : Nat
  desc  : BitVec 128
  /-- Memory side: buffer-table index, its entry, offset of row 0 and byte stride between rows. -/
  index : Nat
  entry : BitVec 256
  off   : Nat
  step  : Nat
  /-- The second memory side of a CPDI. -/
  index2 : Nat
  entry2 : BitVec 256
  off2  : Nat
  /-- CPG's gathered indices, once read (R379). -/
  gather : List Nat
  /-- LBANK.OWN as it starts: with release-on-completion it holds these banks itself from then on (R183, R378). -/
  held   : BitVec 6
  /-- A CPDI's writes have been sent. -/
  wrote  : Bool
  deriving DecidableEq, Repr

/-- What the status entry of a copy unit reports (R219). -/
structure UnitStatus where
  cd   : Nat
  done : Bool
  deriving DecidableEq, Repr

/-- The state of a sequencer (R162 to R166). -/
inductive SeqSt where
  /-- The task has no such sequencer. -/
  | absent
  /-- A sibling that is not executing. -/
  | idle
  /-- Executing: its next group issues at `nextLC`. -/
  | running
  /-- The primary waits in a JOIN for sibling `k` (R166). -/
  | joining (k : Nat)
  /-- The primary has issued HALT while siblings are busy (R166). -/
  | halting
  /-- The primary has halted. -/
  | halted
  deriving DecidableEq, Repr

/-- A line of a read cache (R218): the VF + 1 and the 64-byte block of its intermediate address, or 0 and the block of a DSM key. -/
structure Line where
  vf   : Nat
  blk  : Nat
  data : List Byte
  deriving DecidableEq, Repr

/-- A sequencer and the column group it drives (R191). -/
structure Seq where
  st     : SeqSt
  /-- LC at which a sibling last started, two after its SPAWN, and LC of its last HALT (R164, R165, R257). -/
  startLC : Nat
  haltLC : Nat
  pos    : Pos
  via    : Via
  nextLC : Nat
  /-- Groups issued since launch or SPAWN (R311 counts them). -/
  grp    : Nat
  s      : Tab Word
  q      : BitVec 8
  m      : Tab (BitVec 128)
  bt     : Tab Bt
  loops  : Tab Loop
  pend   : Option Pend
  hret   : Option TrapRet
  trapv  : Word
  tcause : Word
  tinfo  : Tab Word
  prec   : Word
  vwin   : Word
  fflags : Word
  mvalid : Word
  td     : Tab Word
  av     : Tab Word
  sh     : Tab Word
  lat    : Tab Row
  land   : List Landing
  lrs    : Tab Byte
  acc    : Tab Acc
  scaleA : Tab Byte
  scaleB : Tab Byte
  cd     : Tab (BitVec 128)
  copies : List Copy
  units  : Tab UnitStatus
  engc   : BitVec 32
  /-- LBANK.OWN of one column; every column of the group has the same (R182). -/
  own    : BitVec 6
  /-- Released banks whose clearing is not complete (R184). -/
  clearing : BitVec 6
  nan    : BitVec 16
  ov     : BitVec 4
  /-- The last cost window: first cycle, first cycle after it, and the view descriptors whose extents it protects (R215, R354). -/
  win    : Nat × Nat
  winExt : List Word
  /-- LC of the issue of the operation with that window (R257). -/
  opLc   : Nat
  /-- Intervals in which an MDRN lands (R220). -/
  drn    : List (Nat × Nat)
  /-- Cycles in which VTCD or VTCW holds the read ports, and those in which VTCW holds the write ports (R216, R348). -/
  rdHold : Nat × Nat
  wrHold : List (Nat × Nat)
  /-- Range registers: the buffer-table indices cached, most recently used first (R115). -/
  rr     : List (Nat × BitVec 256)
  /-- The read cache, oldest line first (R218). -/
  rcache : List Line
  /-- The 64-byte blocks of the code buffer that its last group came from. -/
  code   : List Nat
  deriving DecidableEq, Repr

/-- A landed message in its slot (R56): STAMP, SEQ, KIND 1, payload, and the sender's code, to which its credit returns (R422). -/
structure Landed where
  stamp   : Nat
  seq     : Nat
  scalar  : Bool
  payload : List Byte
  src     : Nat
  deriving DecidableEq, Repr

/-- A channel descriptor (R58) with its landing slots (R56). -/
structure Chan where
  path : BitVec 2
  recv : Bool
  dest : BitVec 32
  pch  : BitVec 5
  port : BitVec 8
  lat  : BitVec 24
  cred : BitVec 5
  seq  : BitVec 32
  /-- Landed messages by slot; an empty slot is absent. -/
  slots : Tab Landed
  /-- A sequence fault awaits the next RECV: the SEQ found (R56). -/
  fault : Option Nat
  deriving DecidableEq, Repr

/-- The code of a member of a node of this package, and of a member of a gang as another package names it (R141): the first tells one
launch of a gang from the next. -/
def destLocal (node member : Nat) : Nat := node * 2048 + member
def destRemote (vf gid member : Nat) : Nat := 2 ^ 40 + vf * 2 ^ 25 + gid * 2 ^ 11 + member

/-- Who makes a memory request (R242). -/
inductive Agent where
  | task (tid k : Nat)
  | card (node : Nat)
  | host (func tag : Nat)
  /-- A remote task or card `src`, by a request for a VF that came in at a port. -/
  | remote (port vf src : Nat)
  | setter
  /-- The fetch of a sequencer's code, ahead of its groups' issue (R266). -/
  | fetch (tid k : Nat)
  deriving DecidableEq, Repr

/-- Where a request goes: an intermediate address of a VF, an untranslated stack address, or DSM (R116, R117); or a frame of a VF that the
device itself reaches by its untranslated address, with the intermediate block number of the first byte, which encryption uses (R107). -/
inductive Loc where
  | ipa (vf addr : Nat)
  | phys (stack addr : Nat)
  | dsm (die bank byte : Nat)
  | own (vf stack addr blk : Nat)
  deriving DecidableEq, Repr

/-- A memory request accepted by its unit and not yet performed (R44, R244). -/
structure Req where
  id   : Nat
  /-- Offset of its bytes in the reply. -/
  off  : Nat
  who  : Agent
  vf   : Nat
  loc  : Loc
  size : Nat
  op   : MemOp
  data : List Byte
  /-- The buffer address of its first byte, for reports. -/
  ba   : Word
  /-- A FENCE, and no access (R386). -/
  fence : Bool
  /-- A scalar load, whose block may enter the read cache (R121, R218). -/
  scalar : Bool
  deriving DecidableEq, Repr

/-- A piece of a reply that ended badly: its offset in the reply, how (1 uncorrectable, 2 a write needing read-modify-write of
uncorrectable data, 3 unmapped or refused), its intermediate and its buffer address (R36, R120). -/
structure ReplyErr where
  off  : Nat
  kind : Nat
  ipa  : Nat
  ba   : Word
  deriving DecidableEq, Repr

/-- An endpoint reply being collected: who awaits it, its size, pieces outstanding, bytes by offset, errors, and whether it has
arrived (R169). -/
structure Reply where
  who  : Agent
  size : Nat
  left : Nat
  data : Tab Byte
  errs : List ReplyErr
  ok   : Bool
  deriving DecidableEq, Repr

/-- A custodian instruction on its way to its target (R397): the reply it answers, its task with VF and sequencer, when it is
performed, which it is (its OP in R285), its operands, and BTWR's entry for its source; `overtaken`: an alarm has erased the key
slots; a FREL that has passed its set keeps its VALUE and the frames it awaits, by stack and number. -/
structure CustOp where
  reply : Nat
  tid   : Nat
  vf    : Nat
  due   : Nat
  op    : Nat
  a     : Word
  b     : Word
  entry : BitVec 256
  overtaken : Bool
  /-- The reply that BTWR's read of its source answers. -/
  src   : Nat
  passed : Option Nat
  wait  : List (Nat × Nat)
  deriving DecidableEq, Repr

/-- What a group sends outside its columns; it leaves them at the end of the group's cycle, unless a trap takes the cycle away (R260). -/
inductive Out where
  | req (r : Req)
  | msg (ch : Nat) (m : Msg) (path : BitVec 2)
  /-- The credit of a message that channel `ch` has received from the sender `src`. -/
  | credit (ch src : Nat)
  | yield
  | flush (k : Nat)
  | mark
  | ack (k : Nat)
  | cust (c : CustOp)
  /-- A trap has entered a handler at LC `lc`: its TCAUSE, for the Loupe (R259). -/
  | trap (k : Nat) (word : Word) (lc : Nat)
  deriving DecidableEq, Repr

/-- A live list (R297). -/
structure LiveList where
  ranges : List (Nat × Nat)
  regs   : BitVec 64
  acc    : Bool
  deriving DecidableEq, Repr

/-- A variant of a code object (R295) with its channel and phase entries (R296, R297). -/
structure Variant where
  mode  : Nat
  cls   : Nat
  sibs  : Nat
  contract : Nat
  hop   : Nat
  entry : Nat
  lrows : Nat
  safed : Nat
  cost  : Nat
  lbown : BitVec 6
  chans : List (List Byte)
  phases : List (Nat × Nat)
  deriving DecidableEq, Repr

/-- A loaded object table (R294 to R297). -/
structure Obj where
  variants : List Variant
  live     : List LiveList
  sched    : List (List (Nat × Nat))
  /-- The signature block verifies (R102). -/
  signed   : Bool
  digest   : List Byte
  deriving DecidableEq, Repr

/-- A footprint region (R134) as a lease window (R127): buffer index, offset, length, kinds. -/
structure Region where
  index : Nat
  off   : Nat
  len   : Nat
  read  : Bool
  write : Bool
  deriving DecidableEq, Repr

/-- What a pending wait of R169 needs besides memory and messages: arrivals and completions by number. -/
structure Waits where
  /-- BARs issued, and the highest BAR number complete (R385). -/
  bars : Nat
  barOk : Nat
  /-- The highest PHASE number complete (R177). -/
  phOk : Nat
  /-- WAITT released for the group that issues at this LC less one, by sequencer (R322). -/
  waitOk : Tab Nat
  deriving DecidableEq, Repr

/-- A group issued in this LC: its position, and how much the task had sent and charged before it (R260). -/
structure Started where
  pos   : Pos
  outs  : Nat
  meter : Nat
  deriving DecidableEq, Repr

/-- What a save or a phase mark takes along of a sequencer beside the image, which has no field for it (R187, R230; log 26). -/
structure Aside where
  /-- Results under way. -/
  lands : List Landing
  /-- The levels that a pending LBRK ends (R317), and those of one that a handler suspends. -/
  drop  : Nat
  hdrop : Nat
  /-- How the next group is reached (R266), and how the group that a handler returns to. -/
  via   : Via
  hvia  : Via
  /-- It stands in its handler. -/
  hand  : Bool
  /-- LC of the write of each bt register, and groups issued since, its own among them (R311). -/
  bts   : Tab (Nat × Nat)
  /-- STRIDE for the next LOOP, by level, and of the levels that a handler suspends (R316). -/
  next  : Tab Word
  hnext : Tab Word
  deriving DecidableEq, Repr

/-- A task (R162): what its launch fixed, its clock, its channels and its sequencers other than the one in focus. -/
structure Task where
  /-- A store met uncorrectable data: its address and intermediate address (R36). -/
  serr  : Option (Word × Nat)
  alive : Bool
  vf    : Nat
  node  : Nat
  member : Nat
  die   : Nat
  tile  : Nat
  col   : Nat
  g     : Nat
  nsib  : Nat
  gmode : Nat
  cls   : Nat
  cust  : Bool
  place : Word
  safeb : Nat
  hop   : Nat
  code  : Word
  obj   : Obj
  vidx  : Nat
  gang  : Nat
  slots : List (Nat × Nat)
  lease : List Region
  lc    : Nat
  phn   : Nat
  sref  : Nat
  /-- Cyc for which LC has been held, and the LC after the cycle at whose end it is held (R175). -/
  hold  : Nat
  holdAt : Nat
  /-- Groups issued in this LC by sequencer, and the counter as the LC began (R260). -/
  was   : Tab Started
  meterWas : Nat
  /-- Sequencers that stood in their handlers as this LC began, and as the LC before began (R255). -/
  hands : List Nat
  handsPrev : List Nat
  /-- What the groups of the LC before have sent and a stall timeout of that LC could still take back, and the counter as that LC
  began (R175, R260). -/
  kept  : List Out
  meterPrev : Nat
  /-- The R169 condition that holds, 1 to 10, 0 when none. -/
  cond  : Nat
  ending : Option (Nat × Pos × Trap)
  /-- The pre-emption request that has arrived, and the cyc of its arrival (R187). -/
  preempt : Option PreemptKind
  preAt : Nat
  /-- The request a SAFE has taken, with the SAFE's live list (R187). -/
  taken : Option (PreemptKind × Nat)
  waits : Waits
  chans : Tab Chan
  out   : List Out
  /-- The Carat counter F in 2^-8 fJ (R155, R221). -/
  meter : Nat
  seqs  : Tab Seq
  deriving DecidableEq, Repr

/-- The issue a slot operation takes part in: the group's LC `c`, its last cycle `cl`, the last cycle of each read cycle (R327),
its place, the slot's number in the group and word, and whether FI or LI turns the slot off (R279). -/
structure Issue where
  c     : Nat
  cl    : Nat
  cyc   : List Nat
  pos   : Pos
  /-- Bundle and slot of the group's last slot, and the position that follows in sequence. -/
  last  : Pos
  next  : Pos
  slot  : Nat
  bundle : Nat
  word  : SlotWord
  off   : Bool
  /-- The group's next position, where an operation chose it: a loop with count 0 (R314) or TRET (R262). -/
  jump  : Option Pos
  /-- TRET has restored the loop state and the pending transfer: they are not advanced after its group (R262). -/
  keep  : Bool
  /-- The trap that the operation took. -/
  trap  : Option Trap
  deriving DecidableEq, Repr

end Sys2Proof.Machine
end

