-- ==== Sys2Proof/Machine/Dev.lean ====
section
/-!
DEFINITION. The device around the tasks: power, main memory, links, global time, the host link, partitions and virtual
functions, trust, translation and the Setter (chapters 01 to 06, 17).
-/

namespace Sys2Proof.Machine

/-! ### Package (ch. 01) -/

/-- A die under the arbiter (R12, R20, R24): issue cap, grant in 1/16 W, and the highest of its last sensor readings. -/
structure Die where
  cap    : Nat
  grant  : Nat
  /-- DTEMP: 0 before the first reading (log 12). -/
  temp   : BitVec 16
  /-- The last readings of the 16 sensors, one per mesh row (R24). -/
  rows   : Tab (BitVec 16)
  /-- A sensor has read above 100 °C since the last epoch boundary (R24). -/
  hotEpoch : Bool
  /-- Cyc of the last DSM request, for G3 (R22). -/
  dsmAt  : Nat
  /-- The VF served last at each level, + 1 (R150). -/
  served : Tab Nat
  deriving DecidableEq, Repr

/-- A power element's state (R22, R23): state 0 P0, 1 G1, 2 G2, 3 G3; the cyc of its last entry or wake; when a wake ends; and a column's
first cyc without a task. -/
structure PowerEl where
  state : Nat
  since : Nat
  wake  : Option Nat
  idle  : Nat
  deriving DecidableEq, Repr

/-- The Loupe (R26 to R29, R87). -/
structure Loupe where
  base  : Word
  len   : BitVec 32
  arm   : Bool
  full  : Bool
  pos   : Nat
  /-- Base and length taken at the arming. -/
  abase : Word
  alen  : Nat
  /-- SEQ of each source. -/
  seqs  : Tab Nat
  deriving DecidableEq, Repr

/-! ### Main memory (ch. 02) -/

/-- A hot-list row (R42): bank × 16,384 + row, when its last error was met, and its clean hot scrubs in a row. -/
structure Hot where
  row   : Nat
  last  : Nat
  clean : Nat
  deriving DecidableEq, Repr

/-- An activation-tracker entry (R45). -/
structure Track where
  bank  : Nat
  row   : Nat
  part  : Nat
  count : Nat
  deriving DecidableEq, Repr

/-- A partition throttled on a bank, and the cyc of its last activation there (R45). -/
structure Throttle where
  part : Nat
  bank : Nat
  last : Nat
  deriving DecidableEq, Repr

/-- A retirement copy in progress (R41): frame and spare. -/
structure Retire where
  frame : Nat
  spare : Nat
  deriving DecidableEq, Repr

/-- A stack and its memory port (R30 to R51). -/
structure Stack where
  up      : Bool
  binned  : Bool
  selfref : Bool
  ce      : BitVec 64
  ue      : BitVec 64
  ode     : BitVec 64
  errKind : Nat
  errPart : Nat
  errBlk  : Nat
  period  : Nat
  /-- PERIOD of the patrol period in progress (R51). -/
  running : Nat
  pos     : Nat
  /-- Blocks of the patrol's row already read. -/
  blk     : Nat
  spareFree : Nat
  retired : Nat
  exh     : Bool
  thr     : BitVec 48
  hot     : List Hot
  score   : Tab Nat
  /-- Bits set in the Bloom filters: (bank × 2 + filter) × 8,192 + bit (R38). -/
  filt    : Tab Nat
  /-- The cyc of each row's last refresh, by bank × 16,384 + row; an unlisted row was last refreshed at `freshAt`, when the port took
  the stack over. -/
  fresh   : Tab Nat
  freshAt : Nat
  /-- The port's place in its sweep over the rows (R38, R39). -/
  refPos  : Nat
  /-- Second-stage entries that the port caches (R120): VF and GFN, most recently used first. -/
  cached  : List (Nat × Nat)
  track   : List Track
  /-- Activations of each row in the window (R45). -/
  acts    : Tab Nat
  throt   : List Throttle
  copying : List Retire
  /-- Partition served last (R44). -/
  last    : Nat
  grant   : Nat
  budget  : Nat
  used    : Nat
  waited  : Bool
  doubled : Bool
  temp    : BitVec 16
  /-- The stack has read above 95 °C since the last epoch boundary (R24). -/
  hotEpoch : Bool
  /-- The Polisher's queue, promoted frames first, the frame under clearing, blocks written and blocks recorded (R400). -/
  queue   : List Nat
  prom    : Nat
  clearing : Option Nat
  written : Nat
  recorded : Nat
  deriving DecidableEq, Repr

/-- What a frame is used for. -/
inductive FrameUse where
  | none | table | save | array | mapped | split
  deriving DecidableEq, Repr

/-- A frame of a stack (R31, R89, R122, R130): its pool + 1 (0 none), its owner VF + 1 (0 none), its use, and its quarantine:
0 none, 1 bound for no pool, p + 2 bound for p's pool. -/
structure Frame where
  pool  : Nat
  own   : Nat
  use   : FrameUse
  quar  : Nat
  spare : Bool
  deriving DecidableEq, Repr

/-- How a block stands that a protected VF wrote (R107): the VF, the intermediate block number and the key slot's key. -/
structure Sealed where
  vf  : Nat
  blk : Nat
  key : List Byte
  deriving DecidableEq, Repr

/-! ### Links (ch. 03) -/

/-- A message queued at a port, with the task that sent it. -/
structure Queued where
  tid : Nat
  m   : Msg
  deriving DecidableEq, Repr

/-- A reduction context of a port (R66, R71): allotted, partition, the collective that holds it and an allotment to take effect
when it frees. -/
structure Ctx where
  v    : Bool
  part : Nat
  cid  : Option Nat
  next : Option (BitVec 8)
  deriving DecidableEq, Repr

/-- A UALink port (R52 to R65, R71). -/
structure Port where
  width   : Nat
  up      : Bool
  retrain : BitVec 16
  latcal  : Nat
  rttmax  : Nat
  replay  : BitVec 64
  skid    : List Queued
  high    : Nat
  /-- The link layer holds the skid buffer for a replay (R64), or for want of flow-control credits (R62). -/
  held    : Bool
  dry     : Bool
  fall    : BitVec 64
  chk     : BitVec 64
  ctx     : Tab Ctx
  /-- Messages in the landing buffer whose destination cannot take them yet (R141). -/
  landing : List Msg
  deriving DecidableEq, Repr

/-- What leaves the package over UALink, by port. -/
inductive Sent where
  | message (port : Nat) (m : Msg)
  | credit (port dst ch : Nat)
  | pullRead (port id rvf ripa : Nat)
  | reply (port : Nat) (ok : Bool) (data : List Byte)
  | contribution (port cid member group : Nat) (elems : List (BitVec 64)) (residue : Nat)
  /-- A group of a contribution that copy units bring in a fallback (R66). -/
  | copied (cid member group : Nat) (elems : List (BitVec 64)) (residue : Nat)
  /-- The residue that this package's engines form of their sum of a group (R69). -/
  | partSum (port cid group residue : Nat)
  /-- Whether every port of this package on the tree has a context (R66). -/
  | contexts (port cid : Nat) (ok : Bool)
  /-- This package's engines have found a residue mismatch (R69). -/
  | mismatch (port cid : Nat)
  /-- A member of this package is withdrawn (R70). -/
  | withdrawn (port cid : Nat)
  /-- The completion has been delivered at every member of this package whose card has started, `n` of them (R70). -/
  | delivered (port cid n : Nat)
  deriving DecidableEq, Repr

/-- Global time (R72 to R75), in units of 2^-40 ns: the position in the reference period in cyc, the advance of the running period
and the slew in it. -/
structure Gtc where
  t     : Nat
  phase : Nat
  run   : Nat
  app   : Int
  inc   : Nat
  /-- Slew still outstanding, in 2^-40 ns. -/
  slew  : Int
  /-- A step waiting for the next reference period. -/
  stepBy : Nat
  eb    : Nat
  hold  : Bool
  valid : Bool
  adjAt : Nat
  deriving DecidableEq, Repr

/-! ### Host link, commands and trust (ch. 04) -/

/-- Why the device reads host memory. -/
inductive ReadFor where
  | firmware
  | key
  | nonce
  deriving DecidableEq, Repr

/-- A device read of host memory outstanding (R83). -/
structure HostRead where
  why  : ReadFor
  off  : Nat
  len  : Nat
  sent : Nat
  /-- Its requester still awaits it. -/
  live : Bool
  deriving DecidableEq, Repr

/-- The command interface (R88). -/
structure Cfg where
  arg0 : Word
  arg1 : Word
  arg2 : Word
  arg3 : Word
  /-- The arguments and opcode of the command being run. -/
  cmd  : Word
  a0   : Word
  a1   : Word
  a2   : Word
  a3   : Word
  busy : Bool
  ovr  : Bool
  code : Nat
  /-- Bytes read from host memory for the running command. -/
  buf  : Tab Byte
  /-- End of the bytes asked for so far. -/
  got  : Nat
  left : Nat
  bad  : Bool
  deriving DecidableEq, Repr

/-- A transaction as it leaves, with the module it is sent over (R78). -/
structure SentHlp where
  module : Option Nat
  x : Hlp
  deriving DecidableEq, Repr

/-- The device block (R85) and the reads outstanding. -/
structure HostSt where
  powered : Bool
  ready   : Bool
  binning : Bool
  resetting : Bool
  /-- DEVCTL.RST. -/
  rst     : Bool
  fwerr   : Bool
  mods    : BitVec 4
  fwaddr  : Word
  fwfloor : Nat
  hlperr  : BitVec 64
  reads   : Tab HostRead
  /-- Reads that wait for a free tag, with their addresses (R79). -/
  wants   : List (Word × HostRead)
  tag     : Nat
  /-- Transactions sent to the host, oldest first. -/
  sent    : List SentHlp
  /-- Functions that a disabled module still serves, because transactions of theirs are in flight on it (R78). -/
  serving : Tab Nat
  /-- SHA-512 of the running firmware image (R105). -/
  image   : List Byte
  deriving DecidableEq, Repr

/-- A record of an event queue (R98). -/
structure Record where
  type   : Nat
  status : Nat
  node   : Nat
  handle : Nat
  place  : Word
  lc     : Nat
  pc     : Nat
  gaddr  : Word
  tcause : Word
  ti0    : Word
  ti1    : Word
  ti2    : Word
  ti3    : Word
  energy : Int
  gtci   : Nat
  deriving DecidableEq, Repr

/-- A submitted graph image not yet parsed. -/
structure Submit where
  handle : Nat
  addr   : Word
  /-- Cancel requests that name it, by node index (R96). -/
  cancels : List Nat
  deriving DecidableEq, Repr

/-- A virtual function (R90 to R101, R105).  `state`: 0 ABSENT, 1 ACTIVE, 2 DEGRADED, 3 KEYLOST, 4 RESETTING, 5 RESET. -/
structure Vf where
  part    : Nat
  state   : Nat
  die     : Nat
  prot    : Bool
  cust    : Bool
  slot    : Nat
  msiData : Nat
  msiAddr : Word
  btStack : Nat
  btFrame : Nat
  svStack : Nat
  svFrame : Nat
  acct    : Int
  chain   : List Byte
  objects : Nat
  gscred  : Nat
  gsub    : Word
  glast   : Nat
  gcan    : Word
  gerr    : BitVec 4
  subs    : List Submit
  eqbase  : Word
  eqen    : Bool
  eqlog   : Nat
  eqhead  : BitVec 32
  eqtail  : BitVec 32
  eqint   : Word
  eqlost  : BitVec 64
  held    : List Record
  /-- Records written since the last INTR, and the cyc of the first of them. -/
  since   : Nat
  stamp1  : Nat
  /-- Deficit of the round robin by level (R150). -/
  deficit : Tab Int
  /-- Quota pre-emption is in force (R158). -/
  quota   : Bool
  /-- Second-stage arrays taken up, by stack: frame + 1 (R118). -/
  arrays  : Tab Nat
  /-- Frames taken by snapshot splits, by stack (R129). -/
  splits  : Tab Nat
  /-- Steps of a reset that have been taken (R92): 0 while its tasks end, 1 once its collectives are withdrawn, 2 once its leases are
  released. -/
  rstep   : Nat
  deriving DecidableEq, Repr

/-- A loaded key slot (R106). -/
structure KeySlot where
  part : Nat
  key  : List Byte
  deriving DecidableEq, Repr

/-- Trust (R102 to R110). -/
structure Trust where
  identity : Bool
  /-- The transport key of the n-th reset, where present (R104). -/
  transport : Option Nat
  resets   : Nat
  level    : Nat
  count    : Nat
  keyErased : Bool
  idErased : Bool
  causes   : BitVec 5
  hold     : Bool
  slots    : Tab KeySlot
  deriving DecidableEq, Repr

/-! ### Translation (ch. 05) -/

/-- A frame of a VF: VF, stack, GFN. -/
structure Slot3 where
  vf    : Nat
  stack : Nat
  gfn   : Nat
  deriving DecidableEq, Repr

/-- An outstanding invalidation (R124): a buffer-table entry (`ss` false) or a second-stage entry of `vf`, by its physical
place; the sequencers that have not acknowledged, when it started, and periods passed. -/
structure Inval where
  ss     : Bool
  vf     : Nat
  stack  : Nat
  addr   : Nat
  /-- Buffer INDEX or intermediate address of the frame. -/
  what   : Nat
  /-- The frames that the entry named before this write, and before earlier ones of this invalidation. -/
  frames : List Nat
  groups : List (Nat × Nat)
  start  : Nat
  period : Nat
  /-- Accesses through the old entry that had not retired at the write, or, of a sequencer, at its acknowledgement (R124, R125): requests,
  and copies by number. -/
  olds   : List Req
  copies : List Nat
  /-- INVWD in µs as the invalidation began (R118). -/
  wd     : Nat
  deriving DecidableEq, Repr

/-- A pull (R128): the frame's place, the nodes whose leases await it, when it began, and LPULLWD in µs as it began (R118). -/
structure Pull where
  vf    : Nat
  stack : Nat
  gfn   : Nat
  nodes : List Nat
  start : Nat
  wd    : Nat
  sent  : Nat
  got   : Nat
  deriving DecidableEq, Repr

/-! ### The Setter (ch. 06) -/

/-- Node states (R138); a node is submitted until its graph is accepted, and no record remains of a terminal one. -/
inductive NodeSt where
  | waitingDeps | waitingLease | placed | running | suspended
  deriving DecidableEq, Repr

/-- Lease states (R126). -/
inductive LeaseSt where
  | none | acquiring | pulling | held | failed
  deriving DecidableEq, Repr

/-- A frame a lease covers: the VF whose array maps it, stack and GFN; `done` once its LCOUNT has been raised. -/
structure LeaseFrame where
  vf    : Nat
  stack : Nat
  gfn   : Nat
  done  : Bool
  deriving DecidableEq, Repr

/-- The columns of a member's place: die, tile, first column, columns of all its groups. -/
structure Grp where
  die  : Nat
  tile : Nat
  col  : Nat
  g    : Nat
  deriving DecidableEq, Repr

/-- A piece of the device's own work that reads memory through the ports, or writes it block by block (R44). -/
inductive JobFor where
  /-- Parsing a submission (R135). -/
  | graph (vf handle : Nat)
  /-- The object and the arguments of a node (R132, R293). -/
  | node (id : Nat)
  /-- The contexts, or the phase marks, of a node that goes on (R179, R267). -/
  | image (id : Nat)
  /-- The buffer-table entries of a node's regions (R126). -/
  | lease (id : Nat)
  /-- The entry of a frame whose LCOUNT rises for a node's lease, and one whose count falls after it (R126). -/
  | frame (id n : Nat)
  | release (id : Nat)
  /-- The entries of the frames of a drain card (R129). -/
  | drain (id : Nat)
  /-- A range-register fill (R115). -/
  | fill (tid k : Nat)
  /-- The channel of a saved member that a message or a credit reaches (R437): slot address and channel. -/
  | message (slot ch : Nat)
  | credit (slot ch : Nat)
  /-- The entries that a custodian instruction accesses at its target (R397). -/
  | cust (reply : Nat)
  /-- The copy of a frame under a drain, block by block (R129). -/
  | split (vf stack gfn : Nat)
  deriving DecidableEq, Repr

/-- A reply that such a piece of work awaits, with what it has asked for. -/
structure Job where
  why : JobFor
  key : List Nat
  id  : Nat
  deriving DecidableEq, Repr

/-- A member of a task node: its place, its save slots and its task. -/
structure Member where
  grp   : Grp
  slots : List Nat
  tid   : Nat
  /-- Halted, or saved. -/
  done  : Bool
  saved : Bool
  /-- The reply that its save's writes answer, 0 for none; the LC it was saved at (R153); and whether it had received over a place of
  KIND 01 in its phase (R179). -/
  saving : Nat
  lc    : Nat
  k01   : Bool
  /-- Ended by a cancel at a safe point (R139). -/
  cut   : Bool
  /-- A store of the member met uncorrectable data before its save (R36). -/
  serr  : Option (Word × Nat)
  /-- The variant whose code its phase mark is of (R270), and SEQ of its channels there. -/
  markVidx : Nat
  markSeq : Tab Nat
  /-- Sequence faults still due at the next receive, kept across a save: the SEQ found, by channel (R56). -/
  faults : Tab Nat
  /-- The senders of the messages that its image keeps, by 16 × channel + slot (R422, R437). -/
  srcs : Tab Nat
  /-- The meter residue that a save has taken along (R156). -/
  meter : Nat
  /-- What a save and a phase mark take along beside the image, by sequencer (log 26). -/
  aside : Tab Aside
  markAside : Tab Aside
  deriving DecidableEq, Repr

/-- The task fields of a node (R132). -/
structure TaskNode where
  gang  : Nat
  pcls  : Nat
  dies  : Nat
  code  : Word
  safeb : Nat
  args  : Word
  vmask : BitVec 64
  param : Word
  gid   : Nat
  rvf   : Nat
  deriving DecidableEq, Repr

/-- The card fields of a node (R133). -/
structure CardNode where
  op    : Nat
  fmt   : Nat
  nmem  : Nat
  count : Nat
  cid   : Nat
  tree  : List (Nat × Nat)
  deriving DecidableEq, Repr

/-- Where a running card stands: its phase (0 not started, 1 reading, 2 writing, 3 done, 4 waiting for the other members of its
collective to start, 5 for their contributions), its reply, completion status, and re-runs. -/
structure CardSt where
  phase  : Nat
  reply  : Nat
  status : Nat
  reruns : Nat
  deriving DecidableEq, Repr

/-- A graph node (R131 to R140). -/
structure Node where
  vf     : Nat
  handle : Nat
  idx    : Nat
  die    : Nat
  kind   : Nat
  prio   : Nat
  task   : TaskNode
  card   : CardNode
  regions : List Region
  preds  : List Nat
  starts : List Nat
  st     : NodeSt
  lease  : LeaseSt
  frames : List LeaseFrame
  /-- Buffers whose LCNT the lease has raised (R126). -/
  counted : List Nat
  replies : List Nat
  pulls  : Nat
  /-- The cyc since which the node is ready without a place (R152), and the order of its dispatch. -/
  ready  : Option Nat
  order  : Nat
  members : List Member
  vidx   : Nat
  /-- The code object as loaded, and its selector. -/
  obj    : Option Obj
  sel    : List Byte
  argv   : List Byte
  /-- The declared cost of the variant it was placed with (R150). -/
  cost   : Nat
  energy : Nat
  /-- Matrix checks of the node's current phase, and the phase (R154). -/
  checks : Nat
  checkPhn : Nat
  cst    : CardSt
  /-- A cancel is pending with this STATUS. -/
  cancel : Option Nat
  /-- The node has ended, and its records wait until the writes of its tasks are performed (R263). -/
  closing : Option (List Record)
  /-- The drain has started (R137). -/
  began  : Bool
  /-- A saved context waits in the slots; and its phase is to be restarted instead of resumed (R270). -/
  resume : Bool
  restart : Bool
  deriving DecidableEq, Repr

/-- A graph with a node left that is not terminal. -/
structure Graph where
  vf     : Nat
  handle : Nat
  nodes  : Nat
  deriving DecidableEq, Repr

/-- A member's contribution to a collective (R67, R69): values, the groups that are in with the residues that came with them, and the
local node where it is local. -/
structure Contrib where
  member : Nat
  node   : Option Nat
  /-- The port on the tree where it came in. -/
  port   : Option Nat
  elems  : Tab (BitVec 64)
  groups : List Nat
  rhos   : Tab Nat
  deriving DecidableEq, Repr

/-- A collective (R66 to R70); `key` tells it from a re-run with its CID. -/
structure Coll where
  key     : Nat
  cid     : Nat
  part    : Nat
  op      : Nat
  fmt     : Nat
  nmem    : Nat
  count   : Nat
  /-- This package's ports on the tree, and the one nearest the root. -/
  ports   : List Nat
  root    : Nat
  /-- This package's ports have contexts, and the others have been asked about theirs; and what they answered. -/
  asked   : Bool
  others  : Option Bool
  fabric  : Bool
  started : Bool
  contribs : List Contrib
  status  : Nat
  /-- Another package has found a residue mismatch. -/
  bad     : Bool
  /-- It has completed; the local nodes whose cards have not yet, and how many members other packages have, once each of them has the
  completion (R70). -/
  done    : Bool
  waiting : List Nat
  away    : Option Nat
  deriving DecidableEq, Repr

/-- A pre-emption or cancel request posted to a task and on its way (R153, R187). -/
structure Post where
  tid  : Nat
  kind : PreemptKind
  deriving DecidableEq, Repr

/-- A count that a released lease of VF `vf` has still to lower (R126): LCNT of a buffer, or LCOUNT of a frame; `id` tells releases
apart. -/
structure Release where
  vf    : Nat
  node  : Nat
  id    : Nat
  what  : Nat ⊕ LeaseFrame
  deriving DecidableEq, Repr

/-- The device. -/
structure Dev where
  plim    : Nat
  fast    : Bool
  therm   : Bool
  epoch   : BitVec 32
  pkgw    : Nat
  dies    : Tab Die
  ltol    : Tab Nat
  power   : Tab PowerEl
  loupe   : Loupe
  /-- Groups issued in the current 256-cyc window, by the first column of the column group (R13). -/
  window  : Tab Nat
  /-- HBM bytes and flit hops charged by the ports to each VF, in 2^-8 fJ (R155). -/
  charges : Tab Nat
  /-- Leakage charged to advancing tasks in this epoch, by die, and reduction energy owed by each VF, in 2^-8 fJ (R157). -/
  leak    : Tab Nat
  owed    : Tab Nat
  /-- Column-cyc owned in this epoch by die × 64 + partition, and their leakage by die in 2^-8 fJ, up to the cyc `heldAt` (R157). -/
  colCyc  : Tab Nat
  colLeak : Tab Nat
  heldAt  : Nat
  hbm  : Tab Stack
  frames  : Tab Frame
  remap   : Tab Nat
  /-- Erroneous bytes of a stored block, by stack × 2^31 + block (R35); `foundLost` once it was found uncorrectable (R37). -/
  upsets  : Tab Nat
  sealed'  : Tab Sealed
  ports   : Tab Port
  /-- What has been sent out of the package, oldest first. -/
  outbox  : List Sent
  gtc     : Gtc
  host    : HostSt
  cfg     : Cfg
  parts   : BitVec 48
  /-- Columns: die × 1,024 + tile × 4 + column to the owning partition + 1. -/
  cols    : Tab Nat
  dsmOwn  : Tab Nat
  /-- UASHARE weights: port × 64 + partition. -/
  shares  : Tab Nat
  vfs     : Tab Vf
  trust   : Trust
  invals  : List Inval
  pulls   : Tab Pull
  /-- Frames (VF, stack, GFN) for which a type 10 record has been written (R129). -/
  waits10 : List Slot3
  nodes   : Tab Node
  graphs  : List Graph
  nextNode : Nat
  order   : Nat
  /-- Places or engines have become free since the last selection round (R149). -/
  freed   : Bool
  /-- Reservations of the gang token's holder: its die (R148), and columns held for a waiting node (R152). -/
  token   : Nat
  reserved : Tab Nat
  /-- Modes of tiles that have run: die × 256 + tile. -/
  modes   : Tab Nat
  /-- Collectives, and custodian instructions at their targets. -/
  colls   : List Coll
  /-- Collectives withdrawn elsewhere before a member here has started (R70). -/
  withdrawn : List Nat
  custs   : List CustOp
  posts   : List Post
  releases : List Release
  /-- Pieces of the device's own work and the replies they await; and whether the piece under way has met a reply that is not in. -/
  jobs    : List Job
  reading : Bool
  /-- Requests whose second-stage entry has been accessed (R47). -/
  looked  : List Req
  /-- Credits on their way to the images of saved members: destination and channel (R437). -/
  credits : List (Nat × Nat)
  /-- Messages of this package that wait for a read of the image they go to (R437). -/
  mail    : List Msg
  /-- Nodes that a VF reset has ended, whose leases it releases last (R159). -/
  late    : List (Nat × Node)
  /-- Alarm causes raised by code in this cycle and not yet acted on (bit numbers of TAMPSTAT, R108). -/
  alarms  : List Nat
  deriving DecidableEq, Repr

/-! ### Values at reset -/

def die0 : Die := ⟨256, 0, 0#16, [], false, 0, []⟩
def powerEl0 : PowerEl := ⟨0, 0, none, 0⟩
def loupe0 : Loupe := ⟨0#64, 0#32, false, false, 0, 0#64, 0, []⟩
def ctx0 : Ctx := ⟨false, 0, none, none⟩
def port0 : Port := ⟨0, false, 0#16, 0, 0, 0#64, [], 0, false, false, 0#64, 0#64, [], []⟩
def gtc0 : Gtc := ⟨0, 0, 0x0A0000000000, 0, 0x0A0000000000, 0, 0, 0xFFFFFFFF, false, false, 0⟩
def cfg0 : Cfg := ⟨0#64, 0#64, 0#64, 0#64, 0#64, 0#64, 0#64, 0#64, 0#64, false, false, 0, [], 0, 0, false⟩
def host0 : HostSt := ⟨false, false, false, true, false, false, 0#4, 0#64, 0, 0#64, [], [], 0, [], [], []⟩
def trust0 : Trust := ⟨false, none, 0, 1, 0, false, false, 0#5, false, []⟩
def stack0 : Stack :=
  { up := false, binned := false, selfref := true, ce := 0#64, ue := 0#64, ode := 0#64, errKind := 0, errPart := 0, errBlk := 0,
    period := 24, running := 24, pos := 0, blk := 0, spareFree := 256, retired := 0, exh := false, thr := 0#48, hot := [],
    score := [], filt := [], fresh := [], freshAt := 0, refPos := 0, cached := [], track := [], acts := [], throt := [], copying := [], last := 0, grant := 0,
    budget := 2560000000, used := 0, waited := false, doubled := false, temp := 0#16, hotEpoch := false, queue := [], prom := 0, clearing := none,
    written := 0, recorded := 0 }

/-- Spare frames are the last 256 of a stack: R31 does not say which they are (log 14). -/
def frame0 (f : Nat) : Frame := ⟨0, 0, .none, 0, decide (65280 ≤ f % 65536)⟩

def vfAbsent : Vf :=
  { part := 0, state := 0, die := 0, prot := false, cust := false, slot := 0, msiData := 0, msiAddr := 0#64, btStack := 0,
    btFrame := 0, svStack := 0, svFrame := 0, acct := 0, chain := [], objects := 0, gscred := 64, gsub := 0#64, glast := 0,
    gcan := 0#64, gerr := 0#4, subs := [], eqbase := 0#64, eqen := false, eqlog := 0, eqhead := 0#32, eqtail := 0#32,
    eqint := 0#64, eqlost := 0#64, held := [], since := 0, stamp1 := 0, deficit := [], quota := false, arrays := [], splits := [], rstep := 0 }

/-- The device as package power finds it. -/
def dev0 : Dev :=
  { plim := 0x1068, fast := false, therm := false, epoch := 0#32, pkgw := 0, dies := [], ltol := [], power := [], loupe := loupe0,
    window := [], charges := [], leak := [], owed := [], colCyc := [], colLeak := [], heldAt := 0, hbm := [], frames := [], remap := [], upsets := [], sealed' := [], ports := [],
    outbox := [], gtc := gtc0, host := host0, cfg := cfg0, parts := 0#48, cols := [], dsmOwn := [], shares := [], vfs := [],
    trust := trust0, invals := [], pulls := [], waits10 := [], nodes := [], graphs := [], nextNode := 0, order := 0, freed := false, token := 0, reserved := [],
    modes := [], colls := [], withdrawn := [], custs := [], posts := [], releases := [], jobs := [], reading := false, looked := [], credits := [], mail := [], late := [], alarms := [] }

/-! ### Reading and changing parts of the device -/

def getDie (d : Dev) (n : Nat) : Die := tabGet die0 d.dies n
def getStack (d : Dev) (n : Nat) : Stack := tabGet stack0 d.hbm n
def getPort (d : Dev) (n : Nat) : Port := tabGet port0 d.ports n
def getVf (d : Dev) (v : Nat) : Vf := tabGet vfAbsent d.vfs v
def getFrame (d : Dev) (n f : Nat) : Frame :=
  match tabFind d.frames (n * 65536 + f) with
  | some x => x
  | none => frame0 f

def setDie (n : Nat) (x : Die) (d : Dev) : Dev := { d with dies := tabSet die0 d.dies n x }
def setStack (n : Nat) (x : Stack) (d : Dev) : Dev := { d with hbm := tabSet stack0 d.hbm n x }
def setPort (n : Nat) (x : Port) (d : Dev) : Dev := { d with ports := tabSet port0 d.ports n x }
def setVf (v : Nat) (x : Vf) (d : Dev) : Dev := { d with vfs := tabSet vfAbsent d.vfs v x }
def setFrame (n f : Nat) (x : Frame) (d : Dev) : Dev :=
  { d with frames := if x = frame0 f then tabDel d.frames (n * 65536 + f) else tabPut d.frames (n * 65536 + f) x }

/-- ACTIVE or DEGRADED. -/
def vfLive (d : Dev) (v : Nat) : Bool := (getVf d v).state == 1 || (getVf d v).state == 2

/-- ABSENT or RESET: a VF that owns nothing. -/
def vfGone (d : Dev) (v : Nat) : Bool := (getVf d v).state == 0 || (getVf d v).state == 5

/-- The integer nanoseconds of GTC (R72). -/
def Dev.gtci (d : Dev) : Nat := d.gtc.t / 2 ^ 40 % 2 ^ 64

end Sys2Proof.Machine
end

