-- ==== Sys2Proof/Machine/Ev.lean ====
section
/-!
DEFINITION. The device's events as data of the state: one constructor per row of the opcode table that has no bits.
-/

namespace Sys2Proof.Machine

/-- An event of the opcode table, waiting to happen. -/
inductive Ev where
  /-- CUSTODIAN_RESULT (R397). -/
  | custodianResult (id : Nat)
  /-- MATRIX_CHECK (R237). -/
  | matrixCheck (t k : Nat) (block main check row col : Nat)
  /-- COPY_COMPLETE (R373). -/
  | copyComplete (id : Nat)
  /-- RESULT_LANDING (R167). -/
  | resultLanding (t : Nat)
  /-- ENDPOINT_REPLY (R169). -/
  | endpointReply (id : Nat)
  /-- PHASE_COMPLETE (R177). -/
  | phaseComplete (t : Nat)
  /-- BAR_COMPLETE (R385). -/
  | barComplete (t : Nat)
  /-- WAITT_RELEASE (R76). -/
  | waittRelease (t k : Nat)
  /-- BANK_CLEARED (R183). -/
  | bankCleared (t k bank : Nat)
  /-- STALL_TIMEOUT (R175). -/
  | stallTimeout (t : Nat)
  /-- SAFE_BOUND_OVERRUN (R188). -/
  | safeBoundOverrun (t : Nat)
  /-- HLP_RRD (R80). -/
  | hlpRrd (x : Hlp)
  /-- REGISTER_WRITE (R5). -/
  | registerWrite (x : Hlp)
  /-- HLP_MRD (R82). -/
  | hlpMrd (x : Hlp)
  /-- HLP_MWR (R82). -/
  | hlpMwr (x : Hlp)
  /-- HLP_CPLD (R80). -/
  | hlpCpld (x : Hlp)
  /-- HLP_CPL (R80). -/
  | hlpCpl (x : Hlp)
  /-- HOST_READ_TIMEOUT (R83). -/
  | hostReadTimeout (tag : Nat)
  /-- MODULE_DISABLED (R78). -/
  | moduleDisabled (m : Nat)
  /-- PCREATE (R89). -/
  | pcreate
  /-- PDESTROY (R89). -/
  | pdestroy
  /-- COLASSIGN (R89). -/
  | colassign
  /-- DSMASSIGN (R89). -/
  | dsmassign
  /-- DSM_BANK_CLEAR_DONE (R89). -/
  | dsmBankClearDone
  /-- POOLADD (R89). -/
  | pooladd
  /-- POOLREM (R89). -/
  | poolrem
  /-- UASHARE (R89). -/
  | uashare
  /-- VCREATE (R90). -/
  | vcreate
  /-- VRESET (R92). -/
  | vreset
  /-- VRESET_COMPLETE (R92). -/
  | vresetComplete (v : Nat)
  /-- VDESTROY (R89). -/
  | vdestroy
  /-- CREDIT (R93). -/
  | credit
  /-- KEYLOAD (R106). -/
  | keyload
  /-- ATTEST (R105). -/
  | attest
  /-- IDCERT (R89). -/
  | idcert
  /-- DEVICE_RESET (R86). -/
  | deviceReset
  /-- SIDEBAND_RESET (R86). -/
  | sidebandReset
  /-- FIRMWARE_VERIFY (R103). -/
  | firmwareVerify (image : List (BitVec 8))
  /-- PACKAGE_POWER_ON (R39). -/
  | packagePowerOn (stk : BitVec 32) (mods : BitVec 4)
  /-- BINNING_COMPLETE (R39). -/
  | binningComplete (rows : List BinnedRow)
  /-- PLIM_WRITE (R18). -/
  | plimWrite (w : BitVec 64)
  /-- LTOL_WRITE (R21). -/
  | ltolWrite (p : Nat) (w : BitVec 64)
  /-- SCRUBCTL_WRITE (R51). -/
  | scrubctlWrite (n : Nat) (w : BitVec 64)
  /-- UARCTX_WRITE (R71). -/
  | uarctxWrite (port j : Nat) (w : BitVec 64)
  /-- GTCINC_WRITE (R73). -/
  | gtcincWrite (w : BitVec 64)
  /-- GTCADJ_WRITE (R74). -/
  | gtcadjWrite (w : BitVec 64)
  /-- GTCSET_WRITE (R73). -/
  | gtcsetWrite (w : BitVec 64)
  /-- GTC_SLEW_DONE (R74). -/
  | gtcSlewDone
  /-- GTC_HOLDOVER (R73). -/
  | gtcHoldover
  /-- LOUPE_ARM (R87). -/
  | loupeArm (w : BitVec 64)
  /-- TAMPCTL_WRITE (R108). -/
  | tampctlWrite (w : BitVec 64)
  /-- VFSTAT_DEG_WRITE (R94). -/
  | vfstatDegWrite (v : Nat) (w : BitVec 64)
  /-- GSUB (R95). -/
  | gsub (v : Nat) (w : BitVec 64)
  /-- GCAN (R96). -/
  | gcan (v : Nat) (w : BitVec 64)
  /-- EQCTL_WRITE (R94). -/
  | eqctlWrite (v : Nat) (w : BitVec 64)
  /-- EQHEAD_WRITE (R97). -/
  | eqheadWrite (v : Nat) (w : BitVec 64)
  /-- EVENT_RECORD_WRITE (R97). -/
  | eventRecordWrite (v : Nat)
  /-- EQ_INTERRUPT_TIMER (R100). -/
  | eqInterruptTimer (v : Nat)
  /-- ARBITER_EPOCH (R12). -/
  | arbiterEpoch
  /-- FAST_LIMITER (R15). -/
  | fastLimiter (die : Nat)
  /-- SENSOR_UPDATE (R24). -/
  | sensorUpdate (dieT stkT : List (BitVec 16))
  /-- SUPPLY_EXCURSION (R24). -/
  | supplyExcursion
  /-- MESH_BREAK (R109). -/
  | meshBreak
  /-- POWER_STATE_ENTRY (R22). -/
  | powerStateEntry (e : Element)
  /-- WAKE_COMPLETE (R23). -/
  | wakeComplete (e : Element)
  /-- PORT_ADMIT (R44). -/
  | portAdmit (n : Nat)
  /-- ROW_REFRESH (R38). -/
  | rowRefresh (n bank row : Nat)
  /-- ACTIVATION_WINDOW (R45). -/
  | activationWindow
  /-- PATROL_SCRUB_STEP (R43). -/
  | patrolScrubStep (n : Nat)
  /-- HOT_SCRUB_STEP (R42). -/
  | hotScrubStep (n : Nat) (row : Nat)
  /-- PATROL_PERIOD_END (R41). -/
  | patrolPeriodEnd (n : Nat)
  /-- RETIREMENT_COPY_DONE (R41). -/
  | retirementCopyDone (n frame : Nat)
  /-- LEASE_INCREMENT (R126). -/
  | leaseIncrement (node : Nat) (n : Nat)
  /-- LEASE_REPLY (R126). -/
  | leaseReply (node : Nat) (n : Nat)
  /-- LEASE_RELEASE (R126). -/
  | leaseRelease (node : Nat) (n : Nat)
  /-- PULL_READ_REPLY (R128). -/
  | pullReadReply (id : Nat) (ok : Bool) (data : List (BitVec 8))
  /-- PULL_TIMEOUT (R128). -/
  | pullTimeout (id : Nat)
  /-- REMOTE_REQUEST (R52). -/
  | remoteRequest (x : RemoteReq)
  /-- INVALIDATION_DONE (R124). -/
  | invalidationDone (id : Nat)
  /-- INVALIDATION_TIMEOUT (R124). -/
  | invalidationTimeout (id : Nat)
  /-- POLISHER_CLEAR_BLOCK (R400). -/
  | polisherClearBlock (n : Nat)
  /-- LINK_TRAINING (R60). -/
  | linkTraining (port width rtt : Nat)
  /-- LANE_LOSS (R53). -/
  | laneLoss (port width rtt : Nat)
  /-- LINK_REPLAY (R64). -/
  | linkReplay (port : Nat) (hold : Bool)
  /-- SKID_SEND (R62). -/
  | skidSend (port : Nat)
  /-- MESSAGE_LANDING (R56). -/
  | messageLanding (x : Msg)
  /-- CREDIT_RETURN (R63). -/
  | creditReturn (t ch : Nat)
  /-- COLLECTIVE_START (R66). -/
  | collectiveStart (cid : Nat)
  /-- REDUCTION_CONTRIBUTION (R67). -/
  | reductionContribution (w : TreePort) (member group : Nat) (elems : List (BitVec 64)) (residue : Nat)
  /-- COLLECTIVE_COMPLETE (R69). -/
  | collectiveComplete (cid : Nat)
  /-- GRAPH_PARSE (R135). -/
  | graphParse (v : Nat)
  /-- SELECTION_ROUND (R149). -/
  | selectionRound (die : Nat)
  /-- GANG_TOKEN (R148). -/
  | gangToken
  /-- PRIORITY_PREEMPTION (R152). -/
  | priorityPreemption (die : Nat)
  /-- DISPATCH (R138). -/
  | dispatch (node : Nat)
  /-- SAVE_COMPLETE (R153). -/
  | saveComplete (node : Nat)
  /-- CONTEXT_RESTORE (R267). -/
  | contextRestore (node : Nat)
  /-- PHASE_RESTART (R179). -/
  | phaseRestart (node : Nat)
  /-- NODE_RETIRE (R138). -/
  | nodeRetire (node : Nat)
  /-- JOB_CARD_START (R133). -/
  | jobCardStart (node : Nat)
  /-- JOB_CARD_COMPLETE (R154). -/
  | jobCardComplete (node : Nat)
  /-- CARAT_FLUSH (R156). -/
  | caratFlush
  /-- PREEMPTION_REQUEST_ARRIVAL (R187). -/
  | preemptionRequestArrival (t : Nat) (kind : PreemptKind)
  /-- DSM_BANK_REQUEST (R117). -/
  | dsmBankRequest (die bank : Nat)
  /-- RANGE_REGISTER_FILL (R115). -/
  | rangeRegisterFill (t k : Nat)
  deriving DecidableEq, Repr

end Sys2Proof.Machine
end

