-- ==== Sys2Proof/Machine/State.lean ====
section
/-!
DEFINITION. The state of the machine, its faults and refusals, and its state after reset.
-/

namespace Sys2Proof.Machine

/-- What the step does next within the current cyc. -/
inductive Act where
  /-- Sequencer `k` of task `tid` issues its group. -/
  | issue (tid k : Nat)
  /-- A unit of the device acts. -/
  | event (e : Ev)
  deriving DecidableEq, Repr

/-- What reaches the machine from outside: an event of the opcode table, erroneous bytes in a stored block of a stack (R35), a
severity report of a stack's on-die ECC (R30), a sideband write of GTCEB (R73), whether a UALink port lacks flow-control credits (R62), or
what other packages say of a collective: whether their ports on its tree have contexts, that a residue differs, that a member is withdrawn,
that each of their `n` members has its completion, or will have it as its card starts (R66, R69, R70). -/
inductive Input where
  | event (e : Ev)
  | upset (stack blk bad : Nat)
  | odecc (stack : Nat)
  | gtceb (eb : Nat)
  | flowCredits (port : Nat) (lacking : Bool)
  | collContexts (cid : Nat) (ok : Bool)
  | collMismatch (cid : Nat)
  | collWithdrawn (cid : Nat)
  | collDelivered (cid n : Nat)
  deriving DecidableEq, Repr

/-- The whole machine. -/
structure State where
  ix     : Issue
  tid    : Nat
  k      : Nat
  tk     : Task
  sq     : Seq
  tasks  : Tab Task
  mem    : Tab Byte
  reqs   : List Req
  replies : Tab Reply
  nextId : Nat
  free   : Nat
  cyc    : Nat
  inputs : List Input
  agenda : List Act
  dev    : Dev
  deriving DecidableEq, Repr

/-- Why a step has stopped.  No step of this model does: whatever the spec calls a fault is a trap, a record or a status. -/
inductive Fault where
  /-- Raised by nothing; safe. -/
  | none
  deriving DecidableEq, Repr

/-- Why a step has no meaning. -/
inductive Refusal where
  /-- The instruction is not modelled: raised by no arm of `exec`; safe. -/
  | notModelled (mnemonic : String)
  deriving DecidableEq, Repr

/-! ### Reset -/

/-- No task. -/
def task0 : Task :=
  { serr := none, alive := false, vf := 0, node := 0, member := 0, die := 0, tile := 0, col := 0, g := 1, nsib := 0, gmode := 2,
    cls := 0, cust := false, place := 0#64, safeb := 0, hop := 0, code := 0#64, obj := ⟨[], [], [], false, []⟩, vidx := 0,
    gang := 1, slots := [], lease := [], lc := 0, phn := 0, sref := 0, hold := 0, holdAt := 0, was := [], meterWas := 0, hands := [], handsPrev := [], kept := [], meterPrev := 0, cond := 0, ending := none, preempt := none,
    preAt := 0, taken := none, waits := ⟨0, 0, 0, []⟩, chans := [], out := [], meter := 0, seqs := [] }

/-- A sequencer with every register at its reset value (R163, R222), owning no bank. -/
def seq0 : Seq :=
  { st := .absent, startLC := 0, haltLC := 0, pos := ⟨0, 0⟩, via := .sequential, nextLC := 0, grp := 0, s := [], q := 0#8, m := [],
    bt := [], loops := [], pend := none, hret := none, trapv := 0#64, tcause := 0#64, tinfo := [], prec := 0#64, vwin := 0#64,
    fflags := 0#64, mvalid := 0#64, td := [], av := [], sh := [], lat := [], land := [], lrs := [], acc := [], scaleA := [],
    scaleB := [], cd := [], copies := [], units := [], engc := 0#32, own := 0#6, clearing := 0#6, nan := 0#16, ov := 0#4,
    win := (0, 0), winExt := [], opLc := 0, drn := [], rdHold := (0, 0), wrHold := [], rr := [], rcache := [], code := [] }

/-- No group is issuing. -/
def ix0 : Issue := ⟨0, 0, [], ⟨0, 0⟩, ⟨0, 0⟩, ⟨0, 0⟩, 0, 0, 0#32, false, none, false, none⟩

/-- The machine as package power finds it: no sequencer runs, memory lists nothing, the device is in reset (R39, R85). -/
def State.reset : State :=
  { ix := ix0, tid := 0, k := 0, tk := task0, sq := seq0, tasks := [], mem := [], reqs := [], replies := [], nextId := 1, free := 0,
    cyc := 0, inputs := [], agenda := [], dev := dev0 }

end Sys2Proof.Machine
end

