-- ==== Sys2Proof/Machine/Ops.lean ====
section
/-!
DEFINITION. The shared operations: registers, predicates, landings, LRS rows and views, and taking and returning from a trap
(chapters 07, 08, 11).
-/

namespace Sys2Proof.Machine

/-- A flag as a number's bit. -/
def bitN (b : Bool) (k : Nat) : Nat := if b then 2 ^ k else 0

/-- A 64-bit word from a number. -/
def w64 (n : Nat) : Word := BitVec.ofNat 64 n

/-- All ones: "never" in TINFO1 (R257). -/
def never : Word := BitVec.allOnes 64

/-- Bits [hi:lo] of a word as a number. -/
def fieldN {w : Nat} (v : BitVec w) (lo n : Nat) : Nat := (v.extractLsb' lo n).toNat

/-! ### Registers and predicates -/

/-- Reads a scalar register; s0 reads as zero (R191). -/
def readS (s : State) (n : BitVec 6) : Word := if n = 0#6 then 0#64 else tabGet 0#64 s.sq.s n.toNat

/-- Reads a predicate register; q0 reads as one (R191). -/
def readQ (s : State) (n : BitVec 3) : Bool := n == 0#3 || s.sq.q.getLsbD n.toNat

/-- Native vector length of the group (R192). -/
def lanesOf (s : State) : Nat := 32 * s.tk.g

/-- The physical column of the issuing group's primary column. -/
def seqCol (s : State) : Nat := s.tk.col + s.k * s.tk.g

/-- Native matrix tile rows and columns (R192). -/
def natM (g : Nat) : Nat := if g = 4 then 64 else 32
def natN (g : Nat) : Nat := if g = 1 then 32 else 64

/-- A bit for each of the lanes below `n`. -/
def lowMask (n : Nat) : BitVec 128 := BitVec.ofNat 128 (2 ^ n - 1)

/-- Reads a mask register; m0 reads as all ones, bits at and above the vector length as zero (R191, R329). -/
def readM (s : State) (n : BitVec 3) : BitVec 128 :=
  if n = 0#3 then lowMask (lanesOf s) else tabGet 0#128 s.sq.m n.toNat

/-- The predicate of classes 000, 101 and 110 (R273), with FI and LI (R279). -/
def predOn (g : Guard) (s : State) : Bool := !s.ix.off && (readQ s g.p ^^ g.n)

/-- The predicate of classes 011 and 100: bit 0 of the mask (R273). -/
def maskOn (g : Guard) (s : State) : Bool := !s.ix.off && ((readM s g.p).getLsbD 0 ^^ g.n)

/-- The lane predicates of classes 001 and 010 (R273). -/
def laneMask (g : Guard) (s : State) : BitVec 128 :=
  if s.ix.off then 0#128 else if g.n then lowMask (lanesOf s) &&& ~~~readM s g.p else readM s g.p

/-! ### Landings -/

/-- A result that lands at the end of cycle `t` (R167). -/
def landAt (s : State) (t : Nat) (d : Dst) : State :=
  { s with sq := { s.sq with land := s.sq.land ++ [⟨s.ix.c, t, d⟩] } }

/-- A result of latency `l`, counted from the group's last cycle (R167). -/
def landIn (s : State) (l : Nat) (d : Dst) : State := landAt s (s.ix.cl + l - 1) d

/-- A scalar result of latency `l`; writes to s0 are discarded (R299). -/
def landS (s : State) (l : Nat) (n : BitVec 6) (v : Word) : State := if n = 0#6 then s else landIn s l (.sreg n v)

/-- A predicate result of latency 1; writes to q0 are discarded (R299). -/
def landQ (s : State) (n : BitVec 3) (v : Bool) : State := if n = 0#3 then s else landIn s 1 (.pred n v)

/-- The value a control register will hold after every write issued so far (R363). -/
def newestCtrl (idx : Nat) (v : Word) : List Landing → Word
  | [] => v
  | ⟨_, _, .ctrl i w⟩ :: t => newestCtrl idx (if i = idx then w else v) t
  | _ :: t => newestCtrl idx v t

/-! ### Traps -/

/-- A trap of the slot in `s.ix` (R255). -/
def trapOf (s : State) (cause sub : Nat) (ti0 ti1 ti2 : Word) : Trap :=
  { cause := cause, sub := sub, slot := s.ix.slot, ti0 := ti0, ti1 := ti1, ti2 := ti2, ti3 := 0#64, gaddr := none }

/-- An illegal encoding: TINFO0 the slot word, TINFO1 its bundle (R257). -/
def illegal (s : State) (sub : Nat) : Trap := trapOf s 0x01 sub (s.ix.word.setWidth 64) (w64 s.ix.bundle) 0#64

/-- TINFO0 of a timing fault: resource kind, number and column (R257). -/
def resource (kind num col : Nat) : Word := w64 (kind + 256 * (num % 256) + 65536 * col)

/-- A timing fault (R175, R257). -/
def timing (s : State) (sub kind num col : Nat) (free ti2 : Word) : Trap :=
  trapOf s 0x02 sub (resource kind num col) free ti2

/-- Whether the cause has the handler disposition (R256). -/
def handlerCause (t : Trap) : Bool := t.cause == 0x08 || t.cause == 0x0C || t.cause == 0x0D

/-- The TCAUSE word (R255). -/
def tcauseWord (res nest : Bool) (seq : Nat) (t : Trap) : Word :=
  w64 (t.sub + 256 * t.cause + 65536 * seq + 2 ^ 24 * t.slot + bitN nest 30 + bitN res 31)

/-- The rank of a cause among conditions of one sequencer at one LC (R258); less is taken first. -/
def trapRank (t : Trap) : Nat :=
  match t.cause with
  | 0x09 => 0
  | 0x0E => 1
  | 0x0F => 2
  | 0x02 => if t.sub = 0x04 ∨ t.sub = 0x06 ∨ t.sub = 0x07 then 3 else 10
  | 0x0B => 4
  | 0x01 => 5
  | 0x05 => 6
  | 0x06 => 7
  | 0x04 => 8
  | 0x07 => 9
  | 0x03 => 11
  | 0x0A => 12
  | 0x08 => 13
  | 0x0C => 14
  | _ => 15

/-- R258 within one LC, among conditions that end or restart the task: the lower sequencer, then the rank, then the lower slot. -/
def trapBefore (a b : Nat × Trap) : Bool :=
  if a.1 ≠ b.1 then decide (a.1 < b.1)
  else if trapRank a.2 ≠ trapRank b.2 then decide (trapRank a.2 < trapRank b.2)
  else decide (a.2.slot < b.2.slot)

/-- The loop levels (R314). -/
def loopOff : Loop := ⟨false, false, 0, 0, 0#64, 1#64, 0#64, 1#64, 0, 0⟩

/-- R315: where issue goes after a group whose last slot is `last`, looking at levels `n - 1` down to 0. -/
def loopBack (last seqNext : Pos) : Nat → Tab Loop → Tab Loop × Pos
  | 0, ls => (ls, seqNext)
  | n + 1, ls =>
    let l := tabGet loopOff ls n
    if l.active && last.bundle == l.eB && last.slot == 3 then
      if l.iter + 1 < l.count then
        (tabSet loopOff ls n { l with iter := l.iter + 1, idx := l.idx + l.stride }, ⟨l.sB, 0⟩)
      else loopBack last seqNext n (tabSet loopOff ls n { l with active := false })
    else loopBack last seqNext n ls

/-- Levels from `d` up become inactive (R317). -/
def dropLoops (d : Nat) (ls : Tab Loop) : Tab Loop :=
  (List.range 6).foldl (fun a n => if d ≤ n then tabSet loopOff a n { tabGet loopOff a n with active := false } else a) ls

/-- R312 and R315 after a group: the pending transfer counts down or takes effect, else loop levels return. -/
def afterGroup (pend : Option Pend) (ls : Tab Loop) (last next : Pos) : Option Pend × Tab Loop × Pos × Via :=
  match pend with
  | some p =>
    if p.left ≤ 1 then (none, dropLoops p.drop ls, ⟨p.target, 0⟩, .target)
    else
      let r := loopBack last next 6 ls
      (some { p with left := p.left - 1 }, r.1, r.2, .sequential)
  | none =>
    let r := loopBack last next 6 ls
    (none, r.1, r.2, .sequential)

/-- Where a handler returns to (R261): a divide to its own group, TRAP and BRK to the group after theirs, with the pending transfer
and the loops as they stand there. -/
def trapRet (t : Trap) (s : State) : TrapRet :=
  if t.cause = 0x08 then ⟨s.ix.pos, s.sq.via, s.sq.pend, s.sq.loops⟩
  else
    let a := afterGroup s.sq.pend s.sq.loops s.ix.last s.ix.next
    ⟨a.2.2.1, a.2.2.2, a.1, a.2.1⟩

/-- Handler entry (R261): the trap registers are written, the pending transfer and the loop state are suspended, and the
group at HANDLER issues at `c + 1`. -/
def enterHandler (t : Trap) (s : State) : State :=
  let sq := s.sq
  let r := trapRet t s
  { s with
    sq := { sq with
      tcause := tcauseWord true false s.k t
      tinfo := tabSets 0#64 [] [(0, t.ti0), (1, t.ti1), (2, t.ti2), (3, t.ti3)]
      hret := some r
      pend := none
      loops := dropLoops 0 sq.loops
      pos := ⟨fieldN sq.trapv 0 32, 0⟩
      via := .handler
      grp := sq.grp + 1
      nextLC := s.ix.c + 1 }
    tk := { s.tk with out := s.tk.out ++ [.trap s.k (tcauseWord true false s.k t) s.ix.c] } }

/-- A trap that ends or restarts the task (R260, R263): the trap registers are written, and the task ends at the end of this
LC by the first of its traps in the order of R258. -/
def endTrap (nest : Bool) (t : Trap) (s : State) : State :=
  let e := (s.k, s.ix.pos, t)
  let keep := match s.tk.ending with
    | some o => if trapBefore (e.1, e.2.2) (o.1, o.2.2) then e else o
    | none => e
  { s with
    sq := { s.sq with
      tcause := tcauseWord false nest s.k t
      tinfo := tabSets 0#64 [] [(0, t.ti0), (1, t.ti1), (2, t.ti2), (3, t.ti3)] }
    tk := { s.tk with ending := some keep }
    dev := if t.cause = 0x01 ∧ t.sub = 0x0D then { s.dev with alarms := s.dev.alarms ++ [4] } else s.dev }

/-- Whether the trap enters the handler: a handler cause, TRAPV.EN = 1 and not in the handler already (R256, R262). -/
def entersHandler (t : Trap) (s : State) : Bool :=
  handlerCause t && s.sq.trapv.getLsbD 63 && s.sq.hret.isNone

/-- A trap with its TINFO3 (R257): for a cause of the handler disposition the bundle of the return group. -/
def withReturn (t : Trap) (s : State) : Trap :=
  if handlerCause t then { t with ti3 := w64 (trapRet t s).ret.bundle } else t

/-- Takes a trap (R255 to R263). -/
def takeTrap (t : Trap) (s : State) : State :=
  let u := { s with ix := { s.ix with trap := some t } }
  let x := withReturn t s
  if entersHandler t s then enterHandler x u else endTrap s.sq.hret.isSome x u

/-- How a slot operation ends: it has its effect, or its group takes a trap and has none (R260). -/
abbrev Eff := Except Trap State

/-- The outcome of a slot operation on `s`. -/
def finish (s : State) : Eff → Host.Outcome State Fault Refusal
  | .ok t => .next t
  | .error t => .next (takeTrap t s)

/-- Charges `n` events of a kind to the task's Carat counter (R155, R221). -/
def charge (kind n : Nat) (s : State) : State :=
  { s with tk := { s.tk with meter := s.tk.meter + n * Config.coef s.tk.die s.tk.tile kind } }

/-- The outcome of a scalar, control or sync operation, charged as one operation whether its predicate is on or off (R155). -/
def finishOp (s : State) : Eff → Host.Outcome State Fault Refusal
  | .ok t => .next (charge 5 1 t)
  | .error t => .next (takeTrap t s)

/-- An operation with its predicate off does nothing (R274). -/
def guarded (on : Bool) (s : State) (e : Eff) : Eff := if on then e else .ok s

/-- Return from the handler to the return group, with loop state and pending transfer restored (R262). -/
def trapReturn (ret : Pos) (via : Via) (pend : Option Pend) (loops : Tab Loop) (s : State) : State :=
  { s with
    sq := { s.sq with hret := none, pend := pend, loops := loops, via := via }
    ix := { s.ix with jump := some ret, keep := true } }

/-- Whether a task's primary has halted (R166). -/
def primaryHalted (t : Task) : Bool := ((tabFind t.seqs 0).map (fun q => q.st)).getD .absent == .halted

/-- Whether the HALT of a task's primary is done: no copy without release-on-completion is left (R183). -/
def haltDone (t : Task) : Bool := primaryHalted t && !t.seqs.any (fun e => e.2.copies.any (fun c => !c.rel))

/-! ### LRS rows (R195) -/

/-- Group rows of an LRS (R195). -/
def rowCount : Nat := 2304

/-- The byte address of byte `b` of group row `x` (R195). -/
def rowByte (g x b : Nat) : Nat := 128 * g * x + b

/-- Lane `l` of group row `x` (R216). -/
def readLane (g : Nat) (lrs : Tab Byte) (x l : Nat) : BitVec 32 :=
  BitVec.ofNat 32 (leNat (tabBytes lrs (rowByte g x (4 * l)) 4))

/-- A group row as lanes. -/
def readRow (g : Nat) (lrs : Tab Byte) (x : Nat) : Row :=
  (List.range (32 * g)).map (readLane g lrs x)

/-- Whether the task owns the bank of row `x` (R184). -/
def ownsRow (q : Seq) (x : Nat) : Bool := q.own.getLsbD (x % 6)

/-- Bits of a row's elements: `n` bits from bit `b` of the bytes at group row `x` (R202). -/
def rowBits (g : Nat) (lrs : Tab Byte) (x b n : Nat) : Nat :=
  (leNat (tabBytes lrs (rowByte g x (b / 8)) ((b % 8 + n + 7) / 8)) / 2 ^ (b % 8)) % 2 ^ n

/-- All columns of the group as a mask. -/
def allCols (g : Nat) : BitVec 4 := BitVec.ofNat 4 (2 ^ g - 1)

/-! ### Views (R201 to R205) -/

/-- The group row that v(n) names (R201). -/
def winRow (s : State) (n : Nat) : Nat := (fieldN s.sq.vwin 0 12 + n) % rowCount

/-- Fields of a tile or accumulator view descriptor (R202). -/
def vBase (d : Word) : Nat := fieldN d 0 12
def vNrow (d : Word) : Nat := fieldN d 12 12
def vNcol (d : Word) : Nat := fieldN d 24 13
def vW (d : Word) : Nat := fieldN d 37 5 + 1
def vPitch (d : Word) : Nat := fieldN d 42 8
/-- Group rows that a view row spans (R202). -/
def vSpan (g : Nat) (d : Word) : Nat := (vNcol d * vW d + 1024 * g - 1) / (1024 * g)

/-- Whether group row `x` lies in the view's extent (R202). -/
def inExtent (g : Nat) (d : Word) (x : Nat) : Bool :=
  vNrow d != 0 && vBase d ≤ x && (x - vBase d) / vPitch d < vNrow d && (x - vBase d) % vPitch d < vSpan g d

/-- The first group row of the view's extent in a bank that the task does not own. -/
def extentUnowned (g : Nat) (q : Seq) (d : Word) : Option Nat :=
  ((List.range (vNrow d)).flatMap (fun i => (List.range (vSpan g d)).map (fun t => vBase d + i * vPitch d + t))).find?
    (fun x => !ownsRow q x)

/-- `n` bits from bit `b` of view row `i`, over its consecutive group rows (R202). -/
def viewBits (g : Nat) (lrs : Tab Byte) (d : Word) (i b n : Nat) : Nat :=
  rowBits g lrs (vBase d + i * vPitch d) b n

/-- Why a descriptor write fails (R203), if it does. -/
def viewBad (g : Nat) (d : Word) : Bool :=
  vNrow d != 0 && (vNcol d == 0 || vNcol d > 4096 || vPitch d < vSpan g d
    || vBase d + (vNrow d - 1) * vPitch d + vSpan g d > rowCount)

/-- The bits of TD and AV that programs write (R202, R205). -/
def viewMask : Word := 0x0003FFFFFFFFFFFF#64

/-- A view fault (R257): TINFO0 the view number, TINFO1 a value, TINFO2 a row. -/
def viewFault (s : State) (sub num : Nat) (v : Word) (row : Nat) : Trap := trapOf s 0x05 sub (w64 num) v (w64 row)

/-- The value a tile view holds after a write (R203, R204), or the view fault.  A write that configures the view sets D; no write
clears it (`putCtrl`). -/
def tileWrite (s : State) (num : Nat) (a : Word) : Except Trap Word :=
  let d := a &&& viewMask
  if viewBad s.tk.g d then .error (viewFault s 0x02 num a (vBase d))
  else .ok (if vNrow d = 0 then d else d ||| 0x8000000000000000#64)

/-- The value an accumulator view holds after a write (R205), or the view fault. -/
def accViewWrite (s : State) (num : Nat) (a : Word) : Except Trap Word :=
  let d := a &&& viewMask
  if viewBad s.tk.g d then .error (viewFault s 0x02 num a (vBase d))
  else if vNrow d ≠ 0 ∧ vW d ≠ 16 ∧ vW d ≠ 32 then .error (viewFault s 0x05 num a (vBase d))
  else .ok d

/-- The value VWIN holds after a write (R201), or the view fault. -/
def vwinWrite (s : State) (num : Nat) (a : Word) : Except Trap Word :=
  if fieldN a 0 12 ≥ rowCount then .error (viewFault s 0x03 num a (fieldN a 0 12)) else .ok (a &&& 0xFFF#64)

/-! ### Shapes (R206, R207) -/

/-- The native shape code of SH.NAT and MODE.GMODE (R194, R207). -/
def natCode (g : Nat) : Nat := if g = 4 then 0 else if g = 2 then 1 else 2

/-- `Grant` of R206; zero when refused. -/
def grant (req native max : Nat) : Nat := if req = 0 ∨ req > max then 0 else native * ((req + native - 1) / native)

/-- The SH register for a request (R206, R365). -/
def shWord (g : Nat) (vec : Bool) (qm qn : Nat) : Word :=
  let gm := if vec then grant qm (32 * g) 1024 else grant qm (natM g) 256
  let gn := if vec then 0 else grant qn (natN g) 256
  let ok := if vec then gm != 0 else gm != 0 && gn != 0
  w64 (qn + 2 ^ 11 * qm + (if ok then 2 ^ 22 * gn + 2 ^ 33 * gm else 0) + 2 ^ 56 * natCode g + bitN vec 62 + bitN ok 63)

/-- Fields of an SH register (R207). -/
def shG (v : Word) : Bool := v.getLsbD 63
def shVec (v : Word) : Bool := v.getLsbD 62
def shGM (v : Word) : Nat := fieldN v 33 11
def shGN (v : Word) : Nat := fieldN v 22 11
def shQM (v : Word) : Nat := fieldN v 11 11
def shQN (v : Word) : Nat := fieldN v 0 11

/-- A request value saturated to 11 bits (R365). -/
def sat11 (v : Word) : Nat := if v.toNat > 2047 then 2047 else v.toNat

/-! ### PREC (R229) -/

def pWA (v : Word) : Nat := fieldN v 0 4 + 1
def pWB (v : Word) : Nat := fieldN v 4 4 + 1
def pSA (v : Word) : Bool := v.getLsbD 8
def pSB (v : Word) : Bool := v.getLsbD 9
def pMode (v : Word) : Nat := fieldN v 10 2
def pAccm (v : Word) : Bool := v.getLsbD 12
def pVft (v : Word) : Nat := fieldN v 16 2
def pViw (v : Word) : Nat := fieldN v 18 2
def pRm (v : Word) : BitVec 2 := v.extractLsb' 20 2
/-- PREC with its reserved bits zero (R229). -/
def precMask : Word := 0x3F1FFF#64

end Sys2Proof.Machine
end

