-- ==== Sys2Proof/Machine/Operands.lean ====
section
/-!
DEFINITION. Operand forms: immediates, scalar sources, window rows with hold bits, and the addresses they form.
-/

namespace Sys2Proof.Machine

/-- A sign-extended RRI6 immediate (R278). -/
def immS14 (i : Imm14) : Word := if i.hdr then i.v.signExtend 64 else (i.v.extractLsb' 0 6).signExtend 64

/-- A zero-extended RRI6 immediate. -/
def immZ14 (i : Imm14) : Word := if i.hdr then i.v.setWidth 64 else (i.v.extractLsb' 0 6).setWidth 64

/-- A sign-extended RI12 immediate (R278). -/
def immS20 (i : Imm20) : Word := if i.hdr then i.v.signExtend 64 else (i.v.extractLsb' 0 12).signExtend 64

/-- Its width in bits: 12, or 20 with a header (R301). -/
def immW20 (i : Imm20) : Nat := if i.hdr then 20 else 12

/-- A buffer address with its offset moved; the offset wraps at 2^48 and never carries into INDEX (R306). -/
def addOff (a d : Word) : Word := (a.extractLsb' 48 16 ++ (a.extractLsb' 0 48 + d.extractLsb' 0 48) : BitVec 64)

/-- Address of a scalar load or store: the immediate counts elements of `z` bytes (R307). -/
def elemAddr (a : Word) (i : Imm14) (z : Nat) : Word := addOff a (immS14 i * w64 z)

/-- LRS byte address of LDL and STL (R310). -/
def ldlAddr (g : Nat) (a : Word) (i : Imm14) : Nat :=
  let x := (((a.toNat : Int) + (immS14 i).toInt * 8) % ((rowCount * 128 * g : Nat) : Int)).toNat
  x / 8 * 8

/-- The hold latches: VA A, VA B, VB A, VB B (R191). -/
def latchNo (vb b : Bool) : Nat := (if vb then 2 else 0) + (if b then 1 else 0)

end Sys2Proof.Machine
end

