-- ==== Sys2Proof/Machine/Access.lean ====
section
/-!
DEFINITION. How a task reaches DSM and HBM: buffer-table entries, the column's checks, the interleave, endpoint nominals and
the requests a group makes (R32, R111 to R117, R127, R286, R308).
-/

namespace Sys2Proof.Machine

/-! ### Physical memory -/

/-- The key of byte `p` of a stack in the one memory table: HBM lies below 2^42 (R30). -/
def hbmKey (stack p : Nat) : Nat := stack * 2 ^ 37 + p

/-- The key of a DSM byte; DSM lies from 2^42 up (R117). -/
def dsmKey (die bank byte : Nat) : Nat := 2 ^ 42 + die * 2 ^ 27 + bank * 2 ^ 21 + byte

/-- The retirement remap of a stack physical address (R41). -/
def remapAddr (d : Dev) (stack p : Nat) : Nat :=
  match tabFind d.remap (stack * 65536 + p / 2 ^ 21) with
  | some f => f * 2 ^ 21 + p % 2 ^ 21
  | none => p

/-- `n` bytes of a stack from physical address `p`, which do not cross a frame. -/
def physBytes (s : State) (stack p n : Nat) : List Byte := tabBytes s.mem (hbmKey stack (remapAddr s.dev stack p)) n

/-- Writes bytes of a stack at physical address `p`, within one frame. -/
def physWrite (s : State) (stack p : Nat) (bs : List Byte) : State :=
  { s with mem := tabSetBytes s.mem (hbmKey stack (remapAddr s.dev stack p)) bs }

/-! ### Buffer-table entries (R112) -/

/-- The block of a stack physical address. -/
def blkKey (stack p : Nat) : Nat := stack * 2 ^ 31 + p / 64

/-- What `upsets` holds of a block found uncorrectable (R37): above the 72 bytes of its code word. -/
def foundLost : Nat := 73

/-- The address of the buffer-table entry `i` of VF `v`, before the remap (R112). -/
def btAddr (d : Dev) (v i : Nat) : Nat := (tabGet vfAbsent d.vfs v).btFrame * 2 ^ 21 + 32 * i

/-- The buffer-table entry `i` of VF `v` as it stands in memory (R112); one whose block the port cannot correct reads as invalid, for
uncorrectable data reaches no requester (R36, log 17). -/
def btEntry (s : State) (v i : Nat) : BitVec 256 :=
  let n := (tabGet vfAbsent s.dev.vfs v).btStack
  let p := btAddr s.dev v i
  if 3 < tabGet 0 s.dev.upsets (blkKey n (remapAddr s.dev n p)) then 0#256
  else BitVec.ofNat 256 (leNat (physBytes s n p 32))

def eV (e : BitVec 256) : Bool := e.getLsbD 191
def eR (e : BitVec 256) : Bool := e.getLsbD 190
def eW (e : BitVec 256) : Bool := e.getLsbD 189
def eX (e : BitVec 256) : Bool := e.getLsbD 188
def eA (e : BitVec 256) : Bool := e.getLsbD 187
def ePhys (e : BitVec 256) : Bool := e.getLsbD 186
def eIlv (e : BitVec 256) : Nat := fieldN e 184 2
def eGran (e : BitVec 256) : Nat :=
  match fieldN e 182 2 with
  | 0 => 256
  | 1 => 4096
  | 2 => 65536
  | _ => 2 ^ 21
def ePend (e : BitVec 256) : Bool := e.getLsbD 181
def eDsm (e : BitVec 256) : Bool := e.getLsbD 180
def eOwner (e : BitVec 256) : Nat := fieldN e 160 10
def eLcnt (e : BitVec 256) : Nat := fieldN e 152 8
def eLen (e : BitVec 256) : Nat := fieldN e 64 48
def eBase (e : BitVec 256) : Nat := fieldN e 0 48

/-- `DsmLocate` of R117: die, bank and byte of offset `off`. -/
def dsmLocate (e : BitVec 256) (off : Nat) : Nat × Nat × Nat :=
  let b := eBase e
  let g := eGran e
  let a :=
    if eIlv e = 0 then b % 2 ^ 27 + off
    else
      let i := off / g
      let b0 := b / 2 ^ 21 % 64
      (4 * (b0 / 4) + (b0 + i) % 4) * 2 ^ 21 + b % 2 ^ 21 + i / 4 * g + off % g
  (b / 2 ^ 27 % 8, a / 2 ^ 21 % 64, a % 2 ^ 21)

/-- The banks that a DSM buffer's bytes reach. -/
def dsmBanks (e : BitVec 256) : List Nat :=
  let b := eBase e
  if eLen e = 0 then []
  else if eIlv e = 0 then
    (List.range 64).filter (fun k => (b % 2 ^ 27) / 2 ^ 21 ≤ k ∧ k ≤ (b % 2 ^ 27 + eLen e - 1) / 2 ^ 21)
  else
    let b0 := b / 2 ^ 21 % 64
    (List.range (min 4 ((eLen e + eGran e - 1) / eGran e))).map (fun i => 4 * (b0 / 4) + (b0 + i) % 4)

/-- Whether an entry in the table of a VF (custodian or not) is malformed (R112, R117). -/
def malformed (d : Dev) (cust : Bool) (e : BitVec 256) : Bool :=
  let b := eBase e
  let g := eGran e
  if eDsm e then
    decide (b ≥ 2 ^ 30) || ePhys e || decide (eIlv e ≥ 2)
      || (eIlv e == 0 && decide (b % 2 ^ 27 + eLen e > 2 ^ 27))
      || (eIlv e == 1 && (decide (b % 2 ^ 21 % g ≠ 0)
            || decide (b % 2 ^ 21 + (eLen e + 4 * g - 1) / (4 * g) * g > 2 ^ 21)))
      || (dsmBanks e).any (fun k => tabGet 0 d.dsmOwn (b / 2 ^ 27 % 8 * 64 + k) != (tabGet vfAbsent d.vfs (eOwner e)).part + 1)
  else
    eIlv e == 3 || decide (b % 2 ^ 43 % g ≠ 0) || (ePhys e && (!cust || eIlv e != 0))

/-- R32: the intermediate address of offset `off` of an HBM buffer. -/
def interleave (e : BitVec 256) (off : Nat) : Nat :=
  let b := eBase e
  let s0 := b / 2 ^ 43
  let l := b % 2 ^ 43
  let g := eGran e
  let i := off / g
  match eIlv e with
  | 0 => s0 * 2 ^ 43 + l + off
  | 1 => (4 * (s0 / 4) + (s0 + i) % 4) * 2 ^ 43 + l + i / 4 * g + off % g
  | _ => ((s0 + i) % 32) * 2 ^ 43 + l + i / 32 * g + off % g

/-- Where offset `off` of a buffer lies. -/
def locate (e : BitVec 256) (off : Nat) : Loc :=
  if eDsm e then
    let r := dsmLocate e off
    .dsm r.1 r.2.1 r.2.2
  else if ePhys e then .phys (eBase e / 2 ^ 43) (eBase e % 2 ^ 37 + off)
  else .ipa (eOwner e) (interleave e off)

/-- The die whose port or bank serves a location, and whether it is DSM. -/
def locDie : Loc → Nat × Bool
  | .dsm d _ _ => (d, true)
  | .phys st _ => (st / 4, false)
  | .own _ st _ _ => (st / 4, false)
  | .ipa _ a => (a / 2 ^ 43 / 4, false)

/-- Endpoint nominal of a location for a task (R286). -/
def nominal (t : Task) (l : Loc) : Nat :=
  let r := locDie l
  if r.2 then (if r.1 = t.die then 40 + 2 * t.hop else 384)
  else if r.1 = t.die then 768 else 1024

/-- Contiguous pieces of `n` bytes at offset `off`: each within one 64-byte block, so within one granule, bank and frame;
`fuel` bounds their number.  The result lists offset within the access, buffer offset and length. -/
def pieces : Nat → Nat → Nat → Nat → List (Nat × Nat × Nat)
  | 0, _, _, _ => []
  | fuel + 1, rel, off, n =>
    if n = 0 then []
    else
      let k := min n (64 - off % 64)
      (rel, off, k) :: pieces fuel (rel + k) (off + k) (n - k)

/-- All pieces of an access. -/
def piecesOf (off n : Nat) : List (Nat × Nat × Nat) := pieces (n / 64 + 2) 0 off n

/-- How far offsets of an entry lie from the 64-byte blocks of their home: only a linear DSM buffer may start inside a block (R117). -/
def entryShift (e : BitVec 256) : Nat := if eDsm e ∧ eIlv e = 0 then eBase e % 64 else 0

/-- The pieces of `n` bytes from offset `off` of a buffer, none across the end of a 64-byte block of its home. -/
def piecesIn (e : BitVec 256) (off n : Nat) : List (Nat × Nat × Nat) :=
  (pieces (n / 64 + 2) 0 (off + entryShift e) n).map (fun p => (p.1, p.2.1 - entryShift e, p.2.2))

/-- Largest endpoint nominal among the bytes of an access (R308). -/
def accessNominal (t : Task) (e : BitVec 256) (off n : Nat) : Nat :=
  (piecesIn e off n).foldl (fun a p => max a (nominal t (locate e p.2.1))) 0

/-- Largest endpoint nominal over the whole buffer (R372, CPG), granule by granule. -/
def bufferNominal (t : Task) (e : BitVec 256) : Nat :=
  if eDsm e then nominal t (locate e 0)
  else match eIlv e with
    | 2 => if eLen e ≤ eGran e then nominal t (locate e 0)
           else (List.range (min 32 ((eLen e + eGran e - 1) / eGran e))).foldl
             (fun a i => max a (nominal t (locate e (i * eGran e)))) 0
    | _ => nominal t (locate e 0)

/-! ### The column's checks (R113) -/

/-- The kinds of access of R257 (TINFO2). -/
def kLoad : Nat := 0
def kStore : Nat := 1
def kAtomic : Nat := 2
def kCopySrc : Nat := 3
def kCopyDst : Nat := 4
def kFetch : Nat := 5

/-- The entry a task's access uses: the range register's, else the table's (R115). -/
def taskEntry (s : State) (idx : Nat) : BitVec 256 :=
  match tabFind s.sq.rr idx with
  | some e => e
  | none => btEntry s s.tk.vf idx

/-- Whether OWNER may be named by VF `v` (R113, step 4). -/
def ownerOk (d : Dev) (v owner : Nat) : Bool :=
  owner == v || (vfLive d owner && (tabGet vfAbsent d.vfs owner).part == (tabGet vfAbsent d.vfs v).part
    && !(tabGet vfAbsent d.vfs owner).prot && !(tabGet vfAbsent d.vfs v).prot)

/-- Whether every byte of the access lies in lease windows of its kind (R127). -/
def leased (t : Task) (rd wr : Bool) (idx off n : Nat) : Bool :=
  (List.range n).all (fun i => t.lease.any (fun r =>
    r.index == idx && decide (r.off ≤ off + i) && decide (off + i < r.off + r.len) && (!rd || r.read) && (!wr || r.write)))

/-- A bounds-or-rights trap (R257). -/
def bounds (s : State) (sub : Nat) (ba : Word) (n kind : Nat) (len : Nat) : Trap :=
  { trapOf s 0x04 sub ba (w64 n) (w64 kind) with ti3 := w64 len, gaddr := some ba }

/-- R113 on `n` bytes at buffer address `ba`: the entry, or the trap. -/
def check (s : State) (rd wr atm exe : Bool) (kind : Nat) (ba : Word) (n : Nat) : Except Trap (BitVec 256) :=
  let idx := fieldN ba 48 16
  let off := fieldN ba 0 48
  let e := taskEntry s idx
  if idx ≤ 15 then .error (bounds s 0x01 ba n kind 0)
  else if !eV e || malformed s.dev s.tk.cust e then .error (bounds s 0x01 ba n kind (eLen e))
  else if off + n > eLen e then .error (bounds s 0x02 ba n kind (eLen e))
  else if (rd && !eR e) || (wr && !eW e) || (atm && !eA e) || (exe && !eX e) then .error (bounds s 0x03 ba n kind (eLen e))
  else if !ownerOk s.dev s.tk.vf (eOwner e) then .error (bounds s 0x04 ba n kind (eLen e))
  else if !exe && !leased s.tk (rd || atm) wr idx off n then .error (bounds s 0x05 ba n kind (eLen e))
  else .ok e

/-! ### Requests -/

/-- Whether buffer ranges overlap, judged by INDEX and offset (R244). -/
def overlaps (i1 o1 n1 i2 o2 n2 : Nat) : Bool := i1 == i2 && decide (o1 < o2 + n2) && decide (o2 < o1 + n1)

/-- Memory ranges (index, offset, bytes) that a copy reads and writes (R372, R376). -/
def copyReads (c : Copy) : List (Nat × Nat × Nat) :=
  match c.kind with
  | 2 | 4 | 9 => (List.range (min c.rows c.cut)).map (fun k => (c.index, (c.off + k * c.step) % 2 ^ 48, 128))
  | 7 => (c.gather.take c.cut).map (fun i => (c.index, (c.off + 128 * i) % 2 ^ 48, 128))
  | 8 => if c.desc.getLsbD 115 then []
         else (List.range (min c.rows c.cut)).map (fun k => (c.index, (c.off + k * c.step) % 2 ^ 48, 128))
  | 10 => (List.range (min c.rows c.cut)).map (fun k => (c.index, (c.off + k * c.step) % 2 ^ 48, 128))
  | _ => []

def copyWrites (c : Copy) : List (Nat × Nat × Nat) :=
  match c.kind with
  | 3 | 5 | 10 => (List.range (min c.rows c.cut)).map (fun k => (c.index, (c.off + k * c.step) % 2 ^ 48, 128))
  | 4 => (List.range (min c.rows c.cut)).map (fun k => (c.index2, (c.off2 + 128 * k) % 2 ^ 48, 128))
  | 8 => if c.desc.getLsbD 115 then
           (List.range (min c.rows c.cut)).map (fun k => (c.index, (c.off + k * c.step) % 2 ^ 48, 128))
         else []
  | _ => []

/-- The last cycle of a copy: its nominal completion N (R373). -/
def copyEnd (c : Copy) : Nat := c.start + c.lat + c.rows - 1

/-- Every copy of the task: of the sequencer in focus and of its siblings. -/
def taskCopies (s : State) : List Copy := s.sq.copies ++ s.tk.seqs.flatMap (fun e => e.2.copies)

/-- The running copy that an access at LC `c` meets (R244, R376), if any. -/
def meetsCopy (cs : List Copy) (c : Nat) (rd wr : List (Nat × Nat × Nat)) : Option Copy :=
  cs.find? (fun k => decide (k.start < c) && decide (c ≤ copyEnd k) &&
    ((rd ++ wr).any (fun a => (copyWrites k).any (fun b => overlaps a.1 a.2.1 a.2.2 b.1 b.2.1 b.2.2))
      || wr.any (fun a => (copyReads k).any (fun b => overlaps a.1 a.2.1 a.2.2 b.1 b.2.1 b.2.2))))

/-- Busy resource: copy unit `u` of an earlier copy (R374, R376). -/
def unitBusy (s : State) (u : Nat) (free : Word) : Trap := timing s 0x02 5 u (seqCol s + u / 2) free 0#64

/-- Adds an output of the group (R260). -/
def emit (o : Out) (s : State) : State := { s with tk := { s.tk with out := s.tk.out ++ [o] } }

/-- Takes a fresh reply number, for a reply of `n` pieces. -/
def newReply (n : Nat) (s : State) : State :=
  { s with nextId := s.nextId + 1, replies := tabPut s.replies s.nextId ⟨.task s.tid s.k, 8, n, [], [], false⟩ }

/-- Emits the requests of one access of the group, all answering reply `id` (R242, R308). -/
def emitReqs (id base : Nat) (e : BitVec 256) (idx off n : Nat) (op : MemOp) (data : List Byte) (s : State) : State :=
  (piecesIn e off n).foldl (fun t p =>
    emit (.req ⟨id, base + p.1, .task t.tid t.k, t.tk.vf, locate e p.2.1, p.2.2, op, (data.drop p.1).take p.2.2,
      w64 (idx * 2 ^ 48 + p.2.1), false, false⟩) t) s

/-! ### Read cache (R218) -/

/-- The tag of a location's line; untranslated accesses have none. -/
def lineTag : Loc → Option (Nat × Nat)
  | .ipa v a => some (v + 1, a / 64)
  | .dsm d b y => some (0, dsmKey d b y / 64)
  | .phys _ _ => none
  | .own _ _ _ _ => none

/-- The byte of a location within its line. -/
def lineByte : Loc → Nat
  | .ipa _ a => a % 64
  | .dsm _ _ y => y % 64
  | .phys _ p => p % 64
  | .own _ _ p _ => p % 64

/-- The line that holds a location, if cached. -/
def cachedLine (q : Seq) (l : Loc) : Option Line :=
  match lineTag l with
  | some t => q.rcache.find? (fun x => x.vf == t.1 && x.blk == t.2)
  | none => none

/-- Writes bytes into a matching line; lines are not allocated. -/
def updateLine (l : Loc) (bs : List Byte) (q : Seq) : Seq :=
  match lineTag l with
  | none => q
  | some t => { q with rcache := q.rcache.map (fun x =>
      if x.vf = t.1 ∧ x.blk = t.2 then
        { x with data := x.data.take (lineByte l) ++ bs ++ x.data.drop (lineByte l + bs.length) }
      else x) }

/-- Drops a matching line. -/
def dropLine (l : Loc) (q : Seq) : Seq :=
  match lineTag l with
  | none => q
  | some t => { q with rcache := q.rcache.filter (fun x => !(x.vf == t.1 && x.blk == t.2)) }

/-- Changes the read caches of every sequencer of the issuing task. -/
def onCaches (f : Seq → Seq) (s : State) : State :=
  { s with sq := f s.sq, tk := { s.tk with seqs := s.tk.seqs.map (fun e => (e.1, f e.2)) } }

/-- A load's pieces: from the read cache where cached, else as requests (R218). -/
def loadPieces (id : Nat) (e : BitVec 256) (idx off n : Nat) (s : State) : State :=
  (piecesIn e off n).foldl (fun t p =>
    let l := locate e p.2.1
    match cachedLine t.sq l, tabFind t.replies id with
    | some x, some r =>
      let r1 := { r with left := r.left - 1, data := tabSetBytes r.data p.1 ((x.data.drop (lineByte l)).take p.2.2) }
      { t with replies := tabPut t.replies id r1 }
    | _, _ => emit (.req ⟨id, p.1, .task t.tid t.k, t.tk.vf, l, p.2.2, .read, [], w64 (idx * 2 ^ 48 + p.2.1), false, true⟩) t) s

/-- Overlap check of a scalar access against the task's running copies (R244). -/
def scalarOverlap (s : State) (wr : Bool) (ba : Word) (n : Nat) : Except Trap Unit :=
  let a := [(fieldN ba 48 16, fieldN ba 0 48, n)]
  match meetsCopy (taskCopies s) s.ix.c (if wr then [] else a) (if wr then a else []) with
  | some k => .error (unitBusy s k.unit (w64 (copyEnd k + 1)))
  | none => .ok ()

/-- What a load of `z` bytes from buffer address `ba` of entry `e` starts (R308): its pieces, and the landing of its value. -/
def loadEffect (z : Nat) (d : BitVec 6) (ba : Word) (e : BitVec 256) (s : State) : State :=
  let off := fieldN ba 0 48
  landAt (loadPieces s.nextId e (fieldN ba 48 16) off z (newReply (piecesIn e off z).length s))
    (s.ix.cl + accessNominal s.tk e off z - 1) (.load d s.nextId kLoad)

/-- What a store of `z` bytes of `v` to buffer address `ba` of entry `e` starts (R308): its requests; matching lines of the task's
read caches take the bytes (R218). -/
def storeEffect (z : Nat) (v : Word) (ba : Word) (e : BitVec 256) (s : State) : State :=
  let off := fieldN ba 0 48
  let bs := natLe z v.toNat
  (piecesIn e off z).foldl (fun t p => onCaches (updateLine (locate e p.2.1) ((bs.drop p.1).take p.2.2)) t)
    (emitReqs 0 0 e (fieldN ba 48 16) off z .write bs s)

/-- What an atomic on the aligned buffer address `ba` of entry `e` starts (R309): its request, and the landing of the prior value. -/
def atomicEffect (op : MemOp) (d : BitVec 6) (data : List Byte) (ba : Word) (e : BitVec 256) (s : State) : State :=
  let off := fieldN ba 0 48
  landAt (emit (.req ⟨s.nextId, 0, .task s.tid s.k, s.tk.vf, locate e off, 8, op, data, ba, false, false⟩)
      (onCaches (dropLine (locate e off)) (newReply 1 s)))
    (s.ix.cl + nominal s.tk (locate e off) + 64 - 1) (.load d s.nextId kAtomic)

/-- A scalar load of `z` bytes (R308). -/
def loadOp (z : Nat) (g : Guard) (d a : BitVec 6) (i : Imm14) (s : State) : Host.Outcome State Fault Refusal :=
  let ba := elemAddr (readS s a) i z
  finishOp s (guarded (predOn g s) s (do
    let e ← check s true false false false kLoad ba z
    scalarOverlap s false ba z
    .ok (loadEffect z d ba e s)))

/-- A scalar store of `z` bytes (R308). -/
def storeOp (z : Nat) (g : Guard) (d a : BitVec 6) (i : Imm14) (s : State) : Host.Outcome State Fault Refusal :=
  let ba := elemAddr (readS s a) i z
  finishOp s (guarded (predOn g s) s (do
    let e ← check s false true false false kStore ba z
    scalarOverlap s true ba z
    .ok (storeEffect z (readS s d) ba e s)))

/-- An atomic (R309): the aligned atom's prior value lands at the endpoint nominal + 64. -/
def atomicOp (op : MemOp) (g : Guard) (d a b : BitVec 6) (s : State) : Host.Outcome State Fault Refusal :=
  let ba := readS s a &&& ~~~7#64
  let data := if op = .acas then natLe 8 (readS s d).toNat ++ natLe 8 (readS s b).toNat else natLe 8 (readS s b).toNat
  finishOp s (guarded (predOn g s) s (do
    let e ← check s false true true false kAtomic ba 8
    scalarOverlap s true ba 8
    .ok (atomicEffect op d data ba e s)))

def execLdb (g : Guard) (d a : BitVec 6) (i : Imm14) (s : State) := loadOp 1 g d a i s
def execLdh (g : Guard) (d a : BitVec 6) (i : Imm14) (s : State) := loadOp 2 g d a i s
def execLdw (g : Guard) (d a : BitVec 6) (i : Imm14) (s : State) := loadOp 4 g d a i s
def execLdd (g : Guard) (d a : BitVec 6) (i : Imm14) (s : State) := loadOp 8 g d a i s
def execStb (g : Guard) (d a : BitVec 6) (i : Imm14) (s : State) := storeOp 1 g d a i s
def execSth (g : Guard) (d a : BitVec 6) (i : Imm14) (s : State) := storeOp 2 g d a i s
def execStw (g : Guard) (d a : BitVec 6) (i : Imm14) (s : State) := storeOp 4 g d a i s
def execStd (g : Guard) (d a : BitVec 6) (i : Imm14) (s : State) := storeOp 8 g d a i s
def execAadd (g : Guard) (d a b : BitVec 6) (s : State) := atomicOp .aadd g d a b s
def execAmin (g : Guard) (d a b : BitVec 6) (s : State) := atomicOp .amin g d a b s
def execAmax (g : Guard) (d a b : BitVec 6) (s : State) := atomicOp .amax g d a b s
def execAor (g : Guard) (d a b : BitVec 6) (s : State) := atomicOp .aor g d a b s
def execAxch (g : Guard) (d a b : BitVec 6) (s : State) := atomicOp .axch g d a b s
def execAcas (g : Guard) (d a b : BitVec 6) (s : State) := atomicOp .acas g d a b s

end Sys2Proof.Machine
end

