-- ==== Sys2Proof/Machine/Fetch.lean ====
section
/-!
DEFINITION. Fetching code: second-stage translation of an address, the bundles of the code buffer, and the issue group at a
position (R120, R266, R271, R277, R280).
-/

namespace Sys2Proof.Machine

/-! ### Second stage (R118 to R120) -/

/-- Word 0 of the VF directory for stack `n`: AV and AFRAME (R118). -/
def dirWord (s : State) (v n : Nat) : Nat :=
  let f := tabGet vfAbsent s.dev.vfs v
  leNat (physBytes s f.btStack (f.btFrame * 2 ^ 21 + 8 * n) 8)

/-- The second-stage entry of `v` on stack `n` for GFN `g` (R119). -/
def ssEntry (s : State) (v n g : Nat) : BitVec 256 :=
  BitVec.ofNat 256 (leNat (physBytes s n (dirWord s v n % 65536 * 2 ^ 21 + 32 * g) 32))

def ssV (e : BitVec 256) : Bool := e.getLsbD 63
def ssLoc (e : BitVec 256) : Bool := e.getLsbD 62
def ssMt (e : BitVec 256) : Nat := fieldN e 60 2
def ssD (e : BitVec 256) : Bool := e.getLsbD 59
def ssSplit (e : BitVec 256) : Bool := e.getLsbD 58
def ssPend (e : BitVec 256) : Bool := e.getLsbD 57
def ssSdone (e : BitVec 256) : Bool := e.getLsbD 56
def ssLcount (e : BitVec 256) : Nat := fieldN e 40 16
def ssPfn (e : BitVec 256) : Nat := fieldN e 0 16
def ssSpfn (e : BitVec 256) : Nat := fieldN e 192 16

/-- `Translate` of R120, before the remap: stack and stack physical address. -/
def translate (s : State) (v ipa : Nat) : Option (Nat × Nat) :=
  let n := ipa / 2 ^ 43 % 32
  if vfGone s.dev v ∨ dirWord s v n / 2 ^ 63 = 0 ∨ ipa / 2 ^ 37 % 64 ≠ 0 then none
  else
    let e := ssEntry s v n (ipa / 2 ^ 21 % 65536)
    if ssV e then some (n, ssPfn e * 2 ^ 21 + ipa % 2 ^ 21) else none

/-- The key in memory of a location's first byte. -/
def locKey (s : State) : Loc → Option Nat
  | .dsm d b y => some (dsmKey d b y)
  | .phys st a => some (hbmKey st (remapAddr s.dev st a))
  | .own _ st a _ => some (hbmKey st (remapAddr s.dev st a))
  | .ipa v a => (translate s v a).map (fun r => hbmKey r.1 (remapAddr s.dev r.1 r.2))

/-- Bytes of a buffer, zero where unmapped; `off` up to a block boundary is one lookup. -/
def bufBytes (s : State) (e : BitVec 256) (off n : Nat) : List Byte :=
  (piecesOf off n).flatMap (fun p =>
    match locKey s (locate e p.2.1) with
    | some k => tabBytes s.mem k p.2.2
    | none => List.replicate p.2.2 0#8)

/-! ### Bundles -/

/-- The entry of the task's code buffer. -/
def codeEntry (s : State) : BitVec 256 := taskEntry s (fieldN s.tk.code 48 16)

/-- The buffer address of bundle `p`: byte 16p of the code buffer, which CODE names by its INDEX (R266, R271). -/
def bundleAddr (s : State) (p : Nat) : Word := w64 (fieldN s.tk.code 48 16 * 2 ^ 48 + 16 * p % 2 ^ 48)

/-- Slot word `k` of bundle `p` (R271). -/
def codeWord (s : State) (p k : Nat) : SlotWord := BitVec.ofNat 32 (leNat (bufBytes s (codeEntry s) (16 * p + 4 * k) 4))

/-- The block of a stack that a location's first byte lies in, if it lies in one (R33). -/
def locBlock (s : State) : Loc → Option Nat
  | .dsm _ _ _ => none
  | .phys st a => some (blkKey st (remapAddr s.dev st a))
  | .own _ st a _ => some (blkKey st (remapAddr s.dev st a))
  | .ipa v a => (translate s v a).map (fun r => blkKey r.1 (remapAddr s.dev r.1 r.2))

/-- The pieces of a 64-byte block of the code buffer, as far as the buffer reaches: offset and bytes. -/
def codePieces (s : State) (b : Nat) : List (Nat × Nat) :=
  (piecesOf (64 * b) (min 64 (eLen (codeEntry s) - 64 * b))).map (fun p => (p.2.1, p.2.2))

/-- Where a fetch has found a block of the code uncorrectable (R36, R37): its location's offset. -/
def codeLost (s : State) (b : Nat) : Option Nat :=
  ((codePieces s b).find? (fun p => match locBlock s (locate (codeEntry s) p.1) with
    | some k => decide (foundLost ≤ tabGet 0 s.dev.upsets k)
    | none => false)).map Prod.fst

/-- A bundle past the end of the code buffer (R266). -/
def pastEnd (s : State) (p : Nat) : Bool := decide (16 * p + 16 > eLen (codeEntry s))

/-- Class 111. -/
def isHeader (w : SlotWord) : Bool := w.extractLsb' 28 3 == 7#3

/-- One slot of a group: bundle, slot, word, header of its bundle. -/
structure Slot where
  b   : Nat
  k   : Nat
  w   : SlotWord
  hdr : Option SlotWord
  deriving DecidableEq, Repr

/-- The extension byte of slot `k` (R277). -/
def extByte (hdr : Option SlotWord) (k : Nat) : Option Byte := hdr.map (fun h => h.extractLsb' (8 * (3 - k)) 8)

/-- The header of bundle `p`, if it has one. -/
def headerOf (s : State) (p : Nat) : Option SlotWord := if isHeader (codeWord s p 0) then some (codeWord s p 0) else none

/-- Slots from `k` of bundle `p` up to and including the first stop; the flag says whether a stop was found. -/
def takeSlots (s : State) (p : Nat) (h : Option SlotWord) : Nat → Nat → List Slot × Bool
  | 0, _ => ([], false)
  | fuel + 1, k =>
    let w := codeWord s p k
    if w.getLsbD 31 then ([⟨p, k, w, h⟩], true)
    else
      let r := takeSlots s p h fuel (k + 1)
      (⟨p, k, w, h⟩ :: r.1, r.2)

/-- The slots of bundle `p` from `k`, without its header slot (R280). -/
def slotsFrom (s : State) (p k : Nat) : List Slot × Bool :=
  let h := headerOf s p
  let k' := if k = 0 ∧ h.isSome then 1 else k
  takeSlots s p h (4 - k') k'

/-- The position after a slot, in sequence. -/
def slotAfter (p k : Nat) : Pos := if k = 3 then ⟨p + 1, 0⟩ else ⟨p, k + 1⟩

/-- An issue group: its slots in order and whether it is stopped within two bundles. -/
structure Group where
  slots : List Slot
  stopped : Bool
  second : Bool
  deriving DecidableEq, Repr

/-- The group at a position (R280). -/
def groupAt (s : State) (pos : Pos) : Group :=
  let a := slotsFrom s pos.bundle pos.slot
  if a.2 then ⟨a.1, true, false⟩
  else
    let b := slotsFrom s (pos.bundle + 1) 0
    ⟨a.1 ++ b.1, b.2, true⟩

/-- Bundle and slot of a group's last slot. -/
def groupLast (pos : Pos) (g : Group) : Pos :=
  match g.slots.getLast? with
  | some x => ⟨x.b, x.k⟩
  | none => ⟨pos.bundle + 1, 3⟩

/-- The position after a group, in sequence. -/
def groupNext (pos : Pos) (g : Group) : Pos :=
  let l := groupLast pos g
  slotAfter l.bundle l.slot

/-- The group's first operation slot as a position (R269). -/
def groupPos (pos : Pos) (g : Group) : Pos :=
  match g.slots.head? with
  | some x => ⟨x.b, x.k⟩
  | none => pos

end Sys2Proof.Machine
end

