-- ==== Sys2Proof/Machine/Control.lean ====
section
/-!
DEFINITION. Class 101: branch targets and transfers, loops, siblings, safe points, traps from code, votes and waits
(R162 to R166, R185 to R188, R311 to R323).
-/

namespace Sys2Proof.Machine

/-! ### Branch targets and transfers -/

/-- Writes a bt register (R311). -/
def setBt (t : BitVec 2) (v : Word) (s : State) : State :=
  { s with sq := { s.sq with bt := tabPut s.sq.bt t.toNat ⟨fieldN v 0 32, s.ix.c, s.sq.grp⟩ } }

/-- Reads a bt register: empty, or written less than three groups earlier, is a missing producer (R311). -/
def readBt (s : State) (t : BitVec 2) : Except Trap Nat :=
  match tabFind s.sq.bt t.toNat with
  | some b =>
    if b.grp + 3 ≤ s.sq.grp then .ok b.bundle
    else .error (timing s 0x01 9 (0x80 + t.toNat) (seqCol s) (w64 b.lc) (w64 t.toNat))
  | none => .error (timing s 0x01 9 (0x80 + t.toNat) (seqCol s) never (w64 t.toNat))

/-- A taken transfer (R312): busy when one is pending, else pending with two delay groups. -/
def takeTransfer (target drop : Nat) (s : State) : Eff :=
  match s.sq.pend with
  | some p => .error (timing s 0x02 9 0x84 (seqCol s) (w64 (s.ix.c + p.left)) 0#64)
  | none => .ok { s with sq := { s.sq with pend := some ⟨target, 2, drop⟩ } }

def execPbr (g : Guard) (t : BitVec 2) (i : Imm20) (s : State) : Host.Outcome State Fault Refusal :=
  finishOp s (guarded (predOn g s) s (.ok (setBt t (w64 s.ix.bundle + immS20 i) s)))

def execPbrr (g : Guard) (t : BitVec 2) (a : BitVec 6) (s : State) : Host.Outcome State Fault Refusal :=
  finishOp s (guarded (predOn g s) s (.ok (setBt t (readS s a) s)))

def execBr (g : Guard) (t : BitVec 2) (s : State) : Host.Outcome State Fault Refusal :=
  finishOp s (guarded (predOn g s) s (do takeTransfer (← readBt s t) 6 s))

def execBrc (g : Guard) (t : BitVec 2) (a : BitVec 6) (s : State) : Host.Outcome State Fault Refusal :=
  finishOp s (guarded (predOn g s) s (do
    let b ← readBt s t
    if readS s a = 0#64 then .ok s else takeTransfer b 6 s))

def execCall (g : Guard) (t : BitVec 2) (s : State) : Host.Outcome State Fault Refusal :=
  finishOp s (guarded (predOn g s) s (do
    let u ← takeTransfer (← readBt s t) 6 s
    .ok (landIn u 1 .link)))

def execRet (g : Guard) (s : State) : Host.Outcome State Fault Refusal :=
  finishOp s (guarded (predOn g s) s (takeTransfer (fieldN (readS s 63#6) 0 32) 6 s))

/-! ### Loops -/

/-- Reads and writes a loop level. -/
def getLoop (s : State) (l : BitVec 3) : Loop := tabGet loopOff s.sq.loops l.toNat
def setLoop (l : BitVec 3) (v : Loop) (s : State) : State :=
  { s with sq := { s.sq with loops := tabSet loopOff s.sq.loops l.toNat v } }

/-- The loop-structure fault (R314). -/
def loopFault (s : State) (l : BitVec 3) : Trap := timing s 0x02 9 (0x40 + l.toNat) (seqCol s) never (w64 l.toNat)

/-- LOOP and LOOPI (R314). -/
def startLoop (l : BitVec 3) (count : Nat) (t : BitVec 2) (s : State) : Eff := do
  let e ← readBt s t
  let b := s.ix.last.bundle + 1
  if (getLoop s l).active || (List.range 6).any (fun n => decide (l.toNat < n) && (tabGet loopOff s.sq.loops n).active)
      || decide (e < b) || decide (e - b > 255) then .error (loopFault s l)
  else if count = 0 then .ok { s with ix := { s.ix with jump := some ⟨e + 1, 0⟩ } }
  else
    let o := getLoop s l
    .ok (setLoop l { o with active := true, count := count, iter := 0, idx := o.start, stride := o.next, sB := b, eB := e } s)

def execLoop (g : Guard) (l : BitVec 3) (a : BitVec 6) (t : BitVec 2) (s : State) : Host.Outcome State Fault Refusal :=
  finishOp s (guarded (predOn g s) s (startLoop l (readS s a).toNat t s))

def execLoopi (g : Guard) (l : BitVec 3) (t : BitVec 2) (i : BitVec 20) (s : State) : Host.Outcome State Fault Refusal :=
  finishOp s (guarded (predOn g s) s (startLoop l i.toNat t s))

/-- LSTR (R316): START and STRIDE of the next LOOP on the level. -/
def execLstr (g : Guard) (l : BitVec 3) (a : BitVec 6) (i : Imm14) (s : State) : Host.Outcome State Fault Refusal :=
  finishOp s (guarded (predOn g s) s
    (.ok (setLoop l { getLoop s l with lstr := true, start := readS s a, next := immS14 i } s)))

def execLidx (g : Guard) (d : BitVec 6) (l : BitVec 3) (s : State) : Host.Outcome State Fault Refusal :=
  finishOp s (guarded (predOn g s) s (.ok (landS s 1 d (getLoop s l).idx)))

def execLbrk (g : Guard) (l : BitVec 3) (s : State) : Host.Outcome State Fault Refusal :=
  finishOp s (guarded (predOn g s) s
    (if (getLoop s l).active then takeTransfer ((getLoop s l).eB + 1) l.toNat s else .error (loopFault s l)))

/-! ### Siblings -/

/-- A sequencer of the issuing task: the one in focus or a parked one. -/
def seqOf (s : State) (k : Nat) : Option Seq := if k = s.k then some s.sq else tabFind s.tk.seqs k

/-- Whether sibling `q` is executing, or in its two-cycle start (R165). -/
def seqBusy (q : Seq) : Bool := q.st != .idle && q.st != .absent && q.st != .halted

/-- SIBST.BUSY of a sequencer as a GETC at LC `c` reads it: after every SPAWN and HALT issued before `c` (R164). -/
def busyAt (c : Nat) (q : Seq) : Bool :=
  match q.st with
  | .absent | .halted => false
  | .idle => decide (q.haltLC = c) && decide (q.startLC ≤ c) && decide (0 < c)
  | _ => decide (q.startLC < c + 2)

/-- A SPAWNed sibling (R165): arguments in s1 to s8, the rest reset, PREC as in force, first group at `c + 2`. -/
def spawned (s : State) (a : BitVec 6) (target : Nat) (q : Seq) : Seq :=
  { q with
    st := .running, startLC := s.ix.c + 2, pos := ⟨target, 0⟩, via := .spawn, nextLC := s.ix.c + 2, grp := 0
    s := (List.range 8).foldl (fun t i => tabSet 0#64 t (i + 1) (tabGet 0#64 s.sq.s (a.toNat + i))) []
    q := 0#8, m := [], bt := [], loops := [], pend := none, hret := none, trapv := 0#64, tcause := 0#64, tinfo := []
    prec := s.sq.prec, vwin := 0#64, fflags := 0#64, td := [], av := [], sh := [], lat := [] }

/-- Puts a parked sequencer back. -/
def putSeq (k : Nat) (q : Seq) (s : State) : State := { s with tk := { s.tk with seqs := tabPut s.tk.seqs k q } }

/-- The checks of SPAWN and JOIN that are illegal encodings whatever the predicate (R165, R166, R318). -/
def sibCheck (s : State) (k : BitVec 2) (bad : Bool) : Except Trap Unit :=
  if s.k ≠ 0 then .error (illegal s 0x0B)
  else if k = 0#2 || k.toNat > s.tk.nsib || bad then .error (illegal s 0x0C)
  else .ok ()

def execSpawn (g : Guard) (k : BitVec 2) (a : BitVec 6) (t : BitVec 2) (s : State) : Host.Outcome State Fault Refusal :=
  finishOp s (do
    sibCheck s k (a == 0#6 || decide (a.toNat > 56))
    guarded (predOn g s) s (match tabFind s.tk.seqs k.toNat with
      | some q =>
        if seqBusy q || (q.haltLC == s.ix.c && q.startLC ≤ s.ix.c && s.ix.c != 0) then
          .error (trapOf s 0x07 0x01 (w64 k.toNat) (w64 q.startLC) 0#64)
        else do .ok (putSeq k.toNat (spawned s a (← readBt s t) q) s)
      | none => .error (illegal s 0x0C)))

/-- JOIN (R166): with the sibling idle it takes one lcyc, otherwise the primary waits for its HALT. -/
def execJoin (g : Guard) (k : BitVec 2) (s : State) : Host.Outcome State Fault Refusal :=
  finishOp s (do
    sibCheck s k false
    guarded (predOn g s) s (match tabFind s.tk.seqs k.toNat with
      | some q => if seqBusy q then .ok { s with sq := { s.sq with st := .joining k.toNat } } else .ok s
      | none => .ok s))

/-! ### Safe points and ending -/

/-- A quiescent point (R124): the group's range registers are emptied, and pending invalidations are acknowledged. -/
def quiesce (s : State) : State := emit (.ack s.k) { s with sq := { s.sq with rr := [] } }

/-- The trap of a store that met uncorrectable data, due at the next PHASE, SAFE or HALT (R36); it is tied to no slot (R255, R260). -/
def storeError (s : State) : Except Trap Unit :=
  match s.tk.serr with
  | some e => .error { trapOf s 0x0E 0x03 e.1 e.2 (w64 kStore) with slot := 0, gaddr := some e.1 }
  | none => .ok ()

/-- Whether a landing is a result in the sense of R185: control-register shadows, status visibility, bank ownership and energy are none. -/
def isResult (l : Landing) : Bool :=
  match l.dst with
  | .ctrl .. | .stat .. | .banks .. | .desc .. | .copyRow .. | .energy .. => false
  | _ => true

/-- The pipeline check of SAFE (R185). -/
def pipelineEmpty (s : State) : Except Trap Unit :=
  let c := s.ix.c
  let qs := s.sq :: s.tk.seqs.map Prod.snd
  if (s.tk.seqs.map Prod.snd).any seqBusy then .error (timing s 0x05 0 0 (seqCol s) never 0#64)
  else match (qs.flatMap (fun q => q.land)).find? (fun l => isResult l && decide (l.iss < c) && decide (c ≤ l.lc)) with
    | some l => .error (timing s 0x05 9 0 (seqCol s) (w64 (l.lc + 1)) 0#64)
    | none => match (taskCopies s).find? (fun x => !x.rel && decide (c ≤ copyEnd x)) with
      | some x => .error (timing s 0x05 5 x.unit (seqCol s + x.unit / 2) (w64 (copyEnd x + 1)) 0#64)
      | none => match qs.find? (fun q => decide (q.win.1 ≤ c) && decide (c < q.win.2)) with
        | some q => .error (timing s 0x05 4 0 (seqCol s) (w64 q.win.2) 0#64)
        | none => .ok ()

/-- SAFE (R185 to R188, R319): a store error ranks above an illegal encoding, and that above an unfinished pipeline (R258). -/
def execSafe (g : Guard) (i : BitVec 12) (s : State) : Host.Outcome State Fault Refusal :=
  finishOp s (do
    if predOn g s then storeError s
    if s.k ≠ 0 then throw (illegal s 0x0B)
    if i.toNat ≥ s.tk.obj.live.length then throw (illegal s 0x01)
    guarded (predOn g s) s (do
      pipelineEmpty s
      let t := quiesce { s with tk := { s.tk with sref := s.ix.c } }
      match s.tk.preempt with
      | some p => if s.tk.preAt < s.cyc then
          .ok { t with tk := { t.tk with preempt := none, taken := some (p, i.toNat) } } else .ok t
      | none => .ok t))

/-- HALT (R166, R183): a sibling becomes idle; the primary halts when no sibling is busy. -/
def execHalt (g : Guard) (s : State) : Host.Outcome State Fault Refusal :=
  finishOp s (guarded (predOn g s) s (do
    storeError s
    if s.k ≠ 0 then .ok { s with sq := { s.sq with st := .idle, haltLC := s.ix.c, pend := none } }
    else if (s.tk.seqs.map Prod.snd).any seqBusy then
      .ok { s with sq := { s.sq with st := .halting, pend := none }, ix := { s.ix with jump := some s.ix.pos, keep := true } }
    else .ok { s with sq := { s.sq with st := .halted, haltLC := s.ix.c, pend := none } }))

/-! ### Traps from code -/

def execTrap (g : Guard) (i : BitVec 20) (s : State) : Host.Outcome State Fault Refusal :=
  finishOp s (guarded (predOn g s) s (.error (trapOf s 0x0C 0x01 (i.setWidth 64) 0#64 0#64)))

def execBrk (g : Guard) (i : BitVec 20) (s : State) : Host.Outcome State Fault Refusal :=
  finishOp s (guarded (predOn g s) s (.error (trapOf s 0x0D 0x01 (i.setWidth 64) 0#64 0#64)))

/-- TRET (R262): to the return group, or with `one` to the group after it. -/
def execTret (g : Guard) (one : Bool) (s : State) : Host.Outcome State Fault Refusal :=
  finishOp s (match s.sq.hret with
    | none => .error (illegal s 0x12)
    | some r => guarded (predOn g s) s (
        if one then
          let gr := groupAt s r.ret
          let a := afterGroup r.pend r.loops (groupLast r.ret gr) (groupNext r.ret gr)
          .ok (trapReturn a.2.2.1 a.2.2.2 a.1 a.2.1 s)
        else .ok (trapReturn r.ret r.via r.pend r.loops s)))

/-! ### Votes and waits -/

/-- Lanes voted (R321). -/
def voteLanes (s : State) : Nat :=
  let v := tabGet 0#64 s.sq.sh 3
  if shG v && shVec v then min (lanesOf s) (shQM v) else lanesOf s

def vote (all : Bool) (g : Guard) (q ma : BitVec 3) (s : State) : Host.Outcome State Fault Refusal :=
  let ls := List.range (voteLanes s)
  finishOp s (guarded (predOn g s) s
    (.ok (landQ s q (if all then ls.all (fun l => (readM s ma).getLsbD l) else ls.any (fun l => (readM s ma).getLsbD l)))))

def execVany (g : Guard) (q ma : BitVec 3) (s : State) := vote false g q ma s
def execVall (g : Guard) (q ma : BitVec 3) (s : State) := vote true g q ma s

/-- WAITT (R322): the wait is a stall before the group issues; the group itself only takes its cycle. -/
def execWaitt (g : Guard) (_a : BitVec 6) (s : State) : Host.Outcome State Fault Refusal :=
  finishOp s (guarded (predOn g s) s (.ok s))

/-- WAITL (R322): the next group issues at max(c + 1, a). -/
def execWaitl (g : Guard) (a : BitVec 6) (s : State) : Host.Outcome State Fault Refusal :=
  finishOp s (guarded (predOn g s) s
    (.ok { s with sq := { s.sq with nextLC := max s.sq.nextLC (readS s a).toNat } }))

/-- PSEL (R180, R323). -/
def execPsel (g : Guard) (t : BitVec 8) (a : BitVec 6) (s : State) : Host.Outcome State Fault Refusal :=
  finishOp s (match s.tk.obj.sched[t.toNat]? with
    | none => .error (illegal s 0x11)
    | some es => guarded (predOn g s) s (
        match es.find? (fun e => decide ((readS s a).toNat ≤ e.1)) with
        | some e => takeTransfer e.2 6 s
        | none => .error (trapOf s 0x0A 0x02 (w64 t.toNat) (readS s a) 0#64)))

end Sys2Proof.Machine
end

