-- ==== Sys2Proof/Machine/Copy.lean ====
section
/-!
DEFINITION. Class 100: copies between the LRS and memory (R369 to R380).
-/

namespace Sys2Proof.Machine

/-! ### Descriptors (R369) -/

def dV (d : BitVec 128) : Bool := d.getLsbD 127
def dKind (d : BitVec 128) : Nat := fieldN d 120 4
def dRfmt (d : BitVec 128) : Nat := fieldN d 118 2
def dRop (d : BitVec 128) : Nat := fieldN d 116 2
def dDir (d : BitVec 128) : Bool := d.getLsbD 115
def dStride (d : BitVec 128) : BitVec 20 := d.extractLsb' 88 20
def dNrows (d : BitVec 128) : Nat := fieldN d 76 12
def dLrow (d : BitVec 128) : Nat := fieldN d 64 12
def dAddr (d : BitVec 128) : Word := d.extractLsb' 0 64

/-- Element width in bytes of a CPR (R380). -/
def rfmtWidth (f : Nat) : Nat := if f = 1 then 2 else if f = 3 then 8 else 4

/-- LRS rows a copy of `kind` reads, in row order (R372); CPG also reads its index row. -/
def srcRows (kind : Nat) (d : BitVec 128) : List Nat :=
  match kind with
  | 1 | 3 | 10 => (List.range (dNrows d)).map (fun k => dLrow d + k)
  | 8 => if dDir d then (List.range (dNrows d)).map (fun k => dLrow d + k) else []
  | 5 => [dLrow d]
  | 7 => [fieldN d 88 12]
  | _ => []

/-- LRS rows a copy of `kind` writes, in row order (R372). -/
def dstRows (kind : Nat) (d : BitVec 128) : List Nat :=
  match kind with
  | 1 => (List.range (dNrows d)).map (fun k => fieldN d 0 12 + k)
  | 2 | 7 | 9 => (List.range (dNrows d)).map (fun k => dLrow d + k)
  | 8 => if dDir d then [] else (List.range (dNrows d)).map (fun k => dLrow d + k)
  | _ => []

/-- Columns that a copy row of unit `u` covers (R375). -/
def copyCols (g kind u : Nat) : BitVec 4 := if kind = 9 then allCols g else 1#4 <<< (u / 2)

/-- Byte stride between memory rows, modulo 2^48 (R372). -/
def memStep (kind : Nat) (d : BitVec 128) : Nat :=
  if kind = 8 then ((dStride d).toInt * 128 % 2 ^ 48).toNat else 128

/-- Whether a copy of `kind` writes memory, and reads memory. -/
def writesMem (kind : Nat) (d : BitVec 128) : Bool := kind == 3 || kind == 4 || kind == 5 || kind == 10 || (kind == 8 && dDir d)
def readsMem (kind : Nat) (d : BitVec 128) : Bool := kind == 2 || kind == 4 || kind == 7 || kind == 9 || (kind == 8 && !dDir d)

/-- Memory rows of a copy as offsets (R372). -/
def memRows (off step rows : Nat) : List Nat := (List.range rows).map (fun k => (off + k * step) % 2 ^ 48)

/-- R113 over the memory rows of one side: contiguous rows as one extent, strided rows one by one. -/
def checkRows (s : State) (rd wr atm : Bool) (kind : Nat) (idx off step rows : Nat) : Except Trap (BitVec 256) :=
  if step = 128 then check s rd wr atm false kind (w64 (idx * 2 ^ 48 + off)) (128 * rows)
  else (memRows off step rows).foldlM (init := 0#256)
    (fun _ o => check s rd wr atm false kind (w64 (idx * 2 ^ 48 + o)) 128)

/-- The largest endpoint nominal over the rows of one side. -/
def rowsNominal (t : Task) (e : BitVec 256) (off step rows : Nat) : Nat :=
  (memRows off step rows).foldl (fun a o => max a (accessNominal t e o 128)) 0

/-- A view fault of a copy (R374): TINFO0 0x100 + N, TINFO1 its ADDR word (log 46). -/
def copyView (s : State) (n row : Nat) (v : Word) : Trap := viewFault s 0x02 (0x100 + n) v row

/-- The field checks of R374 in the table's order, with copy kind `kind` and OFF′ `off`. -/
def copyFields (s : State) (cps : Bool) (kind n off : Nat) (d : BitVec 128) : Except Trap Unit :=
  let a := dAddr d
  if dNrows d = 0
      || (cps && !([1, 2, 3, 4, 5, 7, 8, 9, 10].contains kind))
      || (kind == 10 && (dRop d == 3 || (dRop d != 0 && (dRfmt d == 1 || dRfmt d == 3)) || off % rfmtWidth (dRfmt d) != 0))
      || (kind == 1 && fieldN a 12 52 != 0)
      || (kind == 7 && fieldN d 100 8 != 0) then .error (copyView s n 0 a)
  else match (srcRows kind d ++ dstRows kind d).find? (fun x => decide (x ≥ rowCount)) with
    | some x => .error (copyView s n x a)
    | none => if kind = 7 ∧ dNrows d > 32 then .error (copyView s n 0 a) else .ok ()

/-- The first LC from `lc` on in which none of `cs` reserves unit `u`; `fuel` bounds their number. -/
def freeFrom (cs : List Copy) (u : Nat) : Nat → Nat → Nat
  | 0, lc => lc
  | fuel + 1, lc =>
    match cs.find? (fun k => k.unit == u && decide (k.start ≤ lc) && decide (lc ≤ copyEnd k)) with
    | some k => freeFrom cs u fuel (copyEnd k + 1)
    | none => lc

/-- The reservation check (R374, R376): no copy of this group names the unit, and it is free from `st` through `en`. -/
def unitFree (s : State) (u st en : Nat) : Except Trap Unit :=
  match s.sq.copies.find? (fun k => k.unit == u && (k.iss == s.ix.c || (decide (k.start ≤ en) && decide (st ≤ copyEnd k)))) with
  | some k => .error (unitBusy s u (w64 (freeFrom s.sq.copies u s.sq.copies.length (max st k.start))))
  | none => .ok ()

/-- What CPG checks of R113 at its issue: its entry, without the bounds of rows that are not known yet (R374). -/
def checkGather (s : State) (idx off : Nat) : Except Trap (BitVec 256) :=
  match check s true false false false kCopySrc (w64 (idx * 2 ^ 48)) 0 with
  | .error t => .error { t with ti0 := w64 (idx * 2 ^ 48 + off), gaddr := some (w64 (idx * 2 ^ 48 + off)) }
  | .ok e => .ok e

/-- The ownership check of a copy's LRS rows (R184, R374). -/
def copyOwned (s : State) (u kind : Nat) (d : BitVec 128) : Except Trap Unit :=
  match (srcRows kind d ++ dstRows kind d).find? (fun x => !ownsRow s.sq x) with
  | some x => .error (timing s 0x02 6 (x % 6) (seqCol s + u / 2) never (w64 x))
  | none => .ok ()

/-- The copy that a new copy overlaps in memory (R244, R376): one of its group, or one of the task that runs at the new copy's start;
`own` are the copies of the new copy's sequencer. -/
def copyMeets (own cs : List Copy) (c : Copy) : Option Copy :=
  cs.find? (fun k => ((k.iss == c.iss && own.contains k) || (decide (k.start < c.start) && decide (c.start ≤ copyEnd k))) &&
    ((copyReads c ++ copyWrites c).any (fun a => (copyWrites k).any (fun b => overlaps a.1 a.2.1 a.2.2 b.1 b.2.1 b.2.2))
      || (copyWrites c).any (fun a => (copyReads k).any (fun b => overlaps a.1 a.2.1 a.2.2 b.1 b.2.1 b.2.2))))

/-- Rows at or above this are skipped (R377). -/
def mvalidCut (v : Word) : Nat := if v.getLsbD 16 then fieldN v 0 16 else 65536

/-- What a copy that passes its checks starts (R371 to R373): it joins its sequencer's copies, takes two reply numbers, and each of its
LRS destination rows below the cut lands at its cycle. -/
def copyEffect (c : Copy) (s : State) : State :=
  let r0 : Reply := ⟨.task s.tid s.k, 0, 0, [], [], false⟩
  let t := { s with
    nextId := s.nextId + 2
    replies := tabPut (tabPut s.replies s.nextId r0) (s.nextId + 1) r0
    sq := { s.sq with copies := s.sq.copies ++ [c] } }
  (dstRows c.kind c.desc).zipIdx.foldl (fun t x =>
    if x.2 < c.cut then landAt t (c.start + c.lat + x.2) (.copyRow x.1 (copyCols s.tk.g c.kind c.unit) c.id (128 * x.2)) else t) t

/-- Every copy instruction (R371 to R374): `cps` for CPS, whose descriptor's KIND is performed from the cycle in sB. -/
def copyOp (op : Nat) (g : Guard) (rel : Bool) (u : BitVec 3) (n : BitVec 4) (b : Word) (s : State) :
    Host.Outcome State Fault Refusal :=
  let cps := op == 6
  let d := tabGet 0#128 s.sq.cd n.toNat
  let n2 := (n.toNat + 1) % 16
  let d2 := tabGet 0#128 s.sq.cd n2
  let kind := if cps then dKind d else op
  let st := if cps then b.toNat else s.ix.c
  let idx := fieldN (dAddr d) 48 16
  let off := (fieldN (dAddr d) 0 48 + (if cps then 0 else fieldN b 0 48)) % 2 ^ 48
  let idx2 := fieldN (dAddr d2) 48 16
  let off2 := fieldN (dAddr d2) 0 48
  let step := memStep kind d
  let rows := dNrows d
  finish s (
    if u.toNat ≥ 2 * s.tk.g then .error (illegal s 0x01)
    else if !maskOn g s then .ok (charge 5 1 s)
    else do
      if !dV d then throw (timing s 0x01 9 (0xC0 + n.toNat) (seqCol s) never (w64 n.toNat))
      if kind = 4 && !dV d2 then throw (timing s 0x01 9 (0xC0 + n.toNat) (seqCol s) never (w64 n.toNat))
      copyFields s cps kind n.toNat off d
      if cps && (decide (st ≤ s.ix.c) || decide (st > s.ix.c + 2 ^ 20)) then
        throw (timing s 0x08 5 u.toNat (seqCol s + u.toNat / 2) b 0#64)
      let e := taskEntry s idx
      let e2 := taskEntry s idx2
      let lat :=
        match kind with
        | 1 => 6
        | 4 => rowsNominal s.tk e off step rows + rowsNominal s.tk e2 off2 128 rows
        | 7 => bufferNominal s.tk e
        | 10 => rowsNominal s.tk e off step rows + 64
        | _ => rowsNominal s.tk e off step rows
      unitFree s u.toNat st (st + lat + rows - 1)
      copyOwned s u.toNat kind d
      if readsMem kind d && kind != 7 then
        let _ ← checkRows s true false false kCopySrc idx off step rows
      if kind = 4 then
        let _ ← checkRows s false true false kCopyDst idx2 off2 128 rows
      else if writesMem kind d then
        let _ ← checkRows s false true (kind == 10) kCopyDst idx off step rows
      if kind = 7 then
        let _ ← checkGather s idx off
      let cut := mvalidCut s.sq.mvalid
      let c : Copy := ⟨s.nextId, s.ix.c, s.ix.slot, u.toNat, kind, rel, n.toNat, st, lat, rows, cut, d, idx, e, off, step, idx2, e2, off2, [], 0#6, false⟩
      match copyMeets s.sq.copies (taskCopies s) c with
      | some k => throw (unitBusy s k.unit (w64 (copyEnd k + 1)))
      | none => .ok (copyEffect c s))

def execCpl (g : Guard) (rel : Bool) (u : BitVec 3) (n : BitVec 4) (s : State) := copyOp 1 g rel u n 0#64 s
def execCpi (g : Guard) (rel : Bool) (u : BitVec 3) (n : BitVec 4) (b : BitVec 6) (s : State) := copyOp 2 g rel u n (readS s b) s
def execCpo (g : Guard) (rel : Bool) (u : BitVec 3) (n : BitVec 4) (b : BitVec 6) (s : State) := copyOp 3 g rel u n (readS s b) s
def execCpdi (g : Guard) (rel : Bool) (u : BitVec 3) (n : BitVec 4) (b : BitVec 6) (s : State) := copyOp 4 g rel u n (readS s b) s
def execCpdo (g : Guard) (rel : Bool) (u : BitVec 3) (n : BitVec 4) (b : BitVec 6) (s : State) := copyOp 5 g rel u n (readS s b) s
def execCps (g : Guard) (rel : Bool) (u : BitVec 3) (n : BitVec 4) (b : BitVec 6) (s : State) := copyOp 6 g rel u n (readS s b) s
def execCpg (g : Guard) (rel : Bool) (u : BitVec 3) (n : BitVec 4) (b : BitVec 6) (s : State) := copyOp 7 g rel u n (readS s b) s
def execCpst (g : Guard) (rel : Bool) (u : BitVec 3) (n : BitVec 4) (b : BitVec 6) (s : State) := copyOp 8 g rel u n (readS s b) s
def execCpb (g : Guard) (rel : Bool) (u : BitVec 3) (n : BitVec 4) (b : BitVec 6) (s : State) := copyOp 9 g rel u n (readS s b) s
def execCpr (g : Guard) (rel : Bool) (u : BitVec 3) (n : BitVec 4) (b : BitVec 6) (s : State) := copyOp 10 g rel u n (readS s b) s

end Sys2Proof.Machine
end

