-- ==== Sys2Proof/Machine/Report.lean ====
section
/-!
DEFINITION. What the device tells the host: transactions sent, Loupe records, event records and interrupts (R26 to R29, R79,
R87, R94, R97 to R101).
-/

namespace Sys2Proof.Machine

/-- Cycles of a microsecond and of a millisecond (R10). -/
def usec (n : Nat) : Nat := 1900 * n
def msec (n : Nat) : Nat := 1900000 * n

/-- Changes the device. -/
def onDev (f : Dev → Dev) (s : State) : State := { s with dev := f s.dev }

/-- Changes a VF. -/
def onVf (v : Nat) (f : Vf → Vf) (s : State) : State := onDev (fun d => setVf v (f (getVf d v)) d) s

/-- Changes the host-side state. -/
def onHost (f : HostSt → HostSt) (s : State) : State := onDev (fun d => { d with host := f d.host }) s

/-- Bytes as little-endian words (R4), the last one filled with zeros. -/
def toWords : Nat → List Byte → List Word
  | 0, _ => []
  | _ + 1, [] => []
  | n + 1, b :: bs => w64 (leNat ((b :: bs).take 8)) :: toWords n ((b :: bs).drop 8)

/-- Words as bytes (R4). -/
def ofWords (ws : List Word) : List Byte := ws.flatMap (fun w => natLe 8 w.toNat)

/-- The module that R78 gives a function while module `m` is in service or not: a VF's home die's, the PF's, or the lowest in service.
R78 names none for the device's own traffic: it takes the PF's (log 29). -/
def moduleFor (d : Dev) (func : Nat) : Option Nat :=
  let m := if func < 1024 then (getVf d func).die / 2 else 0
  if d.host.mods.getLsbD m then some m else (List.range 4).find? (fun i => d.host.mods.getLsbD i)

/-- The module that serves a function (R78): the old one until its transactions there are over. -/
def moduleOf (d : Dev) (func : Nat) : Option Nat :=
  match tabFind d.host.serving func with
  | some m => some m
  | none => moduleFor d func

/-- Sends a transaction to the host (R79) over its function's module (R78). -/
def sendHost (x : Hlp) (s : State) : State :=
  onHost (fun h => { h with sent := h.sent ++ [⟨moduleOf s.dev x.func, x⟩] }) s

/-- A posted write of bytes to host memory (R80), in transactions of at most 256 bytes. -/
def hostWrite (func : Nat) (addr : Word) : Nat → List Byte → State → State
  | 0, _, s => s
  | n + 1, bs, s =>
    if bs.isEmpty then s
    else
      let b := bs.take 256
      hostWrite func (addr + 256#64) n (bs.drop 256)
        (sendHost ⟨0x04, (b.length + 7) / 8 - 1, 0, func, 0, addr, false, toWords 32 b⟩ s)

/-- All of the bytes. -/
def hostWriteAll (func : Nat) (addr : Word) (bs : List Byte) (s : State) : State :=
  hostWrite func addr (bs.length / 256 + 1) bs s

/-- The next tag whose earlier read is over (R79), if any: of as many tags as there are reads outstanding and one more, one is. -/
def freeTag (h : HostSt) : Option Nat :=
  if h.reads.length ≥ 4096 then none
  else ((List.range (h.reads.length + 1)).map (fun i => (h.tag + i) % 4096)).find? (fun t => (tabFind h.reads t).isNone)

/-- Sends waiting reads while a tag is free. -/
def sendReads : Nat → State → State
  | 0, s => s
  | n + 1, s =>
    match s.dev.host.wants, freeTag s.dev.host with
    | (addr, r) :: rest, some tag =>
      sendReads n (onHost (fun h => { h with tag := (tag + 1) % 4096, wants := rest, reads := tabPut h.reads tag { r with sent := s.cyc } })
        (sendHost ⟨0x03, (r.len + 7) / 8 - 1, tag, 1025, 0, addr, false, []⟩ s))
    | _, _ => s

/-- The reads of at most 256 bytes that bring `len` bytes of host memory at `addr`, to go at `off` of the buffer. -/
def readList (why : ReadFor) (addr : Word) : Nat → Nat → Nat → List (Word × HostRead)
  | 0, _, _ => []
  | n + 1, off, len =>
    if len = 0 then []
    else (addr + w64 off, ⟨why, off, min 256 len, 0, true⟩) :: readList why addr n (off + min 256 len) (len - min 256 len)

/-- Reads host memory (R79, R83): the device's own traffic, in transactions of at most 256 bytes, each under a free tag. -/
def hostRead (why : ReadFor) (addr : Word) (n off len : Nat) (s : State) : State :=
  sendReads n (onHost (fun h => { h with wants := h.wants ++ readList why addr n off len }) s)

/-! ### The Loupe -/

/-- A source identifier (R26). -/
def srcId (kind die idx : Nat) : Nat := die * 4096 + kind * 256 + idx
def srcPkg (kind : Nat) : Nat := 0x8000 + kind * 256

/-- A Loupe event (R27 to R29): SEQ advances whether the record is written or discarded; R29 does not say whether it advances while the
Loupe is not armed, and here it does (log 23). -/
def loupe (src code : Nat) (data : List Byte) (s : State) : State :=
  let l := s.dev.loupe
  let seq := tabGet 0 l.seqs src
  let l1 := { l with seqs := tabSet 0 l.seqs src ((seq + 1) % 2 ^ 32) }
  if (!l.arm || l.full) then onDev (fun d => { d with loupe := l1 }) s
  else if l.pos + 32 > l.alen then onDev (fun d => { d with loupe := { l1 with full := true } }) s
  else
    let b := natLe 2 src ++ natLe 2 code ++ natLe 4 seq ++ natLe 8 s.dev.gtci ++ (data ++ List.replicate 16 0#8).take 16
    let l2 := { l1 with pos := l.pos + 32, full := decide (l.pos + 64 > l.alen) }
    hostWriteAll 1025 (l.abase + w64 l.pos) b (onDev (fun d => { d with loupe := l2 }) s)

/-- A memory port's event (R259): 8 bytes and the partition. -/
def loupePort (stack code x part : Nat) (s : State) : State :=
  loupe (srcId 2 (stack / 4) (stack % 4)) (0x0200 + code) (natLe 8 x ++ natLe 1 part) s

/-- A Setter's event (R259). -/
def loupeSetter (die code handle node vf : Nat) (s : State) : State :=
  loupe (srcId 1 die 0) (0x0700 + code) (natLe 4 handle ++ natLe 4 node ++ natLe 2 vf) s

/-- Arms or stops the Loupe (R87). -/
def execLoupeArm (w : BitVec 64) (s : State) : Host.Outcome State Fault Refusal :=
  let l := s.dev.loupe
  let m := if w.getLsbD 0 then { l with arm := true, full := false, pos := 0, abase := l.base, alen := l.len.toNat }
    else { l with arm := false }
  .next (onDev (fun d => { d with loupe := m }) s)

/-! ### Event records -/

/-- A record with nothing but its type. -/
def record0 (type : Nat) : Record := ⟨type, 0, 0, 0, 0#64, 0, 0, 0#64, 0#64, 0#64, 0#64, 0#64, 0#64, 0, 0⟩

/-- Bytes 0 to 126 of a record, and its V byte (R98); of the types only 2 uses GTCI (R99). -/
def recordBytes (r : Record) (v : Bool) : List Byte :=
  natLe 2 r.type ++ natLe 2 r.status ++ natLe 4 r.node ++ natLe 4 r.handle ++ natLe 4 r.place.toNat ++ natLe 8 r.lc ++ natLe 8 r.pc
    ++ natLe 8 r.gaddr.toNat ++ natLe 4 r.tcause.toNat ++ natLe 4 0 ++ natLe 8 r.ti0.toNat ++ natLe 8 r.ti1.toNat
    ++ natLe 8 r.ti2.toNat ++ natLe 8 r.ti3.toNat ++ natLe 8 (r.energy % 2 ^ 64).toNat ++ natLe 8 (if r.type = 2 then r.gtci else 0)
    ++ List.replicate 31 0#8 ++ [if v then 1#8 else 0#8]

/-- Records that the ring of a queue takes now (R97). -/
def ringRoom (q : Vf) : Nat := if q.eqen then 2 ^ q.eqlog - (q.eqtail - q.eqhead).toNat else 0

/-- Whether the holding queue is not empty (R101): of the records that wait, the ring takes the first. -/
def holding (q : Vf) : Bool := decide (ringRoom q < q.held.length)

/-- A record waits to be written, or in the holding queue (R101), whose 64th entry counts what is lost. -/
def holdRecord (r : Record) (q : Vf) : Vf :=
  match q.held.getLast? with
  | some l =>
    if l.type = 13 ∧ holding q then { q with held := q.held.dropLast ++ [{ l with ti0 := l.ti0 + 1#64 }], eqlost := q.eqlost + 1#64 }
    else if q.held.length ≥ ringRoom q + 63 then
      { q with held := q.held ++ [{ record0 13 with ti0 := 1#64, gtci := r.gtci }], eqlost := q.eqlost + 1#64 }
    else { q with held := q.held ++ [r] }
  | none => { q with held := [r] }

/-- Forms a record for VF `v` (R98): it waits in the holding queue until it is written. -/
def report (v : Nat) (r : Record) (s : State) : State := onVf v (holdRecord { r with gtci := s.dev.gtci }) s

/-- Fields of EQINT (R94). -/
def eqIen (w : Word) : Bool := w.getLsbD 63
def eqThresh (w : Word) : Nat := max (fieldN w 16 16) 1
def eqTimer (w : Word) : Nat := fieldN w 0 16

/-- The interrupt of VF `v` (R80, R100). -/
def sendIntr (v : Nat) (s : State) : State :=
  let q := getVf s.dev v
  onVf v (fun q => { q with since := 0, stamp1 := 0 }) (sendHost ⟨0x05, 0, 0, v, 0, q.msiAddr, false, [w64 q.msiData]⟩ s)

/-- The threshold condition of R100. -/
def intrByCount (v : Nat) (s : State) : State :=
  let q := getVf s.dev v
  if eqIen q.eqint && decide (q.since ≥ eqThresh q.eqint) then sendIntr v s else s

/-- Whether a record can be written (R97). -/
def canWrite (q : Vf) : Bool := !q.held.isEmpty && decide (0 < ringRoom q)

/-- Writes the first waiting record (R97): V last, then EQTAIL, then an interrupt if due (R100). -/
def execEventRecordWrite (v : Nat) (s : State) : Host.Outcome State Fault Refusal :=
  let q := getVf s.dev v
  match q.held with
  | [] => .next s
  | r :: rest =>
    if !canWrite q then .next s
    else
      let i := q.eqtail.toNat
      let n := 2 ^ q.eqlog
      let a := q.eqbase + w64 (128 * (i % n))
      let b := recordBytes r (i / n % 2 == 0)
      let t := hostWriteAll v (a + 120#64) (b.drop 120) (hostWriteAll v a (b.take 120) s)
      let at1 := if q.since = 0 then s.cyc else q.stamp1
      .next (intrByCount v (onVf v (fun q =>
        { q with held := rest, eqtail := q.eqtail + 1#32, since := q.since + 1, stamp1 := at1 }) t))

/-- The timer condition of R100. -/
def timerDue (s : State) (q : Vf) : Bool :=
  eqIen q.eqint && decide (q.since > 0) && decide (eqTimer q.eqint ≠ 0) && decide (s.cyc ≥ q.stamp1 + usec (eqTimer q.eqint))

def execEqInterruptTimer (v : Nat) (s : State) : Host.Outcome State Fault Refusal :=
  if timerDue s (getVf s.dev v) then .next (sendIntr v s) else .next s

end Sys2Proof.Machine
end

