-- ==== Sys2Proof/Machine/Blocks.lean ====
section
/-!
DEFINITION. Blocks of the stacks: error code, encryption, retirement, activations, frame scores, hot lists, and frames passing
into quarantine (R33 to R45, R107, R130).
-/

namespace Sys2Proof.Machine

/-! ### Tasks and the focus -/

/-- Changes a task of the table. -/
def onTask (tid : Nat) (f : Task → Task) (s : State) : State :=
  match tabFind s.tasks tid with
  | some t => { s with tasks := tabPut s.tasks tid (f t) }
  | none => s

/-- Changes a sequencer of a task of the table. -/
def onSeq (tid k : Nat) (f : Seq → Seq) (s : State) : State :=
  onTask tid (fun t => match tabFind t.seqs k with
    | some q => { t with seqs := tabPut t.seqs k (f q) }
    | none => t) s

/-- Brings sequencer `k` of task `tid` into focus, out of the tables. -/
def focus (tid k : Nat) (s : State) : State :=
  match tabFind s.tasks tid with
  | none => s
  | some t =>
    match tabFind t.seqs k with
    | none => s
    | some q => { s with tid := tid, k := k, tk := { t with seqs := tabDel t.seqs k }, sq := q }

/-- Puts the sequencer and the task in focus back into the tables. -/
def unfocus (s : State) : State :=
  { s with
    tasks := tabPut s.tasks s.tid { s.tk with seqs := tabPut s.tk.seqs s.k s.sq }
    tid := 0, k := 0, tk := task0, sq := seq0, ix := ix0 }

/-! ### Places in a stack (R33) -/

/-- Bank 0 to 8,191 of a stack physical address: pseudo-channel, stack ID, bank. -/
def bankOf (p : Nat) : Nat := p / 64 % 64 * 128 + p / 2 ^ 20 % 8 * 16 + p / 2 ^ 16 % 16

def rowOf (p : Nat) : Nat := p / 2 ^ 23 % 2 ^ 14

/-- Bank and row as one number. -/
def rowKey (p : Nat) : Nat := bankOf p * 16384 + rowOf p

/-- The physical address of block `b` of a row. -/
def blockAddr (bank row b : Nat) : Nat :=
  row * 2 ^ 23 + bank / 16 % 8 * 2 ^ 20 + bank % 16 * 2 ^ 16 + b * 2 ^ 12 + bank / 128 * 64

/-! ### Refresh classes (R38) -/

/-- Probe k of row x. -/
def probe (x k : Nat) : Nat :=
  let a := match k with
    | 0 => 0x9E3779B1
    | 1 => 0x85EBCA77
    | _ => 0xC2B2AE3D
  x * a % 2 ^ 32 / 2 ^ 19

/-- Bit of a filter: which 0 is F32, 1 is F64. -/
def filtKey (bank which bit : Nat) : Nat := (bank * 2 + which) * 8192 + bit

def inFilter (k : Stack) (bank row which : Nat) : Bool :=
  (List.range 3).all (fun j => tabGet 0 k.filt (filtKey bank which (probe row j)) == 1)

def insertRow (bank row which : Nat) (k : Stack) : Stack :=
  { k with filt := (List.range 3).foldl (fun t j => tabSet 0 t (filtKey bank which (probe row j)) 1) k.filt }

/-- The refresh interval of a row in ms: halved above 95 °C (R24, R38). -/
def rowInterval (k : Stack) (bank row : Nat) : Nat :=
  (if inFilter k bank row 0 then 32 else if inFilter k bank row 1 then 64 else 128) / (if k.doubled then 2 else 1)

/-! ### Scores, hot lists and retirement (R41, R42) -/

def onStack (n : Nat) (f : Stack → Stack) (s : State) : State := onDev (fun d => setStack n (f (getStack d n)) d) s
def onFrame (n fr : Nat) (f : Frame → Frame) (s : State) : State := onDev (fun d => setFrame n fr (f (getFrame d n fr)) d) s

/-- Whether a frame is a spare that no retirement uses or has retired. -/
def isFreeSpare (d : Dev) (n f : Nat) : Bool :=
  (getFrame d n f).spare && (tabFind d.remap (n * 65536 + f)).isNone && !(d.remap.any (fun e => e.1 / 65536 == n && e.2 == f))
    && !((getStack d n).copying.any (fun c => c.spare == f || c.frame == f))

/-- A free spare for the retirement of frame `fr`. -/
def freeSpare (d : Dev) (n fr : Nat) : Option Nat :=
  ((List.range 256).map (65280 + ·)).find? (fun f => f != fr && isFreeSpare d n f)

/-- Starts a retirement, which takes a spare and, where the frame is a free spare itself, that one too (R51), or reports that the spares are exhausted (R41). -/
def retire (n fr : Nat) (s : State) : State :=
  let k := getStack s.dev n
  if k.copying.any (fun c => c.frame == fr) || (tabFind s.dev.remap (n * 65536 + fr)).isSome then s
  else match freeSpare s.dev n fr with
    | some sp => onStack n (fun k => { k with
        copying := k.copying ++ [⟨fr, sp⟩], spareFree := k.spareFree - (if isFreeSpare s.dev n fr then 2 else 1) }) s
    | none => loupePort n 5 fr 63 (onStack n (fun k => { k with exh := true }) s)

/-- Adds to a frame's score; at 64 it is retired. -/
def addScore (n fr pts : Nat) (s : State) : State :=
  let v := tabGet 0 (getStack s.dev n).score fr + pts
  let t := onStack n (fun k => { k with score := tabSet 0 k.score fr v }) s
  if v ≥ 64 then retire n fr t else t

/-- A row enters the hot list on a corrected error (R42). -/
def hotRow (now row : Nat) (k : Stack) : Stack :=
  if k.hot.any (fun h => h.row == row) then
    { k with hot := k.hot.map (fun h => if h.row = row then ⟨row, now, 0⟩ else h) }
  else if k.hot.length < 4096 then { k with hot := k.hot ++ [⟨row, now, 0⟩] }
  else
    let old := k.hot.foldl (fun a h => if h.last < a.last then h else a) (k.hot.headD ⟨0, 0, 0⟩)
    { k with hot := (k.hot.filter (fun h => h.row != old.row)) ++ [⟨row, now, 0⟩] }

/-- Notes how many bytes of a stored block are erroneous. -/
def setUpsets (n p bad : Nat) (s : State) : State := onDev (fun d => { d with upsets := tabSet 0 d.upsets (blkKey n p) bad }) s

/-- The error of a block on record: kind, partition (63 for the port's own traffic) and block (R51). -/
def lastError (kind part p : Nat) (k : Stack) : Stack := { k with errKind := kind, errPart := part, errBlk := p / 64 }

/-- A corrected error (R35): counted, rewritten, its row hot, its frame's score raised; a 32 ms row scores more (R41). -/
def corrected (n p bad part : Nat) (s : State) : State :=
  let k := getStack s.dev n
  let t := onStack n (fun k => hotRow s.cyc (rowKey p) (lastError 1 part p { k with ce := k.ce + 1#64 }))
    (setUpsets n p 0 s)
  addScore n (p / 2 ^ 21) ((if bad = 1 then 1 else 4) + (if inFilter k (bankOf p) (rowOf p) 0 then 16 else 0))
    (loupePort n 1 p part t)

/-- The VF whose data a frame holds, if any: its owner, or the owner of a frame that was retired into it (R41). -/
def frameVf (d : Dev) (n fr : Nat) : Option Nat :=
  let here := if (tabFind d.remap (n * 65536 + fr)).isSome then [] else [fr]
  let there := (d.remap.filter (fun e => e.1 / 65536 == n && e.2 == fr)).map (fun e => e.1 % 65536)
  (here ++ there).findSome? (fun f => if (getFrame d n f).own = 0 then none else some ((getFrame d n f).own - 1))

/-- An uncorrectable block (R36): counted, scored, on the Loupe, and in the owning VF's event queue; it stays uncorrectable (R37).
A port's own reads have no buffer address and no place: 0 (log 43). -/
def uncorrectable (n p part : Nat) (ba place : Word) (s : State) : State :=
  let t := addScore n (p / 2 ^ 21) 64 (loupePort n 2 p part
    (onStack n (fun k => lastError 2 part p { k with ue := k.ue + 1#64 }) (setUpsets n p foundLost s)))
  match frameVf s.dev n (p / 2 ^ 21) with
  | some v => report v { record0 6 with gaddr := ba, place := place } t
  | none => t

/-! ### Activations (R45) -/

/-- The tracker after an activation of (bank, row) by a partition, and the count of its entry. -/
def trackAct (bank row part : Nat) (ts : List Track) : List Track × Nat :=
  match ts.find? (fun t => t.bank == bank && t.row == row && t.part == part) with
  | some t => (ts.map (fun u => if u = t then { u with count := u.count + 1 } else u), t.count + 1)
  | none =>
    let mine := ts.filter (fun t => t.bank == bank)
    if mine.length < 16 then (ts ++ [⟨bank, row, part, 1⟩], 1)
    else
      let low := mine.foldl (fun a t => if t.count < a.count then t else a) (mine.headD ⟨bank, row, part, 0⟩)
      (ts.filter (fun t => t != low) ++ [⟨bank, row, part, low.count + 1⟩], low.count + 1)

/-- The neighbours of a row that a multiple of 512 activations refreshes. -/
def neighbours (row : Nat) : List Nat :=
  (if row ≥ 2 then [row - 2] else []) ++ (if row ≥ 1 then [row - 1] else [])
    ++ (if row + 1 < 16384 then [row + 1] else []) ++ (if row + 2 < 16384 then [row + 2] else [])

/-- The counter of VF `v` at a port (R155): memory ports 0 to 31, UALink port p at 32 + p. -/
def portKey (port v : Nat) : Nat := v * 128 + port

/-- Charges a VF at a port (R48, R155); the host's PF and the ports themselves have no account. -/
def chargeVf (port : Nat) (v : Option Nat) (amount : Nat) (s : State) : State :=
  match v with
  | none => s
  | some v => onDev (fun d => { d with charges := tabSet 0 d.charges (portKey port v) (tabGet 0 d.charges (portKey port v) + amount) }) s

/-- A fused coefficient of the port of stack `n`. -/
def portCoef (n kind : Nat) : Nat := Config.coef (n / 4) (256 + n % 4) kind

/-- Charges the flit hops of `n` bytes between a die and UALink port `p` to the VF that sends them (R54, R155). -/
def chargeHops (die p v n : Nat) (s : State) : State := chargeVf (32 + p) (some v) (Config.coef 0 0 9 * Config.flitHops die p n) s

/-- One activation of the row of `p` by a request of VF `v`, if it has one, in partition `part`. -/
def activate (n p part : Nat) (v : Option Nat) (s : State) : State :=
  let k := getStack s.dev n
  let b := bankOf p
  let r := trackAct b (rowOf p) part k.track
  let total := tabGet 0 k.acts (rowKey p) + 1
  let thrown := decide (r.2 ≥ 1024) && !(k.throt.any (fun t => t.part == part && t.bank == b))
  let throt := if thrown then k.throt ++ [⟨part, b, s.cyc⟩]
    else k.throt.map (fun t => if t.part = part ∧ t.bank = b then { t with last := s.cyc } else t)
  let fresh := if total % 512 = 0 then
      (neighbours (rowOf p)).foldl (fun a x => tabSet 0 a (b * 16384 + x) s.cyc) k.fresh else k.fresh
  let k1 := { k with track := r.1, acts := tabSet 0 k.acts (rowKey p) total, throt := throt, fresh := fresh,
                     thr := if thrown then k.thr ||| (1#48 <<< part) else k.thr }
  let t := onStack n (fun _ => k1) s
  let t := if total % 512 = 0 then chargeVf n v (portCoef n 10) t else t
  if thrown then loupePort n 8 p part t else t

/-- Ports of a partition's port list (R141). -/
def portList (d : Dev) (p : Nat) : List Nat := (List.range 72).filter (fun q => tabGet 0 d.shares (q * 64 + p) != 0)

/-- The port of entry `k` of a partition's list; an entry that the list does not have names no port, 72 (log 21). -/
def portAt (d : Dev) (p k : Nat) : Nat := (portList d p).getD k 72

/-! ### Blocks -/

/-- What a block holds for a requester: decrypted for a protected VF (`key`: VF and intermediate block), ciphertext for anyone
else where a protected VF has written it (R107). -/
def seenBlock (s : State) (n p : Nat) (key : Option Sealed) : List Byte :=
  let b := tabBytes s.mem (hbmKey n (p / 64 * 64)) 64
  let raw := match tabFind s.dev.sealed' (blkKey n p) with
    | some x => Config.encrypt x.key x.vf x.blk b
    | none => b
  match key with
  | none => raw
  | some q => if tabFind s.dev.sealed' (blkKey n p) = some q then b else Config.decrypt q.key q.vf q.blk raw

/-- Stores a block's 64 bytes as seen by a requester; a retirement copy under way gets them at its end (R41). -/
def putBlock (n p : Nat) (key : Option Sealed) (bs : List Byte) (s : State) : State :=
  { s with
    mem := tabSetBytes s.mem (hbmKey n (p / 64 * 64)) bs
    dev := { s.dev with sealed' := match key with
      | some q => tabPut s.dev.sealed' (blkKey n p) q
      | none => tabDel s.dev.sealed' (blkKey n p) } }

/-- How a block's stored code word reads (R35): clean, corrected with a count of erroneous bytes, uncorrectable, or, for 6 or more
erroneous bytes, as another code word; which of the last two is free until the block was found uncorrectable (R37). -/
inductive Reading where
  | clean | fixed (bad : Nat) | lost | wrong
  deriving DecidableEq, Repr

def blockReading (s : State) (n p : Nat) : Reading :=
  let bad := tabGet 0 s.dev.upsets (blkKey n p)
  if bad = 0 then .clean
  else if bad ≤ 3 then .fixed bad
  else if bad ≤ 5 ∨ foundLost ≤ bad then .lost
  else if Config.freeValue s.free % 2 = 0 then .lost else .wrong

/-- Bytes that no rule states. -/
def freeBytes (s : State) (n : Nat) : List Byte := (List.range n).map (fun i => BitVec.ofNat 8 (Config.freeValue (s.free + 1 + i)))

/-- The port reads the code word of a block for a requester of partition `part`, or for itself (R35, R36): what it corrects it counts
and rewrites; the flag says whether the block's data may be delivered. -/
def readCode (n p part : Nat) (ba place : Word) (s : State) : State × Bool :=
  match blockReading s n p with
  | .clean => (s, true)
  | .fixed bad => (corrected n p bad part s, true)
  | .lost => (uncorrectable n p part ba place { s with free := s.free + 1 }, false)
  | .wrong =>
    let t := putBlock n p none (freeBytes s 64) s
    (corrected n p (1 + Config.freeValue (s.free + 65) % 3) part { t with free := s.free + 66 }, true)

/-- Reads a block of stack `n` at physical address `p` (after the remap): the state after the port's own work, and the bytes unless
the block is uncorrectable (R35, R36). -/
def readBlock (n p part : Nat) (key : Option Sealed) (ba place : Word) (s : State) : State × Option (List Byte) :=
  let r := readCode n p part ba place s
  (r.1, if r.2 then some (seenBlock r.1 n p key) else none)

/-- Writes bytes within one block (R34, R37): a full block replaces what is there; part of one is a read-modify-write, not
performed where the block is uncorrectable. -/
def writeBlock (n p part : Nat) (key : Option Sealed) (bs : List Byte) (ba place : Word) (s : State) : State × Bool :=
  if bs.length = 64 then
    (putBlock n p key bs (setUpsets n p 0 s), true)
  else
    let r := readBlock n p part key ba place s
    match r.2 with
    | none => (r.1, false)
    | some old => (putBlock n p key (old.take (p % 64) ++ bs ++ old.drop (p % 64 + bs.length)) r.1, true)

/-! ### Frames -/

/-- The port reads the blocks of a frame that hold errors, for itself, in order of their addresses (R41). -/
def readFrame (n f : Nat) (s : State) : State :=
  ((s.dev.upsets.map Prod.fst).filter (fun k => k / 32768 == n * 65536 + f)).foldl
    (fun t k => (readCode n (k % 2 ^ 31 * 64) 63 0#64 0#64 t).1) s

/-- Copies a frame (R41, R129): data as corrected, encryption, and the stored code words of uncorrectable blocks unchanged. -/
def copyFrame (n a b : Nat) (s : State) : State :=
  let s := readFrame n a s
  let base (f : Nat) := hbmKey n (f * 2 ^ 21)
  let blk (f : Nat) := blkKey n (f * 2 ^ 21)
  let inF (key lo span : Nat) : Bool := decide (lo ≤ key) && decide (key < lo + span)
  { s with
    mem := tabSets 0#8 (s.mem.filter (fun e => !inF e.1 (base b) (2 ^ 21)))
      ((s.mem.filter (fun e => inF e.1 (base a) (2 ^ 21))).map (fun e => (e.1 - base a + base b, e.2)))
    dev := { s.dev with
      upsets := tabSets 0 (s.dev.upsets.filter (fun e => !inF e.1 (blk b) 32768))
        ((s.dev.upsets.filter (fun e => inF e.1 (blk a) 32768)).map (fun e => (e.1 - blk a + blk b, e.2)))
      sealed' := (s.dev.sealed'.filter (fun e => inF e.1 (blk a) 32768)).foldl
        (fun t e => tabPut t (e.1 - blk a + blk b) e.2) (s.dev.sealed'.filter (fun e => !inF e.1 (blk b) 32768)) } }

/-- Copies a block as it is stored, at physical addresses after the remap (R129). -/
def copyBlock (n a b : Nat) (s : State) : State :=
  let t := setUpsets n b (tabGet 0 s.dev.upsets (blkKey n a)) { s with mem := tabSetBytes s.mem (hbmKey n b) (tabBytes s.mem (hbmKey n a) 64) }
  onDev (fun d => { d with sealed' := match tabFind d.sealed' (blkKey n a) with
    | some x => tabPut d.sealed' (blkKey n b) x
    | none => tabDel d.sealed' (blkKey n b) }) t

/-- Zeroes a frame with fresh code (R118, R400). -/
def zeroRange (n p len : Nat) (s : State) : State :=
  { s with
    mem := s.mem.filter (fun e => !(decide (hbmKey n p ≤ e.1) && decide (e.1 < hbmKey n p + len)))
    dev := { s.dev with
      upsets := s.dev.upsets.filter (fun e => !(decide (blkKey n p ≤ e.1) && decide (e.1 < blkKey n p + len / 64)))
      sealed' := s.dev.sealed'.filter (fun e => !(decide (blkKey n p ≤ e.1) && decide (e.1 < blkKey n p + len / 64))) } }

/-- A frame after the retirement remap (R41). -/
def remapFrame (d : Dev) (n fr : Nat) : Nat :=
  match tabFind d.remap (n * 65536 + fr) with
  | some x => x
  | none => fr

/-- Passes a frame to the Polisher (R130), bound for the pool of partition `part`, or for none. -/
def quarantine (n fr : Nat) (part : Option Nat) (s : State) : State :=
  let q := match part with
    | some p => p + 2
    | none => 1
  onStack n (fun k => { k with queue := k.queue ++ [fr] })
    (onFrame n fr (fun f => { f with pool := 0, own := 0, use := .none, quar := q }) s)

/-- A free frame of a partition's pool on a stack. -/
def poolFree (d : Dev) (n part : Nat) : Option Nat :=
  (d.frames.find? (fun e => e.1 / 65536 == n && e.2.pool == part + 1 && e.2.own == 0 && e.2.quar == 0)).map (fun e => e.1 % 65536)

end Sys2Proof.Machine
end

