-- ==== Sys2Proof/Machine/Jobs.lean ====
section
/-!
DEFINITION. The device's own work on memory: what its Setters, ports and loaders read, they ask for like any requester, and go on once
the reply is in (R14, R44, R45, R47).
-/

namespace Sys2Proof.Machine

/-- Opens a reply of `n` bytes for a piece of work and queues the requests that answer it. -/
def openJob (why : JobFor) (key : List Nat) (n : Nat) (mk : Nat → List Req) (s : State) : State :=
  { s with
    nextId := s.nextId + 1
    replies := tabPut s.replies s.nextId ⟨.setter, n, (mk s.nextId).length, [], [], false⟩
    reqs := s.reqs ++ mk s.nextId
    dev := { s.dev with jobs := s.dev.jobs ++ [⟨why, key, s.nextId⟩] } }

/-- The job of a piece of work under a key. -/
def findJob (d : Dev) (why : JobFor) (key : List Nat) : Option Job := d.jobs.find? (fun j => j.why == why && j.key == key)

/-- The work under way cannot go on. -/
def notYet (s : State) : State := { s with dev := { s.dev with reading := true } }

/-- The reply to what a piece of work asks for under a key; where it is not in, the work cannot go on, and the requests are queued, unless
it waits for an earlier reply already. -/
def askRead (why : JobFor) (key : List Nat) (n : Nat) (mk : Nat → List Req) (s : State) : State × Option Reply :=
  match findJob s.dev why key with
  | some j =>
    match tabFind s.replies j.id with
    | some r => if r.left = 0 then (s, some r) else (notYet s, none)
    | none => (notYet s, none)
  | none => (notYet (if s.dev.reading then s else openJob why key n mk s), none)

/-- Drops the jobs that `p` names, with their replies. -/
def dropJobs (p : Job → Bool) (s : State) : State :=
  { s with
    replies := s.replies.filter (fun e => !s.dev.jobs.any (fun j => p j && j.id == e.1))
    dev := { s.dev with jobs := s.dev.jobs.filter (fun j => !p j) } }

/-- A piece of work is done with what it has read. -/
def closeJobs (why : JobFor) (s : State) : State := dropJobs (fun j => j.why == why) s

/-- What a piece of work has asked for: its new job, with the requests and the reply of that job. -/
def keepAsked (t s : State) : State :=
  let new := t.dev.jobs.filter (fun j => !s.dev.jobs.contains j)
  { s with
    nextId := t.nextId
    reqs := s.reqs ++ t.reqs.filter (fun r => new.any (fun j => j.id == r.id) && !s.reqs.contains r)
    replies := (t.replies.filter (fun e => new.any (fun j => j.id == e.1))).foldl (fun rs e => tabPut rs e.1 e.2) s.replies
    dev := { s.dev with jobs := s.dev.jobs ++ new, reading := false } }

/-- What comes of a piece of work that would lead from `s` to `t`: until its reads are in, nothing but their requests. -/
def worked (why : JobFor) (t s : State) : State := if t.dev.reading then keepAsked t s else closeJobs why t

/-- A piece of work that leads from `s` to `f s`. -/
def attempt (why : JobFor) (f : State → State) (s : State) : State := worked why (f { s with dev := { s.dev with reading := false } }) s

/-- A request of the device's own for bytes of a stack, for VF `v`. -/
def ownReq (id off v : Nat) (loc : Loc) (n : Nat) (op : MemOp) (data : List Byte) : Req :=
  ⟨id, off, .setter, v, loc, n, op, data, 0#64, false, false⟩

/-- Reads of 32-byte entries of VF `v`'s tables and arrays, each at a stack and a physical address. -/
def entryReads (v : Nat) (es : List (Nat × Nat)) (id : Nat) : List Req :=
  es.zipIdx.map (fun e => ownReq id (32 * e.2) v (.phys e.1.1 e.1.2) 32 .read [])

/-- Awaits the accesses to such entries (R34, R47): each is read and, as the work goes on, written as one step.  The list gives the places
among them of those that could not be read. -/
def askEntries (why : JobFor) (key : List Nat) (v : Nat) (es : List (Nat × Nat)) (s : State) : State × List Nat :=
  if es.isEmpty then (s, [])
  else
    let r := askRead why key (32 * es.length) (entryReads v es) s
    (r.1, ((r.2.map (fun x => x.errs.map (fun e => e.off / 32))).getD []).eraseDups)

/-- Where the second-stage entry of a frame lies: stack and physical address. -/
def ssPlace (s : State) (v n g : Nat) : Nat × Nat := (n, dirWord s v n % 65536 * 2 ^ 21 + 32 * g)

/-- Where a buffer-table entry lies. -/
def btPlace (d : Dev) (v i : Nat) : Nat × Nat := ((getVf d v).btStack, btAddr d v i)

end Sys2Proof.Machine
end

