-- ==== Sys2Proof/Machine/Flags.lean ====
section
/-!
DEFINITION. The sticky floating-point flags of FFLAGS (R241).
-/

namespace Sys2Proof.Machine

/-- NV, DZ, OF, UF and NX as FFLAGS holds them (R241). -/
def fNV : BitVec 5 := 16#5
def fDZ : BitVec 5 := 8#5
def fOF : BitVec 5 := 4#5
def fUF : BitVec 5 := 2#5
def fNX : BitVec 5 := 1#5

/-- FFLAGS after a landing with flags `f` (R241). -/
def orFlags (v : Word) (f : BitVec 5) : Word := v ||| f.setWidth 64

end Sys2Proof.Machine
end

