-- ==== Sys2Proof/Machine/Float.lean ====
section
/-!
DEFINITION. Binary floating point of the vector units and VCVT (R238, R240): formats, exact values, one rounding, and the
operations on values.  Every result is computed exactly and rounded once.
-/

namespace Sys2Proof.Machine

/-- A floating-point format: width, fraction bits, bias, infinities, encoding of the largest finite and canonical NaN (R238). -/
structure Fmt where
  width : Nat
  fbits : Nat
  bias  : Nat
  inf   : Bool
  maxFin : Nat
  canon : Nat
  deriving DecidableEq, Repr

def fp32 : Fmt := ⟨32, 23, 127, true, 0x7F7FFFFF, 0x7FC00000⟩
def bf16 : Fmt := ⟨16, 7, 127, true, 0x7F7F, 0x7FC0⟩
def f16 : Fmt := ⟨16, 10, 15, true, 0x7BFF, 0x7E00⟩
def e4m3 : Fmt := ⟨8, 3, 7, false, 0x7E, 0x7F⟩
def e5m2 : Fmt := ⟨8, 2, 15, true, 0x7B, 0x7E⟩

/-- A value: NaN (signalling or not), infinity, or ± m × 2^e. -/
inductive FV where
  | nan (sig : Bool)
  | inf (s : Bool)
  | fin (s : Bool) (m : Nat) (e : Int)
  deriving DecidableEq, Repr

/-- The value of an encoding (R238). -/
def decodeF (f : Fmt) (x : Nat) : FV :=
  let s := x / 2 ^ (f.width - 1) % 2 = 1
  let mag := x % 2 ^ (f.width - 1)
  let ex := mag / 2 ^ f.fbits
  let fr := mag % 2 ^ f.fbits
  if mag ≤ f.maxFin then
    if ex = 0 then .fin s fr (1 - (f.bias : Int) - f.fbits)
    else .fin s (2 ^ f.fbits + fr) ((ex : Int) - f.bias - f.fbits)
  else if f.inf && fr == 0 then .inf s
  else .nan (f.inf && decide (fr < 2 ^ (f.fbits - 1)))

/-- An encoding with the given sign bit. -/
def signed (f : Fmt) (s : Bool) (mag : Nat) : Nat := (if s then 2 ^ (f.width - 1) else 0) + mag

/-- Encoding of ±infinity (for formats with one). -/
def infBits (f : Fmt) (s : Bool) : Nat := signed f s (f.maxFin + 1)

/-- Whether a magnitude with remainder `rem` of `2^sh` (plus something smaller when `st`) rounds up under RM (R229). -/
def roundsUp (rm : BitVec 2) (s odd : Bool) (rem sh : Nat) (st : Bool) : Bool :=
  let inexact := rem != 0 || st
  match rm.toNat with
  | 0 => if sh = 0 then false
         else decide (rem > 2 ^ (sh - 1)) || (rem == 2 ^ (sh - 1) && (st || odd))
  | 1 => false
  | 2 => s && inexact
  | _ => !s && inexact

/-- ±m × 2^e, plus something smaller than one unit when `st`, rounded to a multiple of 2^q: the multiple and whether inexact. -/
def roundAt (rm : BitVec 2) (s : Bool) (m : Nat) (e q : Int) (st : Bool) : Nat × Bool :=
  let sh := (q - e).toNat
  let n := if q ≤ e then m * 2 ^ (e - q).toNat else m / 2 ^ sh
  let rem := if q ≤ e then 0 else m % 2 ^ sh
  (n + (if roundsUp rm s (n % 2 == 1) rem sh st then 1 else 0), rem != 0 || st)

/-- The rounded result, its flags, and whether it overflowed (R240).  Overflow follows RM as in R236. -/
def roundF (f : Fmt) (rm : BitVec 2) (s : Bool) (m : Nat) (e : Int) (st : Bool) : Nat × BitVec 5 × Bool :=
  if m = 0 then (signed f s 0, 0#5, false)
  else
    let emin : Int := 1 - f.bias
    let ex : Int := e + Nat.log2 m
    let q := max ex emin - f.fbits
    let r := roundAt rm s m e q st
    let mag := (q + f.fbits - emin).toNat * 2 ^ f.fbits + r.1
    if mag > f.maxFin then
      let toInf := rm = 0#2 ∨ (rm = 2#2 ∧ s) ∨ (rm = 3#2 ∧ !s)
      (if toInf then infBits f s else signed f s f.maxFin, fOF ||| fNX, true)
    else
      let tiny := decide (ex < emin) &&
        (decide (ex < emin - 1) || decide ((roundAt rm s m e (ex - f.fbits) st).1 < 2 ^ (f.fbits + 1)))
      (signed f s mag, (if r.2 then fNX else 0#5) ||| (if r.2 && tiny then fUF else 0#5), false)

/-- The exact result of an operation before rounding: a special result with its flags, or a finite value (with the sign to use
when it is zero) plus something smaller than one unit when `st`. -/
inductive XR where
  | nan (fl : BitVec 5)
  | inf (s : Bool) (fl : BitVec 5)
  | fin (s : Bool) (m : Nat) (e : Int) (st : Bool)
  deriving DecidableEq, Repr

/-- Encodes an operation's result (R240). -/
def encodeX (f : Fmt) (rm : BitVec 2) : XR → Nat × BitVec 5
  | .nan fl => (f.canon, fl)
  | .inf s fl => (infBits f s, fl)
  | .fin s m e st => let r := roundF f rm s m e st; (r.1, r.2.1)

def isSnan : FV → Bool
  | .nan g => g
  | _ => false

/-- NV for a signalling NaN operand (R240). -/
def snanFlag (xs : List FV) : BitVec 5 := if xs.any isSnan then fNV else 0#5

def negF : FV → FV
  | .nan g => .nan g
  | .inf s => .inf !s
  | .fin s m e => .fin (!s) m e

/-- The integer value of ±m in units of 2^(e − b), for b ≤ e. -/
def atExp (s : Bool) (m : Nat) (e b : Int) : Int := (if s then -1 else 1) * (m * 2 ^ (e - b).toNat : Nat)

/-- Exact sum; zero results take the sign of equal-signed zero operands, else +0, or −0 under RDN (R240). -/
def addX (rm : BitVec 2) (x y : FV) : XR :=
  match x, y with
  | .nan _, _ => .nan (snanFlag [x, y])
  | _, .nan _ => .nan (snanFlag [x, y])
  | .inf a, .inf b => if a = b then .inf a 0#5 else .nan fNV
  | .inf a, _ => .inf a 0#5
  | _, .inf b => .inf b 0#5
  | .fin a m e, .fin b n d =>
    let k := min e d
    let t := atExp a m e k + atExp b n d k
    if t = 0 then .fin (if m = 0 ∧ n = 0 ∧ a = b then a else rm == 2#2) 0 k false
    else .fin (decide (t < 0)) t.natAbs k false

/-- Exact product. -/
def mulX (x y : FV) : XR :=
  match x, y with
  | .nan _, _ => .nan (snanFlag [x, y])
  | _, .nan _ => .nan (snanFlag [x, y])
  | .inf a, .inf b => .inf (a ^^ b) 0#5
  | .inf a, .fin b n _ => if n = 0 then .nan fNV else .inf (a ^^ b) 0#5
  | .fin a m _, .inf b => if m = 0 then .nan fNV else .inf (a ^^ b) 0#5
  | .fin a m e, .fin b n d => .fin (a ^^ b) (m * n) (e + d) false

/-- x × y + z, rounded once; ∞ × 0 is invalid even with a NaN addend (R240). -/
def fmaX (rm : BitVec 2) (x y z : FV) : XR :=
  match mulX x y with
  | .nan fl => .nan (fl ||| snanFlag [z])
  | .inf s _ => addX rm (.inf s) z
  | .fin s m e _ => addX rm (.fin s m e) z

/-- Bitwise integer square root: the greatest r below 2^n with r² ≤ x, from r0 up. -/
def sqrtBits (x : Nat) : Nat → Nat → Nat
  | 0, r => r
  | n + 1, r => sqrtBits x n (if (r + 2 ^ n) * (r + 2 ^ n) ≤ x then r + 2 ^ n else r)

/-- ⌊√x⌋. -/
def isqrt (x : Nat) : Nat := sqrtBits x (Nat.log2 x / 2 + 1) 0

/-- Quotient with enough bits for the format, and whether it is inexact. -/
def divX (f : Fmt) (x y : FV) : XR :=
  match x, y with
  | .nan _, _ => .nan (snanFlag [x, y])
  | _, .nan _ => .nan (snanFlag [x, y])
  | .inf _, .inf _ => .nan fNV
  | .inf a, .fin b _ _ => .inf (a ^^ b) 0#5
  | .fin a _ _, .inf b => .fin (a ^^ b) 0 0 false
  | .fin a m e, .fin b n d =>
    if n = 0 then (if m = 0 then .nan fNV else .inf (a ^^ b) fDZ)
    else if m = 0 then .fin (a ^^ b) 0 0 false
    else
      let k := f.fbits + 4 + Nat.log2 n - Nat.log2 m
      .fin (a ^^ b) (m * 2 ^ k / n) (e - d - k) (m * 2 ^ k % n != 0)

def sqrtX (f : Fmt) (x : FV) : XR :=
  match x with
  | .nan _ => .nan (snanFlag [x])
  | .inf s => if s then .nan fNV else .inf false 0#5
  | .fin s m e =>
    if m = 0 then .fin s 0 0 false
    else if s then .nan fNV
    else
      let k0 := 2 * (f.fbits + 4)
      let k := if (e - k0) % 2 = 0 then k0 else k0 + 1
      let n := m * 2 ^ k
      .fin false (isqrt n) ((e - k) / 2) (isqrt n * isqrt n != n)

/-! ### 2^x and log₂ x, correctly rounded (R332)

Both are irrational except at the exact cases, so the integer part of the scaled value and a sticky mark decide every rounding.
The integer part is found in interval arithmetic on 256 fraction bits; where an interval does not decide, by the exact powers. -/

/-- Fraction bits of the interval arithmetic. -/
def ivBits : Nat := 256

/-- Roots 2^(1/2), 2^(1/4), …: multiplies in the roots of the set bits of the fraction, most significant first. -/
def expIv : List Bool → Nat → Nat → Nat → Nat → Nat × Nat
  | [], _, _, lo, hi => (lo, hi)
  | b :: bs, rl, rh, lo, hi =>
    let rl' := isqrt (rl * 2 ^ ivBits)
    let rh' := isqrt (rh * 2 ^ ivBits) + 1
    if b then expIv bs rl' rh' (lo * rl' / 2 ^ ivBits) (hi * rh' / 2 ^ ivBits + 1) else expIv bs rl' rh' lo hi

/-- The greatest t below 2^n with t^k ≤ x, from t0 up. -/
def rootBits (x k : Nat) : Nat → Nat → Nat
  | 0, t => t
  | n + 1, t => rootBits x k n (if (t + 2 ^ n) ^ k ≤ x then t + 2 ^ n else t)

/-- ⌊2^(r / 2^j) × 2^p⌋ for 0 < r < 2^j. -/
def exp2Floor (r j p : Nat) : Nat :=
  if j > 64 then (if r < 2 ^ (j - 1) then 2 ^ p else 2 ^ (p + 1) - 1)
  else
    let bits := (List.range j).map (fun i => r / 2 ^ (j - 1 - i) % 2 == 1)
    let iv := expIv bits (2 * 2 ^ ivBits) (2 * 2 ^ ivBits) (2 ^ ivBits) (2 ^ ivBits)
    if iv.1 / 2 ^ (ivBits - p) = iv.2 / 2 ^ (ivBits - p) then iv.1 / 2 ^ (ivBits - p)
    else rootBits (2 ^ (r + p * 2 ^ j)) (2 ^ j) (p + 1) 0

def exp2X (f : Fmt) (x : FV) : XR :=
  match x with
  | .nan _ => .nan (snanFlag [x])
  | .inf s => if s then .fin false 0 0 false else .inf false 0#5
  | .fin s m e =>
    if m = 0 then .fin false 1 0 false
    else if e + Nat.log2 m > 12 then (if s then .fin false 1 (-8192) true else .fin false 1 8192 false)
    else if 0 ≤ e then .fin false 1 (atExp s m e 0) false
    else
      let j := (-e).toNat
      let v := atExp s m 0 0
      let i := v / 2 ^ j
      let r := (v % 2 ^ j).toNat
      if r = 0 then .fin false 1 i false
      else .fin false (exp2Floor r j (f.fbits + 3)) (i - (f.fbits + 3 : Nat)) true

/-- Bits of log₂ of a value in [1, 2) given as an interval: `none` where the interval does not decide. -/
def logIv : Nat → Nat → Nat → Nat → Option Nat
  | 0, _, _, acc => some acc
  | n + 1, lo, hi, acc =>
    let l := lo * lo / 2 ^ ivBits
    let h := hi * hi / 2 ^ ivBits + 1
    if 2 * 2 ^ ivBits ≤ l then logIv n (l / 2) (h / 2 + 1) (2 * acc + 1)
    else if h < 2 * 2 ^ ivBits then logIv n l h (2 * acc)
    else none

/-- ⌊2^p × log₂ m⌋ for m > 0. -/
def log2Floor (m p : Nat) : Nat :=
  let k := Nat.log2 m
  let y := m * 2 ^ ivBits / 2 ^ k
  match logIv p y (if m * 2 ^ ivBits % 2 ^ k = 0 then y else y + 1) 0 with
  | some b => k * 2 ^ p + b
  | none => Nat.log2 (m ^ (2 ^ p))

def log2X (f : Fmt) (x : FV) : XR :=
  match x with
  | .nan _ => .nan (snanFlag [x])
  | .inf s => if s then .nan fNV else .inf false 0#5
  | .fin s m e =>
    if m = 0 then .inf true fDZ
    else if s then .nan fNV
    else if m = 2 ^ Nat.log2 m then
      let t : Int := e + Nat.log2 m
      .fin (decide (t < 0)) t.natAbs 0 false
    else
      let p := 2 * f.fbits + 6
      let t : Int := (log2Floor m p : Nat) + e * 2 ^ p
      -- the value lies strictly between t and t + 1; below zero its magnitude lies between −t − 1 and −t
      if t < 0 then .fin true (-t - 1).toNat (-(p : Int)) true else .fin false t.toNat (-(p : Int)) true

/-! ### Estimates (R333, R334) -/

/-- R333. -/
def rcpe (f : Fmt) (x : FV) : Nat × BitVec 5 :=
  match x with
  | .nan _ => (f.canon, snanFlag [x])
  | .inf s => (signed f s 0, 0#5)
  | .fin s m e =>
    if m = 0 then (infBits f s, fDZ)
    else
      let k := Nat.log2 m
      let i := (m - 2 ^ k) * 128 / 2 ^ k
      let d := 257 + 2 * i
      let g := (2 * 131072 + d) / (2 * d)
      let r := roundF f 0#2 s g (-(e + k) - 1 - 8) false
      (r.1, if r.2.2 then fOF ||| fNX else 0#5)

/-- R334. -/
def rsqe (f : Fmt) (x : FV) : Nat × BitVec 5 :=
  match x with
  | .nan _ => (f.canon, snanFlag [x])
  | .inf s => if s then (f.canon, fNV) else (0, 0#5)
  | .fin s m e =>
    if m = 0 then (infBits f s, fDZ)
    else if s then (f.canon, fNV)
    else
      let k := Nat.log2 m
      let ex : Int := e + k
      let fr := (m - 2 ^ k) * 64 / 2 ^ k
      let n := if ex % 2 = 0 then 262144 * 128 else 262144 * 64
      let e2 := if ex % 2 = 0 then ex else ex - 1
      let g := (isqrt (4 * n / (129 + 2 * fr)) + 1) / 2
      let r := roundF f 0#2 false g (-(e2 / 2) - 1 - 8) false
      (r.1, 0#5)

/-! ### Comparison, minimum and maximum (R331, R337) -/

/-- Order of two finite or infinite values: −1, 0 or 1. -/
def cmpF (x y : FV) : Int :=
  let r (v : FV) : Int × Nat × Int := match v with
    | .nan _ => (0, 0, 0)
    | .inf s => ((if s then -2 else 2), 0, 0)
    | .fin _ 0 _ => (0, 0, 0)
    | .fin s m e => ((if s then -1 else 1), m, e)
  let a := r x
  let b := r y
  if a.1 ≠ b.1 then (if a.1 < b.1 then -1 else 1)
  else if a.1 = 1 ∨ a.1 = -1 then
    let k := min a.2.2 b.2.2
    let p := a.1 * ((a.2.1 * 2 ^ (a.2.2 - k).toNat : Nat) : Int)
    let q := b.1 * ((b.2.1 * 2 ^ (b.2.2 - k).toNat : Nat) : Int)
    if p < q then -1 else if p = q then 0 else 1
  else 0

def isNan : FV → Bool
  | .nan _ => true
  | _ => false

def signF : FV → Bool
  | .nan _ => false
  | .inf s => s
  | .fin s _ _ => s

/-- x before y, with −0 before +0 (R331). -/
def beforeF (x y : FV) : Bool :=
  let c := cmpF x y
  c < 0 || (c == 0 && signF x && !signF y)

/-- RoundInt: an exact value to an integer under RM, and whether inexact. -/
def roundInt (rm : BitVec 2) (s : Bool) (m : Nat) (e : Int) : Int × Bool :=
  let r := roundAt rm s m e 0 false
  ((if s then -(r.1 : Int) else r.1), r.2)

/-- A signed integer saturated to `w` bits. -/
def satInt (w : Nat) (n : Int) : Int :=
  if n < -(2 ^ (w - 1)) then -(2 ^ (w - 1)) else if n > 2 ^ (w - 1) - 1 then 2 ^ (w - 1) - 1 else n

/-- The two's complement bits of an integer. -/
def intBits (w : Nat) (n : Int) : Nat := (n % 2 ^ w).toNat

/-- SignExtend of `w` bits. -/
def sextN (w x : Nat) : Int := if x % 2 ^ w < 2 ^ (w - 1) then (x % 2 ^ w : Nat) else (x % 2 ^ w : Nat) - 2 ^ w

end Sys2Proof.Machine
end

