-- ==== Sys2Proof/Machine/Reduce.lean ====
section
/-!
DEFINITION. Exact reductions of one element and residues of a contribution (R67, R69), used by collectives and by CPR (R380).
-/

namespace Sys2Proof.Machine

/-- Element width in bytes of a reduction format: FP32, BF16, INT32, INT64 (R133). -/
def redWidth (fmt : Nat) : Nat := if fmt = 1 then 2 else if fmt = 3 then 8 else 4

def redFmt (fmt : Nat) : Fmt := if fmt = 1 then bf16 else fp32

/-- Flags of a reduction (R154): bit 0 OV, 1 NV, 2 OF, 3 NX. -/
abbrev RedFlags := BitVec 4

/-- The exact value of a finite element in units of 2^-160. -/
def fixValue : FV → Int
  | .fin s m e => atExp s m e (-160)
  | _ => 0

/-- `ReduceSum` over a floating-point format. -/
def sumFp (f : Fmt) (cs : List Nat) : Nat × RedFlags :=
  let xs := cs.map (decodeF f)
  let pos := xs.any (fun x => x == .inf false)
  let neg := xs.any (fun x => x == .inf true)
  if xs.any isNan || (pos && neg) then (f.canon, 2#4)
  else if pos then (infBits f false, 0#4)
  else if neg then (infBits f true, 0#4)
  else
    let t := xs.foldl (fun a x => a + fixValue x) 0
    if t = 0 then (signed f (xs.all (fun x => signF x && fixValue x == 0)) 0, 0#4)
    else
      let r := roundF f 0#2 (decide (t < 0)) t.natAbs (-160) false
      (r.1, (if r.2.1 &&& fOF = 0#5 then 0#4 else 4#4) ||| (if r.2.1 &&& fNX = 0#5 then 0#4 else 8#4))

/-- `ReduceSum` over an integer format of `w` bits. -/
def sumInt (w : Nat) (cs : List Nat) : Nat × RedFlags :=
  let t := cs.foldl (fun a x => a + sextN w x) 0
  (intBits w (satInt w t), if satInt w t = t then 0#4 else 1#4)

/-- The least or greatest of a list, by `before`. -/
def pickBy (before : Nat → Nat → Bool) : List Nat → Nat
  | [] => 0
  | [x] => x
  | x :: xs => let y := pickBy before xs; if before y x then y else x

/-- `ReduceMinMax`. -/
def minMax (max : Bool) (fmt : Nat) (cs : List Nat) : Nat × RedFlags :=
  if fmt = 2 then
    (pickBy (fun a b => if max then decide (sextN 32 b < sextN 32 a) else decide (sextN 32 a < sextN 32 b)) cs, 0#4)
  else if cs.any (fun x => isNan (decodeF fp32 x)) then (0x7FC00000, 2#4)
  else (pickBy (fun a b => if max then beforeF (decodeF fp32 b) (decodeF fp32 a)
      else beforeF (decodeF fp32 a) (decodeF fp32 b)) cs, 0#4)

/-- R67 on the contributions to one element. -/
def reduceEl (op fmt : Nat) (cs : List Nat) : Nat × RedFlags :=
  if op ≠ 0 then minMax (op == 2) fmt cs
  else if fmt = 2 then sumInt 32 cs
  else if fmt = 3 then sumInt 64 cs
  else sumFp (redFmt fmt) cs

/-- `Fix` of R69. -/
def fixEl (fmt x : Nat) : Int :=
  match fmt with
  | 2 => sextN 32 x
  | 3 => sextN 64 x
  | 1 => match decodeF bf16 x with
    | .fin s m e => atExp s m e (-133)
    | _ => 0
  | _ => match decodeF fp32 x with
    | .fin s m e => atExp s m e (-149)
    | _ => 0

/-- The residue of a group of elements (R69). -/
def residue (fmt : Nat) (xs : List Nat) : Nat := (xs.foldl (fun a x => a + fixEl fmt x) 0 % 255).toNat

end Sys2Proof.Machine
end

