-- ==== Sys2Proof/Machine/Wake.lean ====
section
/-!
DEFINITION. Power elements and their wakes, and the host writes of a VF's event-queue registers, which wake its home die (R22, R23,
R25, R94, R97).
-/

namespace Sys2Proof.Machine

/-- The key of a column: die, tile, column. -/
def colKey (die tile col : Nat) : Nat := die * 1024 + tile * 4 + col

/-- The key of a power element: columns, then tiles, then dies. -/
def elKey : Element → Nat
  | .column d t c => colKey d t c
  | .tile d t => 8192 + d * 256 + t
  | .die d => 16384 + d

/-- The element of a key. -/
def elOf (k : Nat) : Element :=
  if k < 8192 then .column (k / 1024) (k / 4 % 256) (k % 4)
  else if k < 16384 then .tile ((k - 8192) / 256) ((k - 8192) % 256)
  else .die (k - 16384)

/-- The die of an element. -/
def elDie : Element → Nat
  | .column d _ _ => d
  | .tile d _ => d
  | .die d => d

def powerOf (d : Dev) (k : Nat) : PowerEl := tabGet powerEl0 d.power k
def setPower (k : Nat) (x : PowerEl) (d : Dev) : Dev := { d with power := tabSet powerEl0 d.power k x }

/-- The wake time of a state in cyc (R22). -/
def wakeTime (st : Nat) : Nat :=
  match st with
  | 0 => 0
  | 1 => usec 2
  | 2 => usec 60
  | _ => usec 2000

/-- Requests a wake of the element with key `k` (R23); an entry of the same cyc is abandoned.  The wake time of a state is only a maximum,
and the model's wakes always take all of it (DESIGN CHOICE, log 51). -/
def wakeKey (k : Nat) (s : State) : State :=
  let p := powerOf s.dev k
  if p.state = 0 ∨ p.wake.isSome then s
  else if p.since = s.cyc then onDev (setPower k { p with state := 0 }) s
  else onDev (setPower k { p with wake := some (s.cyc + wakeTime p.state) }) s

/-- Whether an element accepts work. -/
def awake (d : Dev) (k : Nat) : Bool := (powerOf d k).state == 0

/-- The keys of columns `col` to `col + n - 1` of a tile, of the tile and of its die. -/
def spanKeys (die tile col n : Nat) : List Nat :=
  (List.range n).map (fun i => colKey die tile (col + i)) ++ [elKey (.tile die tile), elKey (.die die)]

/-- Wakes the home die of a VF for a host write to its Setter's registers (R23). -/
def wakeHome (v : Nat) (s : State) : State := wakeKey (elKey (.die (getVf s.dev v).die)) s

/-! ### Registers of a VF that the host writes (R23, R94, R97) -/

/-- A write of EQCTL (R23, R94). -/
def execEqctlWrite (v : Nat) (w : BitVec 64) (s : State) : Host.Outcome State Fault Refusal :=
  .next (wakeHome v (onVf v (fun q =>
    let en := w.getLsbD 63
    let n := min 16 (max 6 (fieldN w 0 5))
    if q.eqen then { q with eqen := en }
    else if en then { q with eqen := true, eqlog := n, eqhead := 0#32, eqtail := 0#32 }
    else { q with eqlog := n }) s))

/-- A write of EQHEAD (R23, R97): outside [EQHEAD, EQTAIL] it is ignored and sets HEADBAD. -/
def execEqheadWrite (v : Nat) (w : BitVec 64) (s : State) : Host.Outcome State Fault Refusal :=
  .next (wakeHome v (onVf v (fun q =>
    let h := w.extractLsb' 0 32
    if (h - q.eqhead).toNat ≤ (q.eqtail - q.eqhead).toNat then { q with eqhead := h }
    else { q with gerr := q.gerr ||| 8#4 }) s))

/-! ### Elements and their partitions -/

/-- Columns of a tile (R25). -/
def tileColumns (die tile : Nat) : Nat := if Config.classT die tile then 3 else 4

/-- Partitions that own a column of die `d`, with the tile. -/
def colParts (d : Dev) (die : Nat) : List (Nat × Nat) :=
  (d.cols.filter (fun e => e.1 / 1024 == die)).map (fun e => (e.1 / 4 % 256, e.2 - 1))

/-- Partitions that own a column or a DSM bank of a die. -/
def dieParts (d : Dev) (die : Nat) : List Nat :=
  ((colParts d die).map Prod.snd ++ (d.dsmOwn.filter (fun (x : Nat × Nat) => x.1 / 64 == die)).map (fun (x : Nat × Nat) => x.2 - 1)).eraseDups

/-- Partitions that own any part of an element; where none owns a column or tile, those of its die (R22). -/
def elParts (d : Dev) (e : Element) : List Nat :=
  match e with
  | .column a t c =>
    let o := tabGet 0 d.cols (colKey a t c)
    if o = 0 then dieParts d a else [o - 1]
  | .tile a t =>
    let own := (((colParts d a).filter (fun (x : Nat × Nat) => x.1 == t)).map Prod.snd).eraseDups
    if own.isEmpty then dieParts d a else own
  | .die a => dieParts d a

/-- The wake latency in cyc that an element's partitions tolerate; none tolerates any where no partition owns a part (R21, R22). -/
def elTol (d : Dev) (e : Element) : Nat :=
  match elParts d e with
  | [] => 0
  | p :: ps => usec (ps.foldl (fun a q => min a (tabGet 2 d.ltol q)) (tabGet 2 d.ltol p))

/-- Elements whose state takes longer to wake than their owners now tolerate wake (R22, R23). -/
def wakeForbidden (s : State) : State :=
  s.dev.power.foldl (fun t e => if elTol t.dev (elOf e.1) < wakeTime e.2.state then wakeKey e.1 t else t) s

end Sys2Proof.Machine
end

