-- ==== Sys2Proof/Machine/MemPort.lean ====
section
/-!
DEFINITION. What the memory ports and DSM banks do: table and array writes, invalidations, admission of requests, atomics,
replies, scrub, refresh windows, retirement and clearing (R34 to R47, R107, R112 to R125, R129, R249 to R251, R400).
-/

namespace Sys2Proof.Machine

/-! ### Table and array entries -/

/-- Indices of the buffers of VF `v` whose entries memory lists. -/
def listedBuffers (s : State) (v : Nat) : List Nat :=
  let f := getVf s.dev v
  let b := hbmKey f.btStack (remapAddr s.dev f.btStack (f.btFrame * 2 ^ 21))
  ((s.mem.filter (fun e => decide (b ≤ e.1) && decide (e.1 < b + 2 ^ 21))).map (fun e => (e.1 - b) / 32)).eraseDups

/-- Whether a buffer of VF `w` names `v` as OWNER (R124). -/
def namesOwner (s : State) (w v : Nat) : Bool :=
  (listedBuffers s w).any (fun i => decide (i > 15) && eV (btEntry s w i) && eOwner (btEntry s w i) == v)

/-- Sequencers whose acknowledgement an invalidation of `v` needs (R124): of tasks of `v`, of VFs whose buffers name `v`, and of tasks
whose range registers still do. -/
def ackGroups (s : State) (v : Nat) : List (Nat × Nat) :=
  s.tasks.flatMap (fun e =>
    let t := e.2
    let names := t.vf == v || t.seqs.any (fun q => q.2.rr.any (fun r => eOwner r.2 == v)) || namesOwner s t.vf v
    if t.alive && names then (t.seqs.filter (fun q => q.2.st != .absent)).map (fun q => (e.1, q.1)) else [])

/-- Whether an access uses an entry: buffer `what` of VF `v`, or the second-stage entry of the frame at intermediate address `what`. -/
def usesEntry (ss : Bool) (v what : Nat) (r : Req) : Bool :=
  match r.who, r.loc with
  | .host 1024 _, _ => false
  | _, .ipa w a => if ss then w == v && a / 2 ^ 21 == what / 2 ^ 21 else r.vf == v && fieldN r.ba 48 16 == what
  | _, _ => !ss && r.vf == v && fieldN r.ba 48 16 == what

/-- The accesses of a task's groups that have issued and not yet left its columns. -/
def outReqs (t : Task) : List Req := (t.kept ++ t.out).filterMap (fun o => match o with
  | .req r => some r
  | _ => none)

/-- An entry of the VF directory or of a table, as a number (R118). -/
def dirField (s : State) (v o : Nat) : Nat :=
  leNat (physBytes s (getVf s.dev v).btStack ((getVf s.dev v).btFrame * 2 ^ 21 + o) 8)

/-- INVWD in µs (R118). -/
def invalWd (s : State) (v : Nat) : Nat :=
  let w := dirField s v 0x100 % 2 ^ 24
  if w = 0 then 1000 else w

/-- Copies under way, by number. -/
def taskCopyIds (ts : Tab Task) : List Nat := ts.flatMap (fun e => e.2.seqs.flatMap (fun q => q.2.copies.map (·.id)))

/-- Starts or restarts an invalidation (R124); the frames that the entry named before still wait for it (R400). -/
def invalidate (ss : Bool) (v stack addr what : Nat) (frame : Option Nat) (s : State) : State :=
  let same (x : Inval) : Bool := x.ss == ss && x.vf == v && x.stack == stack && x.addr == addr
  let frames := (s.dev.invals.filter same).flatMap (·.frames) ++ frame.toList
  let olds := (s.reqs ++ s.tasks.flatMap (fun e => outReqs e.2)).filter (usesEntry ss v what)
  let i : Inval := ⟨ss, v, stack, addr, what, frames, ackGroups s v, s.cyc, 0, olds, taskCopyIds s.tasks, invalWd s v⟩
  onDev (fun d => { d with
    invals := d.invals.filter (fun x => !same x) ++ [i] }) s

/-- Reads and writes a 32-byte entry at a physical address. -/
def entryAt (s : State) (n p : Nat) : BitVec 256 := BitVec.ofNat 256 (leNat (physBytes s n p 32))
def putEntry (n p : Nat) (e : BitVec 256) (s : State) : State := physWrite s n p (natLe 32 e.toNat)

/-- The bits of a buffer-table entry that software writes, and those of R114 that an entry under lease keeps. -/
def btRw : BitVec 256 := ((BitVec.allOnes 256 <<< 192) ||| (0xFFD0000000000000#256 <<< 128) ||| (0x3FF00000000#256 <<< 128)
  ||| (0xFFFFFFFFFFFF#256 <<< 64) ||| 0xFFFFFFFFFFFF#256)
def btHeld (a b : BitVec 256) : Bool :=
  eV a != eV b || ePhys a != ePhys b || eIlv a != eIlv b || eGran a != eGran b || eOwner a != eOwner b || eLen a != eLen b
    || eBase a != eBase b

/-- A write of a whole buffer-table entry (R112, R114): the flag says whether it was performed. -/
def writeBt (v n p : Nat) (new : BitVec 256) (s : State) : State × Bool :=
  let old := entryAt s n p
  let e := (new &&& btRw) ||| (old &&& (0xFF#256 <<< 152))
  if eLcnt old > 0 ∧ btHeld old e then (loupePort n 7 p (getVf s.dev v).part s, false)
  else (invalidate false v n p (p % 2 ^ 21 / 32) none (putEntry n p (e ||| (1#256 <<< 181)) s), true)

/-- The bits of a second-stage entry that software writes (R119). -/
def ssRw : BitVec 256 := (0xFFFFFFFFFFFF#256 <<< 128) ||| (0xFF#256 <<< 120) ||| (0x3FF#256 <<< 96) ||| (0xF8#256 <<< 56) ||| 0xFFFF#256
def ssRo : BitVec 256 := (0xFFFF#256 <<< 192) ||| (0x07FFFF#256 <<< 40)

/-- Whether an entry of `v` on stack `n` may name the frame (R122). -/
def nameable (d : Dev) (v n fr : Nat) : Bool :=
  let f := getFrame d n fr
  f.pool == (getVf d v).part + 1 && !f.spare && f.quar == 0
    && (f.own == 0 || (f.own == v + 1 && (f.use == .mapped || f.use == .split)))

/-- A valid entry of `v` names a frame, or stops naming it: the frame leaves `v` then, though another entry of `v` still names it (R122,
R130; log 55). -/
def nameFrame (v n fr : Nat) (s : State) : State := onFrame n fr (fun f => { f with own := v + 1, use := .mapped }) s
def unnameFrame (v n fr : Nat) (s : State) : State :=
  if (getFrame s.dev n fr).own = v + 1 then quarantine n fr (some (getVf s.dev v).part) s else s

/-- A write of a second-stage entry (R119, R122); `w0` says whether word 0 is written. -/
def writeSs (v n p : Nat) (w0 : Bool) (new : BitVec 256) (s : State) : State × Bool :=
  let old := entryAt s n p
  let e := (new &&& ssRw) ||| (old &&& ssRo)
  let gfn := p % 2 ^ 21 / 32
  let drop := (loupePort n 7 p (getVf s.dev v).part s, false)
  if ssLcount old > 0 ∧ (ssV old ≠ ssV e ∨ ssLoc old ≠ ssLoc e ∨ ssPfn old ≠ ssPfn e) then drop
  else if ssV e && (!ssV old || ssPfn old != ssPfn e) && !nameable s.dev v n (ssPfn e) then drop
  else
    let moved := ssV old != ssV e || (ssV e && ssPfn old != ssPfn e)
    let t := putEntry n p (if w0 then e ||| (1#256 <<< 57) else e) s
    let t := if moved && ssV e then nameFrame v n (ssPfn e) t else t
    let t := if moved && ssV old then unnameFrame v n (ssPfn old) t else t
    (if w0 then invalidate true v n p (n * 2 ^ 43 + gfn * 2 ^ 21)
        (if moved && ssV old then some (ssPfn old) else none) t else t, true)

/-- A write of the VF directory's 8-byte word at offset `o` (R118). -/
def writeDir (v n p o : Nat) (w : Nat) (s : State) : State :=
  if o < 0x100 then
    let st := o / 8
    let fr := w % 65536
    let f := getFrame s.dev st fr
    if tabGet 0 (getVf s.dev v).arrays st ≠ 0 then s
    else if w / 2 ^ 63 % 2 = 0 then physWrite s n p (natLe 8 fr)
    else if f.pool = (getVf s.dev v).part + 1 ∧ f.own = 0 ∧ f.quar = 0 ∧ !f.spare then
      physWrite (zeroRange st (remapFrame s.dev st fr * 2 ^ 21) (2 ^ 21)
        (onFrame st fr (fun f => { f with own := v + 1, use := .array })
          (onVf v (fun q => { q with arrays := tabSet 0 q.arrays st (fr + 1) }) s))) n p (natLe 8 (2 ^ 63 + fr))
    else s
  else if o = 0x100 ∨ o = 0x108 then physWrite s n p (natLe 8 (w % 2 ^ 24))
  else if o = 0x110 then physWrite s n p (natLe 8 (w % 2 ^ 16))
  else s

/-- Merges bytes into an `len`-byte unit whose first address is `u`. -/
def mergeAt (s : State) (n u len p : Nat) (bs : List Byte) : List Byte :=
  let old := physBytes s n u len
  old.zipIdx.map (fun e => if p ≤ u + e.2 ∧ u + e.2 < p + bs.length then bs.getD (u + e.2 - p) 0#8 else e.1)

/-- A write of at most 64 bytes within one block of a table or array frame, entry by entry. -/
def writeTable (use : FrameUse) (v n p : Nat) (bs : List Byte) (s : State) : State :=
  let lo := p / 32 * 32
  let us := (List.range ((p + bs.length - lo + 31) / 32)).map (fun i => lo + 32 * i)
  us.foldl (fun t u =>
    if use = .table ∧ u % 2 ^ 21 < 512 then
      (List.range 4).foldl (fun t i =>
        let a := u + 8 * i
        if a < p + bs.length ∧ p < a + 8 then writeDir v n a (a % 2 ^ 21) (leNat (mergeAt t n a 8 p bs)) t else t) t
    else
      let e := BitVec.ofNat 256 (leNat (mergeAt t n u 32 p bs))
      if use = .table then (writeBt v n u e t).1
      else (writeSs v n u (decide (p < u + 8)) e t).1) s

/-! ### Requests at a port -/

/-- The partition in whose queue a request waits (R44): the requester's, 63 for the host's PF. -/
def reqPart (s : State) (r : Req) : Nat :=
  match r.who with
  | .host 1024 _ => 63
  | _ => (getVf s.dev r.vf).part

/-- The stack a request goes to, `none` for DSM. -/
def reqStack (r : Req) : Option Nat :=
  match r.loc with
  | .ipa _ a => some (a / 2 ^ 43 % 32)
  | .phys n _ => some n
  | .own _ n _ _ => some n
  | .dsm _ _ _ => none

/-- The frame of a drain card's read: SPFN after a split, else PFN (R129). -/
def drainFrame (e : BitVec 256) : Nat := if ssSdone e then ssSpfn e else ssPfn e

/-- The drain card that makes a request, if one does. -/
def drainOf (s : State) (r : Req) : Option Node :=
  match r.who with
  | .card id => (tabFind s.dev.nodes id).filter (fun x => x.kind == 4)
  | _ => none

/-- Whether a request is a drain card's read. -/
def isDrain (s : State) (r : Req) : Bool := r.op == .read && (drainOf s r).isSome

/-- The granules of an HBM region, or its frames where the buffer is stack-local: buffer offset and intermediate address of each. -/
def regionSpans (s : State) (v : Nat) (r : Region) : List (Nat × Nat) :=
  let e := btEntry s v r.index
  if eDsm e || ePhys e then []
  else
    let g := if eIlv e = 0 then 2 ^ 21 else eGran e
    let in' := if eIlv e = 0 then eBase e % 2 ^ 21 else 0
    let lo := (r.off + in') / g
    (List.range ((r.off + in' + r.len - 1) / g - lo + 1)).map (fun i =>
      let o := (lo + i) * g
      (o - in', if eIlv e = 0 then eBase e / 2 ^ 21 * 2 ^ 21 + o else interleave e o))

/-- Frames that a region touches: owner VF, stack, and bits [42:21] of the intermediate address, of which only 0 to 65,535 can be
mapped (R116). -/
def regionFrames (s : State) (v : Nat) (r : Region) : List LeaseFrame :=
  ((regionSpans s v r).map (fun p =>
    (⟨eOwner (btEntry s v r.index), p.2 / 2 ^ 43 % 32, p.2 / 2 ^ 21 % 2 ^ 22, false⟩ : LeaseFrame))).eraseDups

/-- Where a request's bytes lie before the remap: stack and stack physical address (R120, R129). -/
def reqPhys (s : State) (r : Req) : Option (Nat × Nat) :=
  match r.loc with
  | .phys n p => some (n, p)
  | .own v n p _ => if vfGone s.dev v then none else some (n, p)
  | .dsm _ _ _ => none
  | .ipa v a =>
    if isDrain s r then
      (translate s v a).map (fun x => (x.1, drainFrame (ssEntry s v x.1 (a / 2 ^ 21 % 65536)) * 2 ^ 21 + a % 2 ^ 21))
    else translate s v a

/-- Whether two requests come from one agent (R242). -/
def sameAgent (a b : Agent) : Bool :=
  match a, b with
  | .task t _, .task u _ => t == u
  | .card m, .card n => m == n
  | .host f _, .host g _ => f == g
  | .remote _ _ m, .remote _ _ n => m == n
  | .setter, .setter => true
  | _, _ => false

/-- Whether a FENCE of its task still holds the request that follows `before` in the list (R386). -/
def fenced (before : List Req) (r : Req) : Bool :=
  (List.range before.length).any (fun i =>
    match before[i]? with
    | some f => f.fence && sameAgent f.who r.who && (before.take i).any (fun x => !x.fence && sameAgent x.who r.who)
    | none => false)

/-- The memory type of a request's frame (R121). -/
def reqMt (s : State) (r : Req) : Nat :=
  match r.loc with
  | .ipa v a => ssMt (ssEntry s v (a / 2 ^ 43 % 32) (a / 2 ^ 21 % 65536))
  | _ => 0

/-- Whether two requests name the same 64-byte block: by intermediate address, in DSM, or where they lie in a stack (R44). -/
def sameBlock (s : State) (x r : Req) : Bool :=
  (match x.loc, r.loc with
    | .ipa v a, .ipa w b => v == w && a / 64 == b / 64
    | .dsm d k a, .dsm e l b => d == e && k == l && a / 64 == b / 64
    | _, _ => false)
  || (match reqPhys s x, reqPhys s r with
    | some a, some b => a.1 == b.1 && a.2 / 64 == b.2 / 64
    | _, _ => false)

/-- Whether an earlier request of the agent must come first: to the same block, or, of frames of type device or strongly ordered, to any
of them, so that an agent's accesses to them, and a copy's in ascending address order, keep their order (R44, R121, R251). -/
def ordered (s : State) (before : List Req) (r : Req) : Bool :=
  before.any (fun x => !x.fence && sameAgent x.who r.who && (sameBlock s x r || (decide (reqMt s r ≥ 2) && decide (reqMt s x ≥ 2))))

/-- A data write that meets a frame under a drain (R129): 0 no matter, or the address is unmapped; 1 split; 2 wait; 3 a split is under
way. -/
def splitCase (s : State) (r : Req) : Nat :=
  match r.loc with
  | .ipa v a =>
    let n := a / 2 ^ 43 % 32
    let e := if (translate s v a).isSome then ssEntry s v n (a / 2 ^ 21 % 65536) else 0#256
    let own := match drainOf s r with
      | some x => x.regions.any (fun g => g.read && (regionFrames s x.vf g).any (fun f => f.vf == v && f.stack == n && f.gfn == a / 2 ^ 21 % 2 ^ 22))
      | none => false
    if r.op == .read || own || !ssSplit e || ssSdone e then 0
    else if s.dev.jobs.any (fun j => j.why == .split v n (a / 2 ^ 21 % 65536)) then 3
    else if tabGet 0 (getVf s.dev v).splits n < dirField s v 0x110 % 65536 ∧ (poolFree s.dev n (getVf s.dev v).part).isSome then 1
    else if s.reqs.any (fun x => isDrain s x && (match x.loc with
      | .ipa w b => w == v && b / 2 ^ 21 == a / 2 ^ 21
      | _ => false)) then 2
    else 0
  | _ => 0

/-- The stack physical address of the second-stage entry that the port has still to access for a request: one that it does not cache, or
whose D bit a data write sets (R120, R123).  An unmapped address without an entry has none. -/
def entryAddr (s : State) (r : Req) (n : Nat) : Option Nat :=
  match r.loc with
  | .ipa v a =>
    let g := a / 2 ^ 21 % 65536
    let e := ssEntry s v n g
    if vfGone s.dev v || dirWord s v n / 2 ^ 63 == 0 || decide (a / 2 ^ 37 % 64 ≠ 0) || s.dev.looked.contains r
        || ((getStack s.dev n).cached.contains (v, g) && (r.op == .read || !ssV e || ssD e)) then none
    else some (remapAddr s.dev n (dirWord s v n % 65536 * 2 ^ 21 + 32 * g))
  | _ => none

/-- Where the next access of a request lies in its stack, if it has one: its entry, then its data (R45, R47). -/
def nextRow (s : State) (r : Req) (n : Nat) : Option Nat :=
  match entryAddr s r n with
  | some p => some p
  | none => (reqPhys s r).map (fun x => remapAddr s.dev n x.2)

/-- A copy's write that keeps its place in program order and whose LRS row is still to be read (R244, R251). -/
def unfilled (r : Req) : Bool := r.op != .read && !r.fence && r.data.isEmpty

/-- Whether a request has to wait for the last step of a pull: until then only the PF may read what has landed (R128). -/
def awaitsPull (s : State) (r : Req) : Bool :=
  match r.who, r.loc with
  | .host 1024 _, _ => false
  | _, .ipa v a => s.dev.pulls.any (fun e => e.2.vf == v && e.2.stack == a / 2 ^ 43 % 32 && e.2.gfn == a / 2 ^ 21 % 65536)
  | _, _ => false

/-- Whether the port may begin with a request now, as far as the requests before it are concerned (R44, R129, R386). -/
def inTurn (s : State) (n : Nat) (before : List Req) (r : Req) : Bool :=
  !r.fence && !unfilled r && reqStack r == some n && !fenced before r && !ordered s before r && splitCase s r == 0 && !awaitsPull s r

/-- Whether an access is over the budget (R14), or withheld by a throttle (R45). -/
def overBudget (k : Stack) (p : Option Nat) : Bool := p.isSome && decide (k.budget < k.used + 64)
def withheld (cyc part : Nat) (k : Stack) (p : Option Nat) : Bool :=
  k.throt.any (fun t => t.part == part && p.map bankOf == some t.bank && decide (cyc < t.last + usec 1))

/-- Whether the port may admit the next access of a request now (R14, R44, R45). -/
def admissible (s : State) (n : Nat) (before : List Req) (r : Req) : Bool :=
  inTurn s n before r && !overBudget (getStack s.dev n) (nextRow s r n) && !withheld s.cyc (reqPart s r) (getStack s.dev n) (nextRow s r n)

/-- The oldest admissible request of each partition's queue, with its place in the list. -/
def candidates (s : State) (n : Nat) : List (Nat × Nat × Req) :=
  s.reqs.zipIdx.filterMap (fun e =>
    if admissible s n (s.reqs.take e.2) e.1 then some (reqPart s e.1, e.2, e.1) else none)

/-- Round robin over the partitions' queues (R44): the first after the one served last. -/
def nextReq (s : State) (n : Nat) : Option (Nat × Nat × Req) :=
  let cs := candidates s n
  let last := (getStack s.dev n).last
  ((List.range 64).map (fun i => (last + 1 + i) % 64)).findSome? (fun p => cs.find? (fun c => c.1 == p))

/-! ### Performing a request -/

/-- The result of an atomic on an 8-byte atom (R309), or of an element-wise combine (R380): the value written, if any. -/
def atomResult (op : MemOp) (old : List Byte) (data : List Byte) : Option (List Byte) :=
  let a := BitVec.ofNat 64 (leNat old)
  let b := BitVec.ofNat 64 (leNat (data.take 8))
  let out (w : Word) := some (natLe 8 w.toNat)
  match op with
  | .read => none
  | .write => some data
  | .aadd => out (a + b)
  | .amin => out (if a.toInt ≤ b.toInt then a else b)
  | .amax => out (if b.toInt ≤ a.toInt then a else b)
  | .aor => out (a ||| b)
  | .axch => out b
  | .acas => if a = b then some ((data.drop 8).take 8) else none
  | .combine fmt rop =>
    let w := redWidth fmt.toNat
    some ((List.range (old.length / w)).flatMap (fun e =>
      natLe w (reduceEl rop.toNat fmt.toNat [leNat ((old.drop (w * e)).take w), leNat ((data.drop (w * e)).take w)]).1))

/-- Adds a piece to a reply. -/
def answer (id off : Nat) (bs : List Byte) (err : Option ReplyErr) (s : State) : State :=
  match tabFind s.replies id with
  | none => s
  | some r =>
    let errs := match err with
      | some e => r.errs ++ [e]
      | none => r.errs
    let r1 := { r with left := r.left - 1, data := tabSetBytes r.data off bs, errs := errs }
    { s with replies := tabPut s.replies id r1 }

/-- The lease of a protected VF's data: its key, where loaded (R107, R110). -/
def vfKey (d : Dev) (v blk : Nat) : Option Sealed :=
  if (getVf d v).prot then (tabFind d.trust.slots (getVf d v).slot).map (fun k => ⟨v, blk, k.key⟩) else none

/-- Whether a protected VF's slot is empty. -/
def keyGone (d : Dev) (v : Nat) : Bool := (getVf d v).prot && (tabFind d.trust.slots (getVf d v).slot).isNone

/-- Whether a request is refused because its protected VF's slot is empty (R110): one for the VF's memory, whoever makes it, and one that
the VF makes; what the device itself does with the VF's tables is neither. -/
def keyless (d : Dev) (r : Req) : Bool :=
  (match r.loc with
    | .ipa v _ => keyGone d v
    | .own v _ _ _ => keyGone d v
    | _ => false)
  || (match r.who, r.loc with
    | .host 1024 _, _ => false
    | .setter, .phys _ _ => false
    | _, _ => keyGone d r.vf)

/-- The place of a requester's task, for records. -/
def reqPlace (s : State) (r : Req) : Word :=
  match r.who with
  | .task tid _ | .fetch tid _ => match tabFind s.tasks tid with
    | some t => t.place
    | none => 0#64
  | _ => 0#64

/-- The intermediate address of a location, for reports; of untranslated memory, stack and address. -/
def locIpa : Loc → Nat
  | .ipa _ a => a
  | .phys n p => n * 2 ^ 43 + p
  | .own _ _ _ b => b * 64
  | .dsm _ _ _ => 0

/-- What a failed request does (R36, R120): its reply carries the error; a failed store marks its task. -/
def fail (r : Req) (kind : Nat) (s : State) : State :=
  let ipa := locIpa r.loc
  let t := answer r.id r.off [] (some ⟨r.off, kind, ipa, r.ba⟩) s
  match r.who with
  | .task tid _ => if r.op = .write ∧ r.id = 0 then
      onTask tid (fun k => if k.serr.isNone then { k with serr := some (r.ba, ipa) } else k) t else t
  | _ => t

/-- Sets the D bit with a data write (R123). -/
def setDirty (v a : Nat) (s : State) : State :=
  let n := a / 2 ^ 43 % 32
  let g := a / 2 ^ 21 % 65536
  let p := dirWord s v n % 65536 * 2 ^ 21 + 32 * g
  putEntry n p (ssEntry s v n g ||| (1#256 <<< 59)) s

/-- The job of a split, the reply that its current block answers, and what it asks for next (R129): block `b` of the old frame is read and
the same block of the new one written; after the last block, the entry is accessed. -/
def splitReqs (s : State) (v n g f b id : Nat) : List Req :=
  let e := ssEntry s v n g
  if b < 32768 then [ownReq id 0 v (.phys n (ssPfn e * 2 ^ 21 + 64 * b)) 64 .read [],
    ownReq id 64 v (.phys n (f * 2 ^ 21 + 64 * b)) 64 .write (List.replicate 64 0#8)]
  else [ownReq id 0 v (.phys n (ssPlace s v n g).2) 32 .read []]

def splitNext (v n g f b : Nat) (s : State) : State :=
  openJob (.split v n g) [f, b] 64 (splitReqs s v n g f b) (dropJobs (fun j => j.why == .split v n g) s)

/-- A split begins (R129): the port takes a frame of the pool, and copies the old frame into it. -/
def startSplit (v n g : Nat) (s : State) : State :=
  match poolFree s.dev n (getVf s.dev v).part with
  | none => s
  | some f => splitNext v n g f 0
      (onVf v (fun q => { q with splits := tabSet 0 q.splits n (tabGet 0 q.splits n + 1) }) (onFrame n f (fun x => { x with own := v + 1 }) s))

/-- The step that ends a split (R129): PFN names the new frame from then on, SPFN the old one. -/
def splitFrame (v n g f : Nat) (s : State) : State :=
  let e := ssEntry s v n g
  let e' := (e &&& ~~~((0xFFFF#256 <<< 192) ||| 0xFFFF#256)) ||| (BitVec.ofNat 256 (ssPfn e) <<< 192) ||| BitVec.ofNat 256 f
    ||| (1#256 <<< 56)
  let t := onFrame n f (fun x => { x with own := v + 1, use := .mapped }) s
  putEntry n (ssPlace s v n g).2 e' (onFrame n (ssPfn e) (fun x => { x with use := .split }) t)

/-- A split goes on as a block is copied, data, code words and encryption, or ends.  Where the drain is over by then, or the entry cannot be
read, the new frame passes to the Polisher. -/
def splitStep (v n g : Nat) (key : List Nat) (lost : Bool) (s : State) : State :=
  match key with
  | [f, b] =>
    let e := ssEntry s v n g
    let done (t : State) : State := dropJobs (fun j => j.why == .split v n g) t
    if !ssSplit e || ssSdone e || (lost && b == 32768) then
      done (onVf v (fun q => { q with splits := tabSet 0 q.splits n (tabGet 0 q.splits n - 1) })
        (quarantine n f (some (getVf s.dev v).part) s))
    else if b < 32768 then
      splitNext v n g f (b + 1) (copyBlock n (remapFrame s.dev n (ssPfn e) * 2 ^ 21 + 64 * b) (remapFrame s.dev n f * 2 ^ 21 + 64 * b) s)
    else splitFrame v n g f (done s)
  | _ => s

/-- A copy's write has been performed: matching lines of its task hold what it wrote (R218).  A scalar store, which answers no reply,
has changed them at its issue. -/
def cacheWrote (r : Req) (bs : List Byte) (s : State) : State :=
  match r.who with
  | .task tid _ => if r.id = 0 then s else onTask tid (fun t => { t with seqs := t.seqs.map (fun e => (e.1, updateLine r.loc bs e.2)) }) s
  | _ => s

/-- A scalar load of a normal frame installs its block, unless a later write of its task to the block is outstanding (R121, R218).
The cache holds 1,024 lines and replaces the oldest. -/
def install (r : Req) (blk : List Byte) (s : State) : State :=
  match r.who, lineTag r.loc with
  | .task tid k, some t =>
    let later := s.reqs ++ ((tabFind s.tasks tid).map outReqs).getD []
    if r.scalar && reqMt s r == 0 && !(later.any (fun x => sameAgent x.who r.who && x.op != .read && lineTag x.loc == some t)) then
      onSeq tid k (fun q =>
        let c := q.rcache.filter (fun x => !(x.vf == t.1 && x.blk == t.2))
        { q with rcache := (if c.length ≥ 1024 then c.drop 1 else c) ++ [⟨t.1, t.2, blk⟩] }) s
    else s
  | _, _ => s

/-- The VF that a request is charged to (R48), if it has one. -/
def reqVf (r : Req) : Option Nat :=
  match r.who with
  | .host 1024 _ => none
  | _ => some r.vf

/-- The key of a request's block (R107). -/
def reqKey (d : Dev) (r : Req) : Option Sealed :=
  match r.loc with
  | .ipa v a => vfKey d v (a / 64)
  | .own v _ _ b => vfKey d v b
  | _ => none

/-- A fetch of code: what it brings was examined as its group issued (log 52). -/
def isFetch (r : Req) : Bool :=
  match r.who with
  | .fetch _ _ => true
  | _ => false

/-- One access of a port to its stack on behalf of a request of a partition and a VF, if it has one: an activation, 64 bytes of the
budget, and their energy (R45, R47, R48). -/
def portAccess (n q part : Nat) (v : Option Nat) (s : State) : State :=
  chargeVf n v (64 * portCoef n 8) (onStack n (fun k => { k with used := k.used + 64 }) (activate n q part v s))

/-- A write to a table or array frame (R34, R36, R37): a full block stores fresh code; part of an uncorrectable one is not performed. -/
def tableWrite (r : Req) (fu : Frame) (n p : Nat) (bs : List Byte) (place : Word) (s : State) : State × Bool :=
  let q := remapAddr s.dev n p
  let x := if bs.length = 64 then (setUpsets n q 0 s, true) else readCode n q (reqPart s r) r.ba place s
  if x.2 then (writeTable fu.use (fu.own - 1) n p bs x.1, true) else x

/-- Performs the plain accesses and atomics of a request at physical address `p` of stack `n` (before the remap). -/
def performAt (r : Req) (n p : Nat) (s : State) : State :=
  let part := reqPart s r
  let q := remapAddr s.dev n p
  let key := reqKey s.dev r
  let fu := getFrame s.dev n (p / 2 ^ 21)
  let place := reqPlace s r
  let s := portAccess n q part (reqVf r) s
  let table := fu.use == .table || fu.use == .array
  if isFetch r then s
  else match r.op with
  | .read =>
    let x := readBlock n q part key r.ba place s
    match x.2 with
    | some bs => answer r.id r.off ((bs.drop (q % 64)).take r.size) none (install r bs x.1)
    | none => fail r 1 x.1
  | .write =>
    if table then
      let x := tableWrite r fu n p r.data place s
      if x.2 then answer r.id r.off [] none x.1 else fail r 2 x.1
    else
      let x := writeBlock n q part key r.data r.ba place s
      if x.2 then
        let t := match r.loc with
          | .ipa v a => setDirty v a x.1
          | _ => x.1
        answer r.id r.off [] none (cacheWrote r r.data t)
      else fail r 2 x.1
  | op =>
    let x := readBlock n q part key r.ba place s
    match x.2 with
    | none => fail r (match op with
        | .combine _ _ => 2
        | _ => 1) x.1
    | some bs =>
      let old := (bs.drop (q % 64)).take r.size
      match atomResult op old r.data with
      | none => answer r.id r.off old none x.1
      | some new =>
        let t := if table then writeTable fu.use (fu.own - 1) n p new x.1
          else (writeBlock n q part key new r.ba place x.1).1
        let t := match r.loc with
          | .ipa v a => if table then t else setDirty v a t
          | _ => t
        answer r.id r.off old none (cacheWrote r new t)

/-- The bytes of a reply from 0 up. -/
def replyBytes (r : Reply) : List Byte := tabBytes r.data 0 r.size

/-- The status of a host completion (R83). -/
def hostStatus (r : Reply) : Nat :=
  match r.errs with
  | [] => 0
  | e :: _ => if e.kind = 3 then 3 else 2

/-- Ends a reply that no unit collects: a host read is completed (R80, R83), a remote request answered (R52). -/
def finishReply (id : Nat) (s : State) : State :=
  match tabFind s.replies id with
  | none => s
  | some r =>
    if r.left ≠ 0 then s
    else match r.who with
      | .host f tag =>
        let t := { s with replies := tabDel s.replies id }
        if r.size = 0 then t
        else if r.errs.isEmpty then sendHost ⟨0x09, r.size / 8 - 1, tag, f, 0, 0#64, false, toWords 32 (replyBytes r)⟩ t
        else sendHost ⟨0x08, 0, tag, f, hostStatus r, 0#64, false, []⟩ t
      | .remote p v _ => chargeHops (p / 9) p v r.size
          (onDev (fun d => { d with outbox := d.outbox ++ [.reply p r.errs.isEmpty (replyBytes r)] }) { s with replies := tabDel s.replies id })
      | _ => s

/-- The entry of a request's frame is the one the port used last (R120); of the entries it caches the least recently used leave. -/
def cacheEntry (r : Req) (n : Nat) (s : State) : State :=
  match r.loc with
  | .ipa v a =>
    let e := (v, a / 2 ^ 21 % 65536)
    onStack n (fun k => { k with cached := (e :: k.cached.filter (· != e)).take Config.portEntries }) s
  | _ => s

/-- The access to a request's second-stage entry (R120, R123): its data waits for another turn; an entry that cannot be read fails the
request like uncorrectable data. -/
def lookup (r : Req) (n p : Nat) (s : State) : State :=
  let x := readCode n p (reqPart s r) r.ba (reqPlace s r) (portAccess n p (reqPart s r) (reqVf r) s)
  if x.2 then onDev (fun d => { d with looked := d.looked ++ [r] }) (cacheEntry r n x.1)
  else finishReply r.id (fail r 1 { x.1 with reqs := x.1.reqs.erase r })

/-- Performs what is left of an admitted request (R44, R120). -/
def performData (r : Req) (n : Nat) (s : State) : State :=
  let t := onDev (fun d => { d with looked := d.looked.erase r }) { s with reqs := s.reqs.erase r }
  finishReply r.id (match reqPhys t r with
    | none => fail r 3 t
    | some y => performAt r y.1 y.2 (cacheEntry r n t))

/-- One turn for a request (R44): one access, of its entry or of its data; a request that is refused makes none. -/
def perform (r : Req) (n : Nat) (s : State) : State :=
  let t := onStack n (fun k => { k with last := reqPart s r }) s
  if keyless s.dev r || !(getStack s.dev n).up then finishReply r.id (fail r 3 { t with reqs := t.reqs.erase r })
  else match entryAddr t r n with
    | some p => lookup r n p t
    | none => performData r n t

/-- A write that meets a frame under a drain (R129): the port starts the split, or, with no frame left, writes a type 10 record, once per
frame. -/
def meetSplit (s : State) (r : Req) : State :=
  match r.loc with
  | .ipa v a =>
    let x : Slot3 := ⟨v, a / 2 ^ 43 % 32, a / 2 ^ 21 % 65536⟩
    match splitCase s r with
    | 1 => startSplit v x.stack x.gfn s
    | 2 => if s.dev.waits10.contains x then s
      else report v { record0 10 with gaddr := r.ba } (onDev (fun d => { d with waits10 := d.waits10 ++ [x] }) s)
    | _ => s
  | _ => s

/-- One turn of a memory port (R44): splits begin, and writes that must wait for a drain are reported; an eligible request makes its next
access; the port notes a request that waits for the budget. -/
def execPortAdmit (n : Nat) (s : State) : Host.Outcome State Fault Refusal :=
  let t := (s.reqs.filter (fun r => reqStack r == some n && !r.fence)).foldl meetSplit s
  match nextReq t n with
  | some c => .next (perform c.2.2 n t)
  | none =>
    .next (onStack n (fun k => if t.reqs.zipIdx.any (fun e =>
        inTurn t n (t.reqs.take e.2) e.1 && overBudget k (nextRow t e.1 n)) then { k with waited := true } else k) t)

/-- The oldest request that a DSM bank may take. -/
def dsmReq (s : State) (die bank : Nat) : Option Req :=
  (s.reqs.zipIdx.find? (fun e => !e.1.fence && (match e.1.loc with
    | .dsm d b _ => d == die && b == bank
    | _ => false) && !fenced (s.reqs.take e.2) e.1 && !ordered s (s.reqs.take e.2) e.1)).map Prod.fst

/-- A request at a DSM bank (R117, R249); a retained die wakes first (R23). -/
def execDsmBankRequest (die bank : Nat) (s : State) : Host.Outcome State Fault Refusal :=
  match dsmReq s die bank with
  | none => .next s
  | some r =>
    if keyless s.dev r then .next (finishReply r.id (fail r 3 { s with reqs := s.reqs.erase r }))
    else if !awake s.dev (elKey (.die die)) then .next (wakeKey (elKey (.die die)) s)
    else match r.loc with
    | .dsm d b y =>
      let t := onDev (fun x => setDie d { getDie x d with dsmAt := s.cyc } x)
        { s with reqs := s.reqs.erase r }
      let old := tabBytes s.mem (dsmKey d b y) r.size
      let t := match atomResult r.op old r.data with
        | some new => cacheWrote r new { t with mem := tabSetBytes t.mem (dsmKey d b y) new }
        | none => if r.op = .read then install r (tabBytes s.mem (dsmKey d b (y / 64 * 64)) 64) t else t
      .next (finishReply r.id (answer r.id r.off (if r.op = .write then [] else old) none t))
    | _ => .next s

/-! ### Scrub, refresh and retirement -/

/-- A scrub of one block of a row (R42, R43); where the patrol corrects an error, the row is demoted by one class (R40). -/
def scrubBlock (n bank row b : Nat) (demote : Bool) (s : State) : State :=
  let p := blockAddr bank row b
  let k := getStack s.dev n
  let x := readCode n p 63 0#64 0#64 s
  if !demote || !x.2 || blockReading s n p == .clean || inFilter k bank row 0 then x.1
  else if inFilter k bank row 1 then
    addScore n (p / 2 ^ 21) 16 (loupePort n 3 p 63 (onStack n (insertRow bank row 0) x.1))
  else loupePort n 3 p 63 (onStack n (insertRow bank row 1) x.1)

/-- One patrol step (R42, R43): the next block of the patrol's row, then the next row.  SCRUBPOS counts the rows of bank 0 first, then
those of bank 1, with banks numbered as in `bankOf`: R50 does not say which row an index names (log 15). -/
def execPatrolScrubStep (n : Nat) (s : State) : Host.Outcome State Fault Refusal :=
  let k := getStack s.dev n
  if !k.up then .next s
  else
    let t := scrubBlock n (k.pos / 16384) (k.pos % 16384) k.blk true s
    .next (onStack n (fun x => if k.blk < 15 then { x with blk := k.blk + 1 } else { x with blk := 0, pos := (k.pos + 1) % 2 ^ 27 }) t)

/-- A hot-list row is scrubbed whole (R42); after 64 clean hot scrubs it leaves the list. -/
def execHotScrubStep (n row : Nat) (s : State) : Host.Outcome State Fault Refusal :=
  if !((getStack s.dev n).hot.any (fun h => h.row == row)) then .next s
  else
    let bad := (List.range 16).any (fun b => tabGet 0 s.dev.upsets (blkKey n (blockAddr (row / 16384) (row % 16384) b)) != 0)
    let t := (List.range 16).foldl (fun t b => scrubBlock n (row / 16384) (row % 16384) b false t) s
    .next (onStack n (fun k => { k with
      hot := (k.hot.map (fun h => if h.row = row then { h with clean := if bad then 0 else h.clean + 1 } else h)).filter
        (fun h => !(h.row == row && decide (h.clean ≥ 64))) }) t)

/-- A patrol period ends (R41, R51): scores are halved and a new PERIOD takes effect. -/
def execPatrolPeriodEnd (n : Nat) (s : State) : Host.Outcome State Fault Refusal :=
  .next (onStack n (fun k => { k with score := (k.score.map (fun e => (e.1, e.2 / 2))).filter (fun e => e.2 != 0), running := k.period }) s)

/-- A retirement copy ends (R41): the pair enters the remap table. -/
def execRetirementCopyDone (n frame : Nat) (s : State) : Host.Outcome State Fault Refusal :=
  match (getStack s.dev n).copying.find? (fun c => c.frame == frame) with
  | none => .next s
  | some c =>
    let t := copyFrame n frame c.spare s
    let m := (t.dev.remap.map (fun e => if e.1 / 65536 = n ∧ e.2 = frame then (e.1, c.spare) else e))
    .next (loupePort n 4 frame 63 (onStack n (fun k =>
      { k with copying := k.copying.filter (fun x => x != c), retired := k.retired + 1 })
      (onDev (fun d => { d with remap := tabPut m (n * 65536 + frame) c.spare }) t)))

/-- A row is refreshed (R38). -/
def execRowRefresh (n bank row : Nat) (s : State) : Host.Outcome State Fault Refusal :=
  .next (onStack n (fun k => { k with fresh := tabSet 0 k.fresh (bank * 16384 + row) s.cyc }) s)

/-- A new 32 ms window (R45): counts and throttles clear. -/
def execActivationWindow (s : State) : Host.Outcome State Fault Refusal :=
  .next (onDev (fun d => { d with hbm := d.hbm.map (fun e => (e.1, { e.2 with track := [], acts := [], throt := [] })) }) s)

/-! ### Clearing (R400) -/

/-- Whether a quarantined frame still waits for an invalidation (R400, step 1). -/
def awaitsInval (d : Dev) (n fr : Nat) : Bool := d.invals.any (fun i => i.ss && i.stack == n && i.frames.contains fr)

/-- The frame whose turn it is, where it may be cleared: frames are cleared in the order of the queue (R400). -/
def nextClear (d : Dev) (n : Nat) : Option Nat := (getStack d n).queue.head?.filter (fun f => !awaitsInval d n f)

/-- The Polisher's events (R259): first frame and count.  INDEX is the port's number on its die; R26 also allows zero (log 20). -/
def loupePolisher (n code fr : Nat) (s : State) : State :=
  loupe (srcId 5 (n / 4) (n % 4)) (0x0500 + code) (natLe 8 fr ++ natLe 8 1) s

/-- A cleared frame leaves quarantine into the pool it is bound for, or becomes free (R400). -/
def frameCleared (n fr : Nat) (s : State) : State :=
  loupePolisher n 2 fr (onStack n (fun k => { k with clearing := none, written := 0, recorded := 0 })
    (onFrame n fr (fun f => { f with pool := f.quar - 1, quar := 0 }) s))

/-- One block of clearing (R400). -/
def execPolisherClearBlock (n : Nat) (s : State) : Host.Outcome State Fault Refusal :=
  let k := getStack s.dev n
  match k.clearing with
  | none =>
    match nextClear s.dev n with
    | none => .next s
    | some f => .next (loupePolisher n 1 f (onStack n (fun k =>
        { k with clearing := some f, queue := k.queue.filter (fun x => x != f), prom := k.prom - 1, written := 0, recorded := 0 }) s))
  | some f =>
    let w := k.written + 1
    let t := zeroRange n (remapFrame s.dev n f * 2 ^ 21 + 64 * k.written) 64 s
    let t := onStack n (fun k => { k with written := w, recorded := if w % 64 = 0 ∧ w < 32768 then w else k.recorded }) t
    .next (if w ≥ 32768 then frameCleared n f t else t)

/-! ### Invalidations (R124, R125) -/

/-- Whether a copy goes on with the buffer entry that it took before the write, or before its sequencer's acknowledgement. -/
def oldCopy (i : Inval) (c : Copy) : Bool := !i.ss && i.copies.contains c.id && (c.index == i.what || (c.kind == 4 && c.index2 == i.what))

/-- Whether an access that used the old entry has not retired (R124, R125). -/
def oldAccess (s : State) (i : Inval) : Bool :=
  i.olds.any (fun r => s.reqs.contains r || s.tasks.any (fun e => (outReqs e.2).contains r))
    || s.tasks.any (fun e => e.2.vf == i.vf && e.2.seqs.any (fun q => q.2.copies.any (oldCopy i)))

/-- Whether an invalidation is complete. -/
def invalDone (s : State) (i : Inval) : Bool := i.groups.isEmpty && !oldAccess s i

/-- PEND clears on every complete invalidation (R124); `id` is its place in the list. -/
def execInvalidationDone (id : Nat) (s : State) : Host.Outcome State Fault Refusal :=
  match s.dev.invals[id]? with
  | none => .next s
  | some i =>
    if !invalDone s i then .next s
    else
      let bit := if i.ss then 57 else 181
      let t := onDev (fun d => { d with invals := d.invals.eraseIdx id }) s
      .next (if vfGone s.dev i.vf then t else putEntry i.stack i.addr (entryAt s i.stack i.addr &&& ~~~(1#256 <<< bit)) t)

/-- An acknowledgement reaches an invalidation (R124): the sequencer's accesses until then have used the old entry. -/
def acked (s : State) (tid k : Nat) (i : Inval) : Inval :=
  if !i.groups.contains (tid, k) then i
  else
    let mine (r : Req) : Bool := r.who == .task tid k
    let out := (tabFind s.tasks tid).map (fun t => (outReqs t, (t.seqs.filter (fun q => q.1 == k)).flatMap (fun q => q.2.copies.map (·.id))))
    { i with
      groups := i.groups.filter (fun g => g != (tid, k))
      olds := i.olds ++ ((s.reqs ++ (out.getD ([], [])).1).filter (fun r => mine r && usesEntry i.ss i.vf i.what r))
      copies := i.copies ++ (out.getD ([], [])).2 }

/-- A sequencer acknowledges at its quiescent point (R124): its range registers are empty, read-cache lines of the frame drop. -/
def acknowledge (tid k : Nat) (s : State) : State :=
  let drops := s.dev.invals.filterMap (fun i => if i.ss then some (i.vf + 1, i.what / 2 ^ 21) else none)
  let keep (q : Seq) := q.rcache.filter (fun l => !drops.contains (l.vf, l.blk * 64 / 2 ^ 21))
  let t := onSeq tid k (fun q => { q with rr := [], rcache := keep q }) s
  onDev (fun d => { d with invals := d.invals.map (acked s tid k) }) t

end Sys2Proof.Machine
end

