-- ==== Sys2Proof/Machine/Nodes.lean ====
section
/-!
DEFINITION. Nodes and leases: acquiring and releasing leases, pulls, ends of nodes and what they cause, energy accounts, cancels,
and the tamper alarm with its key erasure (R93, R105 to R110, R126 to R128, R136 to R139, R155 to R158).
-/

namespace Sys2Proof.Machine

def onNode (id : Nat) (f : Node → Node) (s : State) : State :=
  match tabFind s.dev.nodes id with
  | some x => onDev (fun d => { d with nodes := tabPut d.nodes id (f x) }) s
  | none => s

/-- A record with the energy of its node, in the types that carry it (R99). -/
def withEnergy (e : Nat) (r : Record) : Record := if 1 ≤ r.type ∧ r.type ≤ 3 then { r with energy := e } else r

/-- A record that names a node. -/
def nodeRec (type status : Nat) (x : Node) : Record :=
  withEnergy x.energy { record0 type with status := status, node := x.idx, handle := x.handle }

/-! ### Energy accounts (R93, R156, R158) -/

/-- Posts a request to a task (R153). -/
def post (tid : Nat) (k : PreemptKind) (s : State) : State := onDev (fun d => { d with posts := d.posts ++ [⟨tid, k⟩] }) s

/-- Tasks of a VF. -/
def vfTasks (s : State) (v : Nat) : List Nat := (s.tasks.filter (fun e => e.2.alive && e.2.vf == v)).map Prod.fst

def loupeNode (code id : Nat) (s : State) : State :=
  match tabFind s.dev.nodes id with
  | some x => loupeSetter x.die code x.handle x.idx x.vf s
  | none => s

/-- ACCT below zero (R158): pre-emption is posted to every task of `v` and a type 9 record written, once until a credit. -/
def quotaCheck (v : Nat) (s : State) : State :=
  let q := getVf s.dev v
  if q.acct < 0 ∧ !q.quota ∧ q.state ≠ 0 then
    let t := report v { record0 9 with energy := -q.acct } (onVf v (fun q => { q with quota := true }) s)
    (vfTasks s v).foldl (fun t tid => post tid .save (match tabFind s.tasks tid with
      | some k => loupeNode 4 k.node t
      | none => t)) t
  else s

/-- Adds to ACCT, saturating (R93). -/
def addAcct (v : Nat) (n : Int) (s : State) : State :=
  onVf v (fun q =>
    let a := max (-(2 ^ 63 : Int)) (min (2 ^ 63 - 1) (q.acct + n))
    { q with acct := a, quota := q.quota && decide (a ≤ 0) }) s

/-- Charges a node and its VF `n` nJ. -/
def chargeNode (id v n : Nat) (s : State) : State :=
  quotaCheck v (addAcct v (-(n : Int)) (onNode id (fun x => { x with energy := x.energy + n }) s))

/-- Whole nanojoules of a counter in 2^-8 fJ, and the rest (R156). -/
def nanos (f : Nat) : Nat := f / 256 / 10 ^ 6
def nanoRest (f : Nat) : Nat := f - 256 * 10 ^ 6 * nanos f

/-- Flushes a task's counter as at a period boundary (R156). -/
def flushTask (tid : Nat) (s : State) : State :=
  match tabFind s.tasks tid with
  | none => s
  | some t => chargeNode t.node t.vf (nanos t.meter)
      (onTask tid (fun t => { t with meter := nanoRest t.meter }) s)

/-- The rounded-up charge at a node's end (R156). -/
def finalCharge (tid : Nat) (s : State) : State :=
  match tabFind s.tasks tid with
  | none => s
  | some t => chargeNode t.node t.vf ((t.meter + 256 * 10 ^ 6 - 1) / (256 * 10 ^ 6)) (onTask tid (fun t => { t with meter := 0 }) s)

/-! ### Leases (R126, R127) -/

/-- Every frame of a node's regions, and the buffers whose LCNT its lease raises: PHYS buffers have no lease count (R112). -/
def nodeFrames (s : State) (x : Node) : List LeaseFrame := (x.regions.flatMap (regionFrames s x.vf)).eraseDups
def nodeIndices (s : State) (x : Node) : List Nat :=
  ((x.regions.map (fun r => r.index)).eraseDups).filter (fun i => !ePhys (btEntry s x.vf i))

/-- Adds to LCNT of a buffer (R126). -/
def addLcnt (v i : Nat) (up : Bool) (s : State) : State :=
  let f := getVf s.dev v
  let p := f.btFrame * 2 ^ 21 + 32 * i
  let e := entryAt s f.btStack p
  let n := if up then eLcnt e + 1 else eLcnt e - 1
  putEntry f.btStack p ((e &&& ~~~(0xFF#256 <<< 152)) ||| (BitVec.ofNat 256 (n % 256) <<< 152)) s

/-- Adds to LCOUNT of a frame. -/
def addLcount (f : LeaseFrame) (up : Bool) (s : State) : State :=
  let p := dirWord s f.vf f.stack % 65536 * 2 ^ 21 + 32 * f.gfn
  let e := entryAt s f.stack p
  let n := if up then ssLcount e + 1 else ssLcount e - 1
  putEntry f.stack p ((e &&& ~~~(0xFFFF#256 <<< 40)) ||| (BitVec.ofNat 256 (n % 65536) <<< 40)) s

/-- Gives back what node `x` holds by its lease (R126), LCNT and LCOUNT, by requests to the ports; replies still out are discarded. -/
def giveBack (id : Nat) (x : Node) (s : State) : State :=
  let what : List (Nat ⊕ LeaseFrame) := x.counted.map .inl ++ (x.frames.filter (fun f => f.done)).map .inr
  onDev (fun d => { d with
      releases := d.releases ++ what.zipIdx.map (fun w => ⟨x.vf, id, s.nextId + w.2, w.1⟩)
      pulls := (d.pulls.map (fun e => (e.1, { e.2 with nodes := e.2.nodes.filter (· != id) }))).filter (fun e => !e.2.nodes.isEmpty) })
    { s with nextId := s.nextId + what.length }

/-- Releases a node's lease. -/
def releaseLease (id : Nat) (s : State) : State :=
  match tabFind s.dev.nodes id with
  | none => s
  | some x =>
    if x.lease = .none then s
    else onNode id (fun x => { x with lease := .none, frames := [], counted := [], replies := [], pulls := 0 })
      (giveBack id x (dropJobs (fun j => match j.why with
        | .frame m _ => m == id
        | _ => false) s))

/-- Whether a region can be leased: its entry valid, well formed and long enough. -/
def regionOk (s : State) (v : Nat) (r : Region) : Bool :=
  let e := btEntry s v r.index
  decide (r.index > 15) && eV e && !malformed s.dev (getVf s.dev v).cust e && decide (r.off + r.len ≤ eLen e)

/-! ### The end of a node (R138) -/

/-- Whether a request is one of the given tasks'. -/
def ofTasks (tids : List Nat) (r : Req) : Bool :=
  match r.who with
  | .task t _ => tids.contains t
  | _ => false

/-- Requests of a task not yet performed. -/
def taskBusy (s : State) (tid : Nat) : Bool := s.reqs.any (fun r => !r.fence && ofTasks [tid] r)

/-- Whether the given tasks have accesses to perform: requests, custodian instructions on their way to their targets (R260, R397), or copies
through memory that have not sent their writes (R263). -/
def tasksBusy (s : State) (tids : List Nat) : Bool :=
  tids.any (fun tid => taskBusy s tid || s.dev.custs.any (fun c => c.tid == tid) || (match tabFind s.tasks tid with
    | some t => t.seqs.any (fun q => q.2.copies.any (fun c => c.kind == 4 && !c.wrote))
    | none => false))

/-- Replies of tasks that are no more. -/
def dropReplies (tids : List Nat) (s : State) : State :=
  { s with replies := s.replies.filter (fun e => match e.2.who with
      | .task t _ => !tids.contains t
      | _ => true) }

/-- Removes tasks: what is left of their requests and replies is dropped, the remaining counters are charged. -/
def removeTasks (tids : List Nat) (s : State) : State :=
  let t := tids.foldl (fun t tid => finalCharge tid t) (dropReplies tids s)
  { t with
    tasks := t.tasks.filter (fun e => !tids.contains e.1)
    reqs := t.reqs.filter (fun r => !ofTasks tids r)
    dev := { t.dev with
      posts := t.dev.posts.filter (fun p => !tids.contains p.tid)
      custs := t.dev.custs.filter (fun c => !tids.contains c.tid)
      invals := t.dev.invals.map (fun i => { i with groups := i.groups.filter (fun g => !tids.contains g.1) }) } }

/-- The tasks of a node. -/
def nodeTids (s : State) (id : Nat) : List Nat := (s.tasks.filter (fun e => e.2.node == id)).map Prod.fst

/-- Frees a node's record (R138, R140); a reset of its VF releases its lease last (R159). -/
def freeNode (id : Nat) (s : State) : State :=
  match tabFind s.dev.nodes id with
  | none => s
  | some x =>
    let t := if (getVf s.dev x.vf).state = 4 ∧ x.lease ≠ .none then onDev (fun d => { d with late := d.late ++ [(id, x)] }) s
      else releaseLease id s
    onDev (fun d => { d with
      nodes := tabDel d.nodes id
      graphs := (d.graphs.map (fun g => if g.vf = x.vf ∧ g.handle = x.handle then { g with nodes := g.nodes - 1 } else g)).filter
        (fun g => g.nodes != 0)
      freed := true
      reserved := d.reserved.filter (fun e => e.2 != id + 1) }) t

/-- A node whose incoming edges are all satisfied goes on to its lease. -/
def promote (x : Node) : Node :=
  if x.st = .waitingDeps ∧ x.preds = [] ∧ x.starts = [] then { x with st := .waitingLease } else x

/-- Satisfies the edges out of a node (R136, R137). -/
def satisfy (id : Nat) (s : State) : State :=
  onDev (fun d => { d with nodes := d.nodes.map (fun e =>
    (e.1, promote { e.2 with preds := e.2.preds.filter (· != id), starts := e.2.starts.filter (· != id) })) }) s

/-- Cancels a node that has not launched: its type 3 record, and its record freed. -/
def cancelWaiting (id status : Nat) (s : State) : State :=
  match tabFind s.dev.nodes id with
  | none => s
  | some x => freeNode id (report x.vf (nodeRec 3 status x) s)

/-- Cancels every node that depends on the ended nodes, STATUS 2 (R136); `n` bounds the chain. -/
def cancelAfter : Nat → List Nat → State → State
  | 0, _, s => s
  | n + 1, ids, s =>
    let next := (s.dev.nodes.filter (fun e => (e.2.preds ++ e.2.starts).any (fun p => ids.contains p))).map Prod.fst
    if next.isEmpty then s else cancelAfter n next (next.foldl (fun t id => cancelWaiting id 2 t) s)

/-- A suspended member's meter residue is charged, rounded up, when its node ends (R156). -/
def chargeResidues (id : Nat) (s : State) : State :=
  match tabFind s.dev.nodes id with
  | none => s
  | some x =>
    let t := x.members.foldl (fun t m => chargeNode id x.vf ((m.meter + 256 * 10 ^ 6 - 1) / (256 * 10 ^ 6)) t) s
    onNode id (fun y => { y with members := y.members.map (fun m => { m with meter := 0 }) }) t

/-- A node ends without retiring: `recs` are its records. -/
def endAlone (id : Nat) (recs : List Record) (s : State) : State :=
  match tabFind s.dev.nodes id with
  | none => s
  | some x =>
    let t := chargeResidues id (removeTasks (nodeTids s id) s)
    let e := match tabFind t.dev.nodes id with
      | some y => y.energy
      | none => x.energy
    freeNode id (recs.foldl (fun t r => report x.vf (withEnergy e r) t) t)

/-- A node ends without retiring, and its successors are cancelled. -/
def endNode (id : Nat) (recs : List Record) (s : State) : State :=
  let t := endAlone id recs s
  cancelAfter (t.dev.nodes.length + 1) [id] t

/-- A node whose tasks stop at once: it ends when their accesses have been performed (R252, R263). -/
def closeNode (id : Nat) (recs : List Record) (s : State) : State :=
  let tids := nodeTids s id
  if tasksBusy s tids then
    onNode id (fun x => { x with closing := some recs }) (tids.foldl (fun t tid => onTask tid (fun k => { k with alive := false }) t) s)
  else endNode id recs s

/-- The type 2 record of a trap that no group has taken (R264). -/
def earlyRecord (x : Node) (t : Trap) : Record :=
  { nodeRec 2 0 x with
    tcause := tcauseWord false false 0 t, ti0 := t.ti0, ti1 := t.ti1, ti2 := t.ti2, ti3 := t.ti3, gaddr := t.gaddr.getD 0#64 }

/-- A node faults with the record of a trap that no group has taken, and the Loupe event of its tile, or, before a placement, of tile 0
of its home die (R259, R263, log 27). -/
def faultNode (id : Nat) (x : Node) (r : Record) (s : State) : State :=
  let g := ((x.members[r.place.toNat]?).map (·.grp)).getD ⟨x.die, 0, 0, 1⟩
  endNode id [r] (loupe (srcId 0 g.die g.tile) (0x0100 + fieldN r.tcause 8 8)
    (natLe 4 r.tcause.toNat ++ natLe 2 x.vf ++ natLe 2 0 ++ natLe 8 r.lc) s)

/-- A node faults before any group issues (R264). -/
def faultEarly (id : Nat) (t : Trap) (s : State) : State :=
  match tabFind s.dev.nodes id with
  | none => s
  | some x => faultNode id x (earlyRecord x t) s

/-! ### Lease events -/

/-- A lease that cannot be acquired for a region (R257): its address, length, kind 6 and its entry's LEN. -/
def leaseTrap (s : State) (x : Node) (r : Region) : Trap :=
  let ba := w64 (r.index * 2 ^ 48 + r.off)
  ⟨0x04, 0x06, 0, ba, w64 r.len, 6#64, w64 (if r.index ≤ 15 then 0 else eLen (btEntry s x.vf r.index)), some ba⟩

/-- A region that cannot be leased, or that touches an unmapped frame, ends the acquisition (R126): a task faults at LC 0, a card
with code 4. -/
def leaseRefused (id : Nat) (r : Option Region) (s : State) : State :=
  match tabFind s.dev.nodes id with
  | none => s
  | some x =>
    let tr := match r with
      | some r => leaseTrap s x r
      | none => ⟨0x04, 0x06, 0, 0#64, 0#64, 6#64, 0#64, none⟩
    let t := releaseLease id s
    if x.kind = 1 then faultEarly id tr t else endNode id [nodeRec 4 4 x] t

/-- The first region that touches a frame of the lease. -/
def frameRegion (s : State) (x : Node) (f : LeaseFrame) : Option Region :=
  x.regions.find? (fun r => (regionFrames s x.vf r).any (fun y => y.vf == f.vf && y.stack == f.stack && y.gfn == f.gfn))

/-- The buffer address of the first byte of a node's regions that lies in a frame of its lease. -/
def leaseFrameAddr (s : State) (x : Node) (f : LeaseFrame) : Word :=
  (x.regions.findSome? (fun r =>
    ((regionSpans s x.vf r).find? (fun p => eOwner (btEntry s x.vf r.index) == f.vf && p.2 / 2 ^ 43 % 32 == f.stack
        && p.2 / 2 ^ 21 % 2 ^ 22 == f.gfn)).map
      (fun p => w64 (r.index * 2 ^ 48 + max r.off p.1)))).getD 0#64

/-- Begins an acquisition (R126): the buffers' entries are read, regions are checked, LCNT of each buffer rises. -/
def beginLease (id : Nat) (s : State) : State :=
  match tabFind s.dev.nodes id with
  | none => s
  | some x =>
    let is := nodeIndices s x
    if is.any (fun i => decide (eLcnt (btEntry s x.vf i) ≥ 255)) then s
    else attempt (.lease id) (fun s =>
      let s := (askEntries (.lease id) [] x.vf (((x.regions.map (·.index)).eraseDups).map (btPlace s.dev x.vf)) s).1
      match x.regions.find? (fun r => !regionOk s x.vf r) with
      | some r => leaseRefused id (some r) s
      | none =>
        let fs := nodeFrames s x
        onNode id (fun x => { x with
            frames := fs, counted := is, replies := [], pulls := 0, lease := if fs.isEmpty then .held else .acquiring })
          (is.foldl (fun t i => addLcnt x.vf i true t) s)) s

/-- The size of a pull's reply tells what it awaits: blocks, then its entry. -/
def pullData : Nat := 2 ^ 21
def pullEntry : Nat := 32

/-- LPULLWD in µs (R118). -/
def pullWd (s : State) (v : Nat) : Nat :=
  let w := dirField s v 0x108 % 2 ^ 24
  if w = 0 then 100000 else w

/-- Sends the read of `off` bytes on of a frame that is pulled, whose entry is `e` (R128): through RPORT, with its flit hops charged to the
frame's VF (R54). -/
def sendPull (id v off : Nat) (e : BitVec 256) (s : State) : State :=
  let port := portAt s.dev (getVf s.dev v).part (fieldN e 120 8)
  chargeHops (getVf s.dev v).die port v 0
    (onDev (fun d => { d with outbox := d.outbox ++ [.pullRead port id (fieldN e 96 10) (fieldN e 128 48 + off)] }) s)

/-- A LOC = 1 frame is pulled for a node's lease (R128): a pull that is running serves it too.  The pull's reply awaits the writes of the
blocks that land. -/
def startPull (id : Nat) (f : LeaseFrame) (s : State) : State :=
  let t := onNode id (fun x => { x with pulls := x.pulls + 1 }) s
  match s.dev.pulls.find? (fun e => e.2.vf == f.vf && e.2.stack == f.stack && e.2.gfn == f.gfn) with
  | some e => onDev (fun d => { d with pulls := tabPut d.pulls e.1 { e.2 with nodes := e.2.nodes ++ [id] } }) t
  | none =>
    let e := ssEntry s f.vf f.stack f.gfn
    let p : Pull := ⟨f.vf, f.stack, f.gfn, [id], s.cyc, pullWd s f.vf, 1, 0⟩
    sendPull s.nextId f.vf 0 e (onDev (fun d => { d with pulls := tabPut d.pulls s.nextId p })
      { t with nextId := s.nextId + 1, replies := tabPut s.replies s.nextId ⟨.setter, pullData, 32768, [], [], false⟩ })

/-- Whether a frame of a lease has no second-stage entry, and whether it is unmapped (R116, R120, R126). -/
def noEntry (s : State) (f : LeaseFrame) : Bool := vfGone s.dev f.vf || dirWord s f.vf f.stack / 2 ^ 63 == 0 || decide (65536 ≤ f.gfn)
def unmappedFrame (s : State) (f : LeaseFrame) : Bool := noEntry s f || !ssV (ssEntry s f.vf f.stack f.gfn)

/-- LCOUNT of the `n`-th frame of node `x`'s lease has been accessed: it rises, unless the frame is unmapped or its entry cannot be read. -/
def raiseFrame (node n : Nat) (x : Node) (f : LeaseFrame) (lost : Bool) (s : State) : State :=
  if lost || unmappedFrame s f then leaseRefused node (frameRegion s x f) s
  else
    let loc := ssLoc (ssEntry s f.vf f.stack f.gfn)
    let t := onNode node (fun x => { x with frames := x.frames.set n { f with done := true }, replies := x.replies ++ [n] }) (addLcount f true s)
    if loc then startPull node f t else t

/-- The home port raises LCOUNT of the `n`-th frame of a node's lease, by an access to its entry (R47, R126). -/
def execLeaseIncrement (node n : Nat) (s : State) : Host.Outcome State Fault Refusal :=
  match tabFind s.dev.nodes node with
  | none => .next s
  | some x =>
    match x.frames[n]? with
    | none => .next s
    | some f =>
      if x.lease ≠ .acquiring ∨ f.done then .next s
      else if noEntry s f then .next (leaseRefused node (frameRegion s x f) s)
      else if ssLcount (ssEntry s f.vf f.stack f.gfn) ≥ 65535 then .next s
      else .next (attempt (.frame node n) (fun s =>
        let r := askEntries (.frame node n) [] x.vf [ssPlace s f.vf f.stack f.gfn] s
        if r.1.dev.reading then r.1 else raiseFrame node n x f (!r.2.isEmpty) r.1) s)

/-- Where the lease stands once its replies are in (R126). -/
def leaseState (x : Node) : LeaseSt :=
  if x.frames.all (fun f => f.done) && x.replies.isEmpty then (if x.pulls = 0 then .held else .pulling) else x.lease

/-- A reply lands in the lease table (R126). -/
def execLeaseReply (node n : Nat) (s : State) : Host.Outcome State Fault Refusal :=
  .next (onNode node (fun x =>
    if x.lease = .acquiring ∧ x.replies.contains n then
      let y := { x with replies := x.replies.filter (· != n) }
      { y with lease := leaseState y }
    else x) s)

/-- Where the entry of a count still to be lowered lies, unless it is gone with its VF. -/
def releasePlace (s : State) (r : Release) : Option (Nat × Nat) :=
  match r.what with
  | .inl i => if vfGone s.dev r.vf then none else some (btPlace s.dev r.vf i)
  | .inr f => if noEntry s f then none else some (ssPlace s f.vf f.stack f.gfn)

/-- A port lowers the `n`-th count that a node's released lease has still to lower, by an access to its entry (R47, R126). -/
def execLeaseRelease (node n : Nat) (s : State) : Host.Outcome State Fault Refusal :=
  match (s.dev.releases.filter (fun r => r.node == node))[n]? with
  | none => .next s
  | some r =>
    let gone (t : State) : State := onDev (fun d => { d with releases := d.releases.filter (fun x => x.id != r.id) }) t
    .next (attempt (.release r.id) (fun s =>
      match releasePlace s r with
      | none => gone s
      | some p =>
        let e := askEntries (.release r.id) [] r.vf [p] s
        gone (if !e.2.isEmpty then e.1 else match r.what with
          | .inl i => addLcnt r.vf i false e.1
          | .inr f => addLcount f false e.1)) s)

/-- The frame that a pull fills, as its entry names it: stack physical address before the remap. -/
def pullFrame (s : State) (p : Pull) : Nat := ssPfn (ssEntry s p.vf p.stack p.gfn) * 2 ^ 21

/-- A pull is over: its reply and the writes it has still to make go. -/
def dropPull (id : Nat) (s : State) : State :=
  { s with
    reqs := s.reqs.filter (fun r => r.id != id)
    replies := tabDel s.replies id
    dev := { s.dev with pulls := tabDel s.dev.pulls id } }

/-- The pull's data is in the frame: LOC becomes 0 in one step, and the leases that await it go on (R128). -/
def pullDone (id : Nat) (p : Pull) (s : State) : State :=
  let e := ssEntry s p.vf p.stack p.gfn
  let t := putEntry p.stack (ssPlace s p.vf p.stack p.gfn).2 (e &&& ~~~(1#256 <<< 62)) s
  p.nodes.foldl (fun t n => onNode n (fun x =>
      let y := { x with pulls := x.pulls - 1 }
      { y with lease := if y.lease = .pulling then leaseState y else y.lease }) t)
    (dropPull id t)

/-- A pull fails a node's lease (R128): it is released, the VF is DEGRADED with a type 8 record; GADDR is the buffer address of the
region's first byte in the frame. -/
def failLease (p : Pull) (s : State) (n : Nat) : State :=
  match tabFind s.dev.nodes n with
  | none => s
  | some x =>
    let t := loupeNode 5 n (releaseLease n s)
    let t := onVf x.vf (fun q => if q.state = 1 then { q with state := 2 } else q) t
    report x.vf { nodeRec 8 0 x with gaddr := leaseFrameAddr s x ⟨p.vf, p.stack, p.gfn, true⟩ } t

/-- A pull fails (R128): the leases that await it fail, and what has landed is discarded, zeroed without an access (log 53). -/
def pullFails (id : Nat) (p : Pull) (s : State) : State :=
  p.nodes.foldl (failLease p) (zeroRange p.stack (remapFrame s.dev p.stack (pullFrame s p / 2 ^ 21) * 2 ^ 21) (2 ^ 21) (dropPull id s))

/-- The writes of the 256 bytes that the pull's read number `got` has brought: whole blocks, for the frame's VF (R107, R128). -/
def pullWrites (s : State) (id : Nat) (p : Pull) (data : List Byte) : List Req :=
  (List.range 4).map (fun i =>
    let o := 256 * p.got + 64 * i
    ownReq id o p.vf (.own p.vf p.stack (pullFrame s p + o) ((p.stack * 2 ^ 43 + p.gfn * 2 ^ 21 + o) / 64)) 64 .write
      (((data ++ List.replicate 256 0#8).drop (64 * i)).take 64))

/-- What a pull's reply awaits has been done (R128): with every block written the entry is accessed, and with that LOC becomes 0.  Where a
write is refused, for want of a key (R110), or the entry cannot be read, the pull fails. -/
def pullStep (id : Nat) (p : Pull) (r : Reply) (s : State) : State :=
  if !r.errs.isEmpty then pullFails id p s
  else if r.size = pullData then
    { s with
      replies := tabPut s.replies id { r with size := pullEntry, left := 1, ok := false }
      reqs := s.reqs ++ [ownReq id 0 p.vf (.phys p.stack (ssPlace s p.vf p.stack p.gfn).2) 32 .read []] }
  else pullDone id p s

/-- A 256-byte pull read lands (R128). -/
def execPullReadReply (id : Nat) (ok : Bool) (data : List (BitVec 8)) (s : State) : Host.Outcome State Fault Refusal :=
  match tabFind s.dev.pulls id with
  | none => .next s
  | some p =>
    if !ok then .next (pullFails id p s)
    else if p.got ≥ 8192 then .next s
    else
      let q := { p with got := p.got + 1, sent := p.sent + 1 }
      let t := { s with reqs := s.reqs ++ pullWrites s id p data, dev := { s.dev with pulls := tabPut s.dev.pulls id q } }
      if q.got ≥ 8192 then .next t
      else .next (sendPull id p.vf (256 * q.got) (ssEntry s p.vf p.stack p.gfn) t)

/-- The writes of a member's save are performed (R153, R267): its columns are free. -/
def saveWritten (id : Nat) (s : State) : State :=
  if s.dev.nodes.any (fun e => e.2.members.any (fun m => m.saving == id)) then
    onDev (fun d => { d with
      nodes := d.nodes.map (fun e => (e.1, { e.2 with members := e.2.members.map (fun m => if m.saving = id then { m with saving := 0 } else m) }))
      freed := true }) { s with replies := tabDel s.replies id }
  else s

/-- The device's own reply is in: a pull, a split or a save goes on (R128, R129, R267). -/
def setterReply (id : Nat) (r : Reply) (s : State) : State :=
  match tabFind s.dev.pulls id, s.dev.jobs.find? (fun j => j.id == id) with
  | some p, _ => pullStep id p r s
  | none, some ⟨.split v n g, key, _⟩ => splitStep v n g key (!r.errs.isEmpty) s
  | none, _ => saveWritten id s

def execPullTimeout (id : Nat) (s : State) : Host.Outcome State Fault Refusal :=
  match tabFind s.dev.pulls id with
  | none => .next s
  | some p => if s.cyc ≥ p.start + usec p.wd then .next (pullFails id p s) else .next s

/-! ### Cancels (R96, R139) -/

/-- Cancels a node by its state (R139). -/
def cancelNode (status id : Nat) (s : State) : State :=
  match tabFind s.dev.nodes id with
  | none => s
  | some x =>
    if x.closing.isSome then s
    else match x.st with
    | .running =>
      let t := onNode id (fun x => { x with cancel := some (x.cancel.getD status) }) s
      if x.kind = 1 then (nodeTids s id).foldl (fun t tid => post tid (.cancel status) t) (loupeNode 3 id t) else t
    | _ => endAlone id [nodeRec 3 status x] s

/-- Cancels every node named, then what depends on those that end at once (R136, R139). -/
def cancelNodes (status : Nat) (ids : List Nat) (s : State) : State :=
  let t := ids.foldl (fun t id => cancelNode status id t) s
  cancelAfter (t.dev.nodes.length + 1) (ids.filter (fun id => (tabFind t.dev.nodes id).isNone)) t

/-- The nodes of a VF that a cancel request names (R96). -/
def cancelled (d : Dev) (v h i : Nat) : List Nat :=
  (d.nodes.filter (fun e => e.2.vf == v && e.2.handle == h && (e.2.idx == i || i == 0xFFFFFFFF))).map Prod.fst

/-- GCAN (R96); a request that names a submission still to be read acts once its nodes have entered. -/
def execGcan (v : Nat) (w : BitVec 64) (s : State) : Host.Outcome State Fault Refusal :=
  let h := fieldN w 32 32
  let i := fieldN w 0 32
  if (getVf s.dev v).state = 4 ∨ (getVf s.dev v).state = 5 then .next s
  else
    let t := wakeHome v (onVf v (fun q => { q with gcan := w }) s)
    if (getVf s.dev v).subs.any (fun b => b.handle == h) then .next (onVf v (fun q => { q with
        subs := q.subs.map (fun b => if b.handle = h then { b with cancels := b.cancels ++ [i] } else b) }) t)
    else if !(s.dev.graphs.any (fun g => g.vf == v && g.handle == h)) then .next (onVf v (fun q => { q with gerr := q.gerr ||| 4#4 }) t)
    else .next (cancelNodes 1 (cancelled s.dev v h i) t)

/-! ### Keys and the tamper alarm (R108 to R110) -/

/-- What an erasure gives one VF (R110): its running and suspended task nodes end cancelled with STATUS 4, a type 15 record, and, from
ACTIVE or DEGRADED, KEYLOST. -/
def keyLost (v : Nat) (s : State) : State :=
  let ids := (s.dev.nodes.filter (fun e => e.2.vf == v && e.2.kind == 1 && e.2.closing.isNone && (e.2.st == .running || e.2.st == .suspended || (e.2.st == .placed && e.2.resume)))).map Prod.fst
  let t := ids.foldl (fun t id => match tabFind t.dev.nodes id with
    | some x => endNode id [nodeRec 3 4 x] t
    | none => t) s
  onVf v (fun q => { q with state := if q.state = 4 then 4 else 3 }) (report v (record0 15) t)

/-- Protected VFs of the given slots that may have tasks: ACTIVE, DEGRADED and RESETTING. -/
def slotVfs (d : Dev) (p : Nat → Bool) : List Nat :=
  (d.vfs.filter (fun e => e.2.prot && (e.2.state == 1 || e.2.state == 2 || e.2.state == 4) && p e.2.slot)).map Prod.fst

/-- An alarm's erasure overtakes a KZERO in flight (R404). -/
def overtake (c : CustOp) : CustOp := { c with overtaken := c.overtaken || c.op == 25 }
def overtakeOut (o : Out) : Out :=
  match o with
  | .cust c => .cust (overtake c)
  | o => o

/-- Erasure of every key slot (R110): a KEYLOAD under way completes with CODE 7. -/
def eraseKeys (s : State) : State :=
  let t := onDev (fun d => { d with
    trust := { d.trust with slots := [], keyErased := true }
    custs := d.custs.map overtake }) { s with tasks := s.tasks.map (fun e => (e.1, { e.2 with kept := e.2.kept.map overtakeOut, out := e.2.out.map overtakeOut })) }
  let t := if t.dev.cfg.busy && fieldN t.dev.cfg.cmd 0 8 == 0x0C then
      onDev (fun d => { d with cfg := { d.cfg with busy := false, code := 7 } }) t else t
  (slotVfs s.dev (fun _ => true)).foldl (fun t v => keyLost v t) t

/-- Erasure of the identity (R110). -/
def eraseIdentity (s : State) : State :=
  onDev (fun d => { d with trust := { d.trust with identity := false, transport := none, idErased := true } }) s

/-- Every task ends at once, without records, and the device's own work with them. -/
def endAll (s : State) : State :=
  { s with tasks := [], reqs := [], replies := [], agenda := [], dev := { s.dev with jobs := [], looked := [], credits := [], mail := [] } }

/-- A tamper alarm of cause bit `c` (0 V, 1 T, 2 M, 3 S, 4 C) (R109). -/
def alarm (c : Nat) (s : State) : State :=
  let t := s.dev.trust
  let s1 := onDev (fun d => { d with trust := { t with causes := t.causes ||| (1#5 <<< c), count := min 65535 (t.count + 1) } }) s
  let s2 := loupe (srcPkg 9) 0x0601 (natLe 1 (2 ^ c) ++ natLe 1 t.level) s1
  let phys := decide (c ≤ 2)
  let s3 := if (phys && decide (t.level ≥ 1)) || decide (t.level ≥ 2) then eraseKeys s2 else s2
  let s4 := if (phys && decide (t.level ≥ 2)) || decide (t.level ≥ 3) then eraseIdentity s3 else s3
  if t.level ≥ 3 then endAll (onDev (fun d => { d with trust := { d.trust with hold := true } }) s4) else s4

/-- Acts on the alarms that code raised in this cycle. -/
def takeAlarms (s : State) : State :=
  s.dev.alarms.foldl (fun t c => alarm c t) (onDev (fun d => { d with alarms := [] }) s)

def execSupplyExcursion (s : State) : Host.Outcome State Fault Refusal := .next (alarm 0 s)
def execMeshBreak (s : State) : Host.Outcome State Fault Refusal := .next (alarm 2 s)

/-- A write of TAMPCTL (R108). -/
def execTampctlWrite (w : BitVec 64) (s : State) : Host.Outcome State Fault Refusal :=
  .next (onDev (fun d => { d with trust := { d.trust with level := max d.trust.level (fieldN w 0 2) } }) s)

end Sys2Proof.Machine
end

