-- ==== Sys2Proof/Machine/Scalar.lean ====
section
/-!
DEFINITION. Class 000 without memory: integer arithmetic and logic, predicates, buffer-address arithmetic, LRS loads and
stores (R300 to R306, R310).
-/

namespace Sys2Proof.Machine

/-- A register-register operation of latency `l` (R300). -/
def alu (f : Word → Word → Word) (l : Nat) (g : Guard) (d a b : BitVec 6) (s : State) : Host.Outcome State Fault Refusal :=
  finishOp s (guarded (predOn g s) s (.ok (landS s l d (f (readS s a) (readS s b)))))

/-- A register-immediate operation (R301). -/
def aluI (f : Word → Word → Word) (g : Guard) (d a : BitVec 6) (i : Word) (s : State) : Host.Outcome State Fault Refusal :=
  finishOp s (guarded (predOn g s) s (.ok (landS s 1 d (f (readS s a) i))))

/-- A compare into a predicate (R303). -/
def cmp (f : Word → Word → Bool) (g : Guard) (q : BitVec 3) (a : BitVec 6) (b : Word) (s : State) :
    Host.Outcome State Fault Refusal :=
  finishOp s (guarded (predOn g s) s (.ok (landQ s q (f (readS s a) b))))

/-- A division (R302): a zero divisor traps with SUB `sub`. -/
def divide (f : Word → Word → Word) (sub : Nat) (g : Guard) (d a b : BitVec 6) (s : State) :
    Host.Outcome State Fault Refusal :=
  finishOp s (guarded (predOn g s) s
    (if readS s b = 0#64 then
      .error (trapOf s 0x08 sub (readS s a) (w64 (d.toNat + 64 * a.toNat + 4096 * b.toNat)) 0#64)
    else .ok (landS s 20 d (f (readS s a) (readS s b)))))

/-- Number of leading zero bits (R300). -/
def clz64 (a : Word) : Word := if a = 0#64 then 64#64 else w64 (63 - Nat.log2 a.toNat)

/-- Number of one bits (R300). -/
def popc64 (a : Word) : Word := w64 ((List.range 64).countP (fun i => a.getLsbD i))

/-- Shift count b[5:0] (R300). -/
def cnt6 (b : Word) : Nat := fieldN b 0 6

/-- NOP occupies a slot (R281) and charges nothing (R430). -/
def execNop (_stop : Bool) (s : State) : Host.Outcome State Fault Refusal := finish s (.ok s)

/-- ILLEGAL (R266, R284): SUB 0x06, whatever its predicate. -/
def execIllegal (_stop : Bool) (_p : BitVec 3) (_n : Bool) (_o : BitVec 18) (s : State) : Host.Outcome State Fault Refusal :=
  finishOp s (.error (illegal s 0x06))

def execAdd (g : Guard) (d a b : BitVec 6) (s : State) := alu (· + ·) 1 g d a b s
def execSub (g : Guard) (d a b : BitVec 6) (s : State) := alu (· - ·) 1 g d a b s
def execAnd (g : Guard) (d a b : BitVec 6) (s : State) := alu (· &&& ·) 1 g d a b s
def execOr (g : Guard) (d a b : BitVec 6) (s : State) := alu (· ||| ·) 1 g d a b s
def execXor (g : Guard) (d a b : BitVec 6) (s : State) := alu (· ^^^ ·) 1 g d a b s
def execShl (g : Guard) (d a b : BitVec 6) (s : State) := alu (fun x y => x <<< cnt6 y) 1 g d a b s
def execShr (g : Guard) (d a b : BitVec 6) (s : State) := alu (fun x y => x >>> cnt6 y) 1 g d a b s
def execShra (g : Guard) (d a b : BitVec 6) (s : State) := alu (fun x y => x.sshiftRight (cnt6 y)) 1 g d a b s
def execRotr (g : Guard) (d a b : BitVec 6) (s : State) := alu (fun x y => x.rotateRight (cnt6 y)) 1 g d a b s
def execMin (g : Guard) (d a b : BitVec 6) (s : State) := alu (fun x y => if x.slt y then x else y) 1 g d a b s
def execMax (g : Guard) (d a b : BitVec 6) (s : State) := alu (fun x y => if x.slt y then y else x) 1 g d a b s
def execMinn (g : Guard) (d a b : BitVec 6) (s : State) := alu (fun x y => if x.ult y then x else y) 1 g d a b s
def execMaxn (g : Guard) (d a b : BitVec 6) (s : State) := alu (fun x y => if x.ult y then y else x) 1 g d a b s
def execMul (g : Guard) (d a b : BitVec 6) (s : State) := alu (· * ·) 3 g d a b s
def execMulh (g : Guard) (d a b : BitVec 6) (s : State) :=
  alu (fun x y => BitVec.ofInt 64 (x.toInt * y.toInt / 2 ^ 64)) 3 g d a b s
def execMulhn (g : Guard) (d a b : BitVec 6) (s : State) := alu (fun x y => w64 (x.toNat * y.toNat / 2 ^ 64)) 3 g d a b s
def execDiv (g : Guard) (d a b : BitVec 6) (s : State) := divide BitVec.sdiv 0x01 g d a b s
def execDivn (g : Guard) (d a b : BitVec 6) (s : State) := divide BitVec.udiv 0x01 g d a b s
def execRem (g : Guard) (d a b : BitVec 6) (s : State) := divide BitVec.srem 0x02 g d a b s
def execRemn (g : Guard) (d a b : BitVec 6) (s : State) := divide BitVec.umod 0x02 g d a b s
def execClz (g : Guard) (d a : BitVec 6) (s : State) := alu (fun x _ => clz64 x) 1 g d a 0#6 s
def execPopc (g : Guard) (d a : BitVec 6) (s : State) := alu (fun x _ => popc64 x) 1 g d a 0#6 s

def execAddi (g : Guard) (d a : BitVec 6) (i : Imm14) (s : State) := aluI (· + ·) g d a (immS14 i) s
def execAndi (g : Guard) (d a : BitVec 6) (i : Imm14) (s : State) := aluI (· &&& ·) g d a (immS14 i) s
def execOri (g : Guard) (d a : BitVec 6) (i : Imm14) (s : State) := aluI (· ||| ·) g d a (immS14 i) s
def execXori (g : Guard) (d a : BitVec 6) (i : Imm14) (s : State) := aluI (· ^^^ ·) g d a (immS14 i) s
def execShli (g : Guard) (d a i : BitVec 6) (s : State) := aluI (fun x y => x <<< cnt6 y) g d a (i.setWidth 64) s
def execShri (g : Guard) (d a i : BitVec 6) (s : State) := aluI (fun x y => x >>> cnt6 y) g d a (i.setWidth 64) s
def execShrai (g : Guard) (d a i : BitVec 6) (s : State) := aluI (fun x y => x.sshiftRight (cnt6 y)) g d a (i.setWidth 64) s
/-- LIH (R301): d × 2^w + the zero-extended immediate. -/
def execLih (g : Guard) (d : BitVec 6) (i : Imm20) (s : State) :=
  aluI (fun x y => (x <<< immW20 i) + y) g d d (i.v.setWidth 64) s

def execCeq (g : Guard) (q : BitVec 3) (a b : BitVec 6) (s : State) := cmp (fun x y => x == y) g q a (readS s b) s
def execCne (g : Guard) (q : BitVec 3) (a b : BitVec 6) (s : State) := cmp (fun x y => x != y) g q a (readS s b) s
def execClt (g : Guard) (q : BitVec 3) (a b : BitVec 6) (s : State) := cmp BitVec.slt g q a (readS s b) s
def execCle (g : Guard) (q : BitVec 3) (a b : BitVec 6) (s : State) := cmp BitVec.sle g q a (readS s b) s
def execCltn (g : Guard) (q : BitVec 3) (a b : BitVec 6) (s : State) := cmp BitVec.ult g q a (readS s b) s
def execClen (g : Guard) (q : BitVec 3) (a b : BitVec 6) (s : State) := cmp BitVec.ule g q a (readS s b) s
def execCeqi (g : Guard) (q : BitVec 3) (a : BitVec 6) (i : Imm14) (s : State) := cmp (fun x y => x == y) g q a (immS14 i) s
def execClti (g : Guard) (q : BitVec 3) (a : BitVec 6) (i : Imm14) (s : State) := cmp BitVec.slt g q a (immS14 i) s
def execQmov (g : Guard) (q : BitVec 3) (a : BitVec 6) (s : State) := cmp (fun x _ => x != 0#64) g q a 0#64 s

/-- MOVQ (R304): bit n holds qn and bit 0 is 1. -/
def execMovq (g : Guard) (d : BitVec 6) (s : State) : Host.Outcome State Fault Refusal :=
  finishOp s (guarded (predOn g s) s (.ok (landS s 1 d ((s.sq.q ||| 1#8).setWidth 64))))

/-- The logic operations of QLOG and VMSK (R304, R338). -/
def logOp (o : BitVec 3) (x y : Bool) : Bool :=
  match o.toNat with
  | 0 => x && y
  | 1 => x || y
  | 2 => x ^^ y
  | 3 => x && !y
  | 4 => x || !y
  | 5 => !(x && y)
  | 6 => !(x || y)
  | _ => !(x ^^ y)

def execQlog (g : Guard) (q qa qb o : BitVec 3) (s : State) : Host.Outcome State Fault Refusal :=
  finishOp s (guarded (predOn g s) s (.ok (landQ s q (logOp o (readQ s qa) (readQ s qb)))))

/-- SEL (R305): P and N select the operand; only FI and LI turn it off. -/
def execSel (g : Guard) (d a b : BitVec 6) (s : State) : Host.Outcome State Fault Refusal :=
  finishOp s (guarded (!s.ix.off) s (.ok (landS s 1 d (if readQ s g.p ^^ g.n then readS s a else readS s b))))

/-- BADR (R306): INDEX from a[15:0], OFF from b[47:0]. -/
def execBadr (g : Guard) (d a b : BitVec 6) (s : State) :=
  alu (fun x y => (x.extractLsb' 0 16 ++ y.extractLsb' 0 48 : BitVec 64)) 1 g d a b s
def execBoff (g : Guard) (d a : BitVec 6) (i : Imm14) (s : State) := aluI addOff g d a (immS14 i) s

/-- The checks of an LRS access of a group (R184, R216). -/
def lrsCheck (s : State) (x col : Nat) : Except Trap Unit :=
  if !ownsRow s.sq x then .error (timing s 0x02 6 (x % 6) (seqCol s + col) never (w64 x))
  else if s.sq.rdHold.1 ≤ s.ix.c ∧ s.ix.c < s.sq.rdHold.2 then
    .error (timing s 0x02 6 (x % 6) (seqCol s + col) (w64 s.sq.rdHold.2) (w64 x))
  else .ok ()

/-- LDL (R310): one row read; 8 bytes of the LRS into a scalar register, latency 3. -/
def execLdl (g : Guard) (d a : BitVec 6) (i : Imm14) (s : State) : Host.Outcome State Fault Refusal :=
  let x := ldlAddr s.tk.g (readS s a) i
  finishOp s (guarded (predOn g s) s (do
    lrsCheck s (x / (128 * s.tk.g)) (x % (128 * s.tk.g) / 128)
    .ok (charge 1 1 (landS s 3 d (w64 (leNat (tabBytes s.sq.lrs x 8)))))))

/-- STL (R310): 8 bytes land in the LRS at the end of the group's last cycle. -/
def execStl (g : Guard) (d a : BitVec 6) (i : Imm14) (s : State) : Host.Outcome State Fault Refusal :=
  let x := ldlAddr s.tk.g (readS s a) i
  let r := x / (128 * s.tk.g)
  let col := x % (128 * s.tk.g) / 128
  finishOp s (guarded (predOn g s) s
    (if !ownsRow s.sq r then .error (timing s 0x02 6 (r % 6) (seqCol s + col) never (w64 r))
    else .ok (landIn s 1 (.row r (1#4 <<< col) ((List.range 8).zip (natLe 8 (readS s d).toNat) |>.map (fun e => (x + e.1, e.2))) 0#5))))

end Sys2Proof.Machine
end

