-- ==== Sys2Proof/Machine/System.lean ====
section
/-!
DEFINITION. Class 110 without the custodian: control registers, PREC, shapes, views, status, energy and clocks, channels,
phases, barriers, fences and banks (R222, R363 to R368, R370, R381 to R395).
-/

namespace Sys2Proof.Machine

/-! ### GETC and SETC -/

/-- MODE (R194) of the issuing group. -/
def modeWord (s : State) : Word :=
  w64 (natCode s.tk.g + 4 * s.tk.cls + 16 * seqCol s + 64 * (s.tk.g - 1))

/-- LBANK (R182): the owned banks of every column of the group. -/
def lbankWord (s : State) : Word :=
  w64 ((List.range s.tk.g).foldl (fun a j => a + s.sq.own.toNat * 2 ^ (6 * j)) 0)

/-- SIBST (R164). -/
def sibstWord (s : State) : Word :=
  w64 ((List.range 4).foldl (fun a k =>
    match seqOf s k with
    | some q => a + (if q.st = .absent then 0 else 2 ^ (4 + k)) + bitN (busyAt s.ix.c q) k
    | none => a) 0)

/-- The custodian registers (R399): CPART, PKEY0 to PKEY3, POLQ0 to POLQ31. -/
def custodianReg (s : State) (x : Nat) : Word :=
  let p := (getVf s.dev s.tk.vf).part
  if x = 0x40 then w64 p
  else if 0x44 ≤ x ∧ x ≤ 0x47 then
    w64 ((List.range 64).foldl (fun a j =>
      a + bitN (((tabFind s.dev.trust.slots (64 * (x - 0x44) + j)).map (·.part)) == some p) j) 0)
  else if 0x60 ≤ x ∧ x ≤ 0x7F then
    let k := getStack s.dev (x - 0x60)
    w64 (bitN k.clearing.isSome 63 + 2 ^ 32 * min 65535 k.queue.length + 2 ^ 16 * k.clearing.getD 0 + k.recorded)
  else 0#64

/-- The value of control register `x` (R222, R393). -/
def getcValue (s : State) (x : Nat) : Word :=
  if x = 0x00 then w64 s.ix.c
  else if x = 0x01 then w64 s.dev.gtci
  else if x = 0x02 then modeWord s
  else if x = 0x03 then s.tk.place
  else if x = 0x04 then s.sq.prec
  else if x = 0x05 then s.sq.vwin
  else if x = 0x06 then s.sq.fflags
  else if x = 0x07 then w64 s.tk.safeb
  else if x = 0x08 then s.sq.trapv
  else if x = 0x09 then s.sq.tcause
  else if 0x0A ≤ x ∧ x ≤ 0x0D then tabGet 0#64 s.sq.tinfo (x - 0x0A)
  else if x = 0x0E then s.sq.engc.setWidth 64
  else if x = 0x0F then w64 s.tk.vf
  else if 0x10 ≤ x ∧ x ≤ 0x17 then tabGet 0#64 s.sq.td (x - 0x10)
  else if 0x18 ≤ x ∧ x ≤ 0x1B then tabGet 0#64 s.sq.av (x - 0x18)
  else if 0x1C ≤ x ∧ x ≤ 0x1F then tabGet 0#64 s.sq.sh (x - 0x1C)
  else if x = 0x30 then lbankWord s
  else if x = 0x31 then s.sq.mvalid
  else if x = 0x32 then sibstWord s
  else if 0x40 ≤ x then custodianReg s x
  else 0#64

/-- The RW indices of R222. -/
def writable (x : Nat) : Bool :=
  x == 0x04 || x == 0x05 || x == 0x06 || x == 0x08 || (0x10 ≤ x && x ≤ 0x1F) || x == 0x31

/-- An index of 0x40 or above needs the custodian bit (R222). -/
def indexCheck (s : State) (x : Nat) : Except Trap Unit :=
  if x ≥ 0x40 ∧ !s.tk.cust then .error (illegal s 0x0D) else .ok ()

def execGetc (g : Guard) (d : BitVec 6) (x : BitVec 8) (s : State) : Host.Outcome State Fault Refusal :=
  finishOp s (do
    indexCheck s x.toNat
    guarded (predOn g s) s (.ok (landS s 1 d (getcValue s x.toNat))))

/-- A control-register write with the four-cycle shadow (R222). -/
def shadowed (x : Nat) (v : Word) (s : State) : State := landIn s 4 (.ctrl x v)

/-- The value and the shadow of a SETC (R394); a refused grant, that of a SETC of zero among them, keeps NAT (R208, log 45); FFLAGS takes its value at the end of the cycle of issue (R241). -/
def setc (x : Nat) (a : Word) (s : State) : Eff :=
  if x = 0x04 then .ok (shadowed x (a &&& precMask) s)
  else if x = 0x05 then do .ok (shadowed x (← vwinWrite s x a) s)
  else if x = 0x06 then .ok (landAt s s.ix.c (.ctrl x (a &&& 0x1F#64)))
  else if x = 0x08 then .ok (landIn s 1 (.ctrl x (a &&& 0x80000000FFFFFFFF#64)))
  else if x ≤ 0x17 then do .ok (shadowed x (← tileWrite s x a) s)
  else if x ≤ 0x1B then do .ok (shadowed x (← accViewWrite s x a) s)
  else if x ≤ 0x1F then .ok (shadowed x (shWord s.tk.g (shVec a) (shQM a) (if shVec a then 0 else shQN a)) s)
  else .ok (landIn s 1 (.ctrl x (a &&& 0x1FFFF#64)))

def execSetc (g : Guard) (d : BitVec 6) (x : BitVec 8) (s : State) : Host.Outcome State Fault Refusal :=
  finishOp s (do
    indexCheck s x.toNat
    if !writable x.toNat then throw (illegal s 0x0E)
    guarded (predOn g s) s (setc x.toNat (readS s d) s))

/-! ### PREC and PRECI (R363, R364) -/

/-- PREC after every write issued so far. -/
def precNewest (s : State) : Word := newestCtrl 0x04 s.sq.prec s.sq.land

def execPrec (g : Guard) (d a b : BitVec 6) (s : State) : Host.Outcome State Fault Refusal :=
  let old := precNewest s
  finishOp s (guarded (predOn g s) s
    (.ok (landS (shadowed 0x04 (((old &&& ~~~readS s b) ||| (readS s a &&& readS s b)) &&& precMask) s) 1 d old)))

/-- The fields PRECI writes, and their new values (R364). -/
def preciMask : PreciSel → Word
  | .mat => 0xFFF#64
  | .acc => 0x1000#64
  | .vec => 0x3F0000#64
  | .all => 0x3F1FFF#64

def preciBits (sel : PreciSel) (i : BitVec 20) : Word :=
  match sel with
  | .mat => (i.extractLsb' 0 12).setWidth 64
  | .acc => (i.extractLsb' 0 1).setWidth 64 <<< 12
  | .vec => (i.extractLsb' 0 6).setWidth 64 <<< 16
  | .all => (i.extractLsb' 0 13).setWidth 64 ||| ((i.extractLsb' 13 6).setWidth 64 <<< 16)

def execPreci (g : Guard) (sel : PreciSel) (i : BitVec 20) (s : State) : Host.Outcome State Fault Refusal :=
  finishOp s (guarded (predOn g s) s
    (.ok (shadowed 0x04 ((precNewest s &&& ~~~preciMask sel) ||| preciBits sel i) s)))

/-! ### Shapes and views (R365 to R368) -/

def execShape (g : Guard) (n : BitVec 2) (vec : Bool) (a b : BitVec 6) (s : State) : Host.Outcome State Fault Refusal :=
  finishOp s (guarded (predOn g s) s
    (.ok (shadowed (0x1C + n.toNat) (shWord s.tk.g vec (sat11 (readS s a)) (if vec then 0 else sat11 (readS s b))) s)))

/-- SHAPQ (R366): the B field alone selects the kind of query. -/
def execShapq (g : Guard) (d a b : BitVec 6) (s : State) : Host.Outcome State Fault Refusal :=
  finishOp s (guarded (predOn g s) s
    (.ok (landS s 1 d (shWord s.tk.g (b == 0#6) (sat11 (readS s a)) (if b = 0#6 then 0 else sat11 (readS s b))))))

/-- The value VIEW writes (R367): `a` with its first row moved by `b`. -/
def viewValue (a b : Word) : Word :=
  (a &&& ~~~0xFFF#64) ||| w64 ((fieldN a 0 12 + b.toNat) % 4096)

def execView (g : Guard) (v : BitVec 5) (a b : BitVec 6) (s : State) : Host.Outcome State Fault Refusal :=
  let n := v.toNat
  let w := viewValue (readS s a) (readS s b)
  finishOp s (guarded (predOn g s) s (
    if n ≤ 7 then do .ok (shadowed (0x10 + n) (← tileWrite s n w) s)
    else if n ≤ 11 then do .ok (shadowed (0x18 + (n - 8)) (← accViewWrite s n w) s)
    else do .ok (shadowed 0x05 (← vwinWrite s n w) s)))

/-- KC of a tile view (R350). -/
def viewKC (d : Word) : Nat := vNcol d * vW d / 3072

def viewqWord (g : Nat) (d : Word) : Word :=
  if vNrow d = 0 then 0#64
  else w64 (vSpan g d + 2 ^ 16 * viewKC d + 2 ^ 32 * (vBase d + (vNrow d - 1) * vPitch d + vSpan g d) + 2 ^ 63)

/-- The descriptor in force of view number 0 to 11 (R349). -/
def viewReg (s : State) (n : Nat) : Word := if n ≤ 7 then tabGet 0#64 s.sq.td n else tabGet 0#64 s.sq.av (n - 8)

def execViewq (g : Guard) (d : BitVec 6) (v : BitVec 4) (s : State) : Host.Outcome State Fault Refusal :=
  finishOp s (guarded (predOn g s) s (.ok (landS s 1 d (viewqWord s.tk.g (viewReg s v.toNat)))))

/-! ### Status, energy and clocks (R389 to R391) -/

/-- The NAN bits of the matrix unit of column `c` of the group (R219). -/
def colNan (q : Seq) (c : Nat) : BitVec 4 := q.nan.extractLsb' (4 * c) 4

/-- Matrix status (R219, R220): in a joined group, its columns' bits combined. -/
def matrixStatus (s : State) : Word :=
  let c := s.ix.c
  w64 (bitN (decide (s.sq.win.1 ≤ c) && decide (c < s.sq.win.2)) 0
    + bitN (s.sq.drn.any (fun d => decide (d.1 ≤ c) && decide (c ≤ d.2))) 1
    + bitN (s.sq.ov != 0#4) 3 + 16 * (colNan s.sq 0 ||| colNan s.sq 1 ||| colNan s.sq 2 ||| colNan s.sq 3).toNat)

/-- Copy-unit status (R219, R220, R373). -/
def unitStatus (s : State) (u : Nat) : Word :=
  let c := s.ix.c
  let r := tabGet ⟨0, false⟩ s.sq.units u
  w64 (bitN (s.sq.copies.any (fun k => k.unit == u && decide (k.start < c) && decide (c ≤ copyEnd k))) 0
    + bitN r.done 1 + 2 ^ 20 * r.cd)

def execStat (g : Guard) (d : BitVec 6) (j : BitVec 2) (e : BitVec 4) (s : State) : Host.Outcome State Fault Refusal :=
  finishOp s (do
    if decide (j.toNat ≥ s.tk.g) || (e == 0#4 && j != 0#2) then throw (illegal s 0x01)
    guarded (predOn g s) s (.ok (landS s 1 d (
      if e = 0#4 then matrixStatus s
      else if e = 1#4 then unitStatus s (2 * j.toNat)
      else if e = 2#4 then unitStatus s (2 * j.toNat + 1)
      else 0#64))))

/-- Energy flushed for the contexts of the task's node (R390). -/
def nodeEnergy (s : State) : Nat := ((tabFind s.dev.nodes s.tk.node).map (fun x => x.energy)).getD 0

def execEngy (g : Guard) (d : BitVec 6) (s : State) : Host.Outcome State Fault Refusal :=
  finishOp s (guarded (predOn g s) s (.ok (landS s 1 d (w64 (nodeEnergy s + s.tk.meter / 256 / 10 ^ 6)))))

def execGtc (g : Guard) (d : BitVec 6) (s : State) : Host.Outcome State Fault Refusal :=
  finishOp s (guarded (predOn g s) s (.ok (landS s 1 d (w64 s.dev.gtci))))

def execLcr (g : Guard) (d a : BitVec 6) (s : State) : Host.Outcome State Fault Refusal :=
  finishOp s (guarded (predOn g s) s (.ok (landS s 1 d (w64 s.ix.c + readS s a))))

/-! ### Services (R395) -/

def execSvcYield (g : Guard) (s : State) : Host.Outcome State Fault Refusal :=
  finishOp s (guarded (predOn g s) s (.ok (emit .yield s)))

def execSvcFlush (g : Guard) (s : State) : Host.Outcome State Fault Refusal :=
  finishOp s (guarded (predOn g s) s (.ok (emit (.flush s.k) s)))

/-! ### Copy descriptors (R370) -/

/-- The bits of a descriptor that are not reserved (R369). -/
def descMask : Word := 0x8FF80FFFFFFFFFFF#64

def execCdsc (g : Guard) (c : BitVec 4) (a b : BitVec 6) (s : State) : Host.Outcome State Fault Refusal :=
  finishOp s (guarded (predOn g s) s (.ok (landIn s 1 (.desc c.toNat ((readS s b &&& descMask) ++ readS s a)))))

/-! ### Channels (R55 to R58, R63, R381 to R383) -/

def chanOff : Chan := ⟨3#2, false, 0#32, 0#5, 0#8, 0#24, 0#5, 0#32, [], none⟩

def getChan (s : State) (c : BitVec 5) : Chan := tabGet chanOff s.tk.chans c.toNat
def setChan (c : BitVec 5) (v : Chan) (s : State) : State :=
  { s with tk := { s.tk with chans := tabSet chanOff s.tk.chans c.toNat v } }

/-- An invalid channel entry, or one of the other direction, is an illegal encoding (R383). -/
def chanCheck (s : State) (c : BitVec 5) (recv : Bool) : Except Trap Unit :=
  if (getChan s c).path = 3#2 ∨ (getChan s c).recv ≠ recv then .error (illegal s 0x0A) else .ok ()

/-- Sends a message (R55, R63): STAMP is the group's LC, one credit is spent and SEQ advances. -/
def sendMsg (c : BitVec 5) (scalar : Bool) (payload : List Byte) (s : State) : State :=
  let ch := getChan s c
  emit (.msg c.toNat ⟨ch.dest.toNat, ch.pch.toNat, ch.port.toNat, (if scalar then 1 else 0), false, s.ix.c % 2 ^ 48, ch.seq.toNat, payload, destLocal s.tk.node s.tk.member⟩ ch.path)
    (setChan c { ch with cred := ch.cred - 1, seq := ch.seq + 1 } s)

def execSend (g : Guard) (c : BitVec 5) (va : BitVec 8) (j : BitVec 2) (s : State) : Host.Outcome State Fault Refusal :=
  let x := winRow s va.toNat
  finishOp s (do
    if j.toNat ≥ s.tk.g then throw (illegal s 0x01)
    chanCheck s c false
    guarded (predOn g s) s (do
      lrsCheck s x j.toNat
      .ok (charge 1 1 (sendMsg c false (tabBytes s.sq.lrs (rowByte s.tk.g x (128 * j.toNat)) 128) s))))

def execSends (g : Guard) (c : BitVec 5) (a : BitVec 6) (s : State) : Host.Outcome State Fault Refusal :=
  finishOp s (do
    chanCheck s c false
    guarded (predOn g s) s (.ok (sendMsg c true (natLe 8 (readS s a).toNat) s)))

/-- A timestamp mismatch (R57, R257). -/
def mismatch (s : State) (c : BitVec 5) (sub : Nat) (want found : Word) (seqFound : Nat) : Trap :=
  { trapOf s 0x03 sub (w64 c.toNat) want found with ti3 := (getChan s c).seq ++ BitVec.ofNat 32 seqFound }

/-- Takes the message that a receive expects (R57): its payload and the state with the slot freed and one credit returned.
`none`: the slot is empty and the receive waits. -/
def takeMsg (c : BitVec 5) (scalar : Bool) (s : State) : Except Trap (Option (List Byte × State)) :=
  let ch := getChan s c
  let want := w64 ((s.ix.c + 2 ^ 48 - ch.lat.toNat) % 2 ^ 48)
  match ch.fault with
  | some f => .error (mismatch s c 0x02 want never f)
  | none => match tabFind ch.slots (ch.seq.toNat % 16) with
    | none => .ok none
    | some m =>
      if m.scalar ≠ scalar then .error (mismatch s c 0x02 want never m.seq)
      else if w64 m.stamp ≠ want then .error (mismatch s c 0x01 want (w64 m.stamp) m.seq)
      else .ok (some (m.payload, emit (.credit c.toNat m.src)
        (setChan c { ch with seq := ch.seq + 1, slots := tabDel ch.slots (ch.seq.toNat % 16) } s)))

/-- A receive whose slot is empty holds the task's clock (R57, R169): nothing of it happens yet. -/
def recvWaits (s : State) : State := { s with tk := { s.tk with cond := 3 }, ix := { s.ix with jump := some s.ix.pos, keep := true } }

def execRecv (g : Guard) (vd : BitVec 8) (c : BitVec 5) (j : BitVec 2) (s : State) : Host.Outcome State Fault Refusal :=
  let x := winRow s vd.toNat
  finishOp s (do
    if j.toNat ≥ s.tk.g then throw (illegal s 0x01)
    chanCheck s c true
    guarded (predOn g s) s (do
      if !ownsRow s.sq x then throw (timing s 0x02 6 (x % 6) (seqCol s + j.toNat) never (w64 x))
      match ← takeMsg c false s with
      | none => .ok (recvWaits s)
      | some r => .ok (landIn r.2 1 (.row x (1#4 <<< j.toNat)
          (r.1.zipIdx.map (fun e => (rowByte s.tk.g x (128 * j.toNat + e.2), e.1))) 0#5))))

def execRecvs (g : Guard) (d : BitVec 6) (c : BitVec 5) (s : State) : Host.Outcome State Fault Refusal :=
  finishOp s (do
    chanCheck s c true
    guarded (predOn g s) s (do
      match ← takeMsg c true s with
      | none => .ok (recvWaits s)
      | some r => .ok (landS r.2 1 d (w64 (leNat r.1)))))

/-! ### Phases, barriers and fences (R384 to R387) -/

def execPhase (g : Guard) (s : State) : Host.Outcome State Fault Refusal :=
  finishOp s (do
    if predOn g s then storeError s
    if s.k ≠ 0 then throw (illegal s 0x0B)
    guarded (predOn g s) s (do
      let t := onCaches (fun q => { q with rcache := [] }) (quiesce s)
      .ok (emit .mark { t with tk := { t.tk with phn := t.tk.phn + 1 } })))

def execBar (g : Guard) (s : State) : Host.Outcome State Fault Refusal :=
  finishOp s (guarded (predOn g s) s
    (.ok { s with tk := { s.tk with waits := { s.tk.waits with bars := s.tk.waits.bars + 1 } } }))

/-- FENCE (R386): a marker in the task's stream of requests. -/
def execFence (g : Guard) (s : State) : Host.Outcome State Fault Refusal :=
  finishOp s (guarded (predOn g s) s
    (.ok (emit (.req ⟨0, 0, .task s.tid s.k, s.tk.vf, .dsm 0 0 0, 0, .read, [], 0#64, true, false⟩) s)))

def execInvq (g : Guard) (s : State) : Host.Outcome State Fault Refusal :=
  finishOp s (guarded (predOn g s) s (.ok (quiesce s)))

/-! ### Bank ownership (R388) -/

def execBacq (g : Guard) (m : BitVec 6) (s : State) : Host.Outcome State Fault Refusal :=
  finishOp s (guarded (predOn g s) s (.ok (landAt s s.ix.c (.banks m 0#6))))

/-- Rows that copies without REL still have to read or land (R376): row, copy unit, and the LC after. -/
def rowsAwaited (s : State) : List (Nat × Nat × Nat) :=
  (s.sq.copies.filter (fun k => !k.rel)).flatMap (fun k =>
    ((srcRows k.kind k.desc).zipIdx.map (fun x => (x.1, k.unit, k.start + x.2 + 1))
      ++ (dstRows k.kind k.desc).zipIdx.map (fun x => (x.1, k.unit, k.start + k.lat + x.2 + 1))).filter
      (fun x => decide (s.ix.c < x.2.2)))

/-- The busy-resource fault of a BREL that names the bank of such a row: the bank, free once its last such row is read or landed
(log 46). -/
def brelBlocked (s : State) (m : BitVec 6) : Option Trap :=
  let rs := (rowsAwaited s).filter (fun x => m.getLsbD (x.1 % 6))
  rs.head?.map (fun x =>
    timing s 0x02 6 (x.1 % 6) (seqCol s + x.2.1 / 2)
      (w64 ((rs.filter (fun y => y.1 % 6 == x.1 % 6)).foldl (fun a y => max a y.2.2) 0)) (w64 x.1))

def execBrel (g : Guard) (m : BitVec 6) (s : State) : Host.Outcome State Fault Refusal :=
  finishOp s (guarded (predOn g s) s (match brelBlocked s m with
    | some x => .error x
    | none => .ok (landAt s s.ix.c (.banks 0#6 (m &&& s.sq.own)))))

end Sys2Proof.Machine
end

