-- ==== Sys2Proof/Machine/Context.lean ====
section
/-!
DEFINITION. The context of a task in its save slots: saves at a SAFE, phase marks, restores and restarts (R178, R179, R186,
R267 to R270, R437).
-/

namespace Sys2Proof.Machine

/-! ### Save slots (R144, R268) -/

def onMember (node m : Nat) (f : Member → Member) (s : State) : State :=
  onNode node (fun x => { x with members := x.members.modify m f }) s

/-- The physical places of save slots (R144). -/
def slotPlaces (q : Vf) (is : List Nat) : List (Nat × Nat) := is.map (fun i => (q.svStack, q.svFrame * 2 ^ 21 + i * 2 ^ 19))

/-- Requests of the device for bytes at an offset of a slot of VF `v`, which answer reply `id` at the bytes' own addresses (R14, R44, R45,
R47); a protected VF's slots are encrypted (R107). -/
def slotReqs (v : Nat) (sl : Nat × Nat) (off n : Nat) (op : MemOp) (bs : List Byte) (id : Nat) : List Req :=
  (piecesOf (sl.2 + off) n).map (fun x =>
    ownReq id x.2.1 v (.own v sl.1 x.2.1 ((sl.1 * 2 ^ 43 + x.2.1) / 64)) x.2.2 op ((bs.drop x.1).take x.2.2))

/-- Queues the writes of bytes at an offset of a slot; reply `id`, if there is one, awaits them. -/
def slotWrite (id v : Nat) (sl : Nat × Nat) (off : Nat) (bs : List Byte) (s : State) : State :=
  let rs := slotReqs v sl off bs.length .write bs id
  { s with
    reqs := s.reqs ++ rs
    replies := match tabFind s.replies id with
      | some r => tabPut s.replies id { r with left := r.left + rs.length }
      | none => s.replies }

/-- A part of a save slot: slot, offset and bytes. -/
abbrev Span := (Nat × Nat) × Nat × Nat

/-- Asks for parts of a VF's save slots: what has been read, by address, and whether all of it could be. -/
def askSlots (why : JobFor) (key : List Nat) (v : Nat) (xs : List Span) (s : State) : State × Tab Byte × Bool :=
  let r := askRead why key 1 (fun id => xs.flatMap (fun x => slotReqs v x.1 x.2.1 x.2.2 .read [] id)) s
  (r.1, (r.2.map (·.data)).getD [], (r.2.map (fun x => x.errs.isEmpty)).getD true)

/-- Bytes of a slot in what has been read. -/
def slotRead (im : Tab Byte) (sl : Nat × Nat) (off n : Nat) : List Byte := tabBytes im (sl.2 + off) n

/-- The slot of column `j` of sequencer `k`. -/
def slotOf (t : Task) (k j : Nat) : Nat × Nat := t.slots.getD (k * t.g + j) (0, 0)

/-- Offsets of R268. -/
def accOff : Nat := 0x48000
def scaleAOff : Nat := 0x4C000
def scaleBOff : Nat := 0x4CC00
def statOff : Nat := 0x4E000
def hdrOff : Nat := 0x50000
def entOff : Nat := 0x58000
def markOff : Nat := 0x60000
def payOff : Nat := 0x70000

/-- Writes a number of `n` bytes into an image being built, and reads one. -/
def imgPut (a n v : Nat) (t : Tab Byte) : Tab Byte := tabSetBytes t a (natLe n v)
def imgGet (t : Tab Byte) (a n : Nat) : Nat := leNat (tabBytes t a n)

/-! ### Positions, loops and sequencer blocks (R269) -/

/-- A position as its 8-byte value: the slot is that of the group's first operation. -/
def posWord (s : State) (tid k : Nat) (p : Pos) : Nat :=
  let u := focus tid k s
  let q := groupPos p (groupAt u p)
  q.bundle % 2 ^ 32 + 2 ^ 32 * (q.slot % 4)

def posOf (n : Nat) : Pos := ⟨n % 2 ^ 32, n / 2 ^ 32 % 4⟩

/-- Loop levels, part A at `a` and part B at `b`.  An active level records its running stride. -/
def putLoops (a b : Nat) (ls : Tab Loop) (t : Tab Byte) : Tab Byte :=
  (List.range 6).foldl (fun t n =>
    let l := tabGet loopOff ls n
    let st := if l.active then l.stride else l.next
    imgPut (b + 32 * n + 28) 4 l.eB (imgPut (b + 32 * n + 24) 4 l.sB (imgPut (b + 32 * n + 16) 8 l.start.toNat
      (imgPut (b + 32 * n + 8) 8 l.idx.toNat (imgPut (b + 32 * n) 8 l.iter
        (imgPut (a + 16 * n + 12) 1 (bitN l.active 0 + bitN l.lstr 1)
          (imgPut (a + 16 * n + 8) 4 (st.toNat % 2 ^ 32) (imgPut (a + 16 * n) 8 l.count t)))))))) t

def getLoops (a b : Nat) (t : Tab Byte) : Tab Loop :=
  (List.range 6).foldl (fun ls n =>
    let f := imgGet t (a + 16 * n + 12) 1
    let st : Word := (BitVec.ofNat 32 (imgGet t (a + 16 * n + 8) 4)).signExtend 64
    let lstr := f / 2 % 2 == 1
    let l : Loop :=
      { active := f % 2 == 1, lstr := lstr, count := imgGet t (a + 16 * n) 8, iter := imgGet t (b + 32 * n) 8,
        idx := w64 (imgGet t (b + 32 * n + 8) 8), stride := st, start := if lstr then w64 (imgGet t (b + 32 * n + 16) 8) else 0#64,
        next := if lstr then st else 1#64, sB := imgGet t (b + 32 * n + 24) 4, eB := imgGet t (b + 32 * n + 28) 4 }
    tabSet loopOff ls n l) []

def putPend (a : Nat) (p : Option Pend) (t : Tab Byte) : Tab Byte :=
  match p with
  | some p => imgPut (a + 8) 8 p.left (imgPut a 8 p.target t)
  | none => t

/-- A pending transfer; the image has no field for an LBRK's level (`Aside`). -/
def getPend (a : Nat) (t : Tab Byte) : Option Pend :=
  if imgGet t (a + 8) 8 = 0 then none else some ⟨imgGet t a 8, imgGet t (a + 8) 8, 6⟩

/-- Nothing beside an image. -/
def aside0 : Aside := ⟨[], 6, 6, .sequential, .sequential, false, [], [], []⟩

/-- What goes beside the image of a sequencer, with the landings `ls`. -/
def asideOf (ls : List Landing) (q : Seq) : Aside :=
  { lands := ls
    drop := (q.pend.map (·.drop)).getD 6
    hdrop := ((q.hret.bind (·.pend)).map (·.drop)).getD 6
    via := q.via
    hvia := (q.hret.map (·.via)).getD .sequential
    hand := q.hret.isSome
    bts := q.bt.map (fun b => (b.1, b.2.lc, min 3 (q.grp - b.2.grp)))
    next := q.loops.map (fun l => (l.1, l.2.next))
    hnext := (q.hret.map (fun r => r.loops.map (fun l => (l.1, l.2.next)))).getD [] }

/-- Loop levels with the STRIDEs for their next LOOPs. -/
def withNext (next : Tab Word) (ls : Tab Loop) : Tab Loop :=
  ls.map (fun l => (l.1, match tabFind next l.1 with
    | some v => { l.2 with next := v }
    | none => l.2))

/-- A sequencer of an image with what went beside it. -/
def withAside (a : Aside) (q : Seq) : Seq :=
  { q with
    land := a.lands
    via := a.via
    pend := q.pend.map (fun p => { p with drop := a.drop })
    hret := q.hret.map (fun r => { r with
      via := a.hvia, pend := r.pend.map (fun p => { p with drop := a.hdrop }), loops := withNext a.hnext r.loops })
    bt := q.bt.map (fun b => (b.1, match tabFind a.bts b.1 with
      | some x => { b.2 with lc := x.1, grp := q.grp - x.2 }
      | none => b.2))
    loops := withNext a.next q.loops }

/-- Control registers come into force before the flags of the same cycle are added. -/
def isCtrl (l : Landing) : Bool :=
  match l.dst with
  | .ctrl .. => true
  | _ => false

/-- The shadows under way that a phase mark takes along: control registers but for the grants, which a restart clears (R179, R230). -/
def markLands (q : Seq) : List Landing :=
  q.land.filter (fun l => match l.dst with
    | .ctrl i _ => decide (i < 0x1C) || i == 0x31
    | _ => false)

/-- Sequencers that stand in their handlers (R255). -/
def inHandler (t : Task) : List Nat := (t.seqs.filter (fun e => e.2.hret.isSome)).map Prod.fst

/-- The registers that a phase mark records per sequencer, with their control register indices. -/
def ownRegs (q : Seq) : List (Nat × Word) :=
  [(0x400, q.prec), (0x408, q.fflags), (0x410, q.vwin), (0x418, q.mvalid)]
    ++ (List.range 8).map (fun i => (0x420 + 8 * i, tabGet 0#64 q.td i))
    ++ (List.range 4).map (fun i => (0x460 + 8 * i, tabGet 0#64 q.av i))

/-- A sequencer block at `b`; `live` masks the scalar registers written. -/
def putBlk (s : State) (tid k b : Nat) (live : BitVec 64) (mark : Bool) (q : Seq) (t : Tab Byte) : Tab Byte :=
  let t := imgPut b 8 (posWord s tid k q.pos) t
  let t := imgPut (b + 8) 8 (q.q.toNat / 2 * 2 + 1) t
  let t := (List.range 64).foldl (fun t n =>
    if n ≠ 0 ∧ live.getLsbD n then imgPut (b + 0x40 + 8 * n) 8 (tabGet 0#64 q.s n).toNat t else t) t
  let t := (List.range 4).foldl (fun t n => match tabFind q.bt n with
    | some x => imgPut (b + 0x240 + 8 * n) 8 (2 ^ 63 + x.bundle % 2 ^ 32) t
    | none => t) t
  let t := putPend (b + 0x2C0) q.pend (putLoops (b + 0x260) (b + 0x500) q.loops t)
  let t := imgPut (b + 0x2D0) 8 q.trapv.toNat t
  let t := if mark then t
    else (List.range 4).foldl (fun t i => imgPut (b + 0x2E0 + 8 * i) 8 (tabGet 0#64 q.tinfo i).toNat t) (imgPut (b + 0x2D8) 8 q.tcause.toNat t)
  let t := match q.hret with
    | some r => putLoops (b + 0x600) (b + 0x680) r.loops (putPend (b + 0x308) r.pend (imgPut (b + 0x300) 8 (posWord s tid k r.ret) t))
    | none => t
  let t := (List.range 8).foldl (fun t n =>
    imgPut (b + 0x340 + 16 * n) 16 (if n = 0 then lowMask (32 * (((tabFind s.tasks tid).map (·.g)).getD 1)) else tabGet 0#128 q.m n).toNat t) t
  if mark then imgPut (b + 0x480) 8 q.nextLC ((ownRegs q).foldl (fun t r => imgPut (b + r.1) 8 r.2.toNat t) t) else t

/-- The sequencer a block describes, on top of `q`; `hand` says that it stands in its handler. -/
def getBlk (b : Nat) (mark hand : Bool) (t : Tab Byte) (q : Seq) : Seq :=
  let ret := imgGet t (b + 0x300) 8
  let q := { q with
    pos := posOf (imgGet t b 8), via := .sequential, grp := 3
    q := BitVec.ofNat 8 (imgGet t (b + 8) 1 / 2 * 2)
    s := (List.range 64).foldl (fun a n => if n = 0 then a else tabSet 0#64 a n (w64 (imgGet t (b + 0x40 + 8 * n) 8))) []
    bt := (List.range 4).foldl (fun a n =>
      let w := imgGet t (b + 0x240 + 8 * n) 8
      if w / 2 ^ 63 = 1 then tabPut a n ⟨w % 2 ^ 32, 0, 0⟩ else a) []
    loops := getLoops (b + 0x260) (b + 0x500) t
    pend := getPend (b + 0x2C0) t
    trapv := w64 (imgGet t (b + 0x2D0) 8), tcause := w64 (imgGet t (b + 0x2D8) 8)
    tinfo := (List.range 4).foldl (fun a i => tabSet 0#64 a i (w64 (imgGet t (b + 0x2E0 + 8 * i) 8))) []
    hret := if !hand then none
      else some ⟨posOf ret, .sequential, getPend (b + 0x308) t, getLoops (b + 0x600) (b + 0x680) t⟩
    m := (List.range 8).foldl (fun a n =>
      if n = 0 then a else tabSet 0#128 a n (BitVec.ofNat 128 (imgGet t (b + 0x340 + 16 * n) 16))) [] }
  if mark then
    { q with
      prec := w64 (imgGet t (b + 0x400) 8), fflags := w64 (imgGet t (b + 0x408) 8), vwin := w64 (imgGet t (b + 0x410) 8)
      mvalid := w64 (imgGet t (b + 0x418) 8)
      td := (List.range 8).foldl (fun a i => tabSet 0#64 a i (w64 (imgGet t (b + 0x420 + 8 * i) 8))) []
      av := (List.range 4).foldl (fun a i => tabSet 0#64 a i (w64 (imgGet t (b + 0x460 + 8 * i) 8))) []
      nextLC := imgGet t (b + 0x480) 8 }
  else q

/-- Whether a block's sequencer stands in its handler: its return group says so, and where that is bundle 0 what went beside the image. -/
def blkHand (b : Nat) (t : Tab Byte) (a : Aside) : Bool := imgGet t (b + 0x300) 8 != 0 || a.hand

/-! ### The header (R269) -/

/-- A channel descriptor as its 128 bits (R58). -/
def chanWord (c : Chan) : Nat :=
  c.seq.toNat + 2 ^ 48 * c.cred.toNat + 2 ^ 56 * c.lat.toNat + 2 ^ 80 * c.port.toNat + bitN c.recv 88 + 2 ^ 89 * c.path.toNat
    + 2 ^ 91 * c.pch.toNat + 2 ^ 96 * c.dest.toNat

/-- LBANK over every column of the task. -/
def ownWord (t : Task) : Nat :=
  t.seqs.foldl (fun a e => (List.range t.g).foldl (fun a j => a + e.2.own.toNat * 2 ^ (6 * (e.1 * t.g + j))) a) 0

/-- A live list as its 256 bytes (R297). -/
def liveBytes (l : LiveList) : List Byte :=
  ((List.range 16).flatMap (fun j => match l.ranges[j]? with
    | some r => natLe 2 r.1 ++ natLe 2 r.2 ++ natLe 4 0
    | none => natLe 8 0)) ++ natLe 8 l.regs.toNat ++ [if l.acc then 1#8 else 0#8] ++ List.replicate 119 0#8

/-- A sequencer that is busy at a mark (R178). -/
def markBusy (q : Seq) : Bool := q.st != .absent && q.st != .idle

/-- SIBST of a task at a mark, with a busy bit per executing sequencer. -/
def sibBits (t : Task) : Nat :=
  t.seqs.foldl (fun a e => a + (if e.2.st = .absent then 0 else 2 ^ (4 + e.1)) + bitN (markBusy e.2) e.1) 0

/-- The header of a task, or its phase mark (R178, R269): `lc` is the LC it records, `li` the live list's index in a save. -/
def headerImage (s : State) (tid lc : Nat) (t : Task) (mark : Bool) (li : Nat) : Tab Byte :=
  let p := (tabFind t.seqs 0).getD seq0
  let l := (t.obj.live[li]?).getD ⟨[], 0#64, false⟩
  let i := if mark then [] else imgPut 0 8 0x45584358 []
  let i := imgPut 0x20 8 t.phn (imgPut 0x18 8 lc (imgPut 0x10 8 (posWord s tid 0 p.pos) i))
  let i := imgPut 0x60 8 p.engc.toNat (imgPut 0x28 8 (sibBits t) i)
  let i := (ownRegs p).foldl (fun i r =>
    imgPut (if r.1 < 0x420 then r.1 - 0x400 + (if r.1 = 0x408 then 0x48 else if r.1 = 0x410 then 0x38 else 0x40)
      else if r.1 < 0x460 then r.1 - 0x420 + 0x80 else r.1 - 0x460 + 0xC0) 8 r.2.toNat i) i
  let i := (List.range 16).foldl (fun i n => imgPut (0x300 + 16 * n) 16 (tabGet 0#128 p.cd n).toNat i) i
  let i := (List.range 32).foldl (fun i n =>
    let c := tabGet chanOff t.chans n
    imgPut (0x100 + 16 * n) 16 (if mark then c.seq.toNat + 2 ^ 48 * c.cred.toNat else chanWord c) i) i
  let i := if mark then i else
    let i := imgPut 8 8 (bitN l.acc 0 + bitN (t.seqs.any (fun e => e.2.hret.isSome)) 1 + 4 * natCode t.g + 16 * t.cls
      + 2 ^ 8 * li + 2 ^ 16 * t.vidx) i
    let i := imgPut 0x38 8 t.meter (imgPut 0x30 8 (ownWord t) i)
    let i := (List.range 4).foldl (fun i n => imgPut (0xE0 + 8 * n) 8 (tabGet 0#64 p.sh n).toNat i) i
    tabSetBytes i 0x400 (liveBytes l)
  t.seqs.foldl (fun i e =>
    if mark then (if markBusy e.2 then putBlk s tid e.1 (0x1000 * (e.1 + 1)) (BitVec.allOnes 64) true e.2 i else i)
    else if e.2.st = .absent then i else putBlk s tid e.1 (0x1000 * (e.1 + 1)) l.regs false e.2 i) i

def hdrLen : Nat := 0x5000

/-- Records a phase mark (R178). -/
def phaseMark (tid : Nat) (s : State) : State :=
  match tabFind s.tasks tid with
  | none => s
  | some t => onMember t.node t.member (fun m => { m with
      markVidx := t.vidx
      markSeq := t.chans.map (fun c => (c.1, c.2.seq.toNat))
      markAside := t.seqs.map (fun e => (e.1, asideOf (markLands e.2) e.2)) })
    (slotWrite 0 t.vf (slotOf t 0 0) markOff (tabBytes (headerImage s tid t.lc t true 0) 0 hdrLen) s)

/-! ### Rows, accumulators and status -/

/-- Saves or restores the share of a row in column `j` of sequencer `k`. -/
def saveRow (id : Nat) (t : Task) (k j x : Nat) (q : Seq) (s : State) : State :=
  slotWrite id t.vf (slotOf t k j) (128 * x) (tabBytes q.lrs (rowByte t.g x (128 * j)) 128) s

def saveRows (id : Nat) (t : Task) (k : Nat) (q : Seq) (xs : List Nat) (s : State) : State :=
  xs.foldl (fun s x => (List.range t.g).foldl (fun s j => saveRow id t k j x q s) s) s

def loadRows (im : Tab Byte) (t : Task) (k : Nat) (xs : List Nat) (lrs : Tab Byte) : Tab Byte :=
  xs.foldl (fun l x => (List.range t.g).foldl (fun l j =>
    tabSetBytes l (rowByte t.g x (128 * j)) (slotRead im (slotOf t k j) (128 * x) 128)) l) lrs

/-- Rows of the extents of the views that `p` selects. -/
def viewRows (g : Nat) (q : Seq) (p : Word → Bool) : List Nat :=
  let ds := ((List.range 8).map (tabGet 0#64 q.td)).filter p
  (List.range rowCount).filter (fun x => ds.any (fun d => inExtent g d x))

/-- Rows of a live list. -/
def liveRows (l : LiveList) : List Nat := l.ranges.flatMap (fun r => (List.range r.2).map (fun i => r.1 + i))

/-- The accumulator (i, j) of the group that column `c` holds locally at (i′, j′) (R212), and the scale rows it uses. -/
def accRow (g c i : Nat) : Nat := if g = 4 then 32 * (c / 2) + i else i
def accCol (g c j : Nat) : Nat := if g = 4 then 32 * (c % 2) + j else 32 * c + j

def accBytes (a : Acc) : List Byte :=
  natLe 8 a.s.toNat ++ natLe 2 a.e.toNat ++ [BitVec.ofNat 8 (bitN a.nan 0 + bitN a.ovm 1)] ++ List.replicate 5 0#8

def accOf (b : List Byte) : Acc :=
  ⟨w64 (leNat (b.take 8)), BitVec.ofNat 16 (leNat ((b.drop 8).take 2)), leNat (b.drop 10) % 2 == 1, leNat (b.drop 10) / 2 % 2 == 1⟩

def accNone : Acc := ⟨0#64, 0#16, false, false⟩

/-- The accumulators and scale bytes of a sequencer's columns, written to their slots. -/
def saveAccs (id : Nat) (t : Task) (k : Nat) (q : Seq) (s : State) : State :=
  (List.range t.g).foldl (fun s c =>
    let as := (List.range 32).flatMap (fun i => (List.range 32).flatMap (fun j =>
      accBytes (tabGet accNone q.acc (64 * accRow t.g c i + accCol t.g c j))))
    let sa := (List.range 32).flatMap (fun i => (List.range 96).map (fun b => tabGet 0x7F#8 q.scaleA (96 * accRow t.g c i + b)))
    let sb := (List.range 32).flatMap (fun j => (List.range 96).map (fun b => tabGet 0x7F#8 q.scaleB (96 * accCol t.g c j + b)))
    slotWrite id t.vf (slotOf t k c) scaleBOff sb (slotWrite id t.vf (slotOf t k c) scaleAOff sa (slotWrite id t.vf (slotOf t k c) accOff as s))) s

def loadAccs (im : Tab Byte) (t : Task) (k : Nat) (q : Seq) : Seq :=
  (List.range t.g).foldl (fun q c =>
    let as := slotRead im (slotOf t k c) accOff 16384
    let sa := slotRead im (slotOf t k c) scaleAOff 3072
    let sb := slotRead im (slotOf t k c) scaleBOff 3072
    { q with
      acc := (List.range 1024).foldl (fun a n =>
        tabSet accNone a (64 * accRow t.g c (n / 32) + accCol t.g c (n % 32)) (accOf ((as.drop (16 * n)).take 16))) q.acc
      scaleA := (List.range 3072).foldl (fun a n => tabSet 0x7F#8 a (96 * accRow t.g c (n / 96) + n % 96) (sa.getD n 0#8)) q.scaleA
      scaleB := (List.range 3072).foldl (fun a n => tabSet 0x7F#8 a (96 * accCol t.g c (n / 96) + n % 96) (sb.getD n 0#8)) q.scaleB }) q

/-- Status entries of a sequencer's columns, every change made (R220, R268). -/
def saveStatus (id : Nat) (t : Task) (k : Nat) (q : Seq) (s : State) : State :=
  (List.range t.g).foldl (fun s c =>
    let st := bitN (q.ov.getLsbD c) 3 + 16 * (colNan q c).toNat
    let u (i : Nat) := let r := tabGet ⟨0, false⟩ q.units (2 * c + i); bitN r.done 1 + 2 ^ 20 * r.cd
    slotWrite id t.vf (slotOf t k c) statOff (natLe 8 st ++ natLe 8 (u 0) ++ natLe 8 (u 1) ++ List.replicate 104 0#8) s) s

def loadStatus (im : Tab Byte) (t : Task) (k : Nat) (q : Seq) : Seq :=
  let w (c e : Nat) := leNat (slotRead im (slotOf t k c) (statOff + 8 * e) 8)
  { q with
    nan := BitVec.ofNat 16 ((List.range t.g).foldl (fun a c => a + w c 0 / 16 % 16 * 16 ^ c) 0)
    ov := BitVec.ofNat 4 ((List.range t.g).foldl (fun a c => a + w c 0 / 8 % 2 * 2 ^ c) 0)
    units := (List.range (2 * t.g)).foldl (fun a u =>
      let x := w (u / 2) (1 + u % 2)
      tabSet ⟨0, false⟩ a u ⟨x / 2 ^ 20 % 16, x / 2 % 2 == 1⟩) [] }

/-! ### Landed messages (R437) -/

/-- The slot's entry and payload in the image. -/
def keepMsg (id v : Nat) (sl : Nat × Nat) (n i : Nat) (m : Landed) (s : State) : State :=
  slotWrite id v sl (payOff + 2048 * n + 128 * i) ((m.payload ++ List.replicate 128 0#8).take 128)
    (slotWrite id v sl (entOff + 128 * n + 8 * i) (natLe 8 (m.stamp + bitN m.scalar 48 + 2 ^ 63)) s)

def saveMsgs (id : Nat) (t : Task) (s : State) : State :=
  let sl := slotOf t 0 0
  t.chans.foldl (fun s e =>
    if e.2.recv then
      e.2.slots.foldl (fun s x => keepMsg id t.vf sl e.1 x.1 x.2 s) (slotWrite id t.vf sl (entOff + 128 * e.1) (List.replicate 128 0#8) s)
    else s) s

/-- The landing slots of channel `n` whose next expected number is `seq`. -/
def loadMsgs (im : Tab Byte) (t : Task) (n : Nat) (seq : BitVec 32) : Tab Landed :=
  (List.range 16).foldl (fun a i =>
    let e := leNat (slotRead im (slotOf t 0 0) (entOff + 128 * n + 8 * i) 8)
    if e / 2 ^ 63 = 0 then a
    else
      let p := slotRead im (slotOf t 0 0) (payOff + 2048 * n + 128 * i) 128
      let sc := e / 2 ^ 48 % 2 == 1
      tabPut a i ⟨e % 2 ^ 48, (seq.toNat + (i + 16 - seq.toNat % 16) % 16) % 2 ^ 32, sc, if sc then p.take 8 else p, 0⟩) []

/-- The next group's LC that a save records: c + 1 of the SAFE. -/
def savedLc (t : Task) : Nat := t.sref + 1

/-- Writes the context of a task whose copies are complete into its slots (R267); reply `id` awaits the writes. -/
def contextSave (id tid li : Nat) (s : State) : State :=
  match tabFind s.tasks tid with
  | none => s
  | some t =>
    let l := (t.obj.live[li]?).getD ⟨[], 0#64, false⟩
    let img := tabBytes (headerImage s tid (savedLc t) t false li) 0 hdrLen
    let s0 := { s with replies := tabPut s.replies id ⟨.setter, 1, 0, [], [], false⟩ }
    let s1 := t.seqs.foldl (fun s e => if e.2.st = .absent then s
      else saveRows id t e.1 e.2 (viewRows t.g e.2 (fun d => d.getLsbD 63 && vNrow d != 0)) s) s0
    let s2 := t.seqs.foldl (fun s e => if e.2.st = .absent then s else
      let s := saveRows id t e.1 e.2 (liveRows l) s
      let s := if l.acc then saveAccs id t e.1 e.2 s else s
      saveStatus id t e.1 e.2 s) s1
    saveMsgs id t (slotWrite id t.vf (slotOf t 0 0) hdrOff img s2)

/-! ### Restore (R267) -/

def dClear (v : Word) : Word := v &&& 0x7FFFFFFFFFFFFFFF#64

/-- A header or phase mark of slot 0 in what has been read, and where they lie. -/
def headerOfSlot (im : Tab Byte) (t : Task) (off : Nat) : Tab Byte := tabSetBytes [] 0 (slotRead im (slotOf t 0 0) off hdrLen)
def headerSpan (t : Task) (off : Nat) : Span := (slotOf t 0 0, off, hdrLen)

/-- The bytes of a header that hold a live list, as one. -/
def liveOf (i : Tab Byte) : LiveList :=
  ⟨(List.range 16).map (fun j => (imgGet i (0x400 + 8 * j) 2, imgGet i (0x402 + 8 * j) 2)),
    BitVec.ofNat 64 (imgGet i 0x480 8), imgGet i 0x488 1 % 2 == 1⟩

/-- The member of a task's node that the task is. -/
def memberOf (s : State) (t : Task) : Option Member := (tabFind s.dev.nodes t.node).bind (fun x => x.members[t.member]?)

/-- What a member's save, or its phase mark, has taken along of sequencer `k` beside the image. -/
def asideAt (s : State) (t : Task) (k : Nat) : Aside := tabGet aside0 (((memberOf s t).map (·.aside)).getD []) k
def markAsideAt (s : State) (t : Task) (k : Nat) : Aside := tabGet aside0 (((memberOf s t).map (·.markAside)).getD []) k

/-- A sequencer restored from the image (R267); FLAGS[1] says whether one stands in its handler. -/
def restoreSeq (s : State) (im : Tab Byte) (t : Task) (i : Tab Byte) (k : Nat) : Seq :=
  let l := liveOf i
  let q0 := { seq0 with st := if k = 0 then .running else .idle, own := BitVec.ofNat 6 (imgGet i 0x30 8 / 2 ^ (6 * (k * t.g))) }
  let q := withAside (asideAt s t k)
    (getBlk (0x1000 * (k + 1)) false (imgGet i 8 8 / 2 % 2 == 1 && blkHand (0x1000 * (k + 1)) i (asideAt s t k)) i q0)
  let q := if k ≠ 0 then q else
    { q with
      nextLC := imgGet i 0x18 8, prec := w64 (imgGet i 0x40 8), vwin := w64 (imgGet i 0x48 8), fflags := w64 (imgGet i 0x50 8)
      mvalid := w64 (imgGet i 0x58 8), engc := BitVec.ofNat 32 (imgGet i 0x60 8)
      td := (List.range 8).foldl (fun a n => tabSet 0#64 a n (dClear (w64 (imgGet i (0x80 + 8 * n) 8)))) []
      av := (List.range 4).foldl (fun a n => tabSet 0#64 a n (w64 (imgGet i (0xC0 + 8 * n) 8))) []
      sh := (List.range 4).foldl (fun a n => tabSet 0#64 a n (w64 (imgGet i (0xE0 + 8 * n) 8))) []
      cd := (List.range 16).foldl (fun a n => tabSet 0#128 a n (BitVec.ofNat 128 (imgGet i (0x300 + 16 * n) 16))) [] }
  let q := { q with lrs := loadRows im t k (liveRows l) (loadRows im t k (viewRows t.g q (fun d => vNrow d != 0)) []) }
  loadStatus im t k (if l.acc then loadAccs im t k q else q)

/-- What a restore reads of the image beside its header `i` (R267). -/
def imageSpans (s : State) (t : Task) (i : Tab Byte) : List Span :=
  let l := liveOf i
  let of (k c off n : Nat) : Span := (slotOf t k c, off, n)
  t.chans.flatMap (fun e => [of 0 0 (entOff + 128 * e.1) 128, of 0 0 (payOff + 2048 * e.1) 2048])
    ++ (List.range (t.nsib + 1)).flatMap (fun k =>
      let q := restoreSeq s [] t i k
      (List.range t.g).flatMap (fun c => (liveRows l ++ viewRows t.g q (fun d => vNrow d != 0)).map (fun x => of k c (128 * x) 128)
        ++ (if l.acc then [of k c accOff 16384, of k c scaleAOff 3072, of k c scaleBOff 3072] else []) ++ [of k c statOff 128]))

/-- The channels of a task with SEQ and CRED of a phase mark (R178, R179). -/
def markChans (t : Task) (i : Tab Byte) : Tab Chan :=
  t.chans.map (fun e =>
    let w := imgGet i (0x100 + 16 * e.1) 16
    (e.1, { e.2 with seq := BitVec.ofNat 32 w, cred := BitVec.ofNat 5 (w / 2 ^ 48), fault := none, slots := [] }))

/-- The channels of an image with their landed messages (R437); of the paths that are not UALink, the place decides which one it is. -/
def restoreChans (im : Tab Byte) (t : Task) (i : Tab Byte) : Tab Chan :=
  t.chans.map (fun e =>
    let w := imgGet i (0x100 + 16 * e.1) 16
    let seq := BitVec.ofNat 32 w
    let path := BitVec.ofNat 2 (w / 2 ^ 89)
    let recv := w / 2 ^ 88 % 2 == 1
    (e.1, { path := if path = 0#2 ∨ path = 1#2 then e.2.path else path, recv := recv, dest := BitVec.ofNat 32 (w / 2 ^ 96)
            pch := BitVec.ofNat 5 (w / 2 ^ 91), port := BitVec.ofNat 8 (w / 2 ^ 80), lat := BitVec.ofNat 24 (w / 2 ^ 56)
            cred := BitVec.ofNat 5 (w / 2 ^ 48), seq := seq, fault := none, slots := if recv then loadMsgs im t e.1 seq else [] }))

/-- A task restored from its image, of which `im` has been read, onto the place that `t` names. -/
def restored (s : State) (im : Tab Byte) (t : Task) : Task :=
  let i := headerOfSlot im t hdrOff
  let seqs := (List.range (t.nsib + 1)).foldl (fun a k => tabPut a k (restoreSeq s im t i k)) []
  { t with
    alive := true, lc := imgGet i 0x18 8, phn := imgGet i 0x20 8, sref := imgGet i 0x18 8 - 1, meter := imgGet i 0x38 8
    waits := ⟨0, 0, imgGet i 0x20 8, []⟩, meterWas := imgGet i 0x38 8, meterPrev := imgGet i 0x38 8
    chans := restoreChans im t i
    cls := imgGet i 8 8 / 16 % 2
    hands := inHandler { t with seqs := seqs }, seqs := seqs }

/-! ### Restart from a phase mark (R179, R270) -/

/-- A configured view is marked dirty (R179, step 4). -/
def dSet (v : Word) : Word := if vNrow v = 0 then v else v ||| 0x8000000000000000#64

/-- A sequencer that issues again from the mark and what went beside it: its LRS, accumulators and banks as `old` has them. -/
def restartSeq (i : Tab Byte) (a : Aside) (lc k : Nat) (old : Seq) : Seq :=
  let base := { seq0 with
    st := .idle, lrs := old.lrs, acc := old.acc, scaleA := old.scaleA, scaleB := old.scaleB, own := old.own, nan := old.nan, ov := old.ov
    units := old.units, clearing := old.clearing }
  if old.st = .absent then old
  else if imgGet i 0x28 8 / 2 ^ k % 2 = 0 then base
  else
    let q := withAside a (getBlk (0x1000 * (k + 1)) true (blkHand (0x1000 * (k + 1)) i a) i base)
    let q := { q with st := .running, td := q.td.map (fun e => (e.1, dSet e.2)), startLC := if k = 0 then 0 else lc }
    if k ≠ 0 then q
    else { q with
      engc := BitVec.ofNat 32 (imgGet i 0x60 8)
      cd := (List.range 16).foldl (fun a n => tabSet 0#128 a n (BitVec.ofNat 128 (imgGet i (0x300 + 16 * n) 16))) [] }

/-- Every member goes back to its mark. -/
def restarted (s : State) (im : Tab Byte) (t : Task) : Task :=
  let i := headerOfSlot im t markOff
  let lc := imgGet i 0x18 8
  let phn := imgGet i 0x20 8
  let seqs := t.seqs.map (fun e => (e.1, restartSeq i (markAsideAt s t e.1) lc e.1 e.2))
  { t with
    serr := none, ending := none, taken := none, out := [], hold := 0, holdAt := 0, was := [], cond := 0, kept := [], lc := lc, phn := phn, sref := lc
    waits := ⟨0, 0, phn, []⟩
    chans := markChans t i
    hands := inHandler { t with seqs := seqs }, seqs := seqs }

/-- The new variant's entry for a phase (R297), where it has one. -/
def phaseEntry (v : Variant) (phn : Nat) : Option Nat :=
  if phn = 0 then some v.entry else (v.phases.find? (fun e => e.1 == phn)).map Prod.snd

/-- A restart in another variant (R270): LC, PHN, s1 to s15, PREC, FFLAGS, MVALID and the channels come from the mark. -/
def restartedVariant (s : State) (im : Tab Byte) (t : Task) (entry : Nat) : Task :=
  let i := headerOfSlot im t markOff
  let lc := imgGet i 0x18 8
  let phn := imgGet i 0x20 8
  { t with
    serr := none, ending := none, taken := none, out := [], hold := 0, holdAt := 0, was := [], cond := 0, kept := [], lc := lc, phn := phn, sref := lc
    waits := ⟨0, 0, phn, []⟩
    chans := markChans t i
    seqs := t.seqs.map (fun e => (e.1, if e.1 ≠ 0 then e.2 else { e.2 with
      pos := ⟨entry, 0⟩, nextLC := lc
      s := (List.range 16).foldl (fun a n => if n = 0 then a else tabSet 0#64 a n (w64 (imgGet i (0x1040 + 8 * n) 8))) []
      prec := w64 (imgGet i 0x1400 8), fflags := w64 (imgGet i 0x1408 8), mvalid := w64 (imgGet i 0x1418 8)
      land := (markAsideAt s t 0).lands.filter (fun l => match l.dst with
        | .ctrl n _ => n == 0x04 || n == 0x31
        | _ => false) })) }

end Sys2Proof.Machine
end

