-- ==== Sys2Proof/Machine/Loader.lean ====
section
/-!
DEFINITION. What the Setter reads of a VF's buffers, code objects with their tables, selectors and signatures (R102, R105, R113, R145
to R147, R292 to R298).
-/

namespace Sys2Proof.Machine

/-! ### Reads by the device for a VF (R113, steps 1 to 4) -/

/-- The step of R113 that an access to a VF's buffer fails, if any. -/
def accessSub (s : State) (v : Nat) (rd wr exe : Bool) (idx off n : Nat) : Option Nat :=
  let e := btEntry s v idx
  if vfGone s.dev v ∨ idx ≤ 15 ∨ !eV e ∨ malformed s.dev (getVf s.dev v).cust e then some 1
  else if off + n > eLen e then some 2
  else if (rd && !eR e) || (wr && !eW e) || (exe && !eX e) then some 3
  else if !ownerOk s.dev v (eOwner e) then some 4
  else none

/-- The trap of a refused access before any group issues (R132, R257). -/
def accessTrap (s : State) (v sub idx off n kind : Nat) : Trap :=
  let ba := w64 (idx * 2 ^ 48 + off % 2 ^ 48)
  ⟨0x04, sub, 0, ba, w64 n, w64 kind, w64 (if idx ≤ 15 then 0 else eLen (btEntry s v idx)), some ba⟩

/-- Requests of an agent for a range of a buffer. -/
def rangeReqs (who : Agent) (v id base idx : Nat) (e : BitVec 256) (off n : Nat) (op : MemOp) (data : List Byte) : List Req :=
  (piecesIn e off n).map (fun p =>
    ⟨id, base + p.1, who, v, locate e p.2.1, p.2.2, op, (data.drop p.1).take p.2.2, w64 (idx * 2 ^ 48 + p.2.1 % 2 ^ 48), false, false⟩)

/-- Reads `n` bytes of a buffer for VF `v` and a piece of the device's work, with the right `rd` or `exe`: the state after, and the bytes or
the trap; until the reply is in, the work cannot go on. -/
def setterRead (why : JobFor) (v idx off n : Nat) (rd exe : Bool) (s : State) : State × Except Trap (List Byte) :=
  let key := [idx, off, n, if exe then 1 else 0]
  match (if (findJob s.dev why key).isSome then none else accessSub s v rd false exe idx off n) with
  | some sub => (s, .error (accessTrap s v sub idx off n 0))
  | none =>
    let r := askRead why key n (fun id => rangeReqs .setter v id 0 idx (btEntry s v idx) off n .read []) s
    match r.2 with
    | none => (r.1, .ok [])
    | some x => match x.errs with
      | [] => (r.1, .ok (replyBytes x))
      | e :: _ =>
        if e.kind = 3 then (r.1, .error (accessTrap s v 1 idx off n 0))
        else (r.1, .error ⟨0x0E, 0x01, 0, e.ba, w64 e.ipa, 0#64, 0#64, some e.ba⟩)

/-- A number of `n` bytes at `o` of a list of bytes. -/
def field (b : List Byte) (o n : Nat) : Nat := leNat ((b.drop o).take n)

/-- Whether the bytes from `o` up to `e` are zero. -/
def zeroes (b : List Byte) (o e : Nat) : Bool := ((b.drop o).take (e - o)).all (· == 0#8)

/-! ### Selectors (R145, R146) -/

/-- A 64-bit result as a signed value. -/
def wrap64 (x : Int) : Int := (BitVec.ofInt 64 x).toInt

/-- A two-operand byte of a selector. -/
def selBin (op : Nat) (x y : Int) : Option Int :=
  match op with
  | 0x10 => some (wrap64 (x + y))
  | 0x11 => some (wrap64 (x - y))
  | 0x12 => some (wrap64 (x * y))
  | 0x13 => some (min x y)
  | 0x14 => some (max x y)
  | 0x20 => some (if x = y then 1 else 0)
  | 0x21 => some (if x < y then 1 else 0)
  | 0x22 => some (if x ≤ y then 1 else 0)
  | 0x30 => some (if x ≠ 0 ∧ y ≠ 0 then 1 else 0)
  | 0x31 => some (if x ≠ 0 ∨ y ≠ 0 then 1 else 0)
  | _ => none

/-- Runs a selector over the quantities `q`; `none` is its result "none". -/
def runSelector (q : List Int) : Nat → List Byte → List Int → Option Int
  | 0, _, _ => none
  | _, [], _ => none
  | fuel + 1, b :: bs, st =>
    if st.length > 16 then none
    else match b.toNat with
      | 0x00 => match st with
        | [r] => some r
        | _ => none
      | 0x01 => match bs with
        | k :: rest => match q[k.toNat]? with
          | some v => runSelector q fuel rest (v :: st)
          | none => none
        | [] => none
      | 0x02 => if bs.length < 4 then none
          else runSelector q fuel (bs.drop 4) ((BitVec.ofNat 32 (leNat (bs.take 4))).toInt :: st)
      | 0x32 => match st with
        | x :: r => runSelector q fuel bs ((if x = 0 then 1 else 0) :: r)
        | [] => none
      | 0x40 => match st with
        | b' :: a :: c :: r => runSelector q fuel bs ((if c ≠ 0 then a else b') :: r)
        | _ => none
      | op => match st with
        | y :: x :: r => match selBin op x y with
          | some z => runSelector q fuel bs (z :: r)
          | none => none
        | _ => none

/-! ### Object tables (R294 to R297) -/

/-- Whether a list has no repeats. -/
def distinct : List Nat → Bool
  | [] => true
  | x :: xs => !xs.contains x && distinct xs

/-- Whether a list rises strictly. -/
def rising : List Nat → Bool
  | x :: y :: r => decide (x < y) && rising (y :: r)
  | _ => true

/-- A channel entry is well formed (R296). -/
def chanEntryOk (c : List Byte) : Bool :=
  let dest := field c 4 4
  let k := dest / 2 ^ 30
  field c 0 1 / 32 % 4 == 0 && decide (field c 1 1 < 32) && (k == 1 || field c 2 1 == 0) && field c 3 1 == 0
    && decide (k < 2) && dest / 2 ^ 11 % 32 == 0 && (k == 1 || dest / 2 ^ 16 % 2 ^ 14 == 0)
    && decide (field c 8 4 < 2 ^ 24) && (k == 0 || decide (field c 8 4 ≥ 4096)) && zeroes c 12 16

/-- Variant `b` of a table `t` of `mlen` bytes, whose code holds `nb` bundles, where well formed (R295 to R297). -/
def readVariant (t : List Byte) (mlen nb : Nat) (b : List Byte) : Option Variant :=
  let mode := field b 0 1 % 4
  let cls := field b 0 1 / 4
  let sibs := field b 1 1
  let nchan := field b 10 2
  let choff := field b 24 4
  let phoff := field b 28 4
  let nph := field b 32 2
  let entry := field b 4 4
  let chans := (List.range nchan).map (fun i => (t.drop (choff + 16 * i)).take 16)
  let phases := (List.range nph).map (fun i => (field t (phoff + 8 * i) 4, field t (phoff + 8 * i + 4) 4))
  if mode < 3 && decide (cls < 2) && !(cls == 1 && mode == 0)
      && decide (sibs ≤ (if mode = 0 then 0 else if mode = 1 then 1 else 3))
      && decide (field b 3 1 ≤ 30) && decide (1 ≤ entry) && decide (entry < nb)
      && decide (1 ≤ field b 8 2) && decide (field b 8 2 ≤ 2304) && decide (nchan ≤ 32)
      && decide (1 ≤ field b 12 4) && decide (field b 12 4 ≤ 2 ^ 20)
      && decide (choff + 16 * nchan ≤ mlen) && decide (phoff + 8 * nph ≤ mlen)
      && decide (field b 34 1 < 64) && zeroes b 35 64
      && chans.all chanEntryOk && distinct (chans.map (fun c => field c 0 1 % 32))
      && rising (phases.map Prod.fst) && phases.all (fun p => decide (1 ≤ p.2) && decide (p.2 < nb) && (p.1 != 0 || p.2 == entry)) then
    some { mode := mode, cls := cls, sibs := sibs, contract := field b 2 1, hop := field b 3 1, entry := entry, lrows := field b 8 2,
           safed := field b 12 4, cost := field b 16 8, lbown := if field b 34 1 = 0 then 63#6 else BitVec.ofNat 6 (field b 34 1),
           chans := chans, phases := phases }
  else none

/-- A live list, where well formed (R297). -/
def readLive (b : List Byte) : Option LiveList :=
  let rs := (List.range 16).map (fun j => (field b (8 * j) 2, field b (8 * j + 2) 2))
  if rs.all (fun r => decide (r.1 + r.2 ≤ 2304)) && (List.range 16).all (fun j => zeroes b (8 * j + 4) (8 * j + 8))
      && decide (field b 136 1 < 2) && zeroes b 137 256 then
    some ⟨rs, BitVec.ofNat 64 (field b 128 8), field b 136 1 == 1⟩
  else none

/-- A schedule table's entries, where well formed: bounds ascend (R180, R297). -/
def readSched (b : List Byte) : Option (List (Nat × Nat)) :=
  let n := field b 0 1
  if 1 ≤ n && decide (n ≤ 64) && zeroes b 1 16 && (List.range n).all (fun e => zeroes b (28 + 16 * e) (32 + 16 * e)) then
    let es := (List.range n).map (fun e => (field b (16 + 16 * e) 8, field b (24 + 16 * e) 4))
    if rising (es.map Prod.fst) then some es else none
  else none

/-- All of a list, or none. -/
def allSome {α : Type} : List (Option α) → Option (List α)
  | [] => some []
  | some x :: r => (allSome r).map (x :: ·)
  | none :: _ => none

/-- The header of a table is well formed (R294). -/
def tableHeaderOk (h : List Byte) : Bool :=
  let mlen := field h 16 4
  let sig := field h 12 1 == 1
  field h 0 4 == 0x49565442 && field h 4 2 == 1 && decide (1 ≤ field h 6 1) && decide (field h 6 1 ≤ 64) && zeroes h 7 8
    && decide (field h 8 2 ≤ 256) && decide (field h 10 2 ≤ 256) && decide (field h 12 1 < 2) && zeroes h 13 16
    && decide (1 ≤ field h 24 2) && decide (field h 24 2 ≤ 256) && zeroes h 26 28
    && field h 28 4 % 64 == 0 && field h 32 4 % 256 == 0 && field h 36 4 % 16 == 0 && field h 44 4 % 32 == 0 && field h 48 4 % 16 == 0
    && (sig || field h 48 4 == 0) && zeroes h 52 64
    && decide (64 ≤ mlen) && decide (field h 20 4 + field h 24 2 ≤ mlen) && decide (field h 28 4 + 64 * field h 6 1 ≤ mlen)
    && decide (field h 32 4 + 256 * field h 8 2 ≤ mlen) && decide (field h 36 4 + 1040 * field h 10 2 ≤ mlen)
    && decide (field h 40 4 + field h 44 4 ≤ mlen) && (!sig || decide (field h 48 4 + 1024 ≤ mlen))

/-- Bytes with those from `o` up to `e` taken as zero. -/
def blank (o e : Nat) (b : List Byte) : List Byte := b.zipIdx.map (fun x => if o ≤ x.2 ∧ x.2 < e then 0#8 else x.1)

/-- The digest of an object (R298). -/
def objectDigest (code t : List Byte) : List Byte :=
  Config.sha512 (blank 8 16 code ++ (if field t 12 1 = 1 then blank (field t 48 4) (field t 48 4 + 1024) t else t))

/-- The signature block verifies (R102). -/
def signatureOk (t digest : List Byte) : Bool :=
  let sig := (t.drop (field t 48 4)).take 1024
  field t 12 1 == 1 && Config.trusted (Config.sha512 (sig.take 512)) && Config.verifies (sig.take 512) digest (sig.drop 512)

/-- The object that a code image and its table describe, where every field is as R294 to R297 require, with its selector. -/
def readObject (code t : List Byte) : Option (Obj × List Byte) :=
  let mlen := t.length
  match allSome ((List.range (field t 6 1)).map (fun k => readVariant t mlen (code.length / 16) ((t.drop (field t 28 4 + 64 * k)).take 64))),
    allSome ((List.range (field t 8 2)).map (fun k => readLive ((t.drop (field t 32 4 + 256 * k)).take 256))),
    allSome ((List.range (field t 10 2)).map (fun k => readSched ((t.drop (field t 36 4 + 1040 * k)).take 1040))) with
  | some vs, some ls, some ss =>
    let d := objectDigest code t
    some (⟨vs, ls, ss, signatureOk t d, d⟩, (t.drop (field t 20 4)).take (field t 24 2))
  | _, _, _ => none

/-- The bytes a read gave, if any. -/
def okBytes (r : State × Except Trap (List Byte)) : Option (List Byte) :=
  match r.2 with
  | .ok b => some b
  | .error _ => none

/-- Loads the code object whose code image is in the buffer that CODE names by its INDEX (R293): `none` where it is refused.  Bundle 0,
the anchor, is at byte 0 of the buffer (R266, R271), so an OFF of CODE has no effect (DEDUCED, log 32). -/
def loadObject (why : JobFor) (v : Nat) (code : Word) (s : State) : State × Option (Obj × List Byte) :=
  let idx := fieldN code 48 16
  let r1 := setterRead why v idx 0 16 false true s
  match okBytes r1 with
  | none => (r1.1, none)
  | some a =>
    if field a 0 4 ≠ 0 ∨ field a 4 4 ≠ 0x49564F54 then (r1.1, none)
    else
      let ti := field a 14 2
      let to' := field a 8 6
      let r2 := setterRead why v ti to' 64 true false r1.1
      match okBytes r2 with
      | none => (r2.1, none)
      | some h =>
        if !tableHeaderOk h then (r2.1, none)
        else
          let r3 := setterRead why v ti to' (field h 16 4) true false r2.1
          let r4 := setterRead why v idx 0 (eLen (btEntry s v idx)) false true r3.1
          match okBytes r3, okBytes r4 with
          | some t, some c => (r4.1, readObject c t)
          | _, _ => (r4.1, none)

end Sys2Proof.Machine
end

