-- ==== Sys2Proof/Machine/Cards.lean ====
section
/-!
DEFINITION. Job cards: copies, drains and collectives (R36, R66 to R70, R129, R133, R137, R139, R154).
-/

namespace Sys2Proof.Machine

/-! ### Streams of a card (R133) -/

/-- Regions of a card's source or destination stream. -/
def readRegions (x : Node) : List Region := x.regions.filter (·.read)
def writeRegions (x : Node) : List Region := x.regions.filter (·.write)

/-- Regions with the offset of each in its stream. -/
def inStream : Nat → List Region → List (Nat × Region)
  | _, [] => []
  | o, r :: rs => (o, r) :: inStream (o + r.len) rs

/-- Requests for the whole of a stream; written bytes come from `data`. -/
def streamReqs (s : State) (node : Nat) (x : Node) (id : Nat) (op : MemOp) (rs : List Region) (data : List Byte) : List Req :=
  (inStream 0 rs).flatMap (fun r =>
    rangeReqs (.card node) x.vf id r.1 r.2.index (btEntry s x.vf r.2.index) r.2.off r.2.len op ((data.drop r.1).take r.2.len))

/-- Whether a region of the card is refused by R113, steps 1 to 4. -/
def cardRefused (s : State) (x : Node) : Bool :=
  x.regions.any (fun r => (accessSub s x.vf r.read r.write false r.index r.off r.len).isSome)

/-- Inserts a request by its intermediate address. -/
def insertReq (r : Req) : List Req → List Req
  | [] => [r]
  | x :: xs =>
    match r.loc, x.loc with
    | .ipa _ a, .ipa _ b => if a < b then r :: x :: xs else x :: insertReq r xs
    | _, _ => x :: insertReq r xs

/-- Requests in ascending order of intermediate address (R129). -/
def byAddress (rs : List Req) : List Req := rs.foldl (fun l r => insertReq r l) []

def onCard (node : Nat) (f : CardSt → CardSt) (s : State) : State := onNode node (fun x => { x with cst := f x.cst }) s

/-- Opens a reply of `size` bytes for a card and sends its requests. -/
def cardSend (node phase size : Nat) (mk : Nat → List Req) (s : State) : State :=
  let id := s.nextId
  let rs := mk id
  onCard node (fun c => { c with phase := phase, reply := id })
    { s with nextId := id + 1, replies := tabPut s.replies id ⟨.card node, size, rs.length, [], [], false⟩, reqs := s.reqs ++ rs }

/-- Bytes of a stream. -/
def streamLen (rs : List Region) : Nat := rs.foldl (fun a r => a + r.len) 0

/-- The card is finished with a status; its end follows. -/
def cardDone (node status : Nat) (s : State) : State := onCard node (fun c => { c with phase := 3, status := status }) s

/-! ### Drains (R129, R137) -/

/-- Changes a second-stage entry. -/
def onSs (f : LeaseFrame) (g : BitVec 256 → BitVec 256) (s : State) : State :=
  putEntry f.stack (dirWord s f.vf f.stack % 65536 * 2 ^ 21 + 32 * f.gfn) (g (ssEntry s f.vf f.stack f.gfn)) s

/-- Frames of a drain's read regions. -/
def drainFrames (s : State) (x : Node) : List LeaseFrame := ((readRegions x).flatMap (regionFrames s x.vf)).eraseDups

/-- Awaits the accesses to the entries of a drain's frames: the frames whose entries could be read. -/
def drainEntries (node : Nat) (x : Node) (s : State) : State × List LeaseFrame :=
  let fs := drainFrames s x
  let r := askEntries (.drain node) [if x.began then 1 else 0] x.vf (fs.map (fun f => ssPlace s f.vf f.stack f.gfn)) s
  (r.1, (fs.zipIdx.filter (fun e => !r.2.contains e.2)).map Prod.fst)

/-- The drain starts: SPLIT is set on its frames, and start edges out of it are satisfied. -/
def beginDrain (node : Nat) (x : Node) (s : State) : State :=
  let r := drainEntries node x s
  let t := r.2.foldl (fun t f => onSs f (fun e => e ||| (1#256 <<< 58)) t) r.1
  onDev (fun d => { d with nodes := d.nodes.map (fun e => (e.1, promote { e.2 with starts := e.2.starts.filter (· != node) })) })
    (onNode node (fun y => { y with began := true }) t)

/-- One frame at the end of a drain: SPLIT and SDONE clear, and a frame kept for the drain passes to the Polisher (R130). -/
def mergeFrame (s : State) (f : LeaseFrame) : State :=
  let e := ssEntry s f.vf f.stack f.gfn
  let t := onSs f (fun e => e &&& ~~~((1#256 <<< 58) ||| (1#256 <<< 56))) s
  let t := onDev (fun d => { d with waits10 := d.waits10.filter (fun w => w != ⟨f.vf, f.stack, f.gfn⟩) }) t
  if ssSdone e then
    onVf f.vf (fun q => { q with splits := tabSet 0 q.splits f.stack (tabGet 0 q.splits f.stack - 1) })
      (quarantine f.stack (ssSpfn e) (some (getVf s.dev f.vf).part) t)
  else t

def endDrain (node : Nat) (x : Node) (s : State) : State :=
  let r := drainEntries node x s
  r.2.foldl mergeFrame r.1

/-! ### Collectives (R66 to R70) -/

/-- The collective of a CID that has not completed. -/
def getColl (d : Dev) (cid : Nat) : Option Coll := d.colls.find? (fun c => c.cid == cid && !c.done)

def onColl (cid : Nat) (f : Coll → Coll) (s : State) : State :=
  onDev (fun d => { d with colls := d.colls.map (fun c => if c.cid = cid ∧ !c.done then f c else c) }) s

/-- The number under which a member of this package contributes. -/
def localMember (node : Nat) : Nat := 4096 + node

/-- Elements of a 128-byte group, and groups of a contribution. -/
def groupEls (fmt : Nat) : Nat := 128 / redWidth fmt
def groupCount (c : Coll) : Nat := (c.count + groupEls c.fmt - 1) / groupEls c.fmt

/-- Elements of group `g` of a contribution. -/
def groupOf (c : Coll) (k : Contrib) (g : Nat) : List Nat :=
  (List.range (min (groupEls c.fmt) (c.count - g * groupEls c.fmt))).map (fun i => (tabGet 0#64 k.elems (g * groupEls c.fmt + i)).toNat)

/-- Ports of this package on a card's tree, and the one nearest the root (R133, R141).  A tree entry whose port place the partition's list
does not have counts as port 72, which has no context: the collective falls back, and SRC of its Loupe event is 0x8300 (log 21). -/
def treePorts (d : Dev) (x : Node) : List Nat := x.card.tree.map (fun e => portAt d (getVf d x.vf).part e.1)
def rootPort (d : Dev) (x : Node) : Nat :=
  match (x.card.tree.zip (treePorts d x)).find? (fun e => e.1.2 == 0xFFFF) with
  | some e => e.2
  | none => 72

/-- A free context of a port that is allotted to a partition. -/
def freeCtx (p : Port) (part : Nat) : Option Nat :=
  (List.range 64).find? (fun i => let c := tabGet ctx0 p.ctx i; c.v && c.part == part && c.cid.isNone)

/-- Takes a context on every port of a tree, or names the first port without one. -/
def takeCtxs (key part : Nat) : List Nat → Dev → Except Nat Dev
  | [], d => .ok d
  | q :: qs, d =>
    match (if q < 72 then freeCtx (getPort d q) part else none) with
    | none => .error q
    | some i =>
      let p := getPort d q
      takeCtxs key part qs (setPort q { p with ctx := tabSet ctx0 p.ctx i { tabGet ctx0 p.ctx i with cid := some key } } d)

/-- A context that its collective leaves takes up a deferred allotment (R71). -/
def allotted (c : Ctx) : Ctx :=
  match c.next with
  | some b => ⟨b.getLsbD 7, min 47 (fieldN b 0 6), none, none⟩
  | none => { c with cid := none }

/-- Frees the contexts that a collective holds. -/
def freeCtxs (key : Nat) (d : Dev) : Dev :=
  { d with ports := d.ports.map (fun e => (e.1, { e.2 with
      ctx := (e.2.ctx.map (fun c => (c.1, if c.2.cid = some key then allotted c.2 else c.2))).filter (fun c => c.2 != ctx0) })) }

/-- A UALink port's event (R259). -/
def loupeUa (port code x part : Nat) (s : State) : State :=
  loupe (srcId 3 (port / 9) (port % 9)) (0x0300 + code) (natLe 8 x ++ natLe 2 part) s

/-- The local members of a collective, with their nodes. -/
def localNodes (s : State) (c : Coll) : List (Nat × Node) :=
  c.contribs.filterMap (fun k => k.node.bind (fun id => (tabFind s.dev.nodes id).map (fun x => (id, x))))

/-- Whether a collective has members on other packages. -/
def spread (c : Coll) : Bool := decide ((c.contribs.filter (fun k => k.node.isSome)).length ≤ c.nmem)

/-- Tells the other packages of a collective, where it has members there. -/
def tell (c : Coll) (x : Sent) (s : State) : State := if spread c then onDev (fun d => { d with outbox := d.outbox ++ [x] }) s else s

/-- The records of a fallback (R66). -/
def fellBack (c : Coll) (s : State) : State := (localNodes s c).foldl (fun t e => report e.2.vf (nodeRec 7 0 e.2) t) s

/-- This package's tree has a port without a context (R66): UAFALL of the first one, and its Loupe event. -/
def fallBack (c : Coll) (port : Nat) (s : State) : State :=
  fellBack c (loupeUa port 3 c.cid c.part (onDev (fun d => setPort port { getPort d port with fall := (getPort d port).fall + 1#64 } d) s))

/-- The collective begins, in fabric or at the endpoints: contributions are read. -/
def beginColl (c : Coll) (fabric : Bool) (s : State) : State :=
  (localNodes s c).foldl (fun t e =>
    cardSend e.1 1 (streamLen (readRegions e.2)) (fun id => streamReqs t e.1 e.2 id .read (readRegions e.2) []) t)
    (onColl c.cid (fun c => { c with started := true, fabric := fabric }) s)

/-- Every member's card has started (R66, R133): the collective takes a context on every port of this package's part of the tree, asks
the other packages about theirs, and begins in fabric, or, where any port lacks one, falls back. -/
def execCollectiveStart (cid : Nat) (s : State) : Host.Outcome State Fault Refusal :=
  match getColl s.dev cid with
  | none => .next s
  | some c =>
    if c.started then .next s
    else match (if c.asked then .ok s.dev else takeCtxs c.key c.part c.ports s.dev) with
      | .error q => .next (beginColl c false (fallBack c q (tell c (.contexts c.root cid false) s)))
      | .ok d =>
        let t := { s with dev := d }
        if !spread c || c.others = some true then .next (beginColl c true (if c.asked then t else tell c (.contexts c.root cid true) t))
        else if c.others = some false then .next (beginColl c false (fellBack c (onDev (freeCtxs c.key) t)))
        else if c.asked then .next t
        else .next (tell c (.contexts c.root cid true) (onColl cid (fun c => { c with asked := true }) t))

/-- Sends the groups of a local member's contribution to the members on other packages: up the tree in fabric, or, in a fallback, as
copy units bring them (R66); `k` is the contribution.  Once every local contribution is in, the engines' own residues follow (R69). -/
def sendGroups (c : Coll) (v die : Nat) (k : Contrib) (s : State) : State :=
  let els (g : Nat) := (groupOf c k g).map w64
  let rho (g : Nat) := tabGet 0 k.rhos g
  let s1 := (List.range (groupCount c)).foldl (fun t g =>
    chargeHops die c.root v 128 (tell c (if c.fabric then .contribution c.root c.cid k.member g (els g) (rho g)
      else .copied c.cid k.member g (els g) (rho g)) t)) s
  let mine := c.contribs.filter (fun x => x.node.isSome)
  if c.fabric && c.op == 0 && mine.all (fun x => x.groups.length == groupCount c) then
    (List.range (groupCount c)).foldl (fun t g =>
      tell c (.partSum c.root c.cid g (mine.foldl (fun a x => a + residue c.fmt (groupOf c x g)) 0 % 255)) t) s1
  else s1

/-- A local member's contribution has been read: with its residues it is combined here, and sent on (R66, R69). -/
def contribute (node : Nat) (x : Node) (bs : List Byte) (s : State) : State :=
  match getColl s.dev x.card.cid with
  | none => s
  | some c =>
    let w := redWidth c.fmt
    let elems : Tab (BitVec 64) := (List.range c.count).foldl (fun t i => tabSet 0#64 t i (w64 (field bs (w * i) w))) []
    let k : Contrib := ⟨localMember node, some node, none, elems, List.range (groupCount c), []⟩
    let k := { k with rhos := (List.range (groupCount c)).foldl (fun t g => tabSet 0 t g (residue c.fmt (groupOf c k g))) [] }
    let c1 := { c with contribs := c.contribs.map (fun y => if y.member = k.member then k else y) }
    let s1 := onCard node (fun y => { y with phase := 5 }) (onColl c.cid (fun _ => c1) s)
    if spread c then sendGroups c1 x.vf (getVf s.dev x.vf).die k s1 else s1

/-- Elements of one group of a member's contribution arrive at a port, with the sender's residue (R67, R69). -/
def execReductionContribution (w : TreePort) (member group : Nat) (elems : List (BitVec 64)) (residue' : Nat) (s : State) :
    Host.Outcome State Fault Refusal :=
  .next (onColl w.cid (fun c =>
    let old := (c.contribs.find? (fun k => k.member == member)).getD ⟨member, none, some w.port, [], [], []⟩
    if !c.started || old.node.isSome || old.groups.contains group || decide (groupCount c ≤ group) then c
    else
      { c with contribs := c.contribs.filter (fun k => k.member != member) ++ [{ old with
          elems := elems.zipIdx.foldl (fun t e => tabSet 0#64 t (group * groupEls c.fmt + e.2) e.1) old.elems
          groups := old.groups ++ [group]
          rhos := tabSet 0 old.rhos group (residue' % 255) }] }) s)

/-- Whether every group of every member is in. -/
def collFull (c : Coll) : Bool :=
  c.started && c.contribs.length == c.nmem + 1 && c.contribs.all (fun k => k.groups.length == groupCount c)

/-- The engine that takes a contribution up: in fabric that of the port where it comes in; a local one, and, in a fallback, every one,
that of the port nearest the root (log 28). -/
def engineOf (c : Coll) (k : Contrib) : Nat := (k.port.filter (fun p => c.fabric && c.ports.contains p)).getD c.root

/-- Whether the engine of port `p` finds a mismatch in a group (R69): its exact sum's residue differs from the sum of the residues that come
in.  What other engines of this package have summed comes in with the residue that they form, so what decides is what `p` takes up. -/
def groupBad (c : Coll) (p g : Nat) : Bool :=
  let ks := c.contribs.filter (fun k => engineOf c k == p)
  ks.foldl (fun a k => a + residue c.fmt (groupOf c k g)) 0 % 255 != ks.foldl (fun a k => a + tabGet 0 k.rhos g) 0 % 255

/-- The ports of this package whose engines find a mismatch: MIN and MAX are not checked. -/
def badPorts (c : Coll) : List Nat :=
  if c.op == 0 && collFull c then
    (c.root :: c.ports.filter (· != c.root)).filter (fun p => (List.range (groupCount c)).any (groupBad c p))
  else []

/-- Whether a residue of a sum differs, here or at another package (R69). -/
def collBad (c : Coll) : Bool := c.bad || !(badPorts c).isEmpty

/-- A mismatch that this package's engines find is counted at the ports that find it, and told to the other packages (R69). -/
def countBad (c : Coll) (s : State) : State :=
  let t := (badPorts c).foldl (fun t p => loupeUa p 4 c.cid c.part
    (onDev (fun d => setPort p { getPort d p with chk := (getPort d p).chk + 1#64 } d) t)) s
  if c.bad then t else tell c (.mismatch c.root c.cid) t

/-- The result of a collective, with its flags (R67). -/
def collResult (c : Coll) : List Byte × RedFlags :=
  let rs := (List.range c.count).map (fun i => reduceEl c.op c.fmt (c.contribs.map (fun k => (tabGet 0#64 k.elems i).toNat)))
  (rs.flatMap (fun r => natLe (redWidth c.fmt) r.1), rs.foldl (fun a r => a ||| r.2) 0#4)

/-- The status word of flags and a code (R154): OV, NV, OF, NX in bits 15 to 12. -/
def cardStatus (fl : RedFlags) (code : Nat) : Nat :=
  code + bitN (fl.getLsbD 0) 15 + bitN (fl.getLsbD 1) 14 + bitN (fl.getLsbD 2) 13 + bitN (fl.getLsbD 3) 12

/-- The requests of a list that free values choose: an unspecified mix of old and new data. -/
def someOf (s : State) (rs : List Req) : List Req := (rs.zipIdx.filter (fun e => Config.freeValue (s.free + e.2) % 2 == 1)).map Prod.fst

/-- Writes a card's destination from `bs`, whole or as an unspecified mix. -/
def cardWrite (node : Nat) (x : Node) (bs : List Byte) (mixed : Bool) (bad : Req → Bool) (status : Nat) (s : State) : State :=
  let all (id : Nat) := streamReqs s node x id .write (writeRegions x) bs
  let s1 := onCard node (fun c => { c with status := status }) s
  if mixed then
    cardSend node 2 (streamLen (writeRegions x)) (fun id => (someOf s (all id)).filter (fun r => !bad r)) { s1 with free := s.free + (all 0).length }
  else cardSend node 2 (streamLen (writeRegions x)) all s1

/-- A member of a withdrawn collective completes with its status (R70): what its destination holds then no rule states. -/
def withdrawnCard (node : Nat) (x : Node) (status : Nat) (s : State) : State :=
  let n := streamLen (writeRegions x)
  cardWrite node x (freeBytes s n) false (fun _ => false) status { s with free := s.free + 1 + n }

/-- The members of this package that have joined a collective. -/
def joined (c : Coll) : Nat := (c.contribs.filter (fun k => k.node.isSome)).length

/-- A withdrawn collective of a CID that has completed at the members that had started, and that others have still to join. -/
def lateColl (d : Dev) (cid : Nat) : Option Coll :=
  d.colls.find? (fun c => c.cid == cid && c.done && c.status == 2 && decide (joined c + c.away.getD 0 ≤ c.nmem))

/-- The collective card of a node joins its collective (R133); a member that starts after the withdrawal of another completes like the rest
(R70, log 39). -/
def joinColl (node : Nat) (x : Node) (s : State) : State :=
  let k : Contrib := ⟨localMember node, some node, none, [], [], []⟩
  let s := onCard node (fun c => { c with phase := 4 }) s
  let cid := x.card.cid
  match getColl s.dev cid, lateColl s.dev cid with
  | some _, _ => onColl cid (fun c => { c with contribs := c.contribs ++ [k] }) s
  | none, some l => withdrawnCard node x l.status (onDev (fun d => { d with colls := d.colls.map (fun c =>
      if c.key = l.key then { c with contribs := c.contribs ++ [k], waiting := c.waiting ++ [node] } else c) }) s)
  | none, none =>
    let c : Coll :=
      { key := s.nextId, cid := cid, part := (getVf s.dev x.vf).part, op := x.card.op, fmt := x.card.fmt, nmem := x.card.nmem
        count := x.card.count, ports := (treePorts s.dev x).eraseDups, root := rootPort s.dev x, asked := false, others := none
        fabric := false, started := false, contribs := [k], status := if s.dev.withdrawn.contains cid then 2 else 0, bad := false
        done := false, waiting := [], away := none }
    onDev (fun d => { d with colls := d.colls ++ [c], withdrawn := d.withdrawn.filter (· != cid) }) { s with nextId := s.nextId + 1 }

/-- Shares the energy of a reduction among the distinct VFs of its members (R157); how many VFs of other packages they are is not known
here, and free (log 28). -/
def oweReduction (s : State) (c : Coll) : State :=
  let vs := ((localNodes s c).map (fun e => e.2.vf)).eraseDups
  let far := c.nmem + 1 - (localNodes s c).length
  let n := vs.length + (if far = 0 then 0 else 1 + Config.freeValue s.free % far)
  let e := c.count * c.contribs.length * Config.coef (c.root / 9) 256 11
  onDev (fun d => { d with owed := vs.foldl (fun t v => tabSet 0 t v (tabGet 0 t v + e / n)) d.owed }) { s with free := s.free + 1 }

/-- Whether every member of a collective has its completion (R70): of a withdrawn one, those too that started later. -/
def everyone (c : Coll) : Bool :=
  c.done && c.waiting.isEmpty && (match c.away with
    | some n => c.status != 2 || decide (c.nmem < joined c + n)
    | none => false)

/-- Drops collectives whose completion every member has, with their contexts (R66, R70). -/
def dropColls (s : State) : State :=
  let gone := everyone
  onDev (fun d => { (d.colls.filter gone).foldl (fun d c => freeCtxs c.key d) d with colls := d.colls.filter (fun c => !gone c) }) s

/-- A member's card has ended: it has its collective's completion; when all of this package have it, the others are told (R70). -/
def collDelivered (node : Nat) (s : State) : State :=
  let last (c : Coll) : Bool := c.done && c.waiting == [node]
  let t := (s.dev.colls.filter last).foldl (fun t c => tell c (.delivered c.root c.cid (joined c)) t) s
  dropColls (onDev (fun d => { d with colls := d.colls.map (fun c => { c with waiting := c.waiting.filter (· != node) }) }) t)

/-- The collective completes at every member (R67 to R70): with its result, or with the status of a residue mismatch or of a withdrawn
member and a destination that no rule states. -/
def execCollectiveComplete (cid : Nat) (s : State) : Host.Outcome State Fault Refusal :=
  match getColl s.dev cid with
  | none => .next s
  | some c =>
    if !collFull c && c.status = 0 && !collBad c then .next s
    else
      let ns := (localNodes s c).filter (fun e => e.2.cst.phase == 1 || e.2.cst.phase ≥ 4)
      let s1 := dropColls (onColl cid (fun c => { c with done := true, waiting := ns.map Prod.fst, away := if spread c then c.away else some 0 }) (oweReduction s c))
      if c.status ≠ 0 then
        .next (ns.foldl (fun t e => withdrawnCard e.1 e.2 c.status t) s1)
      else
        let r := collResult c
        if collBad c then
          .next (ns.foldl (fun t e => cardWrite e.1 e.2 r.1 true (fun _ => false) (cardStatus r.2 1) t) (countBad c s1))
        else .next (ns.foldl (fun t e => cardWrite e.1 e.2 r.1 false (fun _ => false) (cardStatus r.2 0) t) s1)

/-- Withdraws a member's collective (R70): it will complete at every member as withdrawn. -/
def withdraw (x : Node) (s : State) : State :=
  match (if x.kind = 3 then getColl s.dev x.card.cid else none) with
  | some c => if c.status = 0 then tell c (.withdrawn c.root c.cid) (onColl c.cid (fun c => { c with status := 2 }) s) else s
  | none => s

/-- A member at another package is withdrawn (R70): where none has started here, those that start later complete so. -/
def withdrawnElsewhere (cid : Nat) (s : State) : State :=
  match getColl s.dev cid with
  | some _ => onColl cid (fun c => { c with status := 2 }) s
  | none => onDev (fun d => { d with withdrawn := d.withdrawn.filter (· != cid) ++ [cid] }) s

/-- Each of the `n` members of other packages has the completion of a collective, the oldest of that CID (R70). -/
def deliveredElsewhere (cid n : Nat) (s : State) : State :=
  match s.dev.colls.find? (fun c => c.cid == cid && c.away.isNone) with
  | some l => dropColls (onDev (fun d => { d with colls := d.colls.map (fun c => if c.key = l.key then { c with away := some n } else c) }) s)
  | none => s

/-- Whether the card of a VF that is reset may complete: "member withdrawn" has reached every remaining member (R92, R159). -/
def mayComplete (s : State) (x : Node) : Bool :=
  (getVf s.dev x.vf).state != 4 || x.kind != 3 || s.dev.colls.all (fun c => !c.done || c.cid != x.card.cid || c.status == 0
    || (c.away.isSome && c.waiting.all (fun n => ((tabFind s.dev.nodes n).map (·.vf)).getD x.vf == x.vf)))

/-! ### Cards -/

/-- A copy or drain card starts to read its source (R129, R133). -/
def startCopyCard (node : Nat) (x : Node) (s : State) : State :=
  let s1 := if x.kind = 4 then beginDrain node x s else s
  let n := streamLen (readRegions x)
  if n = 0 then cardDone node 0 s1
  else cardSend node 1 n (fun id =>
    let rs := streamReqs s1 node x id .read (readRegions x) []
    if x.kind = 4 then byAddress rs else rs) s1

/-- A card that runs starts (R129, R133): a copy or drain reads its source, a collective joins. -/
def execJobCardStart (node : Nat) (s : State) : Host.Outcome State Fault Refusal :=
  match tabFind s.dev.nodes node with
  | none => .next s
  | some x =>
    if x.st ≠ .running || x.kind == 1 || x.cst.phase != 0 then .next s
    else if cardRefused s x then .next (cardDone node 4 s)
    else if x.kind = 3 then .next (joinColl node x s)
    else .next (attempt (.drain node) (startCopyCard node x) s)

/-- The code of a reply's first error (R36, R154). -/
def errCode (es : List ReplyErr) : Nat :=
  match es with
  | [] => 0
  | e :: _ => if e.kind = 3 then 4 else 3

/-- A card's reply is in: its source has been read, or its destination written. -/
def cardReply (node id : Nat) (r : Reply) (s : State) : State :=
  let s := { s with replies := tabDel s.replies id }
  match tabFind s.dev.nodes node with
  | none => s
  | some x =>
    if x.cst.reply ≠ id then s
    else if x.cst.phase = 2 then
      cardDone node (if x.cst.status % 256 = 0 ∧ r.errs ≠ [] then errCode r.errs else x.cst.status) s
    else if r.errs ≠ [] then
      let lost (q : Req) : Bool := r.errs.any (fun e => decide (e.off < q.off + q.size) && decide (q.off < e.off + 64))
      cardWrite node x (replyBytes r) true lost (errCode r.errs) (withdraw x s)
    else if x.kind = 3 then contribute node x (replyBytes r) s
    else cardWrite node x (replyBytes r) false (fun _ => false) 0 s

/-- Whether a collective card may be re-run (R154): once, and only where its destination does not overlap its contribution. -/
def mayRerun (x : Node) : Bool :=
  x.kind == 3 && x.cst.status % 256 == 1 && x.cst.reruns == 0
    && !((readRegions x).any (fun a => (writeRegions x).any (fun b => overlaps a.index a.off a.len b.index b.off b.len)))

/-- What a card's end brings: done, re-run, faulted, or cancelled where a cancel is pending. -/
def endCard (node : Nat) (x : Node) (s : State) : State :=
  let s1 := if x.kind = 4 ∧ x.began then endDrain node x s else collDelivered node s
  match x.cancel with
  | some st => endNode node [nodeRec 3 st x] s1
  | none =>
    if mayRerun x then onCard node (fun c => { c with phase := 0, status := 0, reruns := 1 }) s1
    else if x.cst.status % 256 = 0 then freeNode node (satisfy node (report x.vf (nodeRec 4 x.cst.status x) s1))
    else endNode node [nodeRec 4 x.cst.status x] s1

/-- A card ends (R136, R139, R154); a drain accesses the entries of its frames first. -/
def execJobCardComplete (node : Nat) (s : State) : Host.Outcome State Fault Refusal :=
  match tabFind s.dev.nodes node with
  | none => .next s
  | some x =>
    if x.st ≠ .running || x.kind == 1 || x.cst.phase != 3 || !mayComplete s x then .next s
    else .next (attempt (.drain node) (endCard node x) s)

end Sys2Proof.Machine
end

