-- ==== Sys2Proof/Machine/Custodian.lean ====
section
/-!
DEFINITION. Custodian instructions, at their issue and at their targets (R396 to R408, R432, R433).
-/

namespace Sys2Proof.Machine

/-! ### Issue -/

/-- A custodian instruction of OP `op` (R285): outside a custodian task it is an illegal encoding whatever its predicate (R396);
its result lands with latency 1,088 (R397). -/
def custodianOp (op : Nat) (g : Guard) (d a b : BitVec 6) (s : State) : Host.Outcome State Fault Refusal :=
  finishOp s (do
    if !s.tk.cust then throw (illegal s 0x0D)
    guarded (predOn g s) s (do
      let e ← (if op = 30 then check s true false false false kLoad (readS s b) 32 else .ok 0#256)
      if op = 30 then scalarOverlap s false (readS s b) 32
      let c : CustOp := ⟨s.nextId, s.tid, s.tk.vf, 0, op, readS s a, readS s b, e, false, 0, none, []⟩
      .ok (landIn (emit (.cust c) (newReply 1 s)) 1088 (.load d s.nextId kLoad))))

def execKzero (g : Guard) (d a : BitVec 6) (s : State) := custodianOp 25 g d a 0#6 s
def execScrb (g : Guard) (d a b : BitVec 6) (s : State) := custodianOp 26 g d a b s
def execScrq (g : Guard) (d a b : BitVec 6) (s : State) := custodianOp 27 g d a b s
def execFrel (g : Guard) (d a b : BitVec 6) (s : State) := custodianOp 28 g d a b s
def execPlwr (g : Guard) (d a b : BitVec 6) (s : State) := custodianOp 29 g d a b s
def execBtwr (g : Guard) (d a b : BitVec 6) (s : State) := custodianOp 30 g d a b s
def execQwrt (g : Guard) (d a b : BitVec 6) (s : State) := custodianOp 31 g d a b s

/-! ### Results (R397) -/

/-- The result word: CODE, ITEM, VALUE. -/
def resultWord (code item value : Nat) : Word := w64 (2 ^ 56 * code + 2 ^ 48 * item + value % 2 ^ 48)

/-- What a target decides: the CODE and ITEM of a refusal, or the state after and the VALUE. -/
abbrev Verdict := Except (Nat × Nat) (State × Nat)

/-! ### Frame sets (R398) -/

/-- A frame set: whether it names physical frames, VF, stack, first and count. -/
structure FrameSet where
  phys  : Bool
  vf    : Nat
  stack : Nat
  first : Nat
  count : Nat
  deriving DecidableEq, Repr

/-- The set that two operands name, where they are good. -/
def frameSet (a b : Word) : Option FrameSet :=
  let f : FrameSet := ⟨a.getLsbD 31, fieldN a 21 10, fieldN a 16 5, fieldN a 0 16, fieldN b 0 9⟩
  if fieldN a 32 32 = 0 ∧ fieldN b 9 55 = 0 ∧ 1 ≤ f.count ∧ f.count ≤ 256 ∧ f.first + f.count ≤ 65536 ∧ (!f.phys || f.vf == 0) then some f
  else none

def FrameSet.items (f : FrameSet) : List Nat := (List.range f.count).map (f.first + ·)

/-- The first item of a set whose check gives a CODE other than 0. -/
def firstBad (check : Nat → Nat) (items : List Nat) : Option (Nat × Nat) :=
  (items.zipIdx.find? (fun e => check e.1 != 0)).map (fun e => (check e.1, e.2))

/-- The PFN that the entry of a GFN names. -/
def pfnOf (s : State) (f : FrameSet) (g : Nat) : Nat := ssPfn (ssEntry s f.vf f.stack g)

/-- The CODE of a GFN for SCRB and FREL (R401); an entry that could not be read, whose place in the set is among `lost`, counts as invalid
(log 17). -/
def gfnCode (s : State) (f : FrameSet) (lost : List Nat) (g : Nat) : Nat :=
  let e := ssEntry s f.vf f.stack g
  if dirWord s f.vf f.stack / 2 ^ 63 = 0 ∨ !ssV e ∨ lost.contains (g - f.first) then 5
  else if ssLoc e then 4
  else if ssLcount e > 0 ∨ ssSplit e then 3
  else 0

/-- Whether a frame's pool is another partition's, or it is bound for one. -/
def foreign (p : Nat) (f : Frame) : Bool := (f.pool != 0 && f.pool != p + 1) || decide (f.quar ≥ 2 ∧ f.quar ≠ p + 2)

/-- The CODE of a physical frame for SCRB (R401): outside the scope, owned or spare, or good. -/
def scrbCode (s : State) (p n fr : Nat) : Nat :=
  let f := getFrame s.dev n fr
  if foreign p f then 1
  else if f.own ≠ 0 ∨ f.spare then 4
  else if f.pool = p + 1 ∨ f.quar = p + 2 then 0
  else 1

/-- The CODE of a physical frame for SCRQ and FREL (R402). -/
def scrqCode (s : State) (p n fr : Nat) : Nat :=
  let f := getFrame s.dev n fr
  if foreign p f then 1 else if f.own ≠ 0 ∨ f.spare then 4 else 0

/-- A quarantined frame moves ahead of every frame that has not been promoted (R400). -/
def promoteFrame (n fr : Nat) : State → State :=
  onStack n (fun k =>
    if (k.queue.take k.prom).contains fr || !k.queue.contains fr then k
    else { k with queue := k.queue.take k.prom ++ [fr] ++ (k.queue.drop k.prom).filter (· != fr), prom := k.prom + 1 })

/-- Unmaps a GFN: V := 0 is an invalidation request, and the frame is quarantined (R122, R124, R401). -/
def unmapGfn (f : FrameSet) (s : State) (g : Nat) : State :=
  let e := ssEntry s f.vf f.stack g
  (writeSs f.vf f.stack (dirWord s f.vf f.stack % 65536 * 2 ^ 21 + 32 * g) true (e &&& ~~~(1#256 <<< 63)) s).1

/-- Passes one physical frame to the Polisher (R401). -/
def scrubFrame (p n : Nat) (s : State) (fr : Nat) : State :=
  if (getFrame s.dev n fr).quar = p + 2 then promoteFrame n fr s else quarantine n fr (some p) s

/-- Whether a VF belongs to partition `p`. -/
def inPart (d : Dev) (p v : Nat) : Bool := (getVf d v).state != 0 && (getVf d v).part == p

/-- Passes a set to the Polisher (R401): the state, VALUE, and the frames of the set. -/
def passSet (p : Nat) (f : FrameSet) (lost : List Nat) (s : State) : Except (Nat × Nat) (State × Nat × List Nat) :=
  if f.phys then
    match firstBad (scrbCode s p f.stack) f.items with
    | some c => .error c
    | none => .ok (f.items.foldl (scrubFrame p f.stack) s, 2 ^ 32 * f.count + f.first, f.items)
  else if !inPart s.dev p f.vf then .error (1, 0)
  else if !vfLive s.dev f.vf then .error (4, 0)
  else match firstBad (gfnCode s f lost) f.items with
    | some c => .error c
    | none => .ok (f.items.foldl (unmapGfn f) s, 2 ^ 32 * f.count + pfnOf s f f.first, f.items.map (pfnOf s f))

def scrb (p : Nat) (a b : Word) (lost : List Nat) (s : State) : Verdict :=
  match frameSet a b with
  | none => .error (2, 0)
  | some f => (passSet p f lost s).map (fun r => (r.1, r.2.1))

/-- Items of a set still in quarantine. -/
def unclean (s : State) (n : Nat) (items : List Nat) : List Nat := items.filter (fun fr => (getFrame s.dev n fr).quar != 0)

def scrq (p : Nat) (a b : Word) (s : State) : Verdict :=
  match frameSet a b with
  | none => .error (2, 0)
  | some f =>
    if !f.phys then .error (2, 0)
    else match firstBad (scrqCode s p f.stack) f.items with
      | some c => .error c
      | none =>
        let us := unclean s f.stack f.items
        let k := getStack s.dev f.stack
        .ok (s, 2 ^ 32 * us.length + (if us.head?.isSome && k.clearing == us.head? then k.recorded else 0))

/-- FREL (R403): the state, VALUE, and the frames it waits for. -/
def frel (p : Nat) (a b : Word) (lost : List Nat) (s : State) : Except (Nat × Nat) (State × Nat × List (Nat × Nat)) :=
  match frameSet a b with
  | none => .error (2, 0)
  | some f =>
    if f.phys then
      match firstBad (scrqCode s p f.stack) f.items with
      | some c => .error c
      | none => .ok (s, 2 ^ 32 * f.count + f.first, f.items.map (fun x => (f.stack, x)))
    else (passSet p f lost s).map (fun r => (r.1, r.2.1, r.2.2.map (fun x => (f.stack, x))))

/-! ### KZERO, PLWR, BTWR, QWRT -/

/-- ACTIVE and DEGRADED protected VFs that name a slot. -/
def slotUsers (d : Dev) (slot : Nat) : List Nat := (slotVfs d (· == slot)).filter (vfLive d)

/-- KZERO (R404). -/
def kzero (p : Nat) (a : Word) (overtaken : Bool) (s : State) : Verdict :=
  let slot := fieldN a 0 8
  if fieldN a 9 55 ≠ 0 then .error (2, 0)
  else if overtaken then .ok (s, 0)
  else match tabFind s.dev.trust.slots slot with
    | none => .error (5, 0)
    | some k =>
      if k.part ≠ p then .error (1, 0)
      else if !a.getLsbD 8 && !(slotUsers s.dev slot).isEmpty then .error (3, 0)
      else
        let t := onDev (fun d => { d with trust := { d.trust with slots := tabDel d.trust.slots slot } }) s
        .ok ((slotUsers s.dev slot).foldl (fun t v => keyLost v t) t, 0)

/-- The CODE of a frame that PLWR adds to a pool, or removes from it (R405, R432). -/
def plwrCode (s : State) (p n : Nat) (add : Bool) (fr : Nat) : Nat :=
  let f := getFrame s.dev n fr
  if f.pool ≠ 0 ∧ f.pool ≠ p + 1 then 1
  else if add then (if f.spare || f.quar != 0 || f.own != 0 || f.pool != 0 then 3 else 0)
  else if f.own ≠ 0 then 3
  else if f.quar ≠ 0 ∨ f.spare then 4
  else if f.pool = 0 then 5
  else 0

/-- PLWR (R405); as for POOLADD, a stack that is not up takes no frames: CODE 4 (R30, log 56). -/
def plwr (p : Nat) (a b : Word) (s : State) : Verdict :=
  let n := fieldN a 16 5
  let first := fieldN a 0 16
  let cnt := fieldN b 0 9
  let add := a.getLsbD 31
  if fieldN a 32 32 ≠ 0 ∨ fieldN a 21 10 ≠ 0 ∨ fieldN b 9 55 ≠ 0 ∨ cnt = 0 ∨ 256 < cnt ∨ 65536 < first + cnt then .error (2, 0)
  else
    let items := (List.range cnt).map (first + ·)
    if add && !(getStack s.dev n).up then .error (4, 0)
    else match firstBad (plwrCode s p n add) items with
    | some c => .error c
    | none => .ok (items.foldl (fun t fr => onFrame n fr (fun f => { f with pool := if add then p + 1 else 0 }) t) s, cnt)

/-- QWRT (R407). -/
def qwrt (p : Nat) (a b : Word) (s : State) : Verdict :=
  let v := fieldN a 0 10
  let st := (getVf s.dev v).state
  if fieldN a 10 54 ≠ 0 then .error (2, 0)
  else if st ≠ 0 ∧ (getVf s.dev v).part ≠ p then .error (1, 0)
  else if st = 0 ∨ st = 4 ∨ st = 5 then .error (4, 0)
  else
    let t := quotaCheck v (addAcct v b.toInt s)
    let x := max (-(2 ^ 47 : Int)) (min (2 ^ 47 - 1) (getVf t.dev v).acct)
    .ok (t, (x % 2 ^ 48).toNat)

/-- The checks of BTWR at its target before its source is read (R406). -/
def btwrCode (s : State) (c : CustOp) : Option Nat :=
  let v := fieldN c.a 0 10
  if fieldN c.a 10 6 ≠ 0 ∨ fieldN c.a 32 32 ≠ 0 ∨ fieldN c.a 16 16 ≤ 15 ∨ fieldN c.b 0 5 ≠ 0 then some 2
  else if !inPart s.dev (getVf s.dev c.vf).part v then some 1
  else if !vfLive s.dev v then some 4
  else none

/-- Queues BTWR's read of its source, an access of its task in program order (R244, R246, R406). -/
def readSource (c : CustOp) (s : State) : State × CustOp :=
  let rs := rangeReqs (.task c.tid 0) c.vf s.nextId 0 (fieldN c.b 48 16) c.entry (fieldN c.b 0 48) 32 .read []
  ({ s with
      nextId := s.nextId + 1
      replies := tabPut s.replies s.nextId ⟨.task c.tid 0, 0, rs.length, [], [], false⟩
      reqs := s.reqs ++ rs }, { c with src := s.nextId })

/-- A custodian instruction sets out for its target: BTWR's source is read unless its checks there would refuse it. -/
def sendCust (c : CustOp) (s : State) : State :=
  let r := if c.op = 30 ∧ btwrCode s c = none then readSource c s else (s, c)
  onDev (fun d => { d with custs := d.custs ++ [{ r.2 with due := s.cyc + 1 }] }) r.1

/-- BTWR's write under R114, once its entry has been accessed: the VALUE, 0 where the entry could not be written for uncorrectable data
(log 17), or CODE 3. -/
def btwrWrite (c : CustOp) (bs : List Byte) (s : State) : State × Except (Nat × Nat) Nat :=
  let v := fieldN c.a 0 10
  let i := fieldN c.a 16 16
  let r := askEntries (.cust c.reply) [] c.vf [btPlace s.dev v i] s
  if !r.2.isEmpty then (r.1, .ok 0)
  else
    let w := writeBt v (btPlace s.dev v i).1 (btPlace s.dev v i).2 (BitVec.ofNat 256 (leNat bs)) r.1
    (w.1, if w.2 then .ok 1 else .error (3, 0))

/-! ### At the target -/

/-- The reply of a custodian instruction arrives with its result word, or with the error of a read. -/
def custReply (id : Nat) (w : Word) (errs : List ReplyErr) (s : State) : State :=
  match tabFind s.replies id with
  | none => s
  | some r =>
    let r1 := { r with left := 0, data := tabSetBytes [] 0 (natLe 8 w.toNat), errs := errs, ok := true }
    { s with replies := tabPut s.replies id r1 }

/-- Ends a custodian instruction with a CODE: nothing has changed, and one outside its scope raises tamper cause C (R396). -/
def custRefuse (id code item : Nat) (s : State) : State :=
  let t := custReply id (resultWord code item 0) [] s
  if code = 1 then alarm 4 t else t

/-- The result of a target's verdict. -/
def settleCust (id : Nat) (s : State) (v : Verdict) : State :=
  match v with
  | .ok (t, value) => custReply id (resultWord 0 0 value) [] t
  | .error (code, item) => custRefuse id code item s

/-- A FREL waits until its frames have left quarantine (R403). -/
def frelWait (c : CustOp) (value : Nat) (fs : List (Nat × Nat)) (s : State) : State :=
  let left := fs.filter (fun f => (getFrame s.dev f.1 f.2).quar != 0)
  if left.isEmpty then custReply c.reply (resultWord 0 0 value) [] s
  else onDev (fun d => { d with custs := d.custs ++ [{ c with passed := some value, wait := left }] }) s

/-- BTWR at its target (R406). -/
def performBtwr (c : CustOp) (s : State) : State :=
  match btwrCode s c, tabFind s.replies c.src with
  | some code, _ => custRefuse c.reply code 0 { s with replies := tabDel s.replies c.src }
  | none, none =>
    let r := readSource c s
    onDev (fun d => { d with custs := d.custs ++ [r.2] }) r.1
  | none, some x =>
    if x.left ≠ 0 then onDev (fun d => { d with custs := d.custs ++ [c] }) s
    else match x.errs with
      | e :: _ => custReply c.reply 0#64 [{ e with off := 0, kind := 1 }] { s with replies := tabDel s.replies c.src }
      | [] =>
        let r := btwrWrite c (tabBytes x.data 0 32) s
        let t := { r.1 with replies := tabDel r.1.replies c.src }
        match r.2 with
        | .ok v => custReply c.reply (resultWord 0 0 v) [] t
        | .error e => custRefuse c.reply e.1 e.2 t

/-- The entries that SCRB and FREL access for a set of GFNs of a VF whose state lets them act (R401, R403). -/
def setEntries (s : State) (p : Nat) (a b : Word) : List (Nat × Nat) :=
  match frameSet a b with
  | some f => if f.phys || !inPart s.dev p f.vf || !vfLive s.dev f.vf || dirWord s f.vf f.stack / 2 ^ 63 == 0 then []
    else f.items.map (fun g => ssPlace s f.vf f.stack g)
  | none => []

/-- A custodian instruction is performed at its target (R397), with the accesses to entries that it takes there. -/
def performCust (c : CustOp) (s : State) : State :=
  let p := (getVf s.dev c.vf).part
  if c.op = 25 then settleCust c.reply s (kzero p c.a c.overtaken s)
  else if c.op = 26 then
    let r := askEntries (.cust c.reply) [] c.vf (setEntries s p c.a c.b) s
    settleCust c.reply r.1 (scrb p c.a c.b r.2 r.1)
  else if c.op = 27 then settleCust c.reply s (scrq p c.a c.b s)
  else if c.op = 28 then
    let r := askEntries (.cust c.reply) [] c.vf (setEntries s p c.a c.b) s
    match frel p c.a c.b r.2 r.1 with
    | .error e => custRefuse c.reply e.1 e.2 r.1
    | .ok x => frelWait c x.2.1 x.2.2 x.1
  else if c.op = 29 then settleCust c.reply s (plwr p c.a c.b s)
  else if c.op = 30 then performBtwr c s
  else settleCust c.reply s (qwrt p c.a c.b s)

/-- A custodian instruction is performed at its target, or a FREL looks again at the frames it awaits (R397, R403). -/
def execCustodianResult (id : Nat) (s : State) : Host.Outcome State Fault Refusal :=
  match s.dev.custs.find? (fun c => c.reply == id) with
  | none => .next s
  | some c =>
    if s.cyc < c.due then .next s
    else .next (attempt (.cust id) (fun s =>
      let s1 := onDev (fun d => { d with custs := d.custs.filter (fun x => x.reply != id) }) s
      match c.passed with
      | some value => frelWait c value c.wait s1
      | none => performCust c s1) s)

end Sys2Proof.Machine
end

