-- ==== Sys2Proof/Machine/Vector.lean ====
section
/-!
DEFINITION. Classes 001 and 010: operand rows and latches, grants and tails, and every vector operation (R200, R208 to R210,
R324 to R348).
-/

namespace Sys2Proof.Machine

/-! ### Rows, lanes and tails -/

/-- SH3 as a vector operation meets it (R208): no grant, or rows and requested lanes; otherwise the shape fault. -/
def sh3Form (s : State) : Except Trap (Option (Nat × Nat)) :=
  let v := tabGet 0#64 s.sq.sh 3
  if shG v && shVec v then .ok (some (shGM v, shQM v))
  else if shG v then .error (trapOf s 0x06 0x02 3#64 v 0#64)
  else if shVec v || shQM v != 0 || shQN v != 0 then .error (trapOf s 0x06 0x01 3#64 v 0#64)
  else .ok none

/-- Rows of a row-wise operation and its requested lanes, as its reads are planned (R210, R327). -/
def vecRows (s : State) : Nat :=
  let v := tabGet 0#64 s.sq.sh 3
  if shG v && shVec v then shGM v / lanesOf s else 1

def vecLimit (s : State) : Nat :=
  let v := tabGet 0#64 s.sq.sh 3
  if shG v && shVec v then shQM v else lanesOf s

/-- Whether lane `l` of row `j` is a tail lane (R209). -/
def isTail (s : State) (j l : Nat) : Bool := decide (vecLimit s ≤ j * lanesOf s + l)

/-- A row with its tail lanes read as zero (R209). -/
def tailed (s : State) (j : Nat) (r : Row) : Row := r.zipIdx.map (fun e => if isTail s j e.2 then 0#32 else e.1)

/-- Where an operand position takes its rows from. -/
inductive Src where
  /-- Nothing is read. -/
  | none
  /-- Window rows v(n), v(n + 1), … -/
  | win (n : Nat)
  /-- The latch (R200). -/
  | hold
  /-- Group rows from `x` up, modulo 2,304 (R346). -/
  | abs (x : Nat)
  deriving DecidableEq, Repr

def srcOf (v : VOp) : Src := if v.hold then .hold else .win v.n.toNat

/-- The group row an operand reads from a bank in read cycle `j` (R326). -/
def srcRow (s : State) (j : Nat) : Src → Option Nat
  | .win n => some (winRow s (n + j))
  | .abs x => some ((x + j) % rowCount)
  | _ => none

/-- The operand row of read cycle `j`, from its bank or its latch, with tails as zero. -/
def srcLanes (s : State) (latch j : Nat) (x : Src) : Row :=
  tailed s j (match srcRow s j x with
    | some r => readRow s.tk.g s.sq.lrs r
    | none => if x = .hold then tabGet [] s.sq.lat latch else [])

/-- Loads the latches of positions A and B with the rows read last (R200, R326). -/
def loadLatch (s : State) (latch n : Nat) (x : Src) : State :=
  match x with
  | .win _ => match srcRow s (n - 1) x with
    | some r => { s with sq := { s.sq with lat := tabSet [] s.sq.lat latch (readRow s.tk.g s.sq.lrs r) } }
    | none => s
  | _ => s

/-- What one lane of a result row writes: its value, the bytes written and the flags. -/
structure LaneRes where
  v  : BitVec 32
  en : BitVec 4
  fl : BitVec 5
  deriving DecidableEq, Repr

def lane (v : BitVec 32) (fl : BitVec 5) : LaneRes := ⟨v, 15#4, fl⟩

/-- Bytes of lane `l` of group row `x`. -/
def laneBytes (g x l : Nat) (r : LaneRes) : List (Nat × Byte) :=
  (List.range 4).filterMap (fun b =>
    if r.en.getLsbD b then some (rowByte g x (4 * l + b), r.v.extractLsb' (8 * b) 8) else none)

/-- Active lanes of row `j` (R325). -/
def activeLanes (s : State) (mask : BitVec 128) (j : Nat) : List Nat :=
  (List.range (lanesOf s)).filter (fun l => mask.getLsbD l && !isTail s j l)

/-- The landing of a result row (R328): only active lanes; a row without any lands nothing. -/
def landRow (s : State) (t : Nat) (x : Nat) (rs : List (Nat × LaneRes)) : State :=
  if rs.isEmpty then s
  else landAt s t (.row x (allCols s.tk.g) (rs.flatMap (fun e => laneBytes s.tk.g x e.1 e.2))
    (rs.foldl (fun f e => f ||| e.2.fl) 0#5))

/-- The last cycle of read cycle `j` (R327). -/
def cycOf (s : State) (j : Nat) : Nat := s.ix.cyc.getD j s.ix.cl

/-- The checks of reading and landing rows (R184, R200, R216). -/
def rowsCheck (s : State) (n : Nat) (srcs : List (Nat × Src)) (dst : List Nat) : Except Trap Unit := do
  for e in srcs do
    if e.2 = .hold ∧ (tabFind s.sq.lat e.1).isNone then
      throw (timing s 0x03 8 e.1 (seqCol s) never (w64 e.1))
    for j in List.range n do
      match srcRow s j e.2 with
      | some x => lrsCheck s x 0
      | none => pure ()
  for x in dst do
    if !ownsRow s.sq x then throw (timing s 0x02 6 (x % 6) (seqCol s) never (w64 x))

/-- Latches loaded by an operation whose A and B fields are `a` and `b`. -/
def latched (vb : Bool) (n : Nat) (a b : Src) (s : State) : State :=
  loadLatch (loadLatch s (latchNo vb false) n a) (latchNo vb true) n b

/-- The frame every vector operation shares (R274, R326): latches load whatever the mask; with its predicate off it does nothing
else; otherwise the checks run and its effect follows. -/
def vecFrame (on : Bool) (vb : Bool) (n : Nat) (a b : Src) (s : State) (chk : Except Trap Unit) (eff : State → State) :
    Host.Outcome State Fault Refusal :=
  let t := latched vb n a b s
  if !on then .next (charge 5 1 t)
  else finish s (do
    chk
    .ok (eff t))

/-- What a row-wise operation on the rows of `s` adds to `t` (R155, R327, R328): its charges, and the landing of each result row. -/
def vecEffect (vb fp : Bool) (lat : Nat) (mask : BitVec 128) (dst : Nat) (a b d : Src)
    (f : Nat → Row → Row → Row → Nat → LaneRes) (s t : State) : State :=
  let rows := List.range (vecRows s)
  charge (if fp then 3 else 4) (rows.foldl (fun k j => k + (activeLanes s mask j).length) 0)
    (charge 1 (rows.foldl (fun k j => k + ([a, b, d].filterMap (srcRow s j)).length) 0)
      (rows.foldl (fun t j =>
        let ra := srcLanes s (latchNo vb false) j a
        let rb := srcLanes s (latchNo vb true) j b
        let rd := srcLanes s 4 j d
        landRow t (cycOf s j + lat - 1) (winRow s (dst + j))
          ((activeLanes s mask j).map (fun l => (l, f j ra rb rd l)))) t))

/-- The row-wise operation: one result row per read cycle (R327).  `f j a b d l` is what lane `l` of row `j` writes. -/
def vecOp (vb fp : Bool) (lat : Nat) (mask : BitVec 128) (on : Bool) (resv : Except Trap Unit) (dst : Nat) (a b d : Src)
    (f : Nat → Row → Row → Row → Nat → LaneRes) (s : State) : Host.Outcome State Fault Refusal :=
  let n := vecRows s
  let rows := List.range n
  vecFrame on vb n a b s
    (do
      resv
      let _ ← sh3Form s
      rowsCheck s n [(latchNo vb false, a), (latchNo vb true, b), (4, d)] (rows.map (fun j => winRow s (dst + j))))
    (vecEffect vb fp lat mask dst a b d f s)

/-- A lane of a row. -/
def at' (r : Row) (l : Nat) : BitVec 32 := r.getD l 0#32

/-! ### Elements -/

/-- The reserved PREC values (R230, R325). -/
def vftOk (s : State) : Except Trap Unit := if pVft s.sq.prec = 3 then .error (illegal s 0x0F) else .ok ()
def viwOk (s : State) : Except Trap Unit := if pViw s.sq.prec = 3 then .error (illegal s 0x0F) else .ok ()

def vft (s : State) : Fmt := match pVft s.sq.prec with
  | 0 => fp32
  | 1 => bf16
  | _ => f16

def viw (s : State) : Nat := match pViw s.sq.prec with
  | 0 => 32
  | 1 => 16
  | _ => 8

/-- Element `e` of width `w` of a lane (R239). -/
def elem (w : Nat) (v : BitVec 32) (e : Nat) : Nat := v.toNat / 2 ^ (w * e) % 2 ^ w

/-- A lane from its elements. -/
def ofElems (w : Nat) (xs : List Nat) : BitVec 32 :=
  BitVec.ofNat 32 (xs.zipIdx.foldl (fun a e => a + e.1 % 2 ^ w * 2 ^ (w * e.2)) 0)

/-- An element-wise FP function on a lane (R239, R240). -/
def fpLane (f : Fmt) (op : Nat → Nat → Nat → Nat × BitVec 5) (a b d : BitVec 32) : LaneRes :=
  let rs := (List.range (32 / f.width)).map (fun e => op (elem f.width a e) (elem f.width b e) (elem f.width d e))
  lane (ofElems f.width (rs.map Prod.fst)) (rs.foldl (fun x r => x ||| r.2) 0#5)

/-- FP operations with operands A and B (and D when fused). -/
def fpOp (vb : Bool) (lat : Nat) (fused : Bool) (op : Fmt → BitVec 2 → Nat → Nat → Nat → Nat × BitVec 5) (g : Guard)
    (d : BitVec 8) (a b : VOp) (s : State) : Host.Outcome State Fault Refusal :=
  vecOp vb true lat (laneMask g s) (laneMask g s != 0#128) (vftOk s) d.toNat (srcOf a) (srcOf b)
    (if fused then .win d.toNat else .none)
    (fun _ x y z l => fpLane (vft s) (op (vft s) (pRm s.sq.prec)) (at' x l) (at' y l) (at' z l)) s

/-- FP operations with operand A alone. -/
def fpUn (vb : Bool) (lat : Nat) (op : Fmt → BitVec 2 → Nat → Nat × BitVec 5) (g : Guard) (d : BitVec 8) (a : VOp) (s : State) :
    Host.Outcome State Fault Refusal :=
  vecOp vb true lat (laneMask g s) (laneMask g s != 0#128) (vftOk s) d.toNat (srcOf a) .none .none
    (fun _ x _ _ l => fpLane (vft s) (fun p _ _ => op (vft s) (pRm s.sq.prec) p) (at' x l) 0#32 0#32) s

/-- An operation from its exact result (R240). -/
def byX (x : Fmt → BitVec 2 → FV → FV → FV → XR) (f : Fmt) (rm : BitVec 2) (a b d : Nat) : Nat × BitVec 5 :=
  encodeX f rm (x f rm (decodeF f a) (decodeF f b) (decodeF f d))

def addEl := byX (fun _ rm a b _ => addX rm a b)
def subEl := byX (fun _ rm a b _ => addX rm a (negF b))
def mulEl := byX (fun _ _ a b _ => mulX a b)
def fmaEl := byX (fun _ rm a b d => fmaX rm a b d)
def fmsEl := byX (fun _ rm a b d => fmaX rm a b (negF d))
def fnmaEl := byX (fun _ rm a b d => fmaX rm (negF a) b d)
def divEl := byX (fun f _ a b _ => divX f a b)

/-- VMIN and VMAX (R331). -/
def minmaxEl (max : Bool) (f : Fmt) (_ : BitVec 2) (a b _ : Nat) : Nat × BitVec 5 :=
  let x := decodeF f a
  let y := decodeF f b
  if isNan x || isNan y then (f.canon, snanFlag [x, y])
  else (if (if max then beforeF x y else beforeF y x) then b else a, 0#5)

/-- VABS and VNEG (R331). -/
def signEl (neg : Bool) (f : Fmt) (_ : BitVec 2) (a : Nat) : Nat × BitVec 5 :=
  let x := decodeF f a
  if isNan x then (f.canon, snanFlag [x])
  else (a % 2 ^ (f.width - 1) + (if neg && a / 2 ^ (f.width - 1) % 2 == 0 then 2 ^ (f.width - 1) else 0), 0#5)

def execVaddVa (g : Guard) (d : BitVec 8) (a b : VOp) (s : State) := fpOp false 4 false addEl g d a b s
def execVaddVb (g : Guard) (d : BitVec 8) (a b : VOp) (s : State) := fpOp true 4 false addEl g d a b s
def execVsubVa (g : Guard) (d : BitVec 8) (a b : VOp) (s : State) := fpOp false 4 false subEl g d a b s
def execVsubVb (g : Guard) (d : BitVec 8) (a b : VOp) (s : State) := fpOp true 4 false subEl g d a b s
def execVmulVa (g : Guard) (d : BitVec 8) (a b : VOp) (s : State) := fpOp false 4 false mulEl g d a b s
def execVmulVb (g : Guard) (d : BitVec 8) (a b : VOp) (s : State) := fpOp true 4 false mulEl g d a b s
def execVfmaVa (g : Guard) (d : BitVec 8) (a b : VOp) (s : State) := fpOp false 4 true fmaEl g d a b s
def execVfmaVb (g : Guard) (d : BitVec 8) (a b : VOp) (s : State) := fpOp true 4 true fmaEl g d a b s
def execVfmsVa (g : Guard) (d : BitVec 8) (a b : VOp) (s : State) := fpOp false 4 true fmsEl g d a b s
def execVfmsVb (g : Guard) (d : BitVec 8) (a b : VOp) (s : State) := fpOp true 4 true fmsEl g d a b s
def execVfnmaVa (g : Guard) (d : BitVec 8) (a b : VOp) (s : State) := fpOp false 4 true fnmaEl g d a b s
def execVfnmaVb (g : Guard) (d : BitVec 8) (a b : VOp) (s : State) := fpOp true 4 true fnmaEl g d a b s
def execVminVa (g : Guard) (d : BitVec 8) (a b : VOp) (s : State) := fpOp false 4 false (minmaxEl false) g d a b s
def execVminVb (g : Guard) (d : BitVec 8) (a b : VOp) (s : State) := fpOp true 4 false (minmaxEl false) g d a b s
def execVmaxVa (g : Guard) (d : BitVec 8) (a b : VOp) (s : State) := fpOp false 4 false (minmaxEl true) g d a b s
def execVmaxVb (g : Guard) (d : BitVec 8) (a b : VOp) (s : State) := fpOp true 4 false (minmaxEl true) g d a b s
def execVabsVa (g : Guard) (d : BitVec 8) (a : VOp) (s : State) := fpUn false 4 (signEl false) g d a s
def execVabsVb (g : Guard) (d : BitVec 8) (a : VOp) (s : State) := fpUn true 4 (signEl false) g d a s
def execVnegVa (g : Guard) (d : BitVec 8) (a : VOp) (s : State) := fpUn false 4 (signEl true) g d a s
def execVnegVb (g : Guard) (d : BitVec 8) (a : VOp) (s : State) := fpUn true 4 (signEl true) g d a s
def execVrcpeVa (g : Guard) (d : BitVec 8) (a : VOp) (s : State) := fpUn false 3 (fun f _ x => rcpe f (decodeF f x)) g d a s
def execVrcpeVb (g : Guard) (d : BitVec 8) (a : VOp) (s : State) := fpUn true 3 (fun f _ x => rcpe f (decodeF f x)) g d a s
def execVrsqeVa (g : Guard) (d : BitVec 8) (a : VOp) (s : State) := fpUn false 3 (fun f _ x => rsqe f (decodeF f x)) g d a s
def execVrsqeVb (g : Guard) (d : BitVec 8) (a : VOp) (s : State) := fpUn true 3 (fun f _ x => rsqe f (decodeF f x)) g d a s
def execVdiv (g : Guard) (d : BitVec 8) (a b : VOp) (s : State) := fpOp false 14 false divEl g d a b s
def execVsqrt (g : Guard) (d : BitVec 8) (a : VOp) (s : State) :=
  fpUn false 14 (fun f rm x => encodeX f rm (sqrtX f (decodeF f x))) g d a s
def execVexp2 (g : Guard) (d : BitVec 8) (a : VOp) (s : State) :=
  fpUn false 10 (fun f rm x => encodeX f rm (exp2X f (decodeF f x))) g d a s
def execVlog2 (g : Guard) (d : BitVec 8) (a : VOp) (s : State) :=
  fpUn false 10 (fun f rm x => encodeX f rm (log2X f (decodeF f x))) g d a s

/-! ### Integer arithmetic and logic (R335, R336) -/

/-- An element-wise integer function on a lane. -/
def intLane (w : Nat) (op : Nat → Nat → Nat → Nat → Nat) (a b d : BitVec 32) : LaneRes :=
  lane (ofElems w ((List.range (32 / w)).map (fun e => op w (elem w a e) (elem w b e) (elem w d e)))) 0#5

def intOp (vb fused : Bool) (op : Nat → Nat → Nat → Nat → Nat) (g : Guard) (d : BitVec 8) (a b : VOp) (s : State) :
    Host.Outcome State Fault Refusal :=
  vecOp vb false 2 (laneMask g s) (laneMask g s != 0#128) (viwOk s) d.toNat (srcOf a) (srcOf b)
    (if fused then .win d.toNat else .none)
    (fun _ x y z l => intLane (viw s) op (at' x l) (at' y l) (at' z l)) s

/-- Whole-lane operations, which read no type (R325). -/
def rawOp (vb : Bool) (lat : Nat) (op : BitVec 32 → BitVec 32 → BitVec 32) (g : Guard) (d : BitVec 8) (a b : Src) (s : State) :
    Host.Outcome State Fault Refusal :=
  vecOp vb false lat (laneMask g s) (laneMask g s != 0#128) (.ok ()) d.toNat a b .none
    (fun _ x y _ l => lane (op (at' x l) (at' y l)) 0#5) s

def iaddEl (_ a b _ : Nat) : Nat := a + b
def isubEl (w a b _ : Nat) : Nat := a + (2 ^ w - b)
def imulEl (_ a b _ : Nat) : Nat := a * b
def imacEl (_ a b d : Nat) : Nat := a * b + d
def ishlEl (w a c _ : Nat) : Nat := if c ≥ w then 0 else a * 2 ^ c
def ishrEl (w a c _ : Nat) : Nat := if c ≥ w then 0 else a / 2 ^ c
def ishraEl (w a c _ : Nat) : Nat := intBits w (if c ≥ w then (if sextN w a < 0 then -1 else 0) else sextN w a / 2 ^ c)

def execViaddVa (g : Guard) (d : BitVec 8) (a b : VOp) (s : State) := intOp false false iaddEl g d a b s
def execViaddVb (g : Guard) (d : BitVec 8) (a b : VOp) (s : State) := intOp true false iaddEl g d a b s
def execVisubVa (g : Guard) (d : BitVec 8) (a b : VOp) (s : State) := intOp false false isubEl g d a b s
def execVisubVb (g : Guard) (d : BitVec 8) (a b : VOp) (s : State) := intOp true false isubEl g d a b s
def execVimulVa (g : Guard) (d : BitVec 8) (a b : VOp) (s : State) := intOp false false imulEl g d a b s
def execVimulVb (g : Guard) (d : BitVec 8) (a b : VOp) (s : State) := intOp true false imulEl g d a b s
def execVimacVa (g : Guard) (d : BitVec 8) (a b : VOp) (s : State) := intOp false true imacEl g d a b s
def execVimacVb (g : Guard) (d : BitVec 8) (a b : VOp) (s : State) := intOp true true imacEl g d a b s
def execVandVa (g : Guard) (d : BitVec 8) (a b : VOp) (s : State) := rawOp false 2 (· &&& ·) g d (srcOf a) (srcOf b) s
def execVandVb (g : Guard) (d : BitVec 8) (a b : VOp) (s : State) := rawOp true 2 (· &&& ·) g d (srcOf a) (srcOf b) s
def execVorVa (g : Guard) (d : BitVec 8) (a b : VOp) (s : State) := rawOp false 2 (· ||| ·) g d (srcOf a) (srcOf b) s
def execVorVb (g : Guard) (d : BitVec 8) (a b : VOp) (s : State) := rawOp true 2 (· ||| ·) g d (srcOf a) (srcOf b) s
def execVxorVa (g : Guard) (d : BitVec 8) (a b : VOp) (s : State) := rawOp false 2 (· ^^^ ·) g d (srcOf a) (srcOf b) s
def execVxorVb (g : Guard) (d : BitVec 8) (a b : VOp) (s : State) := rawOp true 2 (· ^^^ ·) g d (srcOf a) (srcOf b) s
def execVshlVa (g : Guard) (d : BitVec 8) (a b : VOp) (s : State) := intOp false false ishlEl g d a b s
def execVshlVb (g : Guard) (d : BitVec 8) (a b : VOp) (s : State) := intOp true false ishlEl g d a b s
def execVshrVa (g : Guard) (d : BitVec 8) (a b : VOp) (s : State) := intOp false false ishrEl g d a b s
def execVshrVb (g : Guard) (d : BitVec 8) (a b : VOp) (s : State) := intOp true false ishrEl g d a b s
def execVshraVa (g : Guard) (d : BitVec 8) (a b : VOp) (s : State) := intOp false false ishraEl g d a b s
def execVshraVb (g : Guard) (d : BitVec 8) (a b : VOp) (s : State) := intOp true false ishraEl g d a b s

/-! ### Compares, selection and masks (R329, R337, R338) -/

/-- What a compare on the rows of `s` adds to `t`: for every lane active in some row, the mask bit says whether the condition
holds in every active element of the lane (R337). -/
def cmpEffect (vb fp : Bool) (w : Nat) (c : Nat → Nat → Bool × BitVec 5) (mask : BitVec 128) (m : BitVec 3) (a b : VOp)
    (s t : State) : State :=
  let rows := List.range (vecRows s)
  let res (j l : Nat) : List (Bool × BitVec 5) :=
    (List.range (32 / w)).map (fun e =>
      c (elem w (at' (srcLanes s (latchNo vb false) j (srcOf a)) l) e) (elem w (at' (srcLanes s (latchNo vb true) j (srcOf b)) l) e))
  let act := rows.flatMap (fun j => (activeLanes s mask j).map (fun l => (j, l)))
  let en := act.foldl (fun (x : BitVec 128) e => x ||| (1#128 <<< e.2)) 0#128
  let bad := act.foldl (fun (x : BitVec 128) e => if (res e.1 e.2).all (fun r => r.1) then x else x ||| (1#128 <<< e.2)) 0#128
  let fl := act.foldl (fun (x : BitVec 5) e => (res e.1 e.2).foldl (fun y r => y ||| r.2) x) 0#5
  charge (if fp then 3 else 4) act.length (charge 1 (rows.foldl (fun k j =>
    k + ([srcOf a, srcOf b].filterMap (srcRow s j)).length) 0) (landIn t 2 (.mask m en (en &&& ~~~bad) fl)))

/-- A compare (R337). -/
def cmpOp (vb fp : Bool) (resv : Except Trap Unit) (w : Nat) (c : Nat → Nat → Bool × BitVec 5) (g : Guard) (m : BitVec 3)
    (a b : VOp) (s : State) : Host.Outcome State Fault Refusal :=
  let n := vecRows s
  let mask := laneMask g s
  vecFrame (mask != 0#128) vb n (srcOf a) (srcOf b) s
    (do
      resv
      let _ ← sh3Form s
      rowsCheck s n [(latchNo vb false, srcOf a), (latchNo vb true, srcOf b)] [])
    (cmpEffect vb fp w c mask m a b s)

def fcmpEl (c : Int → Bool) (quiet : Bool) (f : Fmt) (a b : Nat) : Bool × BitVec 5 :=
  let x := decodeF f a
  let y := decodeF f b
  if isNan x || isNan y then (false, if quiet then snanFlag [x, y] else fNV) else (c (cmpF x y), 0#5)

def fcmp (vb : Bool) (c : Int → Bool) (quiet : Bool) (g : Guard) (m : BitVec 3) (a b : VOp) (s : State) :=
  cmpOp vb true (vftOk s) (vft s).width (fcmpEl c quiet (vft s)) g m a b s

def icmp (vb : Bool) (c : Int → Int → Bool) (g : Guard) (m : BitVec 3) (a b : VOp) (s : State) :=
  cmpOp vb false (viwOk s) (viw s) (fun x y => (c (sextN (viw s) x) (sextN (viw s) y), 0#5)) g m a b s

def execVfceqVa (g : Guard) (m : BitVec 3) (a b : VOp) (s : State) := fcmp false (fun c => c == 0) true g m a b s
def execVfceqVb (g : Guard) (m : BitVec 3) (a b : VOp) (s : State) := fcmp true (fun c => c == 0) true g m a b s
def execVfcltVa (g : Guard) (m : BitVec 3) (a b : VOp) (s : State) := fcmp false (fun c => decide (c < 0)) false g m a b s
def execVfcltVb (g : Guard) (m : BitVec 3) (a b : VOp) (s : State) := fcmp true (fun c => decide (c < 0)) false g m a b s
def execVfcleVa (g : Guard) (m : BitVec 3) (a b : VOp) (s : State) := fcmp false (fun c => decide (c ≤ 0)) false g m a b s
def execVfcleVb (g : Guard) (m : BitVec 3) (a b : VOp) (s : State) := fcmp true (fun c => decide (c ≤ 0)) false g m a b s
def execViceqVa (g : Guard) (m : BitVec 3) (a b : VOp) (s : State) := icmp false (fun x y => x == y) g m a b s
def execViceqVb (g : Guard) (m : BitVec 3) (a b : VOp) (s : State) := icmp true (fun x y => x == y) g m a b s
def execVicltVa (g : Guard) (m : BitVec 3) (a b : VOp) (s : State) := icmp false (fun x y => decide (x < y)) g m a b s
def execVicltVb (g : Guard) (m : BitVec 3) (a b : VOp) (s : State) := icmp true (fun x y => decide (x < y)) g m a b s
def execVicleVa (g : Guard) (m : BitVec 3) (a b : VOp) (s : State) := icmp false (fun x y => decide (x ≤ y)) g m a b s
def execVicleVb (g : Guard) (m : BitVec 3) (a b : VOp) (s : State) := icmp true (fun x y => decide (x ≤ y)) g m a b s

/-- VSEL (R337): P and N choose between the operands; every lane that is not a tail lane lands. -/
def selOp (vb : Bool) (g : Guard) (d : BitVec 8) (a b : VOp) (s : State) : Host.Outcome State Fault Refusal :=
  vecOp vb false 2 (lowMask (lanesOf s)) (!s.ix.off) (.ok ()) d.toNat (srcOf a) (srcOf b) .none
    (fun _ x y _ l => lane (if (readM s g.p).getLsbD l ^^ g.n then at' x l else at' y l) 0#5) s

def execVselVa (g : Guard) (d : BitVec 8) (a b : VOp) (s : State) := selOp false g d a b s
def execVselVb (g : Guard) (d : BitVec 8) (a b : VOp) (s : State) := selOp true g d a b s

/-- What VMSK adds to `t` (R338). -/
def mskEffect (mask : BitVec 128) (m ma mb o : BitVec 3) (s t : State) : State :=
  let v := (List.range (lanesOf s)).foldl (fun (x : BitVec 128) l =>
    if logOp o ((readM s ma).getLsbD l) ((readM s mb).getLsbD l) then x ||| (1#128 <<< l) else x) 0#128
  charge 4 ((List.range (lanesOf s)).countP (fun l => mask.getLsbD l)) (landIn t 2 (.mask m mask v 0#5))

/-- VMSK (R338). -/
def mskOp (vb : Bool) (g : Guard) (m ma mb o : BitVec 3) (s : State) : Host.Outcome State Fault Refusal :=
  let mask := laneMask g s
  vecFrame (mask != 0#128) vb 1 .none .none s
    (do
      let _ ← sh3Form s)
    (mskEffect mask m ma mb o s)

def execVmskVa (g : Guard) (m ma mb o : BitVec 3) (s : State) := mskOp false g m ma mb o s
def execVmskVb (g : Guard) (m ma mb o : BitVec 3) (s : State) := mskOp true g m ma mb o s

/-- VIOTA (R338). -/
def iotaOp (vb : Bool) (g : Guard) (d : BitVec 8) (a b : BitVec 6) (s : State) : Host.Outcome State Fault Refusal :=
  let w := viw s
  vecOp vb false 2 (laneMask g s) (laneMask g s != 0#128) (viwOk s) d.toNat .none .none .none
    (fun j _ _ _ l => lane (ofElems w ((List.range (32 / w)).map (fun e =>
      (readS s a).toNat + (j * lanesOf s * (32 / w) + l * (32 / w) + e) * (readS s b).toNat))) 0#5) s

def execViotaVa (g : Guard) (d : BitVec 8) (a b : BitVec 6) (s : State) := iotaOp false g d a b s
def execViotaVb (g : Guard) (d : BitVec 8) (a b : BitVec 6) (s : State) := iotaOp true g d a b s

/-! ### Moves and lane access (R339, R340) -/

def execVmovVa (g : Guard) (d : BitVec 8) (a : VOp) (s : State) := rawOp false 2 (fun x _ => x) g d (srcOf a) .none s
def execVmovVb (g : Guard) (d : BitVec 8) (a : VOp) (s : State) := rawOp true 2 (fun x _ => x) g d (srcOf a) .none s

def bcstOp (vb : Bool) (g : Guard) (d : BitVec 8) (a : BitVec 6) (s : State) :=
  rawOp vb 2 (fun _ _ => (readS s a).setWidth 32) g d .none .none s

def execVbcstVa (g : Guard) (d : BitVec 8) (a : BitVec 6) (s : State) := bcstOp false g d a s
def execVbcstVb (g : Guard) (d : BitVec 8) (a : BitVec 6) (s : State) := bcstOp true g d a s

/-- What VLANE adds to `t` (R339): lane `i'` of the operation's rows, which is in group row `x`, where the lane is active. -/
def laneEffect (mask : BitVec 128) (i' x : Nat) (a : BitVec 6) (s t : State) : State :=
  let act := mask.getLsbD (i' % lanesOf s) && !decide (vecLimit s ≤ i')
  charge 4 (if act then 1 else 0) (landRow t (s.ix.cl + 2) x
    (if act then [(i' % lanesOf s, lane ((readS s a).setWidth 32) 0#5)] else []))

/-- VLANE (R339): one lane of the operation's rows. -/
def laneOp (vb : Bool) (g : Guard) (d a : BitVec 6) (i : BitVec 14) (s : State) : Host.Outcome State Fault Refusal :=
  let mask := laneMask g s
  let i' := i.toNat % (vecRows s * lanesOf s)
  let x := winRow s (d.toNat + i' / lanesOf s)
  vecFrame (mask != 0#128) vb 1 .none .none s
    (do
      let _ ← sh3Form s
      rowsCheck s 1 [] [x])
    (laneEffect mask i' x a s)

def execVlaneVa (g : Guard) (d a : BitVec 6) (i : BitVec 14) (s : State) := laneOp false g d a i s
def execVlaneVb (g : Guard) (d a : BitVec 6) (i : BitVec 14) (s : State) := laneOp true g d a i s

/-- The window row VEXT reads (R339). -/
def vextRow (s : State) (a : BitVec 6) (i : BitVec 14) : Nat :=
  a.toNat + i.toNat % (vecRows s * lanesOf s) / lanesOf s

/-- What VEXT adds to `t` (R339): lane `i'` of the operation's rows, which is in window row `r`, to a scalar register; the lane is
charged where it is active (R209, R329). -/
def extEffect (mask : BitVec 128) (i' r : Nat) (d : BitVec 6) (s t : State) : State :=
  let v := if vecLimit s ≤ i' then 0#32 else readLane s.tk.g s.sq.lrs (winRow s r) (i' % lanesOf s)
  charge 4 (if mask.getLsbD (i' % lanesOf s) && decide (i' < vecLimit s) then 1 else 0) (charge 1 1 (if mask.getLsbD (i' % lanesOf s) then landS t 3 d (v.setWidth 64) else t))

/-- VEXT (R339): one lane to a scalar register. -/
def extOp (vb : Bool) (g : Guard) (d a : BitVec 6) (i : BitVec 14) (s : State) : Host.Outcome State Fault Refusal :=
  let mask := laneMask g s
  let i' := i.toNat % (vecRows s * lanesOf s)
  let src := Src.win (vextRow s a i)
  vecFrame (mask != 0#128) vb 1 src .none s
    (do
      let _ ← sh3Form s
      rowsCheck s 1 [(latchNo vb false, src)] [])
    (extEffect mask i' (vextRow s a i) d s)

def execVextVa (g : Guard) (d a : BitVec 6) (i : BitVec 14) (s : State) := extOp false g d a i s
def execVextVb (g : Guard) (d a : BitVec 6) (i : BitVec 14) (s : State) := extOp true g d a i s

/-- VPERM (R340): lane u of the same row of vA, u from vB. -/
def execVperm (g : Guard) (d : BitVec 8) (a b : VOp) (s : State) : Host.Outcome State Fault Refusal :=
  vecOp false false 3 (laneMask g s) (laneMask g s != 0#128) (.ok ()) d.toNat (srcOf a) (srcOf b) .none
    (fun _ x y _ l => lane (if (at' y l).toNat < lanesOf s then at' x (at' y l).toNat else 0#32) 0#5) s

/-- VROTL (R340). -/
def rotlOp (vb : Bool) (g : Guard) (d a : BitVec 6) (i : BitVec 14) (s : State) : Host.Outcome State Fault Refusal :=
  vecOp vb false 3 (laneMask g s) (laneMask g s != 0#128) (.ok ()) d.toNat (.win a.toNat) .none .none
    (fun _ x _ _ l => lane (at' x ((l + lanesOf s - i.toNat % lanesOf s) % lanesOf s)) 0#5) s

def execVrotlVa (g : Guard) (d a : BitVec 6) (i : BitVec 14) (s : State) := rotlOp false g d a i s
def execVrotlVb (g : Guard) (d a : BitVec 6) (i : BitVec 14) (s : State) := rotlOp true g d a i s

/-! ### Reductions (R341) -/

/-- The exact sum of finite values in units of 2^(−200). -/
def sumFin (xs : List FV) : Int :=
  xs.foldl (fun a x => match x with
    | .fin s m e => a + atExp s m e (-200)
    | _ => a) 0

def isPosZero : FV → Bool
  | .fin false 0 _ => true
  | _ => false
def isNegZero : FV → Bool
  | .fin true 0 _ => true
  | _ => false

/-- `RSum` of R341. -/
def rsum (f : Fmt) (rm : BitVec 2) (xs : List FV) : Nat × BitVec 5 :=
  let pi := xs.any (fun x => x == .inf false)
  let ni := xs.any (fun x => x == .inf true)
  if xs.any isNan || (pi && ni) then (f.canon, if xs.any isSnan || (pi && ni) then fNV else 0#5)
  else if pi then (infBits f false, 0#5)
  else if ni then (infBits f true, 0#5)
  else
    let t := sumFin xs
    if t = 0 then
      if xs.all isPosZero then (0, 0#5)
      else if xs.all isNegZero then (signed f true 0, 0#5)
      else (signed f (rm == 2#2) 0, 0#5)
    else
      let r := roundF f rm (decide (t < 0)) t.natAbs (-200) false
      (r.1, r.2.1)

/-- `RMax` of R341. -/
def rmax (f : Fmt) (xs : List Nat) : Nat × BitVec 5 :=
  let vs := xs.map (decodeF f)
  if vs.any isNan then (f.canon, snanFlag vs)
  else (xs.foldl (fun a x => if beforeF (decodeF f a) (decodeF f x) then x else a) (infBits f true), 0#5)

/-- What VRSUM and VRMAX add to `t` (R341): row j lands at the end of c₀ + 5 + j, c₀ the last read cycle. -/
def reduceEffect (sum : Bool) (mask : BitVec 128) (d : BitVec 8) (a : VOp) (s t : State) : State :=
  let n := vecRows s
  let f := vft s
  let rows := List.range n
  let els := rows.flatMap (fun j => (activeLanes s mask j).flatMap (fun l => (List.range (32 / f.width)).map (fun e =>
    elem f.width (at' (srcLanes s (latchNo false false) j (srcOf a)) l) e)))
  let r := if sum then rsum f (pRm s.sq.prec) (els.map (decodeF f)) else rmax f els
  let v := ofElems f.width (List.replicate (32 / f.width) r.1)
  charge 3 (rows.foldl (fun k j => k + (activeLanes s mask j).length) 0)
    (charge 1 (rows.foldl (fun k j => k + ([srcOf a].filterMap (srcRow s j)).length) 0)
      (rows.foldl (fun t j => landRow t (cycOf s (n - 1) + 5 + j) (winRow s (d.toNat + j))
        ((activeLanes s mask j).map (fun l => (l, lane v r.2)))) t))

/-- VRSUM and VRMAX (R341). -/
def reduceOp (sum : Bool) (g : Guard) (d : BitVec 8) (a : VOp) (s : State) : Host.Outcome State Fault Refusal :=
  let n := vecRows s
  let mask := laneMask g s
  vecFrame (mask != 0#128) false n (srcOf a) .none s
    (do
      vftOk s
      let _ ← sh3Form s
      rowsCheck s n [(latchNo false false, srcOf a)] ((List.range n).map (fun j => winRow s (d.toNat + j))))
    (reduceEffect sum mask d a s)

def execVrsum (g : Guard) (d : BitVec 8) (a : VOp) (s : State) := reduceOp true g d a s
def execVrmax (g : Guard) (d : BitVec 8) (a : VOp) (s : State) := reduceOp false g d a s

/-! ### Conversions and block scales (R342 to R345) -/

/-- The FP format of a VCVT code, if it is one (R342). -/
def cvtFmt (c : BitVec 3) : Option Fmt :=
  match c.toNat with
  | 0 => some fp32
  | 1 => some bf16
  | 2 => some f16
  | 3 => some e4m3
  | 4 => some e5m2
  | _ => none

/-- Rounds a finite value into a format, with saturation of 8-bit formats where asked (R343, R344). -/
def roundSat (f : Fmt) (rm : BitVec 2) (sat : Bool) (s : Bool) (m : Nat) (e : Int) : Nat × BitVec 5 :=
  let r := roundF f rm s m e false
  if r.2.2 && sat then (signed f s f.maxFin, r.2.1)
  else if r.2.2 && !f.inf then (f.canon, r.2.1)
  else (r.1, r.2.1)

/-- `Convert` (R343); an e5m2 NaN takes its operand's sign. -/
def convert (dst src : BitVec 3) (rm : BitVec 2) (sat : Bool) (x : Nat) : Nat × BitVec 5 :=
  match cvtFmt src, cvtFmt dst with
  | some fs, some fd =>
    match decodeF fs x with
    | .nan g => (if dst = 4#3 then signed fd (decide (2 ^ (cvtWidth src - 1) ≤ x % 2 ^ cvtWidth src)) fd.canon else fd.canon, if g then fNV else 0#5)
    | .inf s =>
      if sat then (signed fd s fd.maxFin, 0#5)
      else if fd.inf then (infBits fd s, 0#5)
      else (fd.canon, fNV)
    | .fin s m e => if m = 0 then (signed fd s 0, 0#5) else roundSat fd rm sat s m e
  | some fs, none =>
    let w := cvtWidth dst
    match decodeF fs x with
    | .nan _ => (0, fNV)
    | .inf s => (intBits w (if s then -(2 ^ (w - 1)) else 2 ^ (w - 1) - 1), fNV)
    | .fin s m e =>
      let r := roundInt rm s m e
      if satInt w r.1 = r.1 then (intBits w r.1, if r.2 then fNX else 0#5) else (intBits w (satInt w r.1), fNV)
  | none, some fd =>
    let n := sextN (cvtWidth src) x
    if n = 0 then (0, 0#5) else roundSat fd rm sat (decide (n < 0)) n.natAbs 0
  | none, none => (intBits (cvtWidth dst) (satInt (cvtWidth dst) (sextN (cvtWidth src) x)), 0#5)

/-- Bytes of a lane that elements of width `w` at the given indices occupy. -/
def elemBytes (w : Nat) (es : List Nat) : BitVec 4 :=
  es.foldl (fun (x : BitVec 4) e => x ||| (BitVec.ofNat 4 (2 ^ (w / 8) - 1) <<< (w / 8 * e))) 0#4

/-- One lane of VCVT: elements are paired by width (R342). -/
def cvtLane (dst src : BitVec 3) (part : Nat) (rm : BitVec 2) (sat : Bool) (a : BitVec 32) : LaneRes :=
  let ws := cvtWidth src
  let wd := cvtWidth dst
  let pairs :=
    if ws ≥ wd then (List.range (32 / ws)).map (fun e => (ws / wd * e + part, e))
    else (List.range (32 / wd)).map (fun e => (e, wd / ws * e + part))
  let rs := pairs.map (fun p => (p.1, convert dst src rm sat (elem ws a p.2)))
  ⟨BitVec.ofNat 32 (rs.foldl (fun v r => v + r.2.1 * 2 ^ (wd * r.1)) 0), elemBytes wd (pairs.map Prod.fst),
    rs.foldl (fun x r => x ||| r.2.2) 0#5⟩

def cvtOp (vb : Bool) (g : Guard) (d a : BitVec 6) (dst src : BitVec 3) (part : BitVec 2) (sat : Bool) (s : State) :
    Host.Outcome State Fault Refusal :=
  vecOp vb true 3 (laneMask g s) (laneMask g s != 0#128) (.ok ()) d.toNat (.win a.toNat) .none .none
    (fun _ x _ _ l => cvtLane dst src part.toNat (pRm s.sq.prec) sat (at' x l)) s

def execVcvtVa (g : Guard) (d a : BitVec 6) (dst src : BitVec 3) (part : BitVec 2) (sat : Bool) (s : State) :=
  cvtOp false g d a dst src part sat s
def execVcvtVb (g : Guard) (d a : BitVec 6) (dst src : BitVec 3) (part : BitVec 2) (sat : Bool) (s : State) :=
  cvtOp true g d a dst src part sat s

/-- ⌊log₂ |v|⌋ of a finite non-zero value. -/
def ilog2 (m : Nat) (e : Int) : Int := e + Nat.log2 m

/-- `BlockScale` of R344 over the active lanes' values: the scale byte, X where there is one, and whether NV is raised. -/
def blockScale (fmt : BitVec 3) (vs : List FV) : Nat × Option Int × Bool :=
  if vs.any (fun v => isNan v || v == .inf true || v == .inf false) then (255, none, true)
  else
    let mags := vs.filterMap (fun v => match v with
      | .fin _ m e => if m = 0 then none else some (ilog2 m e)
      | _ => none)
    match mags with
    | [] => (127, some 0, false)
    | h :: t =>
      let emax : Int := if fmt = 3#3 then 8 else if fmt = 4#3 then 15 else -1
      let x := (t.foldl max h) - emax
      let x := if x < -127 then -127 else if x > 127 then 127 else x
      ((x + 127).toNat, some x, false)

/-- The quantised element of R344. -/
def packElem (fmt : BitVec 3) (rm : BitVec 2) (sc : Nat × Option Int × Bool) (v : FV) : Nat × BitVec 5 :=
  match sc.2.1, v with
  | none, _ => (if fmt = 3#3 then 0x7F else if fmt = 4#3 then 0x7E else 0x00, fNV)
  | some x, .fin s m e =>
    if fmt = 7#3 then
      let r := roundInt rm s m (e + 7 - x)
      if satInt 8 r.1 = r.1 then (intBits 8 r.1, if r.2 then fNX else 0#5) else (intBits 8 (satInt 8 r.1), fOF ||| fNX)
    else
      let f := if fmt = 3#3 then e4m3 else e5m2
      if m = 0 then (signed f s 0, 0#5)
      else
        let r := roundSat f rm true s m (e - x)
        (r.1, r.2 &&& (fOF ||| fNX))
  | some _, _ => (0, 0#5)

def packOp (vb : Bool) (g : Guard) (d a : BitVec 6) (fmt : BitVec 3) (p : BitVec 2) (sc : Bool) (s : State) :
    Host.Outcome State Fault Refusal :=
  let mask := laneMask g s
  vecOp vb true 3 mask (mask != 0#128) (.ok ()) d.toNat (.win a.toNat) .none .none
    (fun j x _ _ l =>
      let blk := (activeLanes s mask j).filter (fun k => k / 32 == l / 32)
      let bs := blockScale fmt (blk.map (fun k => decodeF fp32 (at' x k).toNat))
      let r := if sc then (bs.1, 0#5) else packElem fmt (pRm s.sq.prec) bs (decodeF fp32 (at' x l).toNat)
      ⟨BitVec.ofNat 32 (r.1 * 2 ^ (8 * p.toNat)), 1#4 <<< p.toNat, r.2⟩) s

def execVpackVa (g : Guard) (d a : BitVec 6) (f : BitVec 3) (y : BitVec 2) (x : Bool) (s : State) := packOp false g d a f y x s
def execVpackVb (g : Guard) (d a : BitVec 6) (f : BitVec 3) (y : BitVec 2) (x : Bool) (s : State) := packOp true g d a f y x s

/-- One lane of VUNPK (R345). -/
def unpkLane (fmt : BitVec 3) (p : Nat) (rm : BitVec 2) (a : BitVec 32) : LaneRes :=
  let x := elem 8 a p
  let sc := elem 8 a ((p + 1) % 4)
  let v : FV := if fmt = 3#3 then decodeF e4m3 x else if fmt = 4#3 then decodeF e5m2 x
    else .fin (decide (sextN 8 x < 0)) (sextN 8 x).natAbs (-7)
  let nv := if fmt = 4#3 then snanFlag [v] else 0#5
  if sc = 255 then lane 0x7FC00000#32 nv
  else match v with
    | .nan _ => lane 0x7FC00000#32 nv
    | .inf s => lane (BitVec.ofNat 32 (infBits fp32 s)) 0#5
    | .fin s m e =>
      let r := roundF fp32 rm s m (e + sc - 127) false
      lane (BitVec.ofNat 32 r.1) r.2.1

def unpkOp (vb : Bool) (g : Guard) (d a : BitVec 6) (fmt : BitVec 3) (p : BitVec 2) (s : State) :
    Host.Outcome State Fault Refusal :=
  vecOp vb true 3 (laneMask g s) (laneMask g s != 0#128) (.ok ()) d.toNat (.win a.toNat) .none .none
    (fun _ x _ _ l => unpkLane fmt p.toNat (pRm s.sq.prec) (at' x l)) s

def execVunpkVa (g : Guard) (d a : BitVec 6) (f : BitVec 3) (y : BitVec 2) (s : State) := unpkOp false g d a f y s
def execVunpkVb (g : Guard) (d a : BitVec 6) (f : BitVec 3) (y : BitVec 2) (s : State) := unpkOp true g d a f y s

/-! ### Indirect and view access (R346 to R348) -/

/-- The base row of VLDX and VSTX (R346). -/
def vldxRow (a : Word) (i : Imm14) : Nat := (((a.toNat : Int) + (immS14 i).toInt) % (rowCount : Nat)).toNat

def ldxOp (vb : Bool) (g : Guard) (d a : BitVec 6) (i : Imm14) (s : State) : Host.Outcome State Fault Refusal :=
  vecOp vb false 2 (laneMask g s) (laneMask g s != 0#128) (.ok ()) d.toNat .none .none (.abs (vldxRow (readS s a) i))
    (fun _ _ _ z l => lane (at' z l) 0#5) s

def execVldxVa (g : Guard) (d a : BitVec 6) (i : Imm14) (s : State) := ldxOp false g d a i s
def execVldxVb (g : Guard) (d a : BitVec 6) (i : Imm14) (s : State) := ldxOp true g d a i s

/-- What VSTX adds to `t` (R346): window rows to rows from `x` up. -/
def stxEffect (mask : BitVec 128) (d : BitVec 6) (x : Nat) (s t : State) : State :=
  let rows := List.range (vecRows s)
  charge 4 (rows.foldl (fun k j => k + (activeLanes s mask j).length) 0) (charge 1 (vecRows s)
    (rows.foldl (fun t j => landRow t (cycOf s j + 1) ((x + j) % rowCount)
      ((activeLanes s mask j).map (fun l => (l, lane (at' (srcLanes s 4 j (.win d.toNat)) l) 0#5)))) t))

/-- VSTX (R346). -/
def stxOp (vb : Bool) (g : Guard) (d a : BitVec 6) (i : Imm14) (s : State) : Host.Outcome State Fault Refusal :=
  let n := vecRows s
  let mask := laneMask g s
  let x := vldxRow (readS s a) i
  vecFrame (mask != 0#128) vb n .none .none s
    (do
      let _ ← sh3Form s
      rowsCheck s n [(4, .win d.toNat)] ((List.range n).map (fun j => (x + j) % rowCount)))
    (stxEffect mask d x s)

def execVstxVa (g : Guard) (d a : BitVec 6) (i : Imm14) (s : State) := stxOp false g d a i s
def execVstxVb (g : Guard) (d a : BitVec 6) (i : Imm14) (s : State) := stxOp true g d a i s

/-- An access through an unconfigured tile view (R203). -/
def viewSet (s : State) (t : BitVec 3) : Except Trap Word :=
  let d := tabGet 0#64 s.sq.td t.toNat
  if vNrow d = 0 then .error (viewFault s 0x01 t.toNat d (vBase d)) else .ok d

/-- The group row VTRD and VTRW address (R347). -/
def vtrRow (s : State) (t : BitVec 3) (a : BitVec 6) (r : BitVec 8) : Nat :=
  let d := tabGet 0#64 s.sq.td t.toNat
  vBase d + (readS s a).toNat % vNrow d * vPitch d + r.toNat % vSpan s.tk.g d

/-- What VTRD and VTRW add to `u` (R347): the active lanes of group row `src` land in group row `dst`. -/
def vtrEffect (mask : BitVec 128) (src dst : Nat) (s u : State) : State :=
  charge 4 (activeLanes s mask 0).length (charge 1 1 (landRow u (s.ix.cl + 1) dst
    ((activeLanes s mask 0).map (fun l => (l, lane (at' (srcLanes s 4 0 (.abs src)) l) 0#5)))))

/-- VTRD and VTRW (R347): one group row of a tile view. -/
def vtrOp (vb write : Bool) (g : Guard) (d : BitVec 6) (t : BitVec 3) (a : BitVec 6) (r : BitVec 8) (s : State) :
    Host.Outcome State Fault Refusal :=
  let mask := laneMask g s
  let x := vtrRow s t a r
  let src := if write then winRow s d.toNat else x
  let dst := if write then x else winRow s d.toNat
  vecFrame (mask != 0#128) vb 1 .none .none s
    (do
      let _ ← viewSet s t
      let _ ← sh3Form s
      rowsCheck s 1 [(4, .abs src)] [dst])
    (vtrEffect mask src dst s)

def execVtrdVa (g : Guard) (d : BitVec 6) (t : BitVec 3) (a : BitVec 6) (r : BitVec 8) (s : State) := vtrOp false false g d t a r s
def execVtrdVb (g : Guard) (d : BitVec 6) (t : BitVec 3) (a : BitVec 6) (r : BitVec 8) (s : State) := vtrOp true false g d t a r s
def execVtrwVa (g : Guard) (d : BitVec 6) (t : BitVec 3) (a : BitVec 6) (r : BitVec 8) (s : State) := vtrOp false true g d t a r s
def execVtrwVb (g : Guard) (d : BitVec 6) (t : BitVec 3) (a : BitVec 6) (r : BitVec 8) (s : State) := vtrOp true true g d t a r s

/-- Rows that a column read or write covers, and the cycles its ports are held (R348). -/
def vtcRows (s : State) (v : Word) : Nat := min (vNrow v) (lanesOf s)
def vtcHold (s : State) (v : Word) : Nat := (vtcRows s v + 5) / 6

/-- The group row and bit of element (i, c) (R348). -/
def vtcRow (s : State) (v : Word) (i c : Nat) : Nat := vBase v + i * vPitch v + c * vW v / (1024 * s.tk.g)
def vtcBit (s : State) (v : Word) (c : Nat) : Nat := c * vW v % (1024 * s.tk.g)

/-- What VTCD and VTCW add to `u` (R348): column `c` of the view `v` between its rows and the lanes of window row `d`, with the ports
held. -/
def vtcEffect (write : Bool) (mask : BitVec 128) (d : BitVec 6) (v : Word) (c : Nat) (s u : State) : State :=
  let w := vW v
  let n := vtcRows s v
  let h := vtcHold s v
  let rows := (List.range n).map (fun i => vtcRow s v i c)
  let act := (activeLanes s mask 0).filter (fun i => !write || decide (i < n))
  let u := { u with sq := { u.sq with rdHold := (s.ix.c, s.ix.cl + h) } }
  let u := charge 4 act.length (charge 1 (n + (if write then 1 else 0)) u)
  if write then
    let u := { u with sq := { u.sq with wrHold := u.sq.wrHold ++ [(s.ix.cl + 4, s.ix.cl + 4 + h)] } }
    let src := srcLanes s 4 0 (.win d.toNat)
    landAt u (s.ix.cl + 3 + h) (.slice rows (act.flatMap (fun i =>
      (List.range (w / 8)).map (fun k =>
        (rowByte s.tk.g (vtcRow s v i c) (vtcBit s v c / 8 + k), (at' src i).extractLsb' (8 * k) 8)))))
  else
    landRow u (s.ix.cl + 3 + h) (winRow s d.toNat) (act.map (fun i =>
      (i, lane (if i < n then BitVec.ofNat 32 (rowBits s.tk.g s.sq.lrs (vtcRow s v i c) (vtcBit s v c) w) else 0#32) 0#5)))

/-- VTCD and VTCW (R348): one column of a tile view. -/
def vtcOp (write : Bool) (g : Guard) (d : BitVec 6) (t : BitVec 3) (a : BitVec 6) (s : State) :
    Host.Outcome State Fault Refusal :=
  let mask := laneMask g s
  let v := tabGet 0#64 s.sq.td t.toNat
  let c := (readS s a).toNat % vNcol v
  let w := vW v
  let rows := (List.range (vtcRows s v)).map (fun i => vtcRow s v i c)
  vecFrame (mask != 0#128) false 1 .none .none s
    (do
      let _ ← viewSet s t
      if w ≠ 8 ∧ w ≠ 16 ∧ w ≠ 32 then throw (viewFault s 0x04 t.toNat v (vBase v))
      let _ ← sh3Form s
      rowsCheck s 1 (if write then [(4, .win d.toNat)] else []) (rows ++ (if write then [] else [winRow s d.toNat]))
      if s.sq.rdHold.1 ≤ s.ix.c ∧ s.ix.c < s.sq.rdHold.2 then
        throw (timing s 0x02 6 (vtcRow s v 0 c % 6) (seqCol s) (w64 s.sq.rdHold.2) (w64 (vtcRow s v 0 c))))
    (vtcEffect write mask d v c s)

def execVtcd (g : Guard) (d : BitVec 6) (t : BitVec 3) (a : BitVec 6) (s : State) := vtcOp false g d t a s
def execVtcw (g : Guard) (d : BitVec 6) (t : BitVec 3) (a : BitVec 6) (s : State) := vtcOp true g d t a s

end Sys2Proof.Machine
end

