-- ==== Sys2Proof/Machine/Matrix.lean ====
section
/-!
DEFINITION. Class 011: the bit-serial matrix unit, block sums and accumulation, drains, and the matrix instructions
(R212 to R215, R225 to R237, R349 to R361).
-/

namespace Sys2Proof.Machine

/-- A zeroed accumulator (R357). -/
def accZero : Acc := ⟨0#64, 0#16, false, false⟩

/-- The accumulator (i, j) of the group. -/
def getAcc (t : Tab Acc) (i j : Nat) : Acc := tabGet accZero t (64 * i + j)
def setAcc (t : Tab Acc) (i j : Nat) (a : Acc) : Tab Acc := tabSet accZero t (64 * i + j) a

/-- Where accumulator (i, j) of a group of `g` columns lies, as 4 × column + quadrant of its BMU (R212). -/
def quadOf (g i j : Nat) : Nat := 4 * (if g = 4 then 2 * (i / 32) + j / 32 else j / 32) + (2 * (i % 32 / 16) + j % 32 / 16)

/-! ### Formats (R214, R225, R228) -/

/-- Kₑ (R214). -/
def kE (p : Word) : Nat :=
  let w := max (pWA p) (pWB p)
  match pMode p with
  | 0 => 3072 / w
  | 1 => 32 * (3072 / w / 32)
  | _ => 512

/-- Cost of a native operation in lcyc (R214). -/
def nativeCost (p : Word) : Nat :=
  if pMode p = 2 then 64 else pWA p * pWB p * ((kE p + 63) / 64)

/-- Blocks of a chunk (R227). -/
def blocks (p : Word) : Nat := (kE p + 31) / 32

/-- `LgTerm` (R232): product in units of 2^-23 and NaN. -/
def lgTerm (a b : Nat) : Int × Bool :=
  if a = 0x10 ∨ b = 0x10 then (0, true)
  else if a % 32 = 16 ∨ b % 32 = 16 then (0, false)
  else
    let lp := sextN 5 a + sextN 5 b
    let t : Nat := match (lp % 4).toNat with
      | 0 => 32768
      | 1 => 38968
      | 2 => 46341
      | _ => 55109
    let v : Int := (t * 2 ^ (lp / 4 + 8).toNat : Nat)
    (if (a / 32) % 2 = (b / 32) % 2 then v else -v, false)

/-- The value of an INT or NAT element (R225). -/
def elInt (w : Nat) (sgn : Bool) (x : Nat) : Int := if sgn then sextN w x else x

/-- The operands of a native operation: the rows, where those of A and B are, and the scales (R350). -/
structure Operand where
  g   : Nat
  lrs : Tab Byte
  va  : Word
  vb  : Word
  sa  : Tab Byte
  sb  : Tab Byte

/-- Element k of chunk kc of view row i. -/
def opElem (o : Operand) (v : Word) (w kc i k : Nat) : Nat := viewBits o.g o.lrs v i (3072 * kc + k * w) w

/-- `BlockSum` (R232) for accumulator (i, j) on view rows `ra` of A and `rb` of B, block b of chunk kc. -/
def blockSum (p : Word) (o : Operand) (i j ra rb kc b : Nat) : Int × Int × Bool :=
  let ks := (List.range (min (32 * b + 32) (kE p) - 32 * b)).map (fun k => 32 * b + k)
  let sA := (tabGet 0x7F#8 o.sa (96 * i + kc * blocks p + b)).toNat
  let sB := (tabGet 0x7F#8 o.sb (96 * j + kc * blocks p + b)).toNat
  let nan := sA == 255 || sB == 255
  match pMode p with
  | 0 => (ks.foldl (fun s k => s + elInt (pWA p) (pSA p) (opElem o o.va (pWA p) kc ra k)
            * elInt (pWB p) (pSB p) (opElem o o.vb (pWB p) kc rb k)) 0, 0, false)
  | 1 => (ks.foldl (fun s k => s + sextN (pWA p) (opElem o o.va (pWA p) kc ra k)
            * sextN (pWB p) (opElem o o.vb (pWB p) kc rb k)) 0,
          (sA : Int) + sB - 254 - (pWA p - 1 : Nat) - (pWB p - 1 : Nat), nan)
  | _ =>
    let ts := ks.map (fun k => lgTerm (opElem o o.va 6 kc ra k) (opElem o o.vb 6 kc rb k))
    (ts.foldl (fun s t => s + t.1) 0, -23 + ((sA : Int) - 127) + ((sB : Int) - 127), nan || ts.any Prod.snd)

/-- `AccumulateBlock` (R233). -/
def accumulate (a : Acc) (x : Int × Int × Bool) (f62 : Bool) : Acc :=
  let a := if x.2.2 then { a with nan := true } else a
  if a.nan then a
  else if f62 && a.ovm && a.e.toInt == 32767 then a
  else
    let k := min a.e.toInt x.2.1
    let v := a.s.toInt * 2 ^ (a.e.toInt - k).toNat + x.1 * 2 ^ (x.2.1 - k).toNat
    if !f62 then
      let n := (roundInt 0#2 (decide (v < 0)) v.natAbs k).1
      { a with s := BitVec.ofInt 64 (satInt 64 n), e := 0#16, ovm := a.ovm || satInt 64 n != n }
    else if v = 0 then { a with s := 0#64, e := 0#16 }
    else
      let e0 := k + Nat.log2 v.natAbs - 61
      let n0 := (roundAt 0#2 (decide (v < 0)) v.natAbs k e0 false).1
      let n := if n0 = 2 ^ 62 then n0 / 2 else n0
      let e := if n0 = 2 ^ 62 then e0 + 1 else e0
      let sg (m : Nat) : Word := BitVec.ofInt 64 (if v < 0 then -(m : Int) else m)
      if e > 32767 then { a with s := sg (2 ^ 62 - 1), e := BitVec.ofInt 16 32767, ovm := true }
      else { a with s := sg n, e := BitVec.ofInt 16 e }

/-- One accumulator through every chunk and block of an operation (R234, R350). -/
def accRun (p : Word) (o : Operand) (kc i j ra rb : Nat) (a : Acc) : Acc :=
  (List.range kc).foldl (fun a c => (List.range (blocks p)).foldl (fun a b =>
    accumulate a (blockSum p o i j ra rb c b) (pAccm p)) a) a

/-- A native tile (R351, R353): accumulator (i, j) on view rows `r0 + i` and `c0 + j`, where valid. -/
def tileRun (p : Word) (o : Operand) (kc m n r0 c0 qm qn cut : Nat) (t : Tab Acc) : Tab Acc :=
  (List.range m).foldl (fun t i => (List.range n).foldl (fun t j =>
    if r0 + i < qm ∧ c0 + j < qn ∧ r0 + i < cut then
      setAcc t i j (accRun p o kc i j (r0 + i) (c0 + j) (getAcc t i j))
    else t) t) t

/-! ### Draining (R236, R356) -/

/-- The format of a drain code (R349). -/
def drainFmt (f : BitVec 2) : Fmt := if f = 1#2 then bf16 else fp32
def drainW (f : BitVec 2) : Nat := if f = 1#2 then 16 else 32

/-- Whether the accumulator holds a float62 overflow (R233, R235). -/
def accInf (a : Acc) : Bool := a.ovm && a.e.toInt == 32767

/-- `DrainValue` (R236): bits, nan, ov. -/
def drainValue (a : Acc) (f rm : BitVec 2) : Nat × Bool × Bool :=
  let neg := decide (a.s.toInt < 0)
  if a.nan then (if f = 2#2 then 0x80000000 else (drainFmt f).canon, true, false)
  else if accInf a then
    (if f = 2#2 then (if neg then 0x80000000 else 0x7FFFFFFF) else infBits (drainFmt f) neg, false, true)
  else if a.s = 0#64 then (0, false, a.ovm)
  else if f = 2#2 then
    let n := (roundInt rm neg a.s.toInt.natAbs a.e.toInt).1
    (intBits 32 (satInt 32 n), false, a.ovm || satInt 32 n != n)
  else
    let r := roundF (drainFmt f) rm neg a.s.toInt.natAbs a.e.toInt false
    (r.1, false, a.ovm || r.2.2)

/-- `DrainAddValue` (R356): bits, nan, ov. -/
def drainAddValue (a : Acc) (old : Nat) (f rm : BitVec 2) : Nat × Bool × Bool :=
  let neg := decide (a.s.toInt < 0)
  if a.nan then drainValue a f rm
  else if f = 2#2 then
    if accInf a then (if neg then 0x80000000 else 0x7FFFFFFF, false, true)
    else
      let k := min a.e.toInt 0
      let v := a.s.toInt * 2 ^ (a.e.toInt - k).toNat + sextN 32 old * 2 ^ (0 - k).toNat
      let n := (roundInt rm (decide (v < 0)) v.natAbs k).1
      (intBits 32 (satInt 32 n), false, a.ovm || satInt 32 n != n)
  else
    let fm := drainFmt f
    let x : FV := if accInf a then .inf neg else .fin neg a.s.toInt.natAbs a.e.toInt
    match x, decodeF fm old with
    | _, .nan _ => (fm.canon, false, a.ovm)
    | .inf p, .inf q => (if p = q then infBits fm p else fm.canon, false, a.ovm)
    | .inf p, _ => (infBits fm p, false, a.ovm)
    | _, .inf q => (infBits fm q, false, a.ovm)
    | .nan _, _ => (fm.canon, false, a.ovm)
    | .fin p m e, .fin q n d =>
      let k := min e d
      let v := atExp p m e k + atExp q n d k
      if v = 0 then (signed fm (rm == 2#2 && old != 0) 0, false, a.ovm)
      else
        let r := roundF fm rm (decide (v < 0)) v.natAbs k false
        (r.1, false, a.ovm || r.2.2)

/-! ### Checks (R361) -/

def shapeFault (s : State) (sub : Nat) (n : BitVec 2) (av : Word) : Trap :=
  trapOf s 0x06 sub (n.setWidth 64) (tabGet 0#64 s.sq.sh n.toNat) av

/-- A view must be configured (R203). -/
def viewCfg (s : State) (num : Nat) : Except Trap Word :=
  let d := viewReg s num
  if vNrow d = 0 then .error (viewFault s 0x01 num d (vBase d)) else .ok d

/-- The KC rule (R350); of two views that differ the trap names the second (log 46). -/
def kcRule (s : State) (x y : BitVec 3) (va vb : Word) : Except Trap Unit :=
  if viewKC va = 0 ∨ viewKC va ≠ viewKC vb
      ∨ ((pMode s.sq.prec = 1 ∨ pMode s.sq.prec = 2) ∧ viewKC va * blocks s.sq.prec > 96) then
    .error (if viewKC va = 0 ∨ viewKC va = viewKC vb then viewFault s 0x04 x.toNat va (vBase va) else viewFault s 0x04 y.toNat vb (vBase vb))
  else .ok ()

/-- The grant a matrix operation names (R208). -/
def matGrant (s : State) (n : BitVec 2) : Except Trap Word :=
  let v := tabGet 0#64 s.sq.sh n.toNat
  if !shG v then .error (shapeFault s 0x01 n 0#64)
  else if shVec v then .error (shapeFault s 0x02 n 0#64)
  else .ok v

/-- The BMU is within a cost window (R215). -/
def bmuFree (s : State) (extra : Nat) : Except Trap Unit :=
  if s.sq.win.2 ≠ 0 ∧ s.ix.c < s.sq.win.2 + extra then
    .error (timing s 0x02 4 0 (seqCol s) (w64 (s.sq.win.2 + extra)) 0#64)
  else .ok ()

/-- Every bank of a view's extent is owned (R184). -/
def extentOwned (s : State) (d : Word) : Except Trap Unit :=
  match extentUnowned s.tk.g s.sq d with
  | some x => .error (timing s 0x02 6 (x % 6) (seqCol s) never (w64 x))
  | none => .ok ()

def precMatOk (s : State) : Except Trap Unit := if pMode s.sq.prec = 3 then .error (illegal s 0x0F) else .ok ()

/-- The accumulator view of a drain: configured, of the format's width (R205, R361). -/
def accView (s : State) (u f : BitVec 2) : Except Trap Word := do
  let av ← viewCfg s (8 + u.toNat)
  if vW av ≠ drainW f then throw (viewFault s 0x04 (8 + u.toNat) av (vBase av))
  pure av

/-- Bit-products of a chunk with `nr` valid rows and `nc` valid columns (R215, R362). -/
def chunkBits (p : Word) (nr nc : Nat) : Nat := (if pMode p = 2 then 8 else pWA p * pWB p) * nr * nc * kE p

/-- Group rows that hold elements of `w` bits of chunk `kc` of a view row (R362). -/
def chunkSpan (g : Nat) (p : Word) (w kc : Nat) : Nat :=
  (3072 * kc + kE p * w - 1) / (1024 * g) - 3072 * kc / (1024 * g) + 1

/-- Operand rows read for a chunk (R362). -/
def chunkRows (g : Nat) (p : Word) (kc nr nc : Nat) : Nat :=
  nr * chunkSpan g p (if pMode p = 2 then 6 else pWA p) kc + nc * chunkSpan g p (if pMode p = 2 then 6 else pWB p) kc

/-- The energy of a compute that begins at `c0`, chunk by chunk (R221, R362): the rules do not say at which cycle of a chunk its events
fall, and the model charges them in its last one (log 50). -/
def chunkLands (g iss c0 : Nat) (p : Word) (kcs nr nc : Nat) : List Landing :=
  (List.range kcs).map (fun kc => ⟨iss, c0 + (kc + 1) * nativeCost p - 1, .energy (chunkBits p nr nc) (chunkRows g p kc nr nc)⟩)

/-! ### MMA, MMAZ and MMAT -/

/-- A control register as it stands in cycle `c` to come, from its value now and the landings of writes (R222). -/
def ctrlBy (c idx : Nat) (v : Word) (ls : List Landing) : Word := newestCtrl idx v (ls.filter (fun l => decide (l.lc < c)))

/-- PREC and the grants as they stand in the group's last cycle, where MMA, MMAZ and MDRN read them (R351, R355; log 47). -/
def atLast (s : State) : State :=
  if s.ix.cl = s.ix.c then s
  else { s with sq := { s.sq with
    prec := ctrlBy s.ix.cl 0x04 s.sq.prec s.sq.land
    sh := (List.range 4).foldl (fun t i => tabSet 0#64 t i (ctrlBy s.ix.cl (0x1C + i) (tabGet 0#64 s.sq.sh i) s.sq.land)) s.sq.sh } }

/-- An operation as it issues (R351, R353), with the PREC `p` and the grant that it reads; MVALID is that of its issue (R181). -/
def matOp (mmat zero : Bool) (p : Word) (f : BitVec 2) (va vb av gr : Word) (s : State) : MatOp :=
  { mmat := mmat, zero := zero, prec := p, fmt := f, va := va, vb := vb, av := av, gr := gr, cut := mvalidCut s.sq.mvalid
    sa := s.sq.scaleA, sb := s.sq.scaleB, c := s.ix.cl }

/-- The landings of a drain that starts at `d0` (R355), issued at LC `iss`: rows of accumulators `acc` at view rows from `r0`, elements
from `c0`. -/
def drainLands (g iss d0 : Nat) (av : Word) (f rm : BitVec 2) (add mmat : Bool) (r0 c0 qm qn cut : Nat) (acc : Tab Acc) : List Landing :=
  let written := (List.range (natM g)).filter (fun i => decide (r0 + i < qm) && decide (r0 + i < cut))
  let cols := (List.range (natN g)).filter (fun j => decide (c0 + j < qn))
  let els (i : Nat) := cols.map (fun j => (⟨(c0 + j) * drainW f, getAcc acc i j, quadOf g i j⟩ : DrainElem))
  let all := written.flatMap els
  let nan := all.foldl (fun (x : BitVec 16) e => if e.acc.nan then x ||| (1#16 <<< e.quad) else x) 0#16
  let ov := all.foldl (fun (x : BitVec 4) e =>
    if !e.acc.nan && (e.acc.ovm || (!add && (drainValue e.acc f rm).2.2)) then x ||| (1#4 <<< (e.quad / 4)) else x) 0#4
  (if cols.isEmpty then [] else written.map (fun i =>
    (⟨iss, d0 + 8 + i, .drain (vBase av + (r0 + i) * vPitch av) f rm add mmat (els i)⟩ : Landing))) ++ [⟨iss, d0 + 5, .stat false nan ov⟩]

/-- Native tiles of a grant, and those of a row of them (R353). -/
def matTiles (g : Nat) (gr : Word) : Nat := shGM gr / natM g * (shGN gr / natN g)
/-- Row and column of native tile `t`'s first accumulator (R353). -/
def tileAt (g : Nat) (gr : Word) (t : Nat) : Nat × Nat := (t / (shGN gr / natN g) * natM g, t % (shGN gr / natN g) * natN g)

/-- The cost of a native tile of an operation, and the period of MMAT's tiles (R214, R350, R353). -/
def matCost (p va : Word) : Nat := viewKC va * nativeCost p
def matPeriod (g : Nat) (p va : Word) : Nat := matCost p va + 12 + natM g

/-- What an operation issued at LC `iss` will land, from the rows and accumulators as they stand when its cost window begins (R215). -/
def matLands (g iss : Nat) (x : MatOp) (lrs : Tab Byte) (acc : Tab Acc) : List Landing :=
  let o : Operand := ⟨g, lrs, x.va, x.vb, x.sa, x.sb⟩
  let run (r c : Nat) (a : Tab Acc) : Tab Acc :=
    tileRun x.prec o (viewKC x.va) (natM g) (natN g) r c (shQM x.gr) (shQN x.gr) x.cut a
  let cost := matCost x.prec x.va
  if x.mmat then
    let p := matPeriod g x.prec x.va
    let n := matTiles g x.gr
    let sums (t : Nat) : Tab Acc := run (tileAt g x.gr t).1 (tileAt g x.gr t).2 []
    (List.range n).flatMap (fun t => drainLands g iss (x.c + t * p + cost + 4) x.av x.fmt (pRm x.prec) true true
      (tileAt g x.gr t).1 (tileAt g x.gr t).2 (shQM x.gr) (shQN x.gr) x.cut (sums t))
      ++ [⟨iss, x.c + n * p - 1, .accs (sums (n - 1))⟩]
  else [⟨iss, x.c + cost - 1, .accs (run 0 0 (if x.zero then [] else acc))⟩]

/-- Starts an operation: its operand rows are read when its cost window begins, after the group's conflict cycles (R215). -/
def startMat (x : MatOp) (s : State) : State :=
  if s.ix.cl = s.ix.c then { s with sq := { s.sq with land := s.sq.land ++ matLands s.tk.g s.ix.c x s.sq.lrs s.sq.acc } }
  else landAt s (s.ix.cl - 1) (.matrix x)

/-- What MMA and MMAZ start (R351) with PREC `p` on views `va` and `vb` under the grant `gr`: the cost window, the accumulators it leaves,
and its energy. -/
def mmaEffect (zero : Bool) (p va vb gr : Word) (s : State) : State :=
  let c := s.ix.cl
  let x := matOp false zero p 0#2 va vb 0#64 gr s
  let t := startMat x { s with sq := { s.sq with
    win := (c, c + matCost p va), winExt := [va, vb], opLc := s.ix.c
    land := s.sq.land ++ chunkLands s.tk.g s.ix.c c p (viewKC va) (min (min (natM s.tk.g) (shQM gr)) x.cut) (min (natN s.tk.g) (shQN gr)) } }
  if zero then landAt t (c + 5) (.stat true 0#16 0#4) else t

/-- MMA and MMAZ (R351). -/
def mmaOp (zero : Bool) (g : Guard) (sh : BitVec 2) (x y : BitVec 3) (s : State) : Host.Outcome State Fault Refusal :=
  if !maskOn g s then .next (charge 5 1 s)
  else finish s (do
    precMatOk (atLast s)
    let va ← viewCfg s x.toNat
    let vb ← viewCfg s y.toNat
    kcRule (atLast s) x y va vb
    let gr ← matGrant (atLast s) sh
    if shGM gr ≠ natM s.tk.g ∨ shGN gr ≠ natN s.tk.g ∨ shGM gr > vNrow va ∨ shGN gr > vNrow vb then throw (shapeFault s 0x04 sh 0#64)
    bmuFree s 0
    extentOwned s va
    extentOwned s vb
    .ok (mmaEffect zero (atLast s).sq.prec va vb gr s))

def execMma (g : Guard) (sh : BitVec 2) (x y : BitVec 3) (s : State) := mmaOp false g sh x y s
def execMmaz (g : Guard) (sh : BitVec 2) (x y : BitVec 3) (s : State) := mmaOp true g sh x y s

/-- What MDRN starts (R355) with PREC `p`: the landings, and DRN from its issue to the last of them (R220). -/
def drainEffect (p av : Word) (f : BitVec 2) (add : Bool) (gr : Word) (s : State) : State :=
  { s with sq := { s.sq with
      land := s.sq.land ++ drainLands s.tk.g s.ix.c s.ix.cl av f (pRm p) add false 0 0 (shQM gr) (shQN gr) (mvalidCut s.sq.mvalid) s.sq.acc
      drn := s.sq.drn ++ [(s.ix.c, s.ix.cl + 7 + natM s.tk.g)] } }

/-- What MMAT starts (R353): every native tile of the logical tile, drained with add into the accumulator view `av`; it reads PREC and its
grant at its issue. -/
def mmatEffect (f : BitVec 2) (va vb av gr : Word) (s : State) : State :=
  let g := s.tk.g
  let p := matPeriod g s.sq.prec va
  let n := matTiles g gr
  let c := s.ix.cl
  let x := matOp true true s.sq.prec f va vb av gr s
  startMat x { s with sq := { s.sq with
    win := (c, c + n * p), winExt := [va, vb, av], opLc := s.ix.c
    drn := s.sq.drn ++ (List.range n).map (fun t =>
      let d := c + t * p + matCost s.sq.prec va + 4
      (d, d + 7 + natM g))
    land := s.sq.land ++ (List.range n).flatMap (fun t =>
      let r := tileAt g gr t
      chunkLands g s.ix.c (c + t * p) s.sq.prec (viewKC va) (min (min (natM g) (shQM gr - r.1)) (x.cut - r.1))
        (min (natN g) (shQN gr - r.2))) } }

/-- MMAT (R353). -/
def execMmat (g : Guard) (f u sh : BitVec 2) (x y : BitVec 3) (s : State) : Host.Outcome State Fault Refusal :=
  if !maskOn g s then .next (charge 5 1 s)
  else finish s (do
    precMatOk s
    let va ← viewCfg s x.toNat
    let vb ← viewCfg s y.toNat
    kcRule s x y va vb
    let av ← accView s u f
    let gr ← matGrant s sh
    if shGM gr > vNrow va ∨ shGN gr > vNrow vb then throw (shapeFault s 0x04 sh 0#64)
    if shGM gr > vNrow av ∨ shGN gr > vNcol av then throw (shapeFault s 0x03 sh av)
    bmuFree s 0
    extentOwned s va
    extentOwned s vb
    extentOwned s av
    .ok (mmatEffect f va vb av gr s))

/-! ### MDRN, MCLR, MSCL, MVCN, MSTA (R355 to R360) -/

def execMdrn (g : Guard) (f u sh : BitVec 2) (add : Bool) (s : State) : Host.Outcome State Fault Refusal :=
  if !maskOn g s then .next (charge 5 1 s)
  else finish s (do
    precMatOk (atLast s)
    let av ← accView s u f
    let gr ← matGrant s sh
    let m := natM s.tk.g
    let n := natN s.tk.g
    if shGM gr ≠ m ∨ shGN gr ≠ n then throw (shapeFault s 0x04 sh 0#64)
    if shGM gr > vNrow av ∨ shGN gr > vNcol av then throw (shapeFault s 0x03 sh av)
    bmuFree s 4
    extentOwned s av
    .ok (drainEffect (atLast s).sq.prec av f add gr s))

def execMclr (g : Guard) (s : State) : Host.Outcome State Fault Refusal :=
  finishOp s (guarded (maskOn g s) s (do
    bmuFree s 0
    .ok (landAt (landIn s 1 (.accs [])) (s.ix.cl + 5) (.stat true 0#16 0#4))))

/-- The scale bytes that MSCL loads from view `v` (R358): for rows (`o` false) or columns, 0x7F beyond the view. -/
def scaleBytes (o : Bool) (v : Word) (s : State) : Tab Byte :=
  let rows := if o then natN s.tk.g else natM s.tk.g
  (List.range (min rows (vNrow v))).foldl (fun t i => (List.range (min 96 (vNcol v))).foldl (fun t b =>
    tabSet 0x7F#8 t (96 * i + b) (BitVec.ofNat 8 (viewBits s.tk.g s.sq.lrs v i (8 * b) 8))) t) []

/-- Group rows that MSCL reads of view `v` (R362). -/
def scaleRows (o : Bool) (v : Word) (s : State) : Nat :=
  min (if o then natN s.tk.g else natM s.tk.g) (vNrow v) * ((8 * min 96 (vNcol v) + 1024 * s.tk.g - 1) / (1024 * s.tk.g))

/-- MSCL (R358). -/
def execMscl (g : Guard) (o : Bool) (x : BitVec 3) (s : State) : Host.Outcome State Fault Refusal :=
  if !maskOn g s then .next (charge 5 1 s)
  else finish s (do
    let v ← viewCfg s x.toNat
    if vW v ≠ 8 then throw (viewFault s 0x04 x.toNat v (vBase v))
    bmuFree s 0
    extentOwned s v
    .ok (charge 1 (scaleRows o v s) (landIn s 4 (.scale o (scaleBytes o v s)))))

/-- MVCN (R359). -/
def execMvcn (g : Guard) (en : Bool) (i : BitVec 16) (s : State) : Host.Outcome State Fault Refusal :=
  finishOp s (guarded (maskOn g s) s (.ok (landIn s 1 (.ctrl 0x31 (w64 (i.toNat + bitN en 16))))))

/-- MSTA (R360). -/
def execMsta (g : Guard) (d a : BitVec 6) (s : State) : Host.Outcome State Fault Refusal :=
  let v := readS s a
  let x := getAcc s.sq.acc (fieldN v 0 8 % natM s.tk.g) (fieldN v 8 8 % natN s.tk.g)
  finishOp s (guarded (maskOn g s) s (do
    bmuFree s 0
    .ok (landS s 1 d (if v.getLsbD 16 then w64 (x.e.toNat + bitN x.nan 16 + bitN x.ovm 17) else x.s))))

end Sys2Proof.Machine
end

