-- ==== Sys2Proof/Machine/Uses.lean ====
section
/-!
DEFINITION. What every operation reads and writes as the group checks see it (R197, R282), and its class (R273).
-/

namespace Sys2Proof.Machine

/-- Names of R282 as numbers: sn, qn, mn, btn and v(n); s0, q0 and m0 have none. -/
def sN (n : BitVec 6) : Nat := n.toNat
def qN (n : BitVec 3) : Nat := if n = 0#3 then 0 else 64 + n.toNat
def mN (n : BitVec 3) : Nat := if n = 0#3 then 0 else 72 + n.toNat
def bN (n : BitVec 2) : Nat := 80 + n.toNat
def vN (n : Nat) : Nat := 128 + n
def voN (v : VOp) : Nat := if v.hold then 0 else vN v.n.toNat

/-- The group row LDL reads (R310). -/
def ldlRow (s : State) (a : BitVec 6) (i : Imm14) : Nat := ldlAddr s.tk.g (readS s a) i / (128 * s.tk.g)

/-- One bank read in the group's first read cycle. -/
def rOne (x : Nat) : List (List Nat) := [[x]]

/-- The reads of a row-wise operation (R327). -/
def rRows (s : State) (xs : List Src) : List (List Nat) :=
  (List.range (vecRows s)).map (fun j => xs.filterMap (srcRow s j))

/-- What an operation reads and writes by the names of R282, the LRS rows it reads from banks by read cycle (R197, R210, R327;
VTCD reads through the slice path), and its class (R273), 7 for NOP and for events, which count in no limit. -/
structure Uses where
  rd   : List Nat
  wr   : List Nat
  rows : List (List Nat)
  cls  : Nat
  deriving DecidableEq, Repr

/-- The uses of an operation. -/
def usesOf (s : State) : Instr → Uses
  | .nop _ => ⟨[], [], [], 7⟩
  | .illegal _ _ _ _ => ⟨[], [], [], 0⟩
  | .add g d a b => ⟨[qN g.p, sN a, sN b], [sN d], [], 0⟩
  | .sub g d a b => ⟨[qN g.p, sN a, sN b], [sN d], [], 0⟩
  | .addi g d a _ => ⟨[qN g.p, sN a], [sN d], [], 0⟩
  | .lih g d _ => ⟨[qN g.p, sN d], [sN d], [], 0⟩
  | .mul g d a b => ⟨[qN g.p, sN a, sN b], [sN d], [], 0⟩
  | .mulh g d a b => ⟨[qN g.p, sN a, sN b], [sN d], [], 0⟩
  | .mulhn g d a b => ⟨[qN g.p, sN a, sN b], [sN d], [], 0⟩
  | .div g d a b => ⟨[qN g.p, sN a, sN b], [sN d], [], 0⟩
  | .divn g d a b => ⟨[qN g.p, sN a, sN b], [sN d], [], 0⟩
  | .rem g d a b => ⟨[qN g.p, sN a, sN b], [sN d], [], 0⟩
  | .remn g d a b => ⟨[qN g.p, sN a, sN b], [sN d], [], 0⟩
  | .andS g d a b => ⟨[qN g.p, sN a, sN b], [sN d], [], 0⟩
  | .orS g d a b => ⟨[qN g.p, sN a, sN b], [sN d], [], 0⟩
  | .xorS g d a b => ⟨[qN g.p, sN a, sN b], [sN d], [], 0⟩
  | .andi g d a _ => ⟨[qN g.p, sN a], [sN d], [], 0⟩
  | .ori g d a _ => ⟨[qN g.p, sN a], [sN d], [], 0⟩
  | .xori g d a _ => ⟨[qN g.p, sN a], [sN d], [], 0⟩
  | .shl g d a b => ⟨[qN g.p, sN a, sN b], [sN d], [], 0⟩
  | .shr g d a b => ⟨[qN g.p, sN a, sN b], [sN d], [], 0⟩
  | .shra g d a b => ⟨[qN g.p, sN a, sN b], [sN d], [], 0⟩
  | .shli g d a _ => ⟨[qN g.p, sN a], [sN d], [], 0⟩
  | .shri g d a _ => ⟨[qN g.p, sN a], [sN d], [], 0⟩
  | .shrai g d a _ => ⟨[qN g.p, sN a], [sN d], [], 0⟩
  | .rotr g d a b => ⟨[qN g.p, sN a, sN b], [sN d], [], 0⟩
  | .clz g d a => ⟨[qN g.p, sN a], [sN d], [], 0⟩
  | .popc g d a => ⟨[qN g.p, sN a], [sN d], [], 0⟩
  | .minS g d a b => ⟨[qN g.p, sN a, sN b], [sN d], [], 0⟩
  | .maxS g d a b => ⟨[qN g.p, sN a, sN b], [sN d], [], 0⟩
  | .minn g d a b => ⟨[qN g.p, sN a, sN b], [sN d], [], 0⟩
  | .maxn g d a b => ⟨[qN g.p, sN a, sN b], [sN d], [], 0⟩
  | .sel g d a b => ⟨[qN g.p, sN a, sN b], [sN d], [], 0⟩
  | .ceq g q a b => ⟨[qN g.p, sN a, sN b], [qN q], [], 0⟩
  | .cne g q a b => ⟨[qN g.p, sN a, sN b], [qN q], [], 0⟩
  | .clt g q a b => ⟨[qN g.p, sN a, sN b], [qN q], [], 0⟩
  | .cle g q a b => ⟨[qN g.p, sN a, sN b], [qN q], [], 0⟩
  | .cltn g q a b => ⟨[qN g.p, sN a, sN b], [qN q], [], 0⟩
  | .clen g q a b => ⟨[qN g.p, sN a, sN b], [qN q], [], 0⟩
  | .ceqi g q a _ => ⟨[qN g.p, sN a], [qN q], [], 0⟩
  | .clti g q a _ => ⟨[qN g.p, sN a], [qN q], [], 0⟩
  | .badr g d a b => ⟨[qN g.p, sN a, sN b], [sN d], [], 0⟩
  | .boff g d a _ => ⟨[qN g.p, sN a], [sN d], [], 0⟩
  | .ldb g d a _ => ⟨[qN g.p, sN a], [sN d], [], 0⟩
  | .ldh g d a _ => ⟨[qN g.p, sN a], [sN d], [], 0⟩
  | .ldw g d a _ => ⟨[qN g.p, sN a], [sN d], [], 0⟩
  | .ldd g d a _ => ⟨[qN g.p, sN a], [sN d], [], 0⟩
  | .stb g d a _ => ⟨[qN g.p, sN a, sN d], [], [], 0⟩
  | .sth g d a _ => ⟨[qN g.p, sN a, sN d], [], [], 0⟩
  | .stw g d a _ => ⟨[qN g.p, sN a, sN d], [], [], 0⟩
  | .std g d a _ => ⟨[qN g.p, sN a, sN d], [], [], 0⟩
  | .ldl g d a i => ⟨[qN g.p, sN a], [sN d], rOne (ldlRow s a i), 0⟩
  | .stl g d a _ => ⟨[qN g.p, sN a, sN d], [], [], 0⟩
  | .aadd g d a b => ⟨[qN g.p, sN a, sN b], [sN d], [], 0⟩
  | .amin g d a b => ⟨[qN g.p, sN a, sN b], [sN d], [], 0⟩
  | .amax g d a b => ⟨[qN g.p, sN a, sN b], [sN d], [], 0⟩
  | .aor g d a b => ⟨[qN g.p, sN a, sN b], [sN d], [], 0⟩
  | .axch g d a b => ⟨[qN g.p, sN a, sN b], [sN d], [], 0⟩
  | .acas g d a b => ⟨[qN g.p, sN a, sN b, sN d], [sN d], [], 0⟩
  | .qmov g q a => ⟨[qN g.p, sN a], [qN q], [], 0⟩
  | .movq g d => ⟨[qN g.p], [sN d], [], 0⟩
  | .qlog g q qa qb _ => ⟨[qN g.p, qN qa, qN qb], [qN q], [], 0⟩
  | .pbr g t _ => ⟨[qN g.p], [bN t], [], 5⟩
  | .pbrr g t a => ⟨[qN g.p, sN a], [bN t], [], 5⟩
  | .br g t => ⟨[qN g.p, bN t], [], [], 5⟩
  | .brc g t a => ⟨[qN g.p, bN t, sN a], [], [], 5⟩
  | .call g t => ⟨[qN g.p, bN t], [], [], 5⟩
  | .ret g => ⟨[qN g.p], [], [], 5⟩
  | .loop g _ a t => ⟨[qN g.p, sN a, bN t], [], [], 5⟩
  | .loopi g _ t _ => ⟨[qN g.p, bN t], [], [], 5⟩
  | .lstr g _ a _ => ⟨[qN g.p, sN a], [], [], 5⟩
  | .lidx g d _ => ⟨[qN g.p], [sN d], [], 5⟩
  | .lbrk g _ => ⟨[qN g.p], [], [], 5⟩
  | .spawn g _ a t => ⟨[qN g.p, sN a, bN t], [], [], 5⟩
  | .joinK g _ => ⟨[qN g.p], [], [], 5⟩
  | .safe g _ => ⟨[qN g.p], [], [], 5⟩
  | .halt g => ⟨[qN g.p], [], [], 5⟩
  | .trap g _ => ⟨[qN g.p], [], [], 5⟩
  | .vany g q ma => ⟨[qN g.p, mN ma], [qN q], [], 5⟩
  | .vall g q ma => ⟨[qN g.p, mN ma], [qN q], [], 5⟩
  | .waitt g a => ⟨[qN g.p, sN a], [], [], 5⟩
  | .waitl g a => ⟨[qN g.p, sN a], [], [], 5⟩
  | .psel g _ a => ⟨[qN g.p, sN a], [], [], 5⟩
  | .brk g _ => ⟨[qN g.p], [], [], 5⟩
  | .tret g _ => ⟨[qN g.p], [], [], 5⟩
  | .phase g => ⟨[qN g.p], [], [], 6⟩
  | .bar g => ⟨[qN g.p], [], [], 6⟩
  | .send g _ va _ => ⟨[qN g.p, vN va.toNat], [], rOne (winRow s va.toNat), 6⟩
  | .recv g vd _ _ => ⟨[qN g.p], [vN vd.toNat], [], 6⟩
  | .sends g _ a => ⟨[qN g.p, sN a], [], [], 6⟩
  | .recvs g d _ => ⟨[qN g.p], [sN d], [], 6⟩
  | .bacq g _ => ⟨[qN g.p], [], [], 6⟩
  | .brel g _ => ⟨[qN g.p], [], [], 6⟩
  | .precW g d a b => ⟨[qN g.p, sN a, sN b], [sN d], [], 6⟩
  | .preci g _ _ => ⟨[qN g.p], [], [], 6⟩
  | .shape g _ _ a b => ⟨[qN g.p, sN a, sN b], [], [], 6⟩
  | .shapq g d a b => ⟨[qN g.p, sN a, sN b], [sN d], [], 6⟩
  | .view g _ a b => ⟨[qN g.p, sN a, sN b], [], [], 6⟩
  | .viewq g d _ => ⟨[qN g.p], [sN d], [], 6⟩
  | .getc g d _ => ⟨[qN g.p], [sN d], [], 6⟩
  | .setc g d _ => ⟨[qN g.p, sN d], [], [], 6⟩
  | .stat g d _ _ => ⟨[qN g.p], [sN d], [], 6⟩
  | .engy g d => ⟨[qN g.p], [sN d], [], 6⟩
  | .gtc g d => ⟨[qN g.p], [sN d], [], 6⟩
  | .lcr g d a => ⟨[qN g.p, sN a], [sN d], [], 6⟩
  | .fence g => ⟨[qN g.p], [], [], 6⟩
  | .invq g => ⟨[qN g.p], [], [], 6⟩
  | .svcYield g => ⟨[qN g.p], [], [], 6⟩
  | .svcFlush g => ⟨[qN g.p], [], [], 6⟩
  | .cdsc g _ a b => ⟨[qN g.p, sN a, sN b], [], [], 6⟩
  | .kzero g d a => ⟨[qN g.p, sN a], [sN d], [], 6⟩
  | .scrb g d a b => ⟨[qN g.p, sN a, sN b], [sN d], [], 6⟩
  | .scrq g d a b => ⟨[qN g.p, sN a, sN b], [sN d], [], 6⟩
  | .frel g d a b => ⟨[qN g.p, sN a, sN b], [sN d], [], 6⟩
  | .plwr g d a b => ⟨[qN g.p, sN a, sN b], [sN d], [], 6⟩
  | .btwr g d a b => ⟨[qN g.p, sN a, sN b], [sN d], [], 6⟩
  | .qwrt g d a b => ⟨[qN g.p, sN a, sN b], [sN d], [], 6⟩
  | .custodianResult _ => ⟨[], [], [], 7⟩
  | .mma g _ _ _ => ⟨[mN g.p], [], [], 3⟩
  | .mmaz g _ _ _ => ⟨[mN g.p], [], [], 3⟩
  | .mdrn g _ _ _ _ => ⟨[mN g.p], [], [], 3⟩
  | .mclr g => ⟨[mN g.p], [], [], 3⟩
  | .mscl g _ _ => ⟨[mN g.p], [], [], 3⟩
  | .mvcn g _ _ => ⟨[mN g.p], [], [], 3⟩
  | .msta g d a => ⟨[mN g.p, sN a], [sN d], [], 3⟩
  | .mmat g _ _ _ _ _ => ⟨[mN g.p], [], [], 3⟩
  | .matrixCheck _ _ _ _ _ _ _ => ⟨[], [], [], 7⟩
  | .cpl g _ _ _ => ⟨[mN g.p], [], [], 4⟩
  | .cpi g _ _ _ b => ⟨[mN g.p, sN b], [], [], 4⟩
  | .cpo g _ _ _ b => ⟨[mN g.p, sN b], [], [], 4⟩
  | .cpdi g _ _ _ b => ⟨[mN g.p, sN b], [], [], 4⟩
  | .cpdo g _ _ _ b => ⟨[mN g.p, sN b], [], [], 4⟩
  | .cps g _ _ _ b => ⟨[mN g.p, sN b], [], [], 4⟩
  | .cpg g _ _ _ b => ⟨[mN g.p, sN b], [], [], 4⟩
  | .cpst g _ _ _ b => ⟨[mN g.p, sN b], [], [], 4⟩
  | .cpb g _ _ _ b => ⟨[mN g.p, sN b], [], [], 4⟩
  | .cpr g _ _ _ b => ⟨[mN g.p, sN b], [], [], 4⟩
  | .copyComplete _ => ⟨[], [], [], 7⟩
  | .vaddVa g d a b => ⟨[mN g.p, voN a, voN b], [vN d.toNat], rRows s [srcOf a, srcOf b], 1⟩
  | .vaddVb g d a b => ⟨[mN g.p, voN a, voN b], [vN d.toNat], rRows s [srcOf a, srcOf b], 2⟩
  | .vsubVa g d a b => ⟨[mN g.p, voN a, voN b], [vN d.toNat], rRows s [srcOf a, srcOf b], 1⟩
  | .vsubVb g d a b => ⟨[mN g.p, voN a, voN b], [vN d.toNat], rRows s [srcOf a, srcOf b], 2⟩
  | .vmulVa g d a b => ⟨[mN g.p, voN a, voN b], [vN d.toNat], rRows s [srcOf a, srcOf b], 1⟩
  | .vmulVb g d a b => ⟨[mN g.p, voN a, voN b], [vN d.toNat], rRows s [srcOf a, srcOf b], 2⟩
  | .vfmaVa g d a b => ⟨[mN g.p, voN a, voN b, vN d.toNat], [vN d.toNat], rRows s [srcOf a, srcOf b, .win d.toNat], 1⟩
  | .vfmaVb g d a b => ⟨[mN g.p, voN a, voN b, vN d.toNat], [vN d.toNat], rRows s [srcOf a, srcOf b, .win d.toNat], 2⟩
  | .vfmsVa g d a b => ⟨[mN g.p, voN a, voN b, vN d.toNat], [vN d.toNat], rRows s [srcOf a, srcOf b, .win d.toNat], 1⟩
  | .vfmsVb g d a b => ⟨[mN g.p, voN a, voN b, vN d.toNat], [vN d.toNat], rRows s [srcOf a, srcOf b, .win d.toNat], 2⟩
  | .vfnmaVa g d a b => ⟨[mN g.p, voN a, voN b, vN d.toNat], [vN d.toNat], rRows s [srcOf a, srcOf b, .win d.toNat], 1⟩
  | .vfnmaVb g d a b => ⟨[mN g.p, voN a, voN b, vN d.toNat], [vN d.toNat], rRows s [srcOf a, srcOf b, .win d.toNat], 2⟩
  | .vminVa g d a b => ⟨[mN g.p, voN a, voN b], [vN d.toNat], rRows s [srcOf a, srcOf b], 1⟩
  | .vminVb g d a b => ⟨[mN g.p, voN a, voN b], [vN d.toNat], rRows s [srcOf a, srcOf b], 2⟩
  | .vmaxVa g d a b => ⟨[mN g.p, voN a, voN b], [vN d.toNat], rRows s [srcOf a, srcOf b], 1⟩
  | .vmaxVb g d a b => ⟨[mN g.p, voN a, voN b], [vN d.toNat], rRows s [srcOf a, srcOf b], 2⟩
  | .vabsVa g d a => ⟨[mN g.p, voN a], [vN d.toNat], rRows s [srcOf a], 1⟩
  | .vabsVb g d a => ⟨[mN g.p, voN a], [vN d.toNat], rRows s [srcOf a], 2⟩
  | .vnegVa g d a => ⟨[mN g.p, voN a], [vN d.toNat], rRows s [srcOf a], 1⟩
  | .vnegVb g d a => ⟨[mN g.p, voN a], [vN d.toNat], rRows s [srcOf a], 2⟩
  | .vrcpeVa g d a => ⟨[mN g.p, voN a], [vN d.toNat], rRows s [srcOf a], 1⟩
  | .vrcpeVb g d a => ⟨[mN g.p, voN a], [vN d.toNat], rRows s [srcOf a], 2⟩
  | .vrsqeVa g d a => ⟨[mN g.p, voN a], [vN d.toNat], rRows s [srcOf a], 1⟩
  | .vrsqeVb g d a => ⟨[mN g.p, voN a], [vN d.toNat], rRows s [srcOf a], 2⟩
  | .vdiv g d a b => ⟨[mN g.p, voN a, voN b], [vN d.toNat], rRows s [srcOf a, srcOf b], 1⟩
  | .vsqrt g d a => ⟨[mN g.p, voN a], [vN d.toNat], rRows s [srcOf a], 1⟩
  | .vexp2 g d a => ⟨[mN g.p, voN a], [vN d.toNat], rRows s [srcOf a], 1⟩
  | .vlog2 g d a => ⟨[mN g.p, voN a], [vN d.toNat], rRows s [srcOf a], 1⟩
  | .viaddVa g d a b => ⟨[mN g.p, voN a, voN b], [vN d.toNat], rRows s [srcOf a, srcOf b], 1⟩
  | .viaddVb g d a b => ⟨[mN g.p, voN a, voN b], [vN d.toNat], rRows s [srcOf a, srcOf b], 2⟩
  | .visubVa g d a b => ⟨[mN g.p, voN a, voN b], [vN d.toNat], rRows s [srcOf a, srcOf b], 1⟩
  | .visubVb g d a b => ⟨[mN g.p, voN a, voN b], [vN d.toNat], rRows s [srcOf a, srcOf b], 2⟩
  | .vimulVa g d a b => ⟨[mN g.p, voN a, voN b], [vN d.toNat], rRows s [srcOf a, srcOf b], 1⟩
  | .vimulVb g d a b => ⟨[mN g.p, voN a, voN b], [vN d.toNat], rRows s [srcOf a, srcOf b], 2⟩
  | .vimacVa g d a b => ⟨[mN g.p, voN a, voN b, vN d.toNat], [vN d.toNat], rRows s [srcOf a, srcOf b, .win d.toNat], 1⟩
  | .vimacVb g d a b => ⟨[mN g.p, voN a, voN b, vN d.toNat], [vN d.toNat], rRows s [srcOf a, srcOf b, .win d.toNat], 2⟩
  | .vandVa g d a b => ⟨[mN g.p, voN a, voN b], [vN d.toNat], rRows s [srcOf a, srcOf b], 1⟩
  | .vandVb g d a b => ⟨[mN g.p, voN a, voN b], [vN d.toNat], rRows s [srcOf a, srcOf b], 2⟩
  | .vorVa g d a b => ⟨[mN g.p, voN a, voN b], [vN d.toNat], rRows s [srcOf a, srcOf b], 1⟩
  | .vorVb g d a b => ⟨[mN g.p, voN a, voN b], [vN d.toNat], rRows s [srcOf a, srcOf b], 2⟩
  | .vxorVa g d a b => ⟨[mN g.p, voN a, voN b], [vN d.toNat], rRows s [srcOf a, srcOf b], 1⟩
  | .vxorVb g d a b => ⟨[mN g.p, voN a, voN b], [vN d.toNat], rRows s [srcOf a, srcOf b], 2⟩
  | .vshlVa g d a b => ⟨[mN g.p, voN a, voN b], [vN d.toNat], rRows s [srcOf a, srcOf b], 1⟩
  | .vshlVb g d a b => ⟨[mN g.p, voN a, voN b], [vN d.toNat], rRows s [srcOf a, srcOf b], 2⟩
  | .vshrVa g d a b => ⟨[mN g.p, voN a, voN b], [vN d.toNat], rRows s [srcOf a, srcOf b], 1⟩
  | .vshrVb g d a b => ⟨[mN g.p, voN a, voN b], [vN d.toNat], rRows s [srcOf a, srcOf b], 2⟩
  | .vshraVa g d a b => ⟨[mN g.p, voN a, voN b], [vN d.toNat], rRows s [srcOf a, srcOf b], 1⟩
  | .vshraVb g d a b => ⟨[mN g.p, voN a, voN b], [vN d.toNat], rRows s [srcOf a, srcOf b], 2⟩
  | .vfceqVa g m a b => ⟨[mN g.p, voN a, voN b], [mN m], rRows s [srcOf a, srcOf b], 1⟩
  | .vfceqVb g m a b => ⟨[mN g.p, voN a, voN b], [mN m], rRows s [srcOf a, srcOf b], 2⟩
  | .vfcltVa g m a b => ⟨[mN g.p, voN a, voN b], [mN m], rRows s [srcOf a, srcOf b], 1⟩
  | .vfcltVb g m a b => ⟨[mN g.p, voN a, voN b], [mN m], rRows s [srcOf a, srcOf b], 2⟩
  | .vfcleVa g m a b => ⟨[mN g.p, voN a, voN b], [mN m], rRows s [srcOf a, srcOf b], 1⟩
  | .vfcleVb g m a b => ⟨[mN g.p, voN a, voN b], [mN m], rRows s [srcOf a, srcOf b], 2⟩
  | .viceqVa g m a b => ⟨[mN g.p, voN a, voN b], [mN m], rRows s [srcOf a, srcOf b], 1⟩
  | .viceqVb g m a b => ⟨[mN g.p, voN a, voN b], [mN m], rRows s [srcOf a, srcOf b], 2⟩
  | .vicltVa g m a b => ⟨[mN g.p, voN a, voN b], [mN m], rRows s [srcOf a, srcOf b], 1⟩
  | .vicltVb g m a b => ⟨[mN g.p, voN a, voN b], [mN m], rRows s [srcOf a, srcOf b], 2⟩
  | .vicleVa g m a b => ⟨[mN g.p, voN a, voN b], [mN m], rRows s [srcOf a, srcOf b], 1⟩
  | .vicleVb g m a b => ⟨[mN g.p, voN a, voN b], [mN m], rRows s [srcOf a, srcOf b], 2⟩
  | .vselVa g d a b => ⟨[mN g.p, voN a, voN b], [vN d.toNat], rRows s [srcOf a, srcOf b], 1⟩
  | .vselVb g d a b => ⟨[mN g.p, voN a, voN b], [vN d.toNat], rRows s [srcOf a, srcOf b], 2⟩
  | .vmovVa g d a => ⟨[mN g.p, voN a], [vN d.toNat], rRows s [srcOf a], 1⟩
  | .vmovVb g d a => ⟨[mN g.p, voN a], [vN d.toNat], rRows s [srcOf a], 2⟩
  | .vbcstVa g d a => ⟨[mN g.p, sN a], [vN d.toNat], rRows s [], 1⟩
  | .vbcstVb g d a => ⟨[mN g.p, sN a], [vN d.toNat], rRows s [], 2⟩
  | .vlaneVa g d a _ => ⟨[mN g.p, sN a], [vN d.toNat], [], 1⟩
  | .vlaneVb g d a _ => ⟨[mN g.p, sN a], [vN d.toNat], [], 2⟩
  | .vextVa g d a i => ⟨[mN g.p, vN a.toNat], [sN d], rOne (winRow s (vextRow s a i)), 1⟩
  | .vextVb g d a i => ⟨[mN g.p, vN a.toNat], [sN d], rOne (winRow s (vextRow s a i)), 2⟩
  | .vcvtVa g d a _ _ _ _ => ⟨[mN g.p, vN a.toNat], [vN d.toNat], rRows s [.win a.toNat], 1⟩
  | .vcvtVb g d a _ _ _ _ => ⟨[mN g.p, vN a.toNat], [vN d.toNat], rRows s [.win a.toNat], 2⟩
  | .vpackVa g d a _ _ _ => ⟨[mN g.p, vN a.toNat], [vN d.toNat], rRows s [.win a.toNat], 1⟩
  | .vpackVb g d a _ _ _ => ⟨[mN g.p, vN a.toNat], [vN d.toNat], rRows s [.win a.toNat], 2⟩
  | .vunpkVa g d a _ _ => ⟨[mN g.p, vN a.toNat], [vN d.toNat], rRows s [.win a.toNat], 1⟩
  | .vunpkVb g d a _ _ => ⟨[mN g.p, vN a.toNat], [vN d.toNat], rRows s [.win a.toNat], 2⟩
  | .vperm g d a b => ⟨[mN g.p, voN a, voN b], [vN d.toNat], rRows s [srcOf a, srcOf b], 1⟩
  | .vrotlVa g d a _ => ⟨[mN g.p, vN a.toNat], [vN d.toNat], rRows s [.win a.toNat], 1⟩
  | .vrotlVb g d a _ => ⟨[mN g.p, vN a.toNat], [vN d.toNat], rRows s [.win a.toNat], 2⟩
  | .vrsum g d a => ⟨[mN g.p, voN a], [vN d.toNat], rRows s [srcOf a], 1⟩
  | .vrmax g d a => ⟨[mN g.p, voN a], [vN d.toNat], rRows s [srcOf a], 1⟩
  | .vldxVa g d a i => ⟨[mN g.p, sN a], [vN d.toNat], rRows s [.abs (vldxRow (readS s a) i)], 1⟩
  | .vldxVb g d a i => ⟨[mN g.p, sN a], [vN d.toNat], rRows s [.abs (vldxRow (readS s a) i)], 2⟩
  | .vstxVa g d a _ => ⟨[mN g.p, sN a, vN d.toNat], [], rRows s [.win d.toNat], 1⟩
  | .vstxVb g d a _ => ⟨[mN g.p, sN a, vN d.toNat], [], rRows s [.win d.toNat], 2⟩
  | .vtrdVa g d t a r => ⟨[mN g.p, sN a], [vN d.toNat], if vNrow (tabGet 0#64 s.sq.td t.toNat) = 0 then [] else rOne (vtrRow s t a r), 1⟩
  | .vtrdVb g d t a r => ⟨[mN g.p, sN a], [vN d.toNat], if vNrow (tabGet 0#64 s.sq.td t.toNat) = 0 then [] else rOne (vtrRow s t a r), 2⟩
  | .vtcd g d _ a => ⟨[mN g.p, sN a], [vN d.toNat], [], 1⟩
  | .vtrwVa g d _ a _ => ⟨[mN g.p, sN a, vN d.toNat], [], rOne (winRow s d.toNat), 1⟩
  | .vtrwVb g d _ a _ => ⟨[mN g.p, sN a, vN d.toNat], [], rOne (winRow s d.toNat), 2⟩
  | .vtcw g d _ a => ⟨[mN g.p, sN a, vN d.toNat], [], rOne (winRow s d.toNat), 1⟩
  | .vmskVa g m ma mb _ => ⟨[mN g.p, mN ma, mN mb], [mN m], [], 1⟩
  | .vmskVb g m ma mb _ => ⟨[mN g.p, mN ma, mN mb], [mN m], [], 2⟩
  | .viotaVa g d a b => ⟨[mN g.p, sN a, sN b], [vN d.toNat], rRows s [], 1⟩
  | .viotaVb g d a b => ⟨[mN g.p, sN a, sN b], [vN d.toNat], rRows s [], 2⟩
  | .resultLanding _ => ⟨[], [], [], 7⟩
  | .endpointReply _ => ⟨[], [], [], 7⟩
  | .phaseComplete _ => ⟨[], [], [], 7⟩
  | .barComplete _ => ⟨[], [], [], 7⟩
  | .waittRelease _ _ => ⟨[], [], [], 7⟩
  | .bankCleared _ _ _ => ⟨[], [], [], 7⟩
  | .stallTimeout _ => ⟨[], [], [], 7⟩
  | .safeBoundOverrun _ => ⟨[], [], [], 7⟩
  | .hlpRrd _ => ⟨[], [], [], 7⟩
  | .registerWrite _ => ⟨[], [], [], 7⟩
  | .hlpMrd _ => ⟨[], [], [], 7⟩
  | .hlpMwr _ => ⟨[], [], [], 7⟩
  | .hlpCpld _ => ⟨[], [], [], 7⟩
  | .hlpCpl _ => ⟨[], [], [], 7⟩
  | .hostReadTimeout _ => ⟨[], [], [], 7⟩
  | .moduleDisabled _ => ⟨[], [], [], 7⟩
  | .pcreate => ⟨[], [], [], 7⟩
  | .pdestroy => ⟨[], [], [], 7⟩
  | .colassign => ⟨[], [], [], 7⟩
  | .dsmassign => ⟨[], [], [], 7⟩
  | .dsmBankClearDone => ⟨[], [], [], 7⟩
  | .pooladd => ⟨[], [], [], 7⟩
  | .poolrem => ⟨[], [], [], 7⟩
  | .uashare => ⟨[], [], [], 7⟩
  | .vcreate => ⟨[], [], [], 7⟩
  | .vreset => ⟨[], [], [], 7⟩
  | .vresetComplete _ => ⟨[], [], [], 7⟩
  | .vdestroy => ⟨[], [], [], 7⟩
  | .credit => ⟨[], [], [], 7⟩
  | .keyload => ⟨[], [], [], 7⟩
  | .attest => ⟨[], [], [], 7⟩
  | .idcert => ⟨[], [], [], 7⟩
  | .deviceReset => ⟨[], [], [], 7⟩
  | .sidebandReset => ⟨[], [], [], 7⟩
  | .firmwareVerify _ => ⟨[], [], [], 7⟩
  | .packagePowerOn _ _ => ⟨[], [], [], 7⟩
  | .binningComplete _ => ⟨[], [], [], 7⟩
  | .plimWrite _ => ⟨[], [], [], 7⟩
  | .ltolWrite _ _ => ⟨[], [], [], 7⟩
  | .scrubctlWrite _ _ => ⟨[], [], [], 7⟩
  | .uarctxWrite _ _ _ => ⟨[], [], [], 7⟩
  | .gtcincWrite _ => ⟨[], [], [], 7⟩
  | .gtcadjWrite _ => ⟨[], [], [], 7⟩
  | .gtcsetWrite _ => ⟨[], [], [], 7⟩
  | .gtcSlewDone => ⟨[], [], [], 7⟩
  | .gtcHoldover => ⟨[], [], [], 7⟩
  | .loupeArm _ => ⟨[], [], [], 7⟩
  | .tampctlWrite _ => ⟨[], [], [], 7⟩
  | .vfstatDegWrite _ _ => ⟨[], [], [], 7⟩
  | .gsub _ _ => ⟨[], [], [], 7⟩
  | .gcan _ _ => ⟨[], [], [], 7⟩
  | .eqctlWrite _ _ => ⟨[], [], [], 7⟩
  | .eqheadWrite _ _ => ⟨[], [], [], 7⟩
  | .eventRecordWrite _ => ⟨[], [], [], 7⟩
  | .eqInterruptTimer _ => ⟨[], [], [], 7⟩
  | .arbiterEpoch => ⟨[], [], [], 7⟩
  | .fastLimiter _ => ⟨[], [], [], 7⟩
  | .sensorUpdate _ _ => ⟨[], [], [], 7⟩
  | .supplyExcursion => ⟨[], [], [], 7⟩
  | .meshBreak => ⟨[], [], [], 7⟩
  | .powerStateEntry _ => ⟨[], [], [], 7⟩
  | .wakeComplete _ => ⟨[], [], [], 7⟩
  | .portAdmit _ => ⟨[], [], [], 7⟩
  | .rowRefresh _ _ _ => ⟨[], [], [], 7⟩
  | .activationWindow => ⟨[], [], [], 7⟩
  | .patrolScrubStep _ => ⟨[], [], [], 7⟩
  | .hotScrubStep _ _ => ⟨[], [], [], 7⟩
  | .patrolPeriodEnd _ => ⟨[], [], [], 7⟩
  | .retirementCopyDone _ _ => ⟨[], [], [], 7⟩
  | .leaseIncrement _ _ => ⟨[], [], [], 7⟩
  | .leaseReply _ _ => ⟨[], [], [], 7⟩
  | .leaseRelease _ _ => ⟨[], [], [], 7⟩
  | .pullReadReply _ _ _ => ⟨[], [], [], 7⟩
  | .pullTimeout _ => ⟨[], [], [], 7⟩
  | .remoteRequest _ => ⟨[], [], [], 7⟩
  | .invalidationDone _ => ⟨[], [], [], 7⟩
  | .invalidationTimeout _ => ⟨[], [], [], 7⟩
  | .polisherClearBlock _ => ⟨[], [], [], 7⟩
  | .linkTraining _ _ _ => ⟨[], [], [], 7⟩
  | .laneLoss _ _ _ => ⟨[], [], [], 7⟩
  | .linkReplay _ _ => ⟨[], [], [], 7⟩
  | .skidSend _ => ⟨[], [], [], 7⟩
  | .messageLanding _ => ⟨[], [], [], 7⟩
  | .creditReturn _ _ => ⟨[], [], [], 7⟩
  | .collectiveStart _ => ⟨[], [], [], 7⟩
  | .reductionContribution _ _ _ _ _ => ⟨[], [], [], 7⟩
  | .collectiveComplete _ => ⟨[], [], [], 7⟩
  | .graphParse _ => ⟨[], [], [], 7⟩
  | .selectionRound _ => ⟨[], [], [], 7⟩
  | .gangToken => ⟨[], [], [], 7⟩
  | .priorityPreemption _ => ⟨[], [], [], 7⟩
  | .dispatch _ => ⟨[], [], [], 7⟩
  | .saveComplete _ => ⟨[], [], [], 7⟩
  | .contextRestore _ => ⟨[], [], [], 7⟩
  | .phaseRestart _ => ⟨[], [], [], 7⟩
  | .nodeRetire _ => ⟨[], [], [], 7⟩
  | .jobCardStart _ => ⟨[], [], [], 7⟩
  | .jobCardComplete _ => ⟨[], [], [], 7⟩
  | .caratFlush => ⟨[], [], [], 7⟩
  | .preemptionRequestArrival _ _ => ⟨[], [], [], 7⟩
  | .dsmBankRequest _ _ => ⟨[], [], [], 7⟩
  | .rangeRegisterFill _ _ => ⟨[], [], [], 7⟩

end Sys2Proof.Machine
end

