-- ==== Sys2Proof/Machine/Issue.lean ====
section
/-!
DEFINITION. Issue groups: fetch, the checks of a group, its read cycles, its slots together, and what may hold it back before it
issues (R115, R167, R169, R197 to R199, R260, R266, R279 to R284).
-/

namespace Sys2Proof.Machine

/-- What gives every instruction its meaning (`exec`). -/
abbrev Run := Instr → State → Host.Outcome State Fault Refusal

/-! ### Slots -/

/-- The innermost active loop level. -/
def innerLoop (ls : Tab Loop) : Option Loop := ((List.range 6).reverse.map (tabGet loopOff ls)).find? (fun l => l.active)

/-- Whether FI or LI of the slot's bundle turns the slot off (R279). -/
def slotOff (s : State) (x : Slot) : Bool :=
  match x.hdr, innerLoop s.sq.loops with
  | some h, some l => (h.getLsbD 26 && l.iter != 0) || (h.getLsbD 25 && l.iter + 1 != l.count)
  | _, _ => false

/-- The slot's number in its group (R255). -/
def slotNo (pos : Pos) (x : Slot) : Nat := 4 * (x.b - pos.bundle) + x.k

/-- The state as slot `x` of the group at `pos` meets it. -/
def atSlot (off : Bool) (pos : Pos) (x : Slot) (s : State) : State :=
  { s with ix := { s.ix with slot := slotNo pos x, bundle := x.b, word := x.w, off := off, trap := none } }

/-- The operation of a slot. -/
def slotInstr (x : Slot) : Except DecodeError Instr := decode (extByte x.hdr x.k) x.w

/-- The uses of a slot; a slot that is no operation counts in its class. -/
def slotUses (s : State) (x : Slot) : Uses :=
  match slotInstr x with
  | .ok i => usesOf s i
  | .error _ => ⟨[], [], [], (x.w.extractLsb' 28 3).toNat⟩

/-! ### Read cycles (R197, R327) -/

/-- The bank reads of read cycle `r`: slot and row, in slot order. -/
def cycleReads (us : List (Slot × Uses)) (r : Nat) : List (Slot × Nat) :=
  us.flatMap (fun e => (e.2.rows.getD r []).map (fun x => (e.1, x)))

def bankCount (rs : List (Slot × Nat)) (b : Nat) : Nat := rs.countP (fun e => e.2 % 6 == b)

/-- The largest number of reads of one bank. -/
def worstBank (rs : List (Slot × Nat)) : Nat := (List.range 6).foldl (fun a b => max a (bankCount rs b)) 0

def cycleCount (us : List (Slot × Uses)) : Nat := us.foldl (fun a e => max a e.2.rows.length) 1

/-- The last cycle of each read cycle of a group at LC `c`. -/
def readCycles (c : Nat) (us : List (Slot × Uses)) : List Nat :=
  ((List.range (cycleCount us)).foldl (fun a r =>
    let n := a.1 + max 1 (worstBank (cycleReads us r))
    (n, a.2 ++ [n - 1])) (c, [])).2

/-- VRSUM and VRMAX of n rows occupy n − 1 further cycles (R341). -/
def extraCycles (s : State) (g : Group) : Nat :=
  if g.slots.any (fun x => match slotInstr x with
    | .ok (.vrsum ..) | .ok (.vrmax ..) => true
    | _ => false) then vecRows s - 1 else 0

/-! ### Checks of a group (R266, R280 to R284) -/

/-- The blocks of the code buffer that the group at a position comes from. -/
def groupBlocks (s : State) (pos : Pos) : List Nat :=
  (([pos.bundle] ++ if (groupAt s pos).second then [pos.bundle + 1] else []).map (· / 4)).eraseDups

/-- Uncorrectable data met by the fetch of a group (R36): a trap at the LC at which the group would issue (log 52). -/
def lostTrap (s : State) (pos : Pos) : Option Trap :=
  ((groupBlocks s pos).findSome? (codeLost s)).map (fun o =>
    let ba := w64 (fieldN s.tk.code 48 16 * 2 ^ 48 + o)
    { trapOf s 0x0E 0x01 ba (w64 (locIpa (locate (codeEntry s) o))) (w64 kFetch) with slot := 0, gaddr := some ba })

/-- Why the code cannot be fetched (R36, R113, R266): the code buffer's entry comes first, then uncorrectable data, then the end of the code,
then the rights. -/
def fetchTrap (s : State) (pos : Pos) : Option Trap :=
  let past (b sub : Nat) : Trap := { trapOf s 0x0B sub (w64 b) (w64 (eLen (codeEntry s))) 0#64 with slot := 0 }
  let sub := match s.sq.via with
    | .sequential => 1
    | .target => 2
    | .handler => 3
    | .spawn => 4
  let entry (b : Nat) := match check s false false false true kFetch (bundleAddr s b) 16 with
    | .error t => some { t with slot := 0 }
    | .ok _ => none
  match entry pos.bundle with
  | some t =>
    if t.sub = 0x01 then some t
    else if pastEnd s pos.bundle then some (past pos.bundle sub)
    else if (groupAt s pos).second && pastEnd s (pos.bundle + 1) then some (past (pos.bundle + 1) 1)
    else some t
  | none =>
    if (lostTrap s pos).isSome then lostTrap s pos
    else if pastEnd s pos.bundle then some (past pos.bundle sub)
    else if (groupAt s pos).second && pastEnd s (pos.bundle + 1) then some (past (pos.bundle + 1) 1)
    else none

/-- An illegal encoding found at slot `x`. -/
def illegalAt (s : State) (pos : Pos) (x : Slot) (sub : Nat) : Trap := illegal (atSlot false pos x s) sub

/-- A header with a reserved bit set. -/
def headerTraps (s : State) (pos : Pos) (g : Group) : List Trap :=
  ([pos.bundle] ++ if g.second then [pos.bundle + 1] else []).filterMap (fun b =>
    match headerOf s b with
    | some h => if h.getLsbD 31 || h.getLsbD 24 then some (illegalAt s pos ⟨b, 0, h, none⟩ 0x01) else none
    | none => none)

/-- Slots that are no operation. -/
def decodeTraps (s : State) (pos : Pos) (g : Group) : List Trap :=
  g.slots.filterMap (fun x => match slotInstr x with
    | .error e => some (illegalAt s pos x e.sub)
    | .ok _ => none)

/-- No stop within two bundles. -/
def stopTraps (s : State) (pos : Pos) (g : Group) : List Trap :=
  if g.stopped then []
  else match g.slots.getLast? with
    | some x => [{ illegalAt s pos x 0x04 with slot := 7 }]
    | none => []

/-- A group with a slot of the end bundle of an active level goes on past that bundle (R315). -/
def loopTraps (s : State) (pos : Pos) (g : Group) : List Trap :=
  if g.second && (List.range 6).any (fun n => (tabGet loopOff s.sq.loops n).active && (tabGet loopOff s.sq.loops n).eB == pos.bundle) then
    match g.slots.find? (fun x => x.b != pos.bundle) with
    | some x => [illegalAt s pos x 0x04]
    | none => []
  else []

/-- The unit that a class counts for, and how many operations it takes (R281). -/
def unitOf (c : Nat) : Nat := if c = 5 ∨ c = 6 then 0 else c
def unitMost (u : Nat) : Nat := if u = 4 then 2 else 1

/-- The first slot over a unit's limit. -/
def limitTraps (s : State) (pos : Pos) (us : List (Slot × Uses)) : List Trap :=
  match us.zipIdx.find? (fun e => e.1.2.cls != 7 &&
      decide (unitMost (unitOf e.1.2.cls) ≤ (us.take e.2).countP (fun f => f.2.cls != 7 && unitOf f.2.cls == unitOf e.1.2.cls))) with
  | some e => [illegalAt s pos e.1.1 0x03]
  | none => []

/-- The first slot that reads or writes what an earlier slot writes (R282). -/
def nameTraps (s : State) (pos : Pos) (us : List (Slot × Uses)) : List Trap :=
  match us.zipIdx.find? (fun e => (us.take e.2).any (fun f =>
      f.2.wr.any (fun n => n != 0 && (e.1.2.rd.contains n || e.1.2.wr.contains n)))) with
  | some e => [illegalAt s pos e.1.1 0x05]
  | none => []

/-- Reads of each bank in a read cycle (R257). -/
def bankNibbles (rs : List (Slot × Nat)) : Word := w64 ((List.range 6).foldl (fun a b => a + bankCount rs b * 16 ^ b) 0)

/-- The read cycle that `f` rates highest, the first of equals. -/
def worstCycle (us : List (Slot × Uses)) (f : List (Slot × Nat) → Nat) : List (Slot × Nat) :=
  (List.range (cycleCount us)).foldl (fun a r => if f a < f (cycleReads us r) then cycleReads us r else a) (cycleReads us 0)

/-- The slot that makes the second read of a bank in a cycle. -/
def secondRead (rs : List (Slot × Nat)) : Option Slot :=
  (rs.zipIdx.find? (fun e => (rs.take e.2).any (fun f => f.2 % 6 == e.1.2 % 6))).map (fun e => e.1.1)

/-- Bank reads (R283). -/
def bankTraps (s : State) (pos : Pos) (g : Group) (us : List (Slot × Uses)) : List Trap :=
  let cs := (List.range (cycleCount us)).map (cycleReads us)
  let cf := match g.slots.head? with
    | some x => match headerOf s x.b with
      | some h => h.getLsbD 27
      | none => false
    | none => false
  (match cf, cs.findSome? secondRead with
    | true, some x => [{ illegalAt s pos x 0x08 with ti2 := bankNibbles (worstCycle us worstBank) }]
    | _, _ => [])
  ++ (match cs.findSome? (fun rs => rs[6]?) with
    | some e => [{ illegalAt s pos e.1 0x09 with ti2 := bankNibbles (worstCycle us List.length) }]
    | none => [])

/-- Every trap that the group's form raises, whatever its slots do. -/
def formTraps (s : State) (pos : Pos) (g : Group) (us : List (Slot × Uses)) : List Trap :=
  headerTraps s pos g ++ decodeTraps s pos g ++ limitTraps s pos us ++ nameTraps s pos us ++ bankTraps s pos g us ++ stopTraps s pos g
    ++ loopTraps s pos g

/-- The first of a group's traps in the order of R258: by rank, then by slot. -/
def firstTrap : List Trap → Option Trap
  | [] => none
  | t :: ts => some (ts.foldl (fun a b => if trapBefore (0, b) (0, a) then b else a) t)

/-! ### Running the slots -/

/-- VTCD and VTCW hold the read ports from their group's first cycle, so they come first. -/
def holdsPorts (x : Slot) : Bool :=
  match slotInstr x with
  | .ok (.vtcd ..) | .ok (.vtcw ..) => true
  | _ => false

/-- SAFE and STAT see the units as every other slot of their group leaves them at its cycle (R185, R220), so they come last. -/
def seesUnits (x : Slot) : Bool :=
  match slotInstr x with
  | .ok (.safe ..) | .ok (.stat ..) => true
  | _ => false

/-- The order in which the slots of a group are run. -/
def runOrder (g : Group) : List Slot :=
  g.slots.filter holdsPorts ++ g.slots.filter (fun x => !holdsPorts x && !seesUnits x) ++ g.slots.filter seesUnits

/-- The slots one by one: the state with every effect, and the traps met; a slot that traps has no effect. -/
def runSlots (run : Run) (base : State) (pos : Pos) : List Slot → State → List Trap → Host.Outcome (State × List Trap) Fault Refusal
  | [], s, ts => .next (s, ts)
  | x :: xs, s, ts =>
    match slotInstr x with
    | .error _ => runSlots run base pos xs s ts
    | .ok i =>
      match run i (atSlot (slotOff base x) pos x s) with
      | .next t => match t.ix.trap with
        | some r => runSlots run base pos xs s (ts ++ [r])
        | none => runSlots run base pos xs t ts
      | .fault f => .fault f
      | .refused r => .refused r

/-- A sequencer that has issued HALT: a pending transfer is discarded (R313). -/
def hasHalted (q : Seq) : Bool := q.st == .idle || q.st == .halted || q.st == .halting

/-- After a group without a trap (R312, R315): where its sequencer issues next. -/
def advance (pre : State) (s : State) : State :=
  if s.ix.keep then { s with sq := { s.sq with pos := s.ix.jump.getD s.ix.next, grp := s.sq.grp + 1 } }
  else
    let a := afterGroup pre.sq.pend s.sq.loops s.ix.last (s.ix.jump.getD s.ix.next)
    { s with sq := { s.sq with
        pos := a.2.2.1, via := a.2.2.2, loops := a.2.1, grp := s.sq.grp + 1
        pend := if hasHalted s.sq then none else if pre.sq.pend.isSome then a.1 else s.sq.pend } }

/-- The state in which the slots of the group at the sequencer's position run. -/
def groupState (s : State) : State :=
  let g := groupAt s s.sq.pos
  let us := g.slots.map (fun x => (x, slotUses s x))
  let cyc := readCycles s.ix.c us
  let cl := cyc.getLastD s.ix.c + extraCycles s g
  { s with
    ix := { s.ix with cyc := cyc, cl := cl, last := groupLast s.sq.pos g, next := groupNext s.sq.pos g }
    sq := { s.sq with nextLC := cl + 1 } }

/-- The sequencer's state as its group begins to issue at the task's LC. -/
def groupStart (s : State) : State :=
  { s with
    ix := { ix0 with c := s.tk.lc, cl := s.tk.lc, pos := s.sq.pos }
    tk := { s.tk with was := s.tk.was ++ [(s.k, ⟨s.sq.pos, s.tk.out.length, s.tk.meter⟩)] } }

/-- The sequencer in focus issues its group (R167, R260, R280). -/
def issueGroup (run : Run) (s : State) : Host.Outcome State Fault Refusal :=
  let s0 := groupStart s
  let pos := s0.sq.pos
  match fetchTrap s0 pos with
  | some t => .next (takeTrap t s0)
  | none =>
    let s1 := groupState s0
    let g := groupAt s1 pos
    match runSlots run s1 pos (runOrder g) s1 [] with
    | .next r =>
      match firstTrap (formTraps s1 pos g (g.slots.map (fun x => (x, slotUses s1 x))) ++ r.2) with
      | some t => .next (takeTrap t s1)
      | none => .next (advance s1 r.1)
    | .fault f => .fault f
    | .refused r => .refused r

/-! ### What a group needs before it issues (R169) -/

/-- Buffer indices of an operation's accesses. -/
def memIndices (s : State) (i : Instr) : List Nat :=
  let at' (on : Bool) (a : Word) : List Nat := if on then [fieldN a 48 16] else []
  let copy (g : Guard) (n : BitVec 4) : List Nat :=
    if maskOn g s then
      at' true (dAddr (tabGet 0#128 s.sq.cd n.toNat)) ++ at' true (dAddr (tabGet 0#128 s.sq.cd ((n.toNat + 1) % 16)))
    else []
  match i with
  | .ldb g _ a m | .stb g _ a m => at' (predOn g s) (elemAddr (readS s a) m 1)
  | .ldh g _ a m | .sth g _ a m => at' (predOn g s) (elemAddr (readS s a) m 2)
  | .ldw g _ a m | .stw g _ a m => at' (predOn g s) (elemAddr (readS s a) m 4)
  | .ldd g _ a m | .std g _ a m => at' (predOn g s) (elemAddr (readS s a) m 8)
  | .aadd g _ a _ | .amin g _ a _ | .amax g _ a _ | .aor g _ a _ | .axch g _ a _ | .acas g _ a _ => at' (predOn g s) (readS s a)
  | .btwr g _ _ b => at' (predOn g s) (readS s b)
  | .cpdi g _ _ n _ => copy g n
  | .cps g _ _ n _ => if dKind (tabGet 0#128 s.sq.cd n.toNat) = 4 then copy g n else (copy g n).take 1
  | .cpi g _ _ n _ | .cpo g _ _ n _ | .cpdo g _ _ n _ | .cpg g _ _ n _ | .cpst g _ _ n _ | .cpb g _ _ n _ | .cpr g _ _ n _ =>
    (copy g n).take 1
  | _ => []

/-- The slots of the group that sequencer `k` of a task issues next, each with the state it meets. -/
def nextOps (s : State) (tid k : Nat) : List (State × Instr) :=
  let u := groupStart (focus tid k s)
  let pos := u.sq.pos
  if (fetchTrap u pos).isSome then []
  else (groupAt u pos).slots.filterMap (fun x => match slotInstr x with
    | .ok i => some (atSlot (slotOff u x) pos x u, i)
    | .error _ => none)

/-- The entries that the next group of sequencer `k` uses (R115). -/
def neededIndices (s : State) (tid k : Nat) : List Nat :=
  match tabFind s.tasks tid with
  | some t => (fieldN t.code 48 16 :: (nextOps s tid k).flatMap (fun e => memIndices e.1 e.2)).eraseDups
  | none => []

/-- A range register misses. -/
def rangeMiss (s : State) (tid k : Nat) : Bool :=
  match tabFind s.tasks tid with
  | some t => match tabFind t.seqs k with
    | some q => (neededIndices s tid k).any (fun i => (tabFind q.rr i).isNone)
    | none => false
  | none => false

/-- The channel an operation receives from, where it would wait for a message (R57), and the one it sends on (R63). -/
def recvChan (s : State) (i : Instr) : Option (BitVec 5) :=
  let f (g : Guard) (c : BitVec 5) : Option (BitVec 5) :=
    if predOn g s && (chanCheck s c true).toOption.isSome && (getChan s c).fault.isNone then some c else none
  match i with
  | .recv g _ c _ => f g c
  | .recvs g _ c => f g c
  | _ => none

def sendChan (s : State) (i : Instr) : Option (BitVec 5) :=
  let f (g : Guard) (c : BitVec 5) : Option (BitVec 5) := if predOn g s && (chanCheck s c false).toOption.isSome then some c else none
  match i with
  | .send g c _ _ => f g c
  | .sends g c _ => f g c
  | _ => none

/-- The port that a channel's port place names: an entry of the partition's list of ports with a rate share (R141). -/
def portOf (s : State) (ch : Chan) : Nat :=
  let p := (getVf s.dev s.tk.vf).part
  ((s.dev.shares.filter (fun e => e.1 % 64 == p && e.2 != 0)).map (fun e => e.1 / 64)).getD ch.port.toNat 72

/-- Messages in a port's skid buffer, with those that tasks have issued and that are on their way to it (R62, R63). -/
def skidLoad (s : State) (p : Nat) : Nat :=
  s.tasks.foldl (fun a e => a + (e.2.kept ++ e.2.out).countP (fun o => match o with
    | .msg ch _ path => path == 2#2 && portOf { s with tk := e.2 } (tabGet chanOff e.2.chans ch) == p
    | _ => false)) (getPort s.dev p).skid.length

def isBar (e : State × Instr) : Bool :=
  match e.2 with
  | .bar g => predOn g e.1
  | _ => false

def isPhase (e : State × Instr) : Bool :=
  match e.2 with
  | .phase g => e.1.k == 0 && predOn g e.1
  | _ => false

/-- Banks that a sequencer's copies with release-on-completion still hold, or that are not yet cleared (R183). -/
def lateBanks (q : Seq) : BitVec 6 :=
  q.copies.foldl (fun m c => if c.rel then m ||| (srcRows c.kind c.desc).foldl (fun m x => m ||| (1#6 <<< (x % 6))) 0#6 else m) q.clearing

/-- The columns of sequencer `k` of a task. -/
def seqCols (t : Task) (k : Nat) : List Nat := (List.range t.g).map (fun j => colKey t.die t.tile (t.col + k * t.g + j))

/-- Whether a bank of `m` in one of the columns is still held or cleared for another task, one that has halted (R182 to R184). -/
def banksLate (s : State) (tid : Nat) (cols : List Nat) (m : BitVec 6) : Bool :=
  s.tasks.any (fun e => e.1 != tid && e.2.seqs.any (fun q => (m &&& lateBanks q.2) != 0#6 && (seqCols e.2 q.1).any (fun c => cols.contains c)))

/-- The same for the columns of sequencer `k` of task `tid`. -/
def bankTaken (s : State) (tid k : Nat) (m : BitVec 6) : Bool := banksLate s tid (seqCols s.tk k) m

/-- The condition of R169 that holds an operation back, after the operations `before` of the same LC; 0 for none. -/
def opWait (before : List (State × Instr)) (e : State × Instr) : Nat :=
  let s := e.1
  match recvChan s e.2 with
  | some c =>
    let n := before.countP (fun b => recvChan b.1 b.2 == some c)
    if (tabFind (getChan s c).slots (((getChan s c).seq.toNat + n) % 16)).isNone then 3 else 0
  | none =>
    match sendChan s e.2 with
    | some c =>
      let ch := getChan s c
      let n := before.countP (fun b => sendChan b.1 b.2 == some c)
      let m := before.countP (fun b => match sendChan b.1 b.2 with
        | some d => (getChan s d).path == 2#2 && (getChan s d).port == ch.port
        | none => false)
      if ch.cred.toNat ≤ n ∨ (ch.path = 2#2 ∧ 448 ≤ skidLoad s (portOf s ch) + m) then 4 else 0
    | none =>
      if isBar e then (if s.tk.gang > 1 ∧ s.tk.waits.barOk ≤ s.tk.waits.bars + before.countP isBar then 5 else 0)
      else if isPhase e then (if s.tk.waits.phOk ≤ s.tk.phn then 5 else 0)
      else match e.2 with
        | .bacq g m => if predOn g s && ((m &&& s.sq.clearing &&& ~~~s.sq.own) != 0#6 || bankTaken s s.tid s.k m) then 6 else 0
        | .waitt g _ => if predOn g s && tabGet 0 s.tk.waits.waitOk s.k != s.tk.lc + 1 then 7 else 0
        | _ => 0

/-- Sequencers that issue a group at the task's LC. -/
def dueSeqs (t : Task) : List Nat :=
  if t.ending.isSome || t.taken.isSome then [] else (t.seqs.filter (fun e => e.2.st == .running && e.2.nextLC == t.lc)).map Prod.fst

/-- Every operation due at the task's LC. -/
def dueOps (s : State) (tid : Nat) : List (State × Instr) :=
  match tabFind s.tasks tid with
  | some t => (dueSeqs t).flatMap (fun k => nextOps s tid k)
  | none => []

/-- The key of the column group of sequencer `k` (R13): its first column. -/
def groupKey (t : Task) (k : Nat) : Nat := colKey t.die t.tile (t.col + k * t.g)

/-- The buffer ranges that a scalar store or atomic writes: address and bytes. -/
def storeRange (s : State) (i : Instr) : List (Word × Nat) :=
  let place (g : Guard) (a : BitVec 6) (m : Imm14) (z : Nat) := if predOn g s then [(elemAddr (readS s a) m z, z)] else []
  match i with
  | .stb g _ a m => place g a m 1
  | .sth g _ a m => place g a m 2
  | .stw g _ a m => place g a m 4
  | .std g _ a m => place g a m 8
  | .aadd g _ a _ | .amin g _ a _ | .amax g _ a _ | .aor g _ a _ | .axch g _ a _ | .acas g _ a _ =>
    if predOn g s then [(readS s a &&& ~~~7#64, 8)] else []
  | _ => []

/-- The writes that a scalar store or atomic will make, without their data. -/
def storeReqs (e : State × Instr) : List Req :=
  let s := e.1
  ((storeRange s e.2).filter (fun x => (check s false true false false kStore x.1 x.2).toOption.isSome)).flatMap (fun x =>
    let en := taskEntry s (fieldN x.1 48 16)
    (piecesIn en (fieldN x.1 0 48) x.2).map (fun p =>
      ⟨0, 0, .task s.tid s.k, s.tk.vf, locate en p.2.1, p.2.2, .write, [], w64 (fieldN x.1 48 16 * 2 ^ 48 + p.2.1), false, false⟩))

/-- Whether an operation writes a frame whose split it must wait for (R129, R169). -/
def awaitsSplit (e : State × Instr) : Bool := (storeReqs e).any (fun r => splitCase e.1 r != 0)

/-- The first condition of R169 that keeps the task's groups from issuing. -/
def preCond (s : State) (tid : Nat) : Nat :=
  match tabFind s.tasks tid with
  | none => 0
  | some t =>
    let ops := dueOps s tid
    let ws := (ops.zipIdx.map (fun e => opWait (ops.take e.2) e.1))
      ++ (dueSeqs t).map (fun k => if rangeMiss s tid k then 8 else 0)
      ++ ops.map (fun e => if awaitsSplit e then 8 else 0)
      ++ (dueSeqs t).map (fun k => if (getDie s.dev t.die).cap ≤ tabGet 0 s.dev.window (groupKey t k) then 9 else 0)
    (ws.find? (fun n => n != 0)).getD 0

/-- The range registers with index `i` used last (R115). -/
def touch (s : State) (v i : Nat) (rr : List (Nat × BitVec 256)) : List (Nat × BitVec 256) :=
  let e := match tabFind rr i with
    | some e => e
    | none => btEntry s v i
  ((i, e) :: rr.filter (fun x => x.1 != i)).take 16

/-- The entries that the next group of sequencer `k` uses become the last used, and are filled where they miss (R115). -/
def touchRange (tid k : Nat) (s : State) : State :=
  match tabFind s.tasks tid with
  | some t => onSeq tid k (fun q => { q with rr := (neededIndices s tid k).reverse.foldl (fun rr i => touch s t.vf i rr) q.rr }) s
  | none => s

/-- The indices that the next group of sequencer `k` misses. -/
def missedIndices (s : State) (tid k : Nat) : List Nat :=
  match tabFind s.tasks tid with
  | some t => match tabFind t.seqs k with
    | some q => (neededIndices s tid k).filter (fun i => (tabFind q.rr i).isNone)
    | none => []
  | none => []

/-- The reads of the entries that a range-register fill of sequencer `k` of task `t` asks for (R35, R36, R47). -/
def fillReqs (d : Dev) (t k v : Nat) (is : List Nat) (id : Nat) : List Req :=
  is.zipIdx.map (fun e =>
    { ownReq id (32 * e.2) v (.phys (btPlace d v e.1).1 (btPlace d v e.1).2) 32 .read [] with who := .task t k, ba := w64 (e.1 * 2 ^ 48) })

/-- The range registers that sequencer `k`'s next group misses are filled, once the table's entries have been read (R115). -/
def execRangeRegisterFill (t k : Nat) (s : State) : Host.Outcome State Fault Refusal :=
  match tabFind s.tasks t with
  | none => .next s
  | some x => .next (attempt (.fill t k) (fun s =>
      let is := missedIndices s t k
      if is.isEmpty then s
      else touchRange t k (askRead (.fill t k) is (32 * is.length) (fillReqs s.dev t k x.vf is) s).1) s)

/-- The port of a block of code, where it lies in a stack, reads its code word (R35, R36). -/
def readFetched (s : State) (l : Loc) (ba : Word) : State :=
  match reqStack (ownReq 0 0 0 l 0 .read []), locBlock s l with
  | some n, some k => (readCode n (k % 2 ^ 31 * 64) (getVf s.dev s.tk.vf).part ba s.tk.place s).1
  | _, _ => s

/-- The sequencer in focus fetches the blocks of its group's code that it does not hold: what they bring is judged here, and the accesses
join the queues of their ports and banks (R14, R44, R113; log 52). -/
def fetchCode (s : State) : State :=
  match check s false false false true kFetch (bundleAddr s s.sq.pos.bundle) 16 with
  | .error _ => s
  | .ok e =>
    let bs := (groupBlocks s s.sq.pos).filter (fun b => !s.sq.code.contains b)
    let rs := bs.flatMap (fun b => (codePieces s b).map (fun p =>
      (⟨0, 0, .fetch s.tid s.k, s.tk.vf, locate e p.1, p.2, .read, [], w64 (fieldN s.tk.code 48 16 * 2 ^ 48 + p.1), false, false⟩ : Req)))
    let t := rs.foldl (fun t r => readFetched t r.loc r.ba) s
    { t with reqs := t.reqs ++ rs, sq := { t.sq with code := (bs ++ t.sq.code).take Config.codeBlocks } }

/-- Whether the skid buffers take the messages of every group that a task is about to issue (R63); another task may have issued to
the same port in this cyc. -/
def skidRoom (s : State) (tid : Nat) : Bool :=
  let ops := dueOps s tid
  ops.zipIdx.all (fun e => match sendChan e.1.1 e.1.2 with
    | some _ => opWait (ops.take e.2) e.1 != 4
    | none => true)

/-- Sequencer `k` of a task issues its group, and counts it in its window (R13). -/
def issueAct (run : Run) (tid k : Nat) (s : State) : Host.Outcome State Fault Refusal :=
  match tabFind s.tasks tid with
  | none => .next s
  | some t =>
    if !(dueSeqs { t with ending := none }).contains k || !skidRoom s tid then .next s
    else
      match issueGroup run (fetchCode (focus tid k (touchRange tid k s))) with
      | .next u => .next (onDev (fun d => { d with window := tabSet 0 d.window (groupKey t k) (tabGet 0 d.window (groupKey t k) + 1) })
          (unfocus u))
      | .fault f => .fault f
      | .refused r => .refused r

end Sys2Proof.Machine
end

