-- ==== Sys2Proof/Machine/Engine.lean ====
section
/-!
DEFINITION. The end of a task's cycle: landings, their conflicts, copies, what a group sends out, the end of a task, and the events
that release its stalls (R164 to R188, R199, R215, R242 to R246, R260, R263, R265, R348, R355, R371 to R385).
-/

namespace Sys2Proof.Machine

/-! ### Destinations of messages and credits -/

/-- The peer that a channel names (R141). -/
def chanDest (s : State) (t : Task) (place : Nat) : Nat :=
  if place / 2 ^ 30 = 0 then destLocal t.node (place % 2048)
  else destRemote (((tabFind s.dev.nodes t.node).map (fun x => x.task.rvf)).getD 0) (place / 2 ^ 16 % 2 ^ 14) (place % 2048)

/-- Adds an act at the end of the cycle's agenda. -/
def later (i : Ev) (s : State) : State := { s with agenda := s.agenda ++ [.event i] }

/-- Charges events to a task's counter (R155). -/
def chargeTask (kind n : Nat) (t : Task) : Task := { t with meter := t.meter + n * Config.coef t.die t.tile kind }

/-! ### Replies -/

/-- Whether a reply has arrived. -/
def replyOk (s : State) (id : Nat) : Bool :=
  match tabFind s.replies id with
  | some r => r.ok
  | none => true

/-- Errors of a reply at offsets from `lo` on, `n` bytes. -/
def replyErr (s : State) (id lo n : Nat) : Option ReplyErr :=
  match tabFind s.replies id with
  | some r => r.errs.find? (fun e => decide (lo ≤ e.off) && decide (e.off < lo + n))
  | none => none

def replyData (s : State) (id off n : Nat) : List Byte :=
  match tabFind s.replies id with
  | some r => tabBytes r.data off n
  | none => List.replicate n 0#8

/-- A trap of uncorrectable data (R36, R257). -/
def dataTrap (sub kind : Nat) (e : ReplyErr) : Trap := ⟨0x0E, sub, 0, e.ba, w64 e.ipa, w64 kind, 0#64, some e.ba⟩

/-! ### Copies in a cycle (R373, R379) -/

/-- Requests for one 128-byte row of a copy. -/
def rowReqs (tid k : Nat) (t : Task) (id k' : Nat) (e : BitVec 256) (idx off : Nat) (op : MemOp) (data : List Byte) : List Req :=
  (piecesIn e off 128).map (fun p =>
    ⟨id, 128 * k' + p.1, .task tid k, t.vf, locate e (p.2.1 % 2 ^ 48), p.2.2, op, (data.drop p.1).take p.2.2,
      w64 (idx * 2 ^ 48 + p.2.1 % 2 ^ 48), false, false⟩)

/-- Sends requests that answer reply `id`. -/
def sendReqs (id : Nat) (rs : List Req) (s : State) : State :=
  match tabFind s.replies id with
  | some r => { s with reqs := s.reqs ++ rs, replies := tabPut s.replies id { r with left := r.left + rs.length } }
  | none => { s with reqs := s.reqs ++ rs }

/-- Sends a copy's writes; those that hold a place in the queue already take it with their data (R251). -/
def sendWrites (id : Nat) (rs : List Req) (s : State) : State :=
  let place (x : Req) : Option Req := if unfilled x && x.id == id then rs.find? (fun r => r.off == x.off) else none
  let here := (s.reqs.filterMap place)
  sendReqs id (rs.filter (fun r => !here.contains r)) { s with reqs := s.reqs.map (fun x => (place x).getD x) }

/-- Gives up the places of a copy's writes whose rows could not be read. -/
def dropPlaces (id : Nat) (s : State) : State :=
  let gone (x : Req) : Bool := unfilled x && x.id == id
  let n := s.reqs.countP gone
  { s with
    reqs := s.reqs.filter (fun x => !gone x)
    replies := match tabFind s.replies id with
      | some r => tabPut s.replies id { r with left := r.left - n }
      | none => s.replies }

/-- Rows of a copy with their offsets, by ascending offset (R251). -/
def insertByOff (x : Nat × Nat) : List (Nat × Nat) → List (Nat × Nat)
  | [] => [x]
  | y :: ys => if x.2 < y.2 then x :: y :: ys else y :: insertByOff x ys
def ascending (rows : List (Nat × Nat)) : List (Nat × Nat) := rows.foldl (fun a x => insertByOff x a) []

/-- Opens a copy's reply at its start: rows of 128 bytes, arrived at once where nothing is asked for. -/
def openReply (id rows : Nat) (none' : Bool) (s : State) : State :=
  match tabFind s.replies id with
  | some r => { s with replies := tabPut s.replies id { r with size := 128 * rows, ok := none' } }
  | none => s

/-- The gathered indices of a CPG, as its index row stands (R379). -/
def gatherOf (t : Task) (c : Copy) (lrs : Tab Byte) : List Nat :=
  let base := rowByte t.g (fieldN c.desc 88 12) (128 * (c.unit / 2))
  (List.range (min c.rows c.cut)).map (fun k => leNat (tabBytes lrs (base + 4 * k) 4))

/-- The checks of a CPG made at its start (R374, R379); a CPS of KIND 7 has no slot in the group of that LC. -/
def gatherTrap (s : State) (tid k lc : Nat) (c : Copy) : Option Trap :=
  let u := focus tid k s
  let u := { u with ix := { ix0 with c := lc, cl := lc, slot := if c.iss = lc then c.slot else 0 } }
  let g := gatherOf u.tk c u.sq.lrs
  let ba (i : Nat) : Word := w64 (c.index * 2 ^ 48 + (c.off + 128 * i) % 2 ^ 48)
  match g.findSome? (fun i => match check u true false false false kCopySrc (ba i) 128 with
    | .error t => some t
    | .ok _ => none) with
  | some t => some t
  | none =>
    let mine := g.map (fun i => (c.index, (c.off + 128 * i) % 2 ^ 48, 128))
    match (taskCopies u).find? (fun x => x.id != c.id && decide (x.start ≤ lc) && decide (lc ≤ copyEnd x) &&
        mine.any (fun a => (copyWrites x).any (fun b => overlaps a.1 a.2.1 a.2.2 b.1 b.2.1 b.2.2))) with
    | some x => some (unitBusy u x.unit (w64 (copyEnd x + 1)))
    | none =>
      if u.tk.out.any (fun o => match o with
        | .req r => r.op != .read && mine.any (fun a => overlaps a.1 a.2.1 a.2.2 (fieldN r.ba 48 16) (fieldN r.ba 0 48) r.size)
        | _ => false) then some (unitBusy u c.unit (w64 (copyEnd c + 1)))
      else none

/-- Changes a copy of a sequencer. -/
def onCopy (tid k id : Nat) (f : Copy → Copy) (s : State) : State :=
  onSeq tid k (fun q => { q with copies := q.copies.map (fun c => if c.id = id then f c else c) }) s

/-- The column share of a group row (R375). -/
def shareBytes (t : Task) (c : Copy) (lrs : Tab Byte) (x : Nat) : List Byte :=
  tabBytes lrs (rowByte t.g x (128 * (c.unit / 2))) 128

/-- Whether row `k'` of a copy is transferred (R377). -/
def liveRow (c : Copy) (k' : Nat) : Bool := decide (k' < c.rows) && decide (k' < c.cut)

/-- The memory operation of a copy's writes. -/
def copyMemOp (c : Copy) : MemOp :=
  if c.kind = 10 then .combine (BitVec.ofNat 2 (dRfmt c.desc)) (BitVec.ofNat 2 (dRop c.desc)) else .write

/-- Offsets of the rows that a copy writes in memory, below the cut. -/
def writeOffs (c : Copy) : List (Nat × Nat) :=
  if !writesMem c.kind c.desc then []
  else (List.range (min c.rows c.cut)).map (fun r => (r,
    if c.kind = 4 then (c.off2 + 128 * r) % 2 ^ 48 else if c.kind = 5 then (c.off + 128 * r) % 2 ^ 48 else (c.off + r * c.step) % 2 ^ 48))

/-- The places in program order that a copy's writes take at its start (R244, R251, R386). -/
def copyPlaces (tid k : Nat) (t : Task) (c : Copy) (s : State) : State :=
  let e := if c.kind = 4 then (c.index2, c.entry2) else (c.index, c.entry)
  sendReqs (c.id + 1) ((ascending (writeOffs c)).flatMap (fun r => rowReqs tid k t (c.id + 1) r.1 e.2 e.1 r.2 (copyMemOp c) [])) s

/-- A copy at its start: its reads are sent, by ascending address; a CPG takes its indices. -/
def copyStart (tid k : Nat) (t : Task) (q : Seq) (c : Copy) (s : State) : State :=
  let rows := min c.rows c.cut
  let c := { c with held := q.own, gather := if c.kind = 7 then gatherOf t c q.lrs else c.gather }
  let offs := if c.kind = 7 then c.gather.map (fun i => (c.off + 128 * i) % 2 ^ 48)
    else (List.range rows).map (fun r => (c.off + r * c.step) % 2 ^ 48)
  let reads := readsMem c.kind c.desc
  let s := openReply c.id c.rows (!reads || rows == 0) s
  let s := openReply (c.id + 1) c.rows (!writesMem c.kind c.desc || rows == 0) s
  let s := if reads then sendReqs c.id ((ascending (offs.zipIdx.map (fun e => (e.2, e.1)))).flatMap
    (fun e => rowReqs tid k t c.id e.1 c.entry c.index e.2 .read [])) s else s
  let s := copyPlaces tid k t c s
  let s := onCopy tid k c.id (fun _ => c) s
  let s := if c.kind = 7 then onTask tid (chargeTask 1 1) s else s
  onSeq tid k (fun q => { q with units := tabSet ⟨0, false⟩ q.units c.unit ⟨c.cd, (tabGet ⟨0, false⟩ q.units c.unit).done⟩ }) s

/-- The LRS source row that a copy reads in cycle `lc`, from the rows as they stand before its landings.  What it sends is charged here
(R221, R377). -/
def copyRead (tid k lc : Nat) (t : Task) (q : Seq) (c : Copy) (s : State) : State :=
  let r := lc - c.start
  let rows := srcRows c.kind c.desc
  if c.kind = 7 ∨ rows = [] then s
  else if c.kind = 5 then
    if r ≠ 0 then s
    else
      let bs := shareBytes t c q.lrs (dLrow c.desc)
      let rs := (writeOffs c).flatMap (fun j => rowReqs tid k t (c.id + 1) j.1 c.entry c.index j.2 .write bs)
      let n := min c.rows c.cut
      onCopy tid k c.id (fun c => { c with wrote := true }) (onTask tid (fun t => chargeTask 6 (128 * n) (chargeTask 1 (min n 1) t))
        (sendWrites (c.id + 1) rs s))
  else if r ≥ c.rows then s
  else
    let s := if r + 1 = c.rows then onCopy tid k c.id (fun c => { c with wrote := true }) s else s
    if !liveRow c r then s
    else
      let bs := shareBytes t c q.lrs (rows.getD r 0)
      let s := onTask tid (fun t => chargeTask 6 (if c.kind = 1 then 0 else 128) (chargeTask 1 1 t)) s
      if c.kind = 1 then
        match tabFind s.replies c.id with
        | some p => { s with replies := tabPut s.replies c.id { p with data := tabSetBytes p.data (128 * r) bs } }
        | none => s
      else sendWrites (c.id + 1) (rowReqs tid k t (c.id + 1) r c.entry c.index ((c.off + r * c.step) % 2 ^ 48) (copyMemOp c) bs) s

/-- Every copy of a sequencer in cycle `lc`. -/
def copyCycle (tid k lc : Nat) (t : Task) (q : Seq) (s : State) : State :=
  q.copies.foldl (fun s c =>
    let s := if c.iss = lc then onSeq tid k (fun q =>
        { q with units := tabSet ⟨0, false⟩ q.units c.unit { tabGet ⟨0, false⟩ q.units c.unit with done := false } }) s else s
    let s := if c.start = lc then copyStart tid k t q c s else s
    if c.start ≤ lc then copyRead tid k lc t q c s else s) s

/-- Whether a copy's accesses are complete, as far as its nominal completion needs (R373). -/
def copyDone (s : State) (c : Copy) : Bool := replyOk s c.id && replyOk s (c.id + 1)

/-- Banks that a copy with release-on-completion holds (R183). -/
def heldBanks (c : Copy) : BitVec 6 := (srcRows c.kind c.desc).foldl (fun m x => m ||| (1#6 <<< (x % 6))) 0#6

/-- A copy at its nominal completion (R183, R220, R223). -/
def copyFinish (tid k : Nat) (c : Copy) (s : State) : State :=
  let s := { s with replies := tabDel (tabDel s.replies c.id) (c.id + 1) }
  onSeq tid k (fun q =>
    let last := !(q.copies.any (fun x => x.unit == c.unit && decide (c.id < x.id)))
    let u := tabGet ⟨0, false⟩ q.units c.unit
    let rel := if c.rel then heldBanks c &&& q.own else 0#6
    { q with
      copies := q.copies.filter (fun x => x.id != c.id)
      units := if last then tabSet ⟨0, false⟩ q.units c.unit { u with done := true } else q.units
      engc := q.engc + 1
      own := q.own &&& ~~~rel
      clearing := q.clearing ||| rel }) s

/-! ### Landings (R167, R168, R199) -/

/-- Group rows and columns that a landing writes. -/
def landRows (g : Nat) : Dst → List (Nat × BitVec 4)
  | .row x cols _ _ => [(x, cols)]
  | .copyRow x cols _ _ => [(x, cols)]
  | .slice rows _ => rows.map (fun x => (x, allCols g))
  | .drain x _ _ _ _ es => ((es.map (fun e => x + e.bit / (1024 * g))).eraseDups).map (fun y => (y, allCols g))
  | _ => []

/-- What a landing occupies at its cycle, as numbers: registers, predicates, masks, control registers and banks by column; s0 and m0 hold
no landing (R191). -/
def landKeys (g : Nat) (d : Dst) : List Nat :=
  match d with
  | .sreg n _ => [n.toNat]
  | .load n _ _ => if n = 0#6 then [] else [n.toNat]
  | .link => [63]
  | .pred n _ => [64 + n.toNat]
  | .mask n _ _ _ => if n = 0#3 then [] else [72 + n.toNat]
  | .ctrl i _ => [256 + i]
  | d => ((landRows g d).flatMap (fun r =>
      ((List.range 4).filter (fun j => r.2.getLsbD j)).map (fun j => 1024 + 4 * (r.1 % 6) + j))).eraseDups

/-- TINFO0 of a key (R257). -/
def keyResource (t : Task) (k key : Nat) : Word :=
  if key ≥ 1024 then resource 6 ((key - 1024) / 4) (t.col + k * t.g + (key - 1024) % 4)
  else resource 9 (key % 256) (t.col + k * t.g)

/-- A timing fault that is tied to no group. -/
def looseTiming (sub : Nat) (ti0 ti1 ti2 : Word) : Trap := ⟨0x02, sub, 0, ti0, ti1, ti2, 0#64, none⟩

/-- A key that two of the landings occupy. -/
def landConflict (g : Nat) : List Landing → Option (Nat × Landing)
  | [] => none
  | l :: ls =>
    match (landKeys g l.dst).find? (fun k => ls.any (fun m => (landKeys g m.dst).contains k)) with
    | some k => some (k, l)
    | none => landConflict g ls

/-- The register or row of a landing. -/
def landNumber (g : Nat) (d : Dst) : Nat :=
  match landRows g d with
  | r :: _ => r.1
  | [] => (landKeys g d).headD 0 % 256

/-- Traps of one landing at LC `c`: bad data, an unowned bank, the rows of a running matrix operation (R215; MMAT's own drained rows are
exempt in the extent of its accumulator view only, R354), held write ports. -/
def landTrap (s : State) (t : Task) (k c : Nat) (q : Seq) (l : Landing) : List Trap :=
  let col := t.col + k * t.g
  let rows := landRows t.g l.dst
  (match l.dst with
    | .load _ id kind => match replyErr s id 0 8 with
      | some e => [dataTrap 0x01 kind e]
      | none => []
    | .copyRow _ _ id off => match replyErr s id off 128 with
      | some e => [dataTrap 0x02 kCopySrc e]
      | none => []
    | .trap x => [x]
    | _ => [])
  ++ (match rows.find? (fun r => !ownsRow q r.1) with
    | some r => [looseTiming 0x02 (resource 6 (r.1 % 6) col) never (w64 r.1)]
    | none => [])
  ++ (let ext := match l.dst with
      | .drain _ _ _ _ true _ => q.winExt.take 2
      | _ => q.winExt
    match (if q.win.1 ≤ c ∧ c < q.win.2 then rows.find? (fun r => ext.any (fun d => inExtent t.g d r.1)) else none) with
      | some r => [looseTiming 0x02 (resource 6 (r.1 % 6) col) (w64 q.win.2) (w64 r.1)]
      | none => [])
  ++ (match l.dst, rows with
    | .slice _ _, _ => []
    | _, r :: _ => if q.wrHold.any (fun w => decide (w.1 ≤ c) && decide (c < w.2)) then
        [looseTiming 0x04 (resource 6 (r.1 % 6) col) (w64 (c + 1)) (w64 r.1)] else []
    | _, [] => [])

/-- Landings of a sequencer at LC `c`. -/
def dueLandings (c : Nat) (q : Seq) : List Landing := q.land.filter (fun l => l.lc == c)

/-- A row that a copy lands. -/
def isCopyRow (l : Landing) : Bool :=
  match l.dst with
  | .copyRow .. => true
  | _ => false

/-- The landings that a save takes along with the task: what its SAFE has left under way, other than rows of copies, lands after the
resume in the cycle that it would have landed in (R187, R230). -/
def shadows (t : Task) (q : Seq) : List Landing :=
  match t.taken with
  | some (.save, _) => if t.sref < t.lc then q.land.filter (fun l => !isCopyRow l) else []
  | _ => []

/-- Faults of copies at their nominal completion (R373): a write that met uncorrectable data, or a source with no LRS landing. -/
def copyEndTraps (s : State) (c : Nat) (q : Seq) : List Trap :=
  (q.copies.filter (fun x => copyEnd x == c)).flatMap (fun x =>
    (if x.kind = 4 then (match replyErr s x.id 0 (128 * x.rows) with
      | some e => [dataTrap 0x02 kCopySrc e]
      | none => []) else [])
    ++ (match replyErr s (x.id + 1) 0 (128 * x.rows) with
      | some e => [dataTrap 0x03 kCopyDst e]
      | none => []))

/-- The source row that a copy reads in cycle `lc`, if any (R372, R373, R377). -/
def rowRead (lc : Nat) (c : Copy) : Option Nat :=
  if lc < c.start then none
  else
    let r := lc - c.start
    if c.kind = 5 ∨ c.kind = 7 then (if r = 0 then (srcRows c.kind c.desc).head? else none)
    else if liveRow c r then (srcRows c.kind c.desc)[r]? else none

/-- A copy that reads a row of a bank that the task no longer owns (R184).  A copy with release-on-completion holds the banks that it found
owned at its start itself: another such copy's completion takes none of their rows away (R183, R378, log 25). -/
def readTrap (t : Task) (k lc : Nat) (q : Seq) (c : Copy) : Option Trap :=
  match rowRead lc c with
  | some x => if ownsRow q x || (c.rel && decide (c.start < lc) && c.held.getLsbD (x % 6)) then none
    else some (looseTiming 0x02 (resource 6 (x % 6) (t.col + k * t.g + c.unit / 2)) never (w64 x))
  | none => none

/-- Traps of a sequencer at the end of LC `c`. -/
def seqTraps (s : State) (tid k c : Nat) (t : Task) (q : Seq) : List Trap :=
  let ls := dueLandings c q
  (match landConflict t.g ls with
    | some x => [looseTiming 0x04 (keyResource t k x.1) (w64 (c + 1)) (w64 (landNumber t.g x.2.dst))]
    | none => [])
  ++ ls.flatMap (landTrap s t k c q)
  ++ copyEndTraps s c q
  ++ q.copies.filterMap (readTrap t k c q)
  ++ (q.copies.filter (fun x => x.kind == 7 && x.start == c)).filterMap (gatherTrap s tid k c)

/-- Marks the tile views that hold a landed row (R204). -/
def dirtyViews (g x : Nat) (q : Seq) : Seq :=
  { q with td := q.td.map (fun e => if inExtent g e.2 x then (e.1, e.2 ||| 0x8000000000000000#64) else e) }

/-- Writes bytes into the LRS. -/
def lrsPut (ws : List (Nat × Byte)) (q : Seq) : Seq := { q with lrs := tabSets 0#8 q.lrs ws }

def putFlags (fl : BitVec 5) (q : Seq) : Seq := { q with fflags := orFlags q.fflags fl }

/-- Whether adding an accumulator to an old element overflows, its own overflow mark apart (R355, R356). -/
def addOverflow (a : Acc) (old : Nat) (f rm : BitVec 2) : Bool := !accInf a && (drainAddValue { a with ovm := false } old f rm).2.2

/-- The bytes of a drained row, and the columns where an addition overflowed (R355, R356). -/
def drainBytes (g : Nat) (lrs : Tab Byte) (x : Nat) (f rm : BitVec 2) (add : Bool) (es : List DrainElem) : List (Nat × Byte) × BitVec 4 :=
  let w := drainW f
  let old (e : DrainElem) : Nat := rowBits g lrs x e.bit w
  let rs := es.map (fun e => (e, (if add then drainAddValue e.acc (old e) f rm else drainValue e.acc f rm).1))
  (rs.flatMap (fun r => (natLe (w / 8) r.2).zipIdx.map (fun b => (rowByte g x (r.1.bit / 8 + b.2), b.1))),
    if add then es.foldl (fun a e => if addOverflow e.acc (old e) f rm then a ||| (1#4 <<< (e.quad / 4)) else a) 0#4 else 0#4)

/-- A control register's new value in force (R222); D of a tile view stays set, whatever a program writes (R204). -/
def putCtrl (i : Nat) (v : Word) (q : Seq) : Seq :=
  if i = 0x04 then { q with prec := v }
  else if i = 0x05 then { q with vwin := v }
  else if i = 0x06 then { q with fflags := v }
  else if i = 0x08 then { q with trapv := v }
  else if 0x10 ≤ i ∧ i ≤ 0x17 then { q with td := tabSet 0#64 q.td (i - 0x10) (v ||| (tabGet 0#64 q.td (i - 0x10) &&& 0x8000000000000000#64)) }
  else if 0x18 ≤ i ∧ i ≤ 0x1B then { q with av := tabSet 0#64 q.av (i - 0x18) v }
  else if 0x1C ≤ i ∧ i ≤ 0x1F then { q with sh := tabSet 0#64 q.sh (i - 0x1C) v }
  else if i = 0x31 then { q with mvalid := v }
  else q

/-- One landing. -/
def landOne (s : State) (g : Nat) (l : Landing) (q : Seq) : Seq :=
  match l.dst with
  | .sreg n v => { q with s := tabSet 0#64 q.s n.toNat v }
  | .load n id _ => if n = 0#6 then q else { q with s := tabSet 0#64 q.s n.toNat (w64 (leNat (replyData s id 0 8))) }
  | .pred n v => { q with q := if v then q.q ||| (1#8 <<< n.toNat) else q.q &&& ~~~(1#8 <<< n.toNat) }
  | .mask n en v fl =>
    putFlags fl (if n = 0#3 then q else { q with m := tabSet 0#128 q.m n.toNat ((tabGet 0#128 q.m n.toNat &&& ~~~en) ||| (v &&& en)) })
  | .row x _ ws fl => dirtyViews g x (putFlags fl (lrsPut ws q))
  | .slice rows ws => rows.foldl (fun q x => dirtyViews g x q) (lrsPut ws q)
  | .copyRow x cols id off =>
    let bs := replyData s id off 128
    dirtyViews g x (((List.range g).filter (fun j => cols.getLsbD j)).foldl (fun q j =>
      lrsPut (bs.zipIdx.map (fun b => (rowByte g x (128 * j + b.2), b.1))) q) q)
  | .drain x f rm add _ es =>
    let r := drainBytes g q.lrs x f rm add es
    let q := (landRows g l.dst).foldl (fun q y => dirtyViews g y.1 q) (lrsPut r.1 q)
    { q with ov := q.ov ||| r.2 }
  | .accs t => { q with acc := t }
  | .scale b t => if b then { q with scaleB := t } else { q with scaleA := t }
  | .ctrl i v => putCtrl i v q
  | .desc n v => { q with cd := tabSet 0#128 q.cd n v }
  | .stat clear nan ov => if clear then { q with nan := 0#16, ov := 0#4 } else { q with nan := q.nan ||| nan, ov := q.ov ||| ov }
  | .banks set clr => { q with own := (q.own ||| set) &&& ~~~clr, clearing := q.clearing ||| clr }
  | .link | .matrix _ | .trap _ | .energy .. => q

/-- The value of lk (R312), for a sequencer whose CALL's group has issued: the bundle after the last slot of the second delay group.
Where the first delay group is a LOOP or LOOPI of count 0, the second is the group after that loop's body. -/
def linkValue (s : State) (q : Seq) : Word :=
  let g1 := groupAt { s with sq := q } q.pos
  let u := { s with sq := q, ix := { ix0 with c := q.nextLC, cl := q.nextLC, pos := q.pos, last := groupLast q.pos g1, next := groupNext q.pos g1 } }
  let skip := g1.slots.findSome? (fun x =>
    let v := atSlot (slotOff u x) q.pos x u
    let out (on : Bool) (e : Eff) : Option Pos := if on then e.toOption.bind (fun w => w.ix.jump) else none
    match slotInstr x with
    | .ok (.loop g l a t) => out (predOn g v) (startLoop l (readS v a).toNat t v)
    | .ok (.loopi g l t i) => out (predOn g v) (startLoop l i.toNat t v)
    | _ => none)
  let p := (loopBack u.ix.last (skip.getD u.ix.next) 6 q.loops).2
  w64 ((groupLast p (groupAt u p)).bundle + 1)

/-- The matrix operations among the landings read their operands, once everything has landed (R215). -/
def readMats (g : Nat) (ls : List Landing) (q : Seq) : Seq :=
  { q with land := q.land ++ ls.flatMap (fun l => match l.dst with
      | .matrix x => matLands g l.iss x q.lrs q.acc
      | _ => []) }

/-- The end of LC `c` for sequencer `k` of task `tid`. -/
def landSeq (s : State) (tid k g c : Nat) (q : Seq) : Seq :=
  let ls := dueLandings c q
  let q := (ls.filter isCtrl ++ ls.filter (fun l => !isCtrl l)).foldl (fun q l => landOne s g l q) q
  let q := if ls.any (fun l => l.dst == .link) then { q with s := tabSet 0#64 q.s 63 (linkValue (focus tid k s) q) } else q
  let q := readMats g ls q
  { q with
    land := q.land.filter (fun l => l.lc != c)
    drn := q.drn.filter (fun d => decide (c < d.2))
    wrHold := q.wrHold.filter (fun w => decide (c + 1 < w.2)) }

/-- Whether a copy row comes from the LRS itself (CPL): no byte moves between the LRS and memory (R377). -/
def localCopy (t : Task) (id : Nat) : Bool := t.seqs.any (fun e => e.2.copies.any (fun c => c.id == id && c.kind == 1))

/-- Row writes charged at a landing, further row reads, the bytes of a copy and the energy of a chunk (R155, R221, R362, R377). -/
def landCharge (g : Nat) (l : Landing) (t : Task) : Task :=
  let n := (landRows g l.dst).length
  match l.dst with
  | .drain _ _ _ add _ _ => chargeTask 2 n (chargeTask 1 (if add then n else 0) t)
  | .copyRow _ _ id _ => chargeTask 2 n (chargeTask 6 (if localCopy t id then 0 else 128) t)
  | .energy b r => chargeTask 0 b (chargeTask 1 r t)
  | _ => chargeTask 2 n t

/-- The replies that landings have used. -/
def usedReplies (ls : List Landing) (rs : Tab Reply) : Tab Reply :=
  ls.foldl (fun rs l => match l.dst with
    | .load _ id _ => tabDel rs id
    | _ => rs) rs

/-! ### What a group sends (R260) -/

/-- A pre-emption request at a task (R187, R395): a cancel outranks. -/
def arrive (k : PreemptKind) (cyc : Nat) (t : Task) : Task :=
  match t.preempt with
  | some (.cancel _) => t
  | some .save => if k = .save then t else { t with preempt := some k, preAt := cyc }
  | none => { t with preempt := some k, preAt := cyc }

/-- Sequencers that acknowledge with `k`: itself, and, with the primary, the idle siblings (R124). -/
def ackWith (t : Task) (k : Nat) : List Nat :=
  if k = 0 then (t.seqs.filter (fun e => e.1 == 0 || e.2.st == .idle)).map Prod.fst else [k]

/-- Sends a message on its way (R55, R62): into the port's skid buffer, or to the receiver. -/
def launchMsg (tid : Nat) (t : Task) (ch : Nat) (m : Msg) (path : BitVec 2) (s : State) : State :=
  let c := tabGet chanOff t.chans ch
  let dst := chanDest s t m.dst
  let bytes := 16 + m.payload.length
  if path = 2#2 then
    let p := portOf { s with tk := t } c
    onDev (fun d => let x := getPort d p
      setPort p { x with skid := x.skid ++ [⟨tid, { m with dst := dst, port := p }⟩], high := max x.high (x.skid.length + 1) } d) (chargeHops t.die p t.vf bytes s)
  else later (.messageLanding { m with dst := dst, port := 72 }) (chargeHops t.die 72 t.vf bytes s)

/-- Returns a credit to the sender of a channel's message (R57, R63): to a member of the task's own gang, or to the task of another gang that
sent it (R422). -/
def launchCredit (t : Task) (ch src : Nat) (s : State) : State :=
  let c := tabGet chanOff t.chans ch
  let dst := if c.dest.toNat / 2 ^ 30 = 0 then chanDest s t c.dest.toNat else src
  if c.path = 2#2 then onDev (fun d => { d with outbox := d.outbox ++ [.credit (portOf { s with tk := t } c) dst c.pch.toNat] }) s
  else later (.creditReturn dst c.pch.toNat) s

/-- The Loupe event of a trap of cause `cause` (R259). -/
def loupeTask (t : Task) (cause : Nat) (w : Word) (lc : Nat) (s : State) : State :=
  loupe (srcId 0 t.die t.tile) (0x0100 + cause) (natLe 4 w.toNat ++ natLe 2 t.vf ++ natLe 2 0 ++ natLe 8 lc) s

/-- One output of a group. -/
def release (tid : Nat) (o : Out) (s : State) : State :=
  match tabFind s.tasks tid with
  | none => s
  | some t =>
    match o with
    | .req r => { s with reqs := s.reqs ++ [r] }
    | .msg ch m path => launchMsg tid t ch m path s
    | .credit ch src => launchCredit t ch src s
    | .yield => ((nodeTids s t.node).filter (· != tid)).foldl (fun s u => post u .save s) (onTask tid (arrive .save s.cyc) s)
    | .flush _ => flushTask tid s
    | .mark => s
    | .cust c => sendCust c s
    | .ack k => (ackWith t k).foldl (fun s k => acknowledge tid k s) s
    | .trap k w lc => loupeTask t (fieldN w 8 8) w lc s

/-- What settles the counter at the end of its own cycle: a flush; a phase mark is written with the state as the cycle leaves it. -/
def settlesMeter (o : Out) : Bool :=
  match o with
  | .flush _ | .mark => true
  | _ => false

/-- What leaves at the end of its own cycle: that; a YIELD, which a SAFE of the next cycle takes (R395); a message, which a stall that
follows does not take back (R422, R424), and the credit of one; and an acknowledgement.  The rest waits until the next cycle's groups
have issued, since a stall timeout before them takes it back (R260; DEDUCED, log 33). -/
def leavesAtOnce (o : Out) : Bool :=
  match o with
  | .msg .. | .credit .. | .yield | .ack _ => true
  | o => settlesMeter o

/-- Sends what the groups of the LC before have left to be sent (R260). -/
def sendKept (tid : Nat) (s : State) : State :=
  match tabFind s.tasks tid with
  | none => s
  | some t => t.kept.foldl (fun s o => release tid o s) (onTask tid (fun t => { t with kept := [] }) s)

/-! ### What ends a task (R263) -/

/-- The LC of a task's trap: a stall before the issue of a group holds the cycle before it (R169, R175). -/
def trapLc (t : Task) (x : Trap) : Nat :=
  if x.cause = 0x02 ∧ x.sub = 0x06 ∧ 3 ≤ x.ti3.toNat ∧ x.ti3.toNat ≤ 9 then t.lc - 1 else t.lc

/-- Whether a trap is tied to no group (R260). -/
def untied (x : Trap) : Bool :=
  x.cause == 0x09 || x.cause == 0x0F || x.cause == 0x0E
    || (x.cause == 0x02 && (x.sub == 0x04 || x.sub == 0x06 || x.sub == 0x07))

/-- The buffer address of the first slot of the group at a position. -/
def slotAddr (s : State) (tid k : Nat) (t : Task) (p : Pos) : Word :=
  let q := posOf (posWord s tid k p)
  w64 (fieldN t.code 48 16 * 2 ^ 48 + (16 * q.bundle + 4 * q.slot))

/-- Whether the trap of sequencer `k` falls inside its handler, as it stood when the trap's LC began (R255): a handler entry or a TRET of
that LC has no effect (R258, R260). -/
def nested (t : Task) (k : Nat) (x : Trap) : Bool := (if trapLc t x < t.lc then t.handsPrev else t.hands).contains k

/-- The type 2 record of a task that a trap ends. -/
def trapRecord (s : State) (tid : Nat) (t : Task) (e : Nat × Pos × Trap) : Record :=
  let x := e.2.2
  let r := match tabFind s.dev.nodes t.node with
    | some n => nodeRec 2 0 n
    | none => record0 2
  { r with
    place := t.place, lc := trapLc t x, pc := e.2.1.bundle
    gaddr := x.gaddr.getD (slotAddr s tid e.1 t e.2.1)
    tcause := tcauseWord false (nested t e.1 x) e.1 x, ti0 := x.ti0, ti1 := x.ti1, ti2 := x.ti2, ti3 := x.ti3 }

/-- The Loupe event of the trap that ends or restarts a task (R259). -/
def loupeTrap (t : Task) (k : Nat) (x : Trap) (s : State) : State :=
  loupeTask t x.cause (tcauseWord false (nested t k x) k x) (trapLc t x) s

/-- Whether a task has received over a place of KIND 01 since its phase mark (R179). -/
def k01Since (s : State) (t : Task) : Bool :=
  let mark := ((memberOf s t).map (·.markSeq)).getD []
  t.chans.any (fun c => c.2.recv && c.2.dest.toNat / 2 ^ 30 == 1 && c.2.seq.toNat != tabGet 0 mark c.1)

/-- Whether a member of the node has received over a place of KIND 01 in the current phase (R179). -/
def k01Received (s : State) (node : Nat) : Bool :=
  (match tabFind s.dev.nodes node with
    | some x => x.members.any (fun m => m.saved && m.k01)
    | none => false)
  || s.tasks.any (fun e => e.2.node == node && k01Since s e.2)

/-- What a task's groups have sent in this LC and are charged for it, without what the group of sequencer `k` sent and is charged (R260). -/
def withoutGroup (k : Nat) (t : Task) : List Out × Nat :=
  match t.was.dropWhile (fun e => e.1 != k) with
  | (_, w) :: (_, n) :: _ => (t.out.take w.outs ++ t.out.drop n.outs, t.meter - (n.meter - w.meter))
  | [(_, w)] => (t.out.take w.outs, w.meter)
  | [] => (t.out, t.meter)

/-- Copies that a stopped task's groups have issued and that have no effect: those of sequencers for which `p` holds, from LC `c` on.  What
they have asked for is taken back with them (R260). -/
def undoCopies (tid : Nat) (p : Nat → Bool) (c : Nat) (s : State) : State :=
  match tabFind s.tasks tid with
  | none => s
  | some t =>
    let gone (k : Nat) (x : Copy) : Bool := p k && decide (c ≤ x.iss)
    let ids := t.seqs.flatMap (fun q => ((q.2.copies.filter (gone q.1)).map (·.id)))
    onTask tid (fun t => { t with seqs := t.seqs.map (fun q => (q.1, { q.2 with copies := q.2.copies.filter (fun x => !gone q.1 x) })) })
      { s with reqs := s.reqs.filter (fun r => !ids.any (fun i => i == r.id || i + 1 == r.id)) }

/-- What of a task's groups takes effect outside it when it stops (R260): nothing of groups at or after the LC of a trap tied to no
group, nothing of the group of another trap's sequencer at its LC, and no copy that these issued; all that the other groups have sent. -/
def settleOut (tid : Nat) (s : State) : State :=
  match tabFind s.tasks tid with
  | none => s
  | some t =>
    match t.ending with
    | some e =>
      let c := trapLc t e.2.2
      if untied e.2.2 then
        let u (t : Task) : Task := { t with
          out := [], kept := if c < t.lc then [] else t.kept, meter := if c < t.lc then t.meterPrev else t.meterWas }
        sendKept tid (undoCopies tid (fun _ => true) c (onTask tid u s))
      else
        let w := withoutGroup e.1 t
        sendKept tid (undoCopies tid (· == e.1) t.lc (onTask tid (fun t => { t with
          kept := (t.kept ++ w.1).filter (fun o => match o with
            | .trap .. => false
            | _ => true), out := [], meter := w.2 }) s))
    | none => sendKept tid (onTask tid (fun t => { t with kept := t.kept ++ t.out, out := [] }) s)

/-- Whether a stopped task has reached the start of a copy (R378): an earlier LC, the LC of its trap, or its own issue's. -/
def reached (t : Task) (c : Copy) : Bool :=
  decide (c.start < t.lc) || (c.start == t.lc && (c.iss == c.start || (match t.ending with
    | some e => trapLc t e.2.2 == t.lc
    | none => false)))

/-- The accesses of a stopped task's copies that are still to come, with the LRS rows as they stand (R252, R263); a copy whose start the
task has not reached is discarded (R378). -/
def finishCopies (tid : Nat) (s : State) : State :=
  match tabFind s.tasks tid with
  | none => s
  | some t => t.seqs.foldl (fun s e => (e.2.copies.filter (fun c => writesMem c.kind c.desc && reached t c)).foldl (fun s c =>
      let s := if t.lc ≤ c.start then copyStart tid e.1 t e.2 c s else s
      ((List.range c.rows).filter (fun r => decide (t.lc ≤ c.start + r))).foldl (fun s r => copyRead tid e.1 (c.start + r) t e.2 c s) s) s) s

/-- The task of a node ends by a trap: a record for every member that has trapped, and the node faults (R138, R263). -/
def faultTask (tid : Nat) (s0 : State) : State :=
  let s := match tabFind s0.tasks tid with
    | some t => (nodeTids s0 t.node).foldl (fun s u => finishCopies u (settleOut u s)) s0
    | none => s0
  match tabFind s.tasks tid with
  | none => s
  | some t =>
    let ms := s.tasks.filter (fun e => e.2.node == t.node && e.2.ending.isSome)
    let recs := ms.filterMap (fun e => e.2.ending.map (trapRecord s e.1 e.2))
    let s1 := ms.foldl (fun s e => match e.2.ending with
      | some x => loupeTrap e.2 x.1 x.2.2 s
      | none => s) s
    takeAlarms (match tabFind s.dev.nodes t.node with
      | some _ => closeNode t.node recs s1
      | none => removeTasks [tid] (recs.foldl (fun s r => report t.vf r s) s1))

/-- A matrix check (R154, R179): the phase restarts, unless it is the node's third in the phase or a message of another package was taken. -/
def matrixCheck (tid : Nat) (s : State) : State :=
  match tabFind s.tasks tid with
  | none => s
  | some t =>
    match tabFind s.dev.nodes t.node with
    | none => faultTask tid s
    | some x =>
      let n := if x.checkPhn = t.phn then x.checks + 1 else 1
      if n ≥ 3 ∨ k01Received s t.node then faultTask tid s
      else
        let r := match t.ending with
          | some e => { nodeRec 11 0 x with place := t.place, lc := trapLc t e.2.2 }
          | none => nodeRec 11 0 x
        let s := match t.ending with
          | some e => loupeTrap t e.1 e.2.2 s
          | none => s
        let s := loupeNode 2 t.node (report t.vf r s)
        let s := onNode t.node (fun x => { x with checks := n, checkPhn := t.phn }) s
        { s with agenda := .event (.phaseRestart t.node) :: s.agenda }

/-- The task ends, or restarts its phase, by the first of its traps (R258, R260). -/
def endTask (tid : Nat) (s : State) : State :=
  match tabFind s.tasks tid with
  | none => s
  | some t =>
    match t.ending with
    | none => s
    | some e => if e.2.2.cause = 0x09 then matrixCheck tid (settleOut tid s) else faultTask tid s

/-- The position of sequencer `k`'s group for a trap tied to none: the group it would have issued next (R263), which is
that of the trap's LC, since no group of that LC has an effect (R260, log 42). -/
def nextPos (t : Task) (k : Nat) : Pos :=
  match tabFind t.was k with
  | some w => w.pos
  | none => ((tabFind t.seqs k).getD seq0).pos

/-- Adds a trap to those of the task's LC. -/
def addTrap (k : Nat) (x : Trap) (t : Task) : Task :=
  let e := (k, nextPos t k, x)
  { t with ending := match t.ending with
      | some o => if trapBefore (k, x) (o.1, o.2.2) then some e else some o
      | none => some e }

/-! ### The cycle -/

/-- The task issues no more: its clock only carries its copies to their ends (R183, R267). -/
def draining (t : Task) : Bool := t.taken.isSome || primaryHalted t

/-- Whether the primary has halted in an earlier LC. -/
def haltedBefore (t : Task) : Bool := ((tabFind t.seqs 0).map (fun q => q.st == .halted && decide (q.haltLC < t.lc))).getD false

/-- After the LC of a HALT, and of a SAFE that is saved, only copy rows land (log 44). -/
def trimmed (t : Task) (q : Seq) : Seq :=
  if haltedBefore t then { q with land := q.land.filter isCopyRow, win := (0, 0), wrHold := [] }
  else if (shadows t q).isEmpty then q
  else { q with land := q.land.filter isCopyRow }

/-- A condition of R169 on what lands at the end of LC `c`: 1 a reply, 2 a copy, 0 none; 10 for copies that a HALT waits for. -/
def landWait (s : State) (t : Task) : Nat :=
  let qs := t.seqs.map Prod.snd
  if qs.any (fun q => (dueLandings t.lc q).any (fun l => match l.dst with
    | .load _ id _ => !replyOk s id
    | _ => false)) then 1
  else if qs.any (fun q => (dueLandings t.lc q).any (fun l => match l.dst with
      | .copyRow _ _ id _ => !replyOk s id
      | _ => false) || q.copies.any (fun c => copyEnd c == t.lc && !copyDone s c)) then (if primaryHalted t then 10 else 2)
  else 0

/-- JOINs and implicit JOINs whose siblings have halted (R166). -/
def wake (t : Task) (q : Seq) : Seq :=
  match q.st with
  | .joining k =>
    if ((tabFind t.seqs k).map seqBusy).getD false then q else { q with st := .running, nextLC := max q.nextLC (t.lc + 1) }
  | .halting =>
    if (t.seqs.filter (fun e => e.1 != 0)).any (fun e => seqBusy e.2 || decide (t.lc ≤ e.2.haltLC)) then q
    else { q with st := .halted, haltLC := t.lc }
  | _ => q

/-- The store error that an implicit JOIN's HALT meets (R36). -/
def haltTrap (t : Task) : List Trap :=
  match tabFind t.seqs 0, t.serr with
  | some q, some e => if q.st = .halting ∧ (wake t q).st = .halted then
      [⟨0x0E, 0x03, 0, e.1, w64 e.2, w64 kStore, 0#64, some e.1⟩] else []
  | _, _ => []

/-- Columns of a task. -/
def taskCols (t : Task) : Nat := t.g * (t.nsib + 1)

/-- Whether this LC is one of those that leak (R155, R430): up to the HALT's, and to that of the SAFE that is saved. -/
def leaks (t : Task) : Bool := !haltedBefore t && !(t.taken.isSome && decide (t.sref < t.lc))

/-- The task at the next LC (R155, R167). -/
def tickTask (t : Task) : Task :=
  let t := if leaks t then chargeTask 7 (taskCols t) t else t
  { t with
    hands := inHandler t, handsPrev := t.hands
    lc := t.lc + 1, cond := 0, was := [], meterWas := t.meter, out := [], kept := t.out.filter (fun o => !leavesAtOnce o)
    meterPrev := if t.out.any settlesMeter then t.meter else t.meterWas }

/-- LC is held for one more cyc at the end of the cycle before `n`, by a condition of R169 (R175). -/
def heldOn (n cond : Nat) (t : Task) : Task := { t with hold := if t.holdAt = n then t.hold + 1 else 1, holdAt := n, cond := cond }

/-- A stall timeout that stands for this LC, or for the one before (R175). -/
def timedOut (t : Task) : Bool :=
  (decide (t.holdAt = t.lc + 1) && decide (2 ^ 26 ≤ t.hold)) || (match t.ending with
    | some e => e.2.2.cause == 0x02 && e.2.2.sub == 0x06
    | none => false)

/-- Whether a stall timeout ends the task in the LC before. -/
def endsBefore (t : Task) : Bool :=
  match t.ending with
  | some e => decide (trapLc t e.2.2 < t.lc)
  | none => false

/-- Leakage that the task has been charged for this LC, counted for its die (R157). -/
def chargeLeak (t : Task) (d : Dev) : Dev :=
  if !leaks t then d
  else { d with leak := tabSet 0 d.leak t.die (tabGet 0 d.leak t.die + taskCols t * Config.coef t.die t.tile 7) }

/-- Removes a task whose context is on its way to its slots; its meter's rest went with it. -/
def parkTask (tid : Nat) (s : State) : State :=
  { dropReplies [tid] s with
    tasks := s.tasks.filter (fun e => e.1 != tid)
    dev := { s.dev with
      posts := s.dev.posts.filter (fun p => p.tid != tid)
      invals := s.dev.invals.map (fun i => { i with groups := i.groups.filter (fun g => g.1 != tid) })
      freed := true } }

/-- Where a task's HALT is done with its LC, its columns are free, which starts a selection round (R149, R183). -/
def freeColumns (tid : Nat) (before : Task) (s : State) : State :=
  match tabFind s.tasks tid with
  | some t => if haltDone t && !haltDone before then onDev (fun d => { d with freed := true }) s else s
  | none => s

/-- Sequence faults that await a receive (R56). -/
def pendingFaults (t : Task) : Tab Nat := t.chans.filterMap (fun e => e.2.fault.map (fun q => (e.1, q)))

/-- The senders of the messages in a task's landing slots. -/
def slotSrcs (t : Task) : Tab Nat := t.chans.flatMap (fun e => e.2.slots.map (fun x => (16 * e.1 + x.1, x.2.src)))

/-- A task that drains and has nothing left to wait for: it has halted, is saved (R267), or is cancelled (R139). -/
def settle (tid : Nat) (s : State) : State :=
  match tabFind s.tasks tid with
  | none => s
  | some t =>
    if !draining t || t.seqs.any (fun e => !e.2.copies.isEmpty) || !t.kept.isEmpty then s
    else match t.taken with
      | none => onMember t.node t.member (fun m => { m with done := true }) (onTask tid (fun t => { t with alive := false }) s)
      | some (.cancel _, _) =>
        onMember t.node t.member (fun m => { m with done := true, cut := true }) (onTask tid (fun t => { t with alive := false }) s)
      | some (.save, li) =>
        if t.seqs.any (fun e => e.2.land.any isCopyRow) || taskBusy s tid then s
        else
          parkTask tid (onMember t.node t.member (fun m => { m with
            saved := true, saving := s.nextId, lc := savedLc t, k01 := k01Since s t
            serr := t.serr, faults := pendingFaults t, srcs := slotSrcs t, meter := t.meter
            aside := t.seqs.map (fun e => (e.1, asideOf e.2.land e.2)) })
            (contextSave s.nextId tid li { s with nextId := s.nextId + 1 }))

/-- The end of a LC of task `tid`, whose groups have all issued (R167 to R169). -/
def endOfLc (tid : Nat) (s : State) : State :=
  match tabFind s.tasks tid with
  | none => s
  | some t0 =>
      let t := { t0 with seqs := t0.seqs.map (fun e => (e.1, trimmed t0 e.2)) }
      let w := landWait s t
      if w ≠ 0 ∧ !timedOut t then onTask tid (heldOn (t.lc + 1) w) s
      else
        let c := t.lc
        let traps := if endsBefore t then [] else t.seqs.flatMap (fun e => (seqTraps s tid e.1 c t e.2).map (fun x => (e.1, x))) ++ (haltTrap t).map (fun x => (0, x))
        let t := traps.foldl (fun t x => addTrap x.1 x.2 t) t
        let s := { s with tasks := tabPut s.tasks tid t }
        if t.ending.isSome then endTask tid s
        else
          let ls := t.seqs.flatMap (fun e => dueLandings c e.2)
          let back (k : Nat) : List Landing := ((tabFind t0.seqs k).map (shadows t0)).getD []
          let s1 := onTask tid (fun t => ls.foldl (fun t l => landCharge t.g l t)
            { t with seqs := t.seqs.map (fun e =>
              let q := landSeq s tid e.1 t.g c e.2
              (e.1, { q with land := back e.1 ++ q.land })) }) s
          let s2 := t.seqs.foldl (fun s e => copyCycle tid e.1 c t e.2 s) { s1 with replies := usedReplies ls s1.replies }
          let s3 := t.seqs.foldl (fun s e => (e.2.copies.filter (fun x => copyEnd x == c)).foldl (fun s x => copyFinish tid e.1 x s) s) s2
          let s4 := (t.out.filter leavesAtOnce).foldl (fun s o => release tid o s) s3
          let s5 := onDev (chargeLeak t) (onTask tid (fun t => tickTask { t with seqs := t.seqs.map (fun e => (e.1, wake t e.2)) }) s4)
          let s6 := if t.out.contains .mark then phaseMark tid s5 else s5
          settle tid (freeColumns tid t s6)

/-- A group that is held by a split, or by the lack of a frame for one: the split begins, or a type 10 record is written (R129). -/
def heldSplits (tid : Nat) (s : State) : State := ((dueOps s tid).flatMap storeReqs).foldl meetSplit s

/-- The end of a cyc for a task: LC is held while groups that are due cannot issue (R169), else the LC ends.  What the groups of the
LC before have sent leaves once no stall timeout can take it back (R260), or when a PHASE or BAR waits for it (R245). -/
def execResultLanding (tid : Nat) (s : State) : Host.Outcome State Fault Refusal :=
  match tabFind s.tasks tid with
  | none => .next s
  | some t =>
    if !t.alive then .next s
    else if !(dueSeqs t).isEmpty then
      .next (onTask tid (heldOn t.lc (preCond s tid))
        (if preCond s tid = 5 then sendKept tid s else if preCond s tid = 8 then heldSplits tid s else s))
    else .next (endOfLc tid (if endsBefore t then s else sendKept tid s))

/-! ### Events that release a stall -/

/-- A reply has arrived (R169); the data of a CPDI goes on to its destination, and that of a card to the card. -/
def execEndpointReply (id : Nat) (s : State) : Host.Outcome State Fault Refusal :=
  match tabFind s.replies id with
  | none => .next s
  | some r =>
    if r.left ≠ 0 ∨ r.size = 0 ∨ r.ok then .next s
    else
      let s := { s with replies := tabPut s.replies id { r with ok := true } }
      match r.who with
      | .task tid k =>
        match tabFind s.tasks tid with
        | none => .next s
        | some t =>
          match ((tabFind t.seqs k).getD seq0).copies.find? (fun c => c.id == id && c.kind == 4) with
          | none => .next s
          | some c =>
            let rows := (writeOffs c).filter (fun j => (replyErr s id (128 * j.1) 128).isNone)
            let rs := rows.flatMap (fun j => rowReqs tid k t (id + 1) j.1 c.entry2 c.index2 j.2 .write (replyData s id (128 * j.1) 128))
            .next (onCopy tid k id (fun c => { c with wrote := true }) (onTask tid (chargeTask 6 (128 * rows.length))
              (dropPlaces (id + 1) (sendWrites (id + 1) rs s))))
      | .card node => .next (cardReply node id r s)
      | .setter => .next (setterReply id r s)
      | _ => .next s

/-- A copy's writes are all performed (R373). -/
def execCopyComplete (id : Nat) (s : State) : Host.Outcome State Fault Refusal :=
  match tabFind s.replies (id + 1) with
  | none => .next s
  | some r =>
    if r.left = 0 ∧ s.tasks.any (fun e => e.2.seqs.any (fun q => q.2.copies.any (fun c => c.id == id && c.wrote))) then
      .next { s with replies := tabPut s.replies (id + 1) { r with ok := true } }
    else .next s

/-- PHASEs, and BARs, that a task is about to issue. -/
def duePhases (s : State) (tid : Nat) : Nat := (dueOps s tid).countP isPhase
def dueBars (s : State) (tid : Nat) : Nat := (dueOps s tid).countP isBar

/-- A request on its way to its port. -/
def isAccess (o : Out) : Bool :=
  match o with
  | .req r => !r.fence
  | _ => false

/-- The DSM and HBM accesses that a PHASE awaits are performed (R245): those of groups before it, on their way to their ports or there, and
of copies that started before it. -/
def accessesDone (s : State) (tid : Nat) (t : Task) : Bool :=
  !taskBusy s tid && !t.kept.any isAccess && t.seqs.all (fun e => e.2.copies.all (fun c => decide (t.lc ≤ c.start) || copyDone s c))
    && t.seqs.all (fun e => e.2.land.all (fun l => match l.dst with
      | .load _ id _ => replyOk s id
      | _ => true))

/-- Whether a member has arrived at PHASE `n`, or BAR `n`. -/
def atPhase (s : State) (n : Nat) (e : Nat × Task) : Bool :=
  primaryHalted e.2 || decide (n ≤ e.2.phn) ||
    (decide (duePhases s e.1 > 0) && e.2.phn + 1 == n && accessesDone s e.1 e.2)
def atBar (s : State) (n : Nat) (e : Nat × Task) : Bool :=
  primaryHalted e.2 || decide (n ≤ e.2.waits.bars + dueBars s e.1)

/-- Members that halted before their node was suspended: they have no task, and count as arrived (R177, R385). -/
def haltedGone (s : State) (node : Nat) : Nat :=
  match tabFind s.dev.nodes node with
  | some x => x.members.countP (fun m => m.done && m.tid == 0)
  | none => 0

/-- Every member of a task's node satisfies `p`: one that is saved, or not yet launched, does not. -/
def allMembers (s : State) (t : Task) (p : Nat × Task → Bool) : Bool :=
  let ms := s.tasks.filter (fun e => e.2.node == t.node)
  decide (t.gang ≤ ms.length + haltedGone s t.node) && ms.all p

/-- A PHASE of a task completes, where every member has arrived (R177, R245). -/
def phaseDone (tid : Nat) (s : State) : State :=
  match tabFind s.tasks tid with
  | none => s
  | some t =>
    if duePhases s tid > 0 ∧ allMembers s t (atPhase s (t.phn + 1)) then
      onTask tid (fun t => { t with waits := { t.waits with phOk := t.phn + 1 } }) s
    else s

/-- A BAR of a task completes, where every member has arrived (R385). -/
def barDone (tid : Nat) (s : State) : State :=
  match tabFind s.tasks tid with
  | none => s
  | some t =>
    let n := t.waits.bars + dueBars s tid
    if dueBars s tid > 0 ∧ allMembers s t (atBar s n) then
      onTask tid (fun t => { t with waits := { t.waits with barOk := n } }) s
    else s

def execPhaseComplete (tid : Nat) (s : State) : Host.Outcome State Fault Refusal := .next (phaseDone tid s)
def execBarComplete (tid : Nat) (s : State) : Host.Outcome State Fault Refusal := .next (barDone tid s)

/-- The target of a WAITT that sequencer `k` is about to issue. -/
def waittTarget (s : State) (tid k : Nat) : Option Nat :=
  (nextOps s tid k).findSome? (fun e => match e.2 with
    | .waitt g a => if predOn g e.1 then some (readS e.1 a).toNat else none
    | _ => none)

/-- A WAITT is released, where GTCI has reached its target (R76, R322). -/
def waittDone (tid k : Nat) (s : State) : State :=
  match waittTarget s tid k with
  | some a =>
    if a ≤ s.dev.gtci then
      onTask tid (fun t => { t with waits := { t.waits with waitOk := tabSet 0 t.waits.waitOk k (t.lc + 1) } }) s
    else s
  | none => s

def execWaittRelease (tid k : Nat) (s : State) : Host.Outcome State Fault Refusal := .next (waittDone tid k s)

/-- A task whose PHASE, BAR and WAITTs that wait for nothing any more are released: they hold its LC for no cyc (R3, R169). -/
def released (s : State) (tid : Nat) : State :=
  match tabFind s.tasks tid with
  | none => s
  | some t => (dueSeqs t).foldl (fun s k => waittDone tid k s) (barDone tid (phaseDone tid s))

/-- A released bank is cleared to zero once no copy with release-on-completion holds it (R183, R184). -/
def execBankCleared (tid k bank : Nat) (s : State) : Host.Outcome State Fault Refusal :=
  match tabFind s.tasks tid with
  | none => .next s
  | some t =>
    let q := (tabFind t.seqs k).getD seq0
    if !q.clearing.getLsbD bank || q.copies.any (fun c => c.rel && decide (c.start ≤ t.lc) && (heldBanks c).getLsbD bank) then .next s
    else .next (onSeq tid k (fun q => { q with
      clearing := q.clearing &&& ~~~(1#6 <<< bank)
      lrs := q.lrs.filter (fun e => e.1 / (128 * t.g) % 6 != bank) }) s)

/-- A stall has lasted 2^26 cyc (R175). -/
def execStallTimeout (tid : Nat) (s : State) : Host.Outcome State Fault Refusal :=
  match tabFind s.tasks tid with
  | none => .next s
  | some t =>
    if t.hold < 2 ^ 26 then .next s
    else .next (onTask tid (addTrap 0 { looseTiming 0x06 0#64 never 0#64 with ti3 := w64 t.cond }) s)

/-- No SAFE has issued within the bound (R188); a group that a stall holds back keeps LC at the one before (R169). -/
def execSafeBoundOverrun (tid : Nat) (s : State) : Host.Outcome State Fault Refusal :=
  match tabFind s.tasks tid with
  | none => .next s
  | some t =>
    if t.lc = t.sref + t.safeb + 1 ∧ !draining t ∧ t.ending.isNone ∧ preCond s tid = 0 then
      .next (onTask tid (addTrap 0 (looseTiming 0x07 0#64 never 0#64)) s)
    else .next s

/-- A residue of the matrix unit differs (R237, R257): the trap falls at the last cycle of the operation's window. -/
def execMatrixCheck (tid k : Nat) (block main check' row col : Nat) (s : State) : Host.Outcome State Fault Refusal :=
  match tabFind s.tasks tid with
  | none => .next s
  | some t =>
    let q := (tabFind t.seqs k).getD seq0
    if t.lc < q.win.1 ∨ q.win.2 ≤ t.lc then .next s
    else
      let at' := if q.winExt.length < 3 then q.win.2 - 1
        else ((q.land.filterMap (fun l => match l.dst with
          | .stat false _ _ => if t.lc + 10 ≤ l.lc then some (l.lc - 10) else none
          | _ => none)).foldl (fun a n => min a n) (q.win.2 - 1))
      let x : Trap := ⟨0x09, 0x01, 0, w64 block, w64 (main % 256 + 256 * (check' % 256)), w64 (col % 256 + 256 * (row % 256)), w64 q.opLc, none⟩
      .next (onSeq tid k (fun q => { q with land := q.land ++ [⟨q.opLc, at', .trap x⟩] }) s)

end Sys2Proof.Machine
end

