-- ==== Sys2Proof/Machine/Graph.lean ====
section
/-!
DEFINITION. Submissions and task-graph images (R95, R131 to R137, R140).
-/

namespace Sys2Proof.Machine

/-- A write of GSUB (R95). -/
def execGsub (v : Nat) (w : BitVec 64) (s : State) : Host.Outcome State Fault Refusal :=
  let q := getVf s.dev v
  if (q.state = 1 ∨ q.state = 2) ∧ q.gscred > 0 then
    .next (wakeHome v (onVf v (fun q =>
      { q with gsub := w, glast := (q.glast + 1) % 2 ^ 32, gscred := q.gscred - 1, subs := q.subs ++ [⟨(q.glast + 1) % 2 ^ 32, w, []⟩] }) s))
  else .next (onVf v (fun q => { q with gerr := q.gerr ||| 2#4 }) s)

/-! ### The image (R131 to R134) -/

/-- The header is well formed (R131). -/
def imageHeaderOk (h : List Byte) : Bool :=
  field h 0 4 == 0x45584752 && field h 4 2 == 1 && zeroes h 6 8 && decide (1 ≤ field h 8 4) && decide (field h 8 4 ≤ 4096)
    && decide (field h 12 4 ≤ 65536) && decide (field h 16 4 ≤ 16384) && zeroes h 20 24
    && field h 24 8 % 64 == 0 && field h 32 8 % 8 == 0 && field h 40 8 % 32 == 0 && zeroes h 48 64

/-- A region entry is well formed (R134). -/
def regionEntryOk (b : List Byte) : Bool :=
  decide (1 ≤ field b 8 8) && decide (field b 8 8 < 2 ^ 48) && decide (1 ≤ field b 16 1) && decide (field b 16 1 ≤ 3) && zeroes b 17 32

/-- A region (R134). -/
def readRegion (b : List Byte) : Region :=
  ⟨field b 6 2, field b 0 6, field b 8 8, field b 16 1 % 2 == 1, field b 16 1 / 2 % 2 == 1⟩

/-- Bytes of the regions that `p` selects. -/
def sumLen (p : Region → Bool) (rs : List Region) : Nat := (rs.filter p).foldl (fun a r => a + r.len) 0

/-- Whether a node's regions lie in the array. -/
def regionsIn (b : List Byte) (nreg : Nat) : Bool := decide (field b 20 2 ≤ 64) && decide (field b 16 4 + field b 20 2 ≤ nreg)

/-- A task node is well formed (R132). -/
def taskNodeOk (b : List Byte) (nreg : Nat) : Bool :=
  decide (field b 1 1 < 8) && decide (field b 2 2 < 2048) && decide (field b 4 1 < 32) && field b 4 1 % 8 != 0 && field b 4 1 / 8 != 0
    && zeroes b 6 8 && regionsIn b nreg && zeroes b 22 24 && decide (field b 24 4 ≤ 2 ^ 20) && zeroes b 28 32
    && decide (field b 56 2 < 2 ^ 14) && decide (field b 58 2 < 2 ^ 10) && zeroes b 60 64

/-- A tree entry (R133) is well formed among `n`. -/
def treeEntryOk (n : Nat) (b : List Byte) : Bool :=
  zeroes b 1 2 && (field b 2 2 == 0xFFFF || decide (field b 2 2 < n)) && zeroes b 4 8

/-- A job card is well formed, with its regions `rs` and its tree's bytes (R133). -/
def cardOk (s : State) (v : Nat) (b : List Byte) (rs : List Region) (tree : List Byte) : Bool :=
  decide (field b 1 1 < 8) && zeroes b 2 16 && zeroes b 22 24
    && (if field b 0 1 = 3 then
        let fmt := field b 25 1
        let n := field b 28 4 * redWidth fmt
        zeroes b 50 64 && decide (field b 24 1 ≤ 2) && decide (fmt ≤ 3) && (field b 24 1 == 0 || fmt == 0 || fmt == 2)
          && decide (1 ≤ field b 26 2) && decide (field b 26 2 ≤ 2047) && decide (1 ≤ field b 48 2) && decide (field b 48 2 ≤ 256)
          && rs.length == 2 && rs.any (fun r => r.read && !r.write && r.len == n) && rs.any (fun r => r.write && !r.read && r.len == n)
          && (List.range (field b 48 2)).all (fun i => treeEntryOk (field b 48 2) ((tree.drop (8 * i)).take 8))
      else
        zeroes b 24 64 && rs.all (fun r => !(r.read && r.write)) && sumLen (·.read) rs == sumLen (·.write) rs
          && (field b 0 1 != 4 || (rs.filter (·.read)).all (fun r => !(decide (r.index > 15) && eV (btEntry s v r.index)
            && eDsm (btEntry s v r.index)))))

/-- A node as its image gives it. -/
def readNode (v handle idx die : Nat) (b : List Byte) (rs : List Region) (tree : List Byte) : Node :=
  { vf := v, handle := handle, idx := idx, die := die, kind := field b 0 1, prio := field b 1 1
    task := ⟨field b 2 2 + 1, field b 4 1, field b 5 1, w64 (field b 8 8), if field b 24 4 = 0 then 2 ^ 17 else field b 24 4,
      w64 (field b 32 8), BitVec.ofNat 64 (field b 40 8), w64 (field b 48 8), field b 56 2, field b 58 2⟩
    card := ⟨field b 24 1, field b 25 1, field b 26 2, field b 28 4, field b 32 8,
      (List.range (tree.length / 8)).map (fun i => (field tree (8 * i) 1, field tree (8 * i + 2) 2))⟩
    regions := rs, preds := [], starts := [], st := .waitingDeps, lease := .none, frames := [], counted := [], replies := [], pulls := 0
    ready := none, order := 0, members := [], vidx := 0, obj := none, sel := [], argv := [], cost := 0, energy := 0, checks := 0, checkPhn := 0
    cst := ⟨0, 0, 0, 0⟩, cancel := none, closing := none, began := false, resume := false, restart := false }

/-! ### Edges (R136, R137) -/

/-- Whether some region of `i` and some region of `j` name one buffer, overlap, and are tagged as `p` and `q` ask. -/
def meets (i j : Node) (p q : Region → Bool) : Bool :=
  i.regions.any (fun a => p a && j.regions.any (fun b => q b && overlaps a.index a.off a.len b.index b.off b.len))

/-- The derived edge from `i` to the later node `j`: 0 none, 1 an ordinary edge, 2 a start edge (R137). -/
def derived (i j : Node) : Nat :=
  if meets i j (·.write) (fun b => b.read || b.write) then 1
  else if meets i j (·.read) (·.write) then (if i.kind = 4 then 2 else 1)
  else 0

/-- Whether edges over the nodes `rem` form no cycle; `n` bounds the rounds. -/
def acyclic : Nat → List Nat → List (Nat × Nat) → Bool
  | 0, left, _ => left.isEmpty
  | n + 1, left, es =>
    let (held, freed) := left.partition (fun j => es.any (fun e => e.2 == j && left.contains e.1))
    left.isEmpty || (!freed.isEmpty && acyclic n held es)

/-! ### Parsing (R135) -/

/-- A parsed graph: its nodes in order and the explicit edges, or the STATUS of its rejection. -/
abbrev Parsed := Except Nat (List Node × List (Nat × Nat))

/-- Reads `cnt` entries of `sz` bytes at an offset of the image: nothing is read where there are none. -/
def readArray (why : JobFor) (v : Nat) (addr : Word) (off cnt sz : Nat) (s : State) : State × Option (List (List Byte)) :=
  if cnt = 0 then (s, some [])
  else
    let r := setterRead why v (fieldN addr 48 16) (fieldN addr 0 48 + off) (cnt * sz) true false s
    (r.1, (okBytes r).map (fun b => (List.range cnt).map (fun i => (b.drop (sz * i)).take sz)))

/-- Reads the tree tables of the collective cards (R133). -/
def readTrees (why : JobFor) (v : Nat) : List (List Byte) → State → State × Option (List (List Byte))
  | [], s => (s, some [])
  | b :: bs, s =>
    let n := if field b 0 1 = 3 ∧ field b 48 2 ≤ 256 then field b 48 2 else 0
    let r := readArray why v (w64 (field b 40 8)) 0 n 8 s
    let t := readTrees why v bs r.1
    (t.1, match r.2, t.2 with
      | some x, some y => some (x.flatten :: y)
      | _, _ => none)

/-- Checks the parts of an image in the order of the STATUS values (R135). -/
def checkImage (s : State) (v handle nreg : Nat) (ns trees rs es : List (List Byte)) : Parsed :=
  let regs := rs.map readRegion
  let regsOf (b : List Byte) := (regs.drop (field b 16 4)).take (field b 20 2)
  let nodeOk (x : List Byte × List Byte) : Bool :=
    let b := x.1
    if field b 0 1 = 1 then taskNodeOk b nreg
    else decide (2 ≤ field b 0 1) && decide (field b 0 1 ≤ 4) && regionsIn b nreg && cardOk s v b (regsOf b) x.2
  let edges := es.map (fun b => (field b 0 4, field b 4 4))
  let nodes := (ns.zip trees).zipIdx.map (fun x =>
    readNode v handle x.2 (getVf s.dev v).die x.1.1 (regsOf x.1.1) x.1.2)
  let der := nodes.flatMap (fun i => (nodes.filter (fun j => decide (i.idx < j.idx) && derived i j != 0)).map (fun j => (i.idx, j.idx)))
  if !(ns.zip trees).all nodeOk then .error 3
  else if !rs.all regionEntryOk then .error 4
  else if !edges.all (fun e => decide (e.1 < ns.length) && decide (e.2 < ns.length) && e.1 != e.2) then .error 5
  else if !acyclic ns.length (List.range ns.length) (edges ++ der) then .error 6
  else .ok (nodes, edges)

/-- Reads and checks an image (R131 to R135). -/
def parseImage (v handle : Nat) (addr : Word) (s : State) : State × Parsed :=
  let why := JobFor.graph v handle
  let r := setterRead why v (fieldN addr 48 16) (fieldN addr 0 48) 64 true false s
  match okBytes r with
  | none => (r.1, .error 2)
  | some h =>
    if !imageHeaderOk h then (r.1, .error 1)
    else
      let a1 := readArray why v addr (field h 24 8) (field h 8 4) 64 r.1
      let a2 := readArray why v addr (field h 32 8) (field h 12 4) 8 a1.1
      let a3 := readArray why v addr (field h 40 8) (field h 16 4) 32 a2.1
      let a4 := match a1.2 with
        | some ns => readTrees why v ns a3.1
        | none => (a3.1, none)
      match a1.2, a2.2, a3.2, a4.2 with
      | some ns, some es, some rs, some trees => (a4.1, checkImage a4.1 v handle (field h 16 4) ns trees rs es)
      | _, _, _, _ => (a4.1, .error 2)

/-- Frees the first submission slot of a VF. -/
def freeSlot (v : Nat) (s : State) : State := onVf v (fun q => { q with gscred := q.gscred + 1, subs := q.subs.drop 1 }) s

/-- Node records that a graph of `n` nodes finds free (R140). -/
def roomFor (d : Dev) (v n : Nat) : Bool :=
  decide (d.nodes.countP (fun e => e.2.die == (getVf d v).die) + n ≤ 32768)
    && decide (d.nodes.countP (fun e => e.2.vf == v) + n ≤ 4096)

/-- Nodes enter submitted together (R136 to R138), each with the edges that await it. -/
def enterGraph (v handle : Nat) (ns : List Node) (es : List (Nat × Nat)) (s : State) : State :=
  let base := s.dev.nextNode
  let old := s.dev.nodes.filter (fun e => e.2.vf == v)
  let new := ns.map (fun j =>
    let ext (k : Nat) := (old.filter (fun e => derived e.2 j == k && !(k == 2 && e.2.began))).map Prod.fst
    let own (k : Nat) := (ns.filter (fun i => decide (i.idx < j.idx) && derived i j == k)).map (fun i => base + i.idx)
    let exp := (es.filter (fun e => e.2 == j.idx)).map (fun e => base + e.1)
    (base + j.idx, promote { j with preds := (ext 1 ++ own 1 ++ exp).eraseDups, starts := ext 2 ++ own 2 }))
  onDev (fun d => { d with
    nodes := new.foldl (fun t e => tabPut t e.1 e.2) d.nodes
    nextNode := base + ns.length
    graphs := d.graphs ++ [⟨v, handle, ns.length⟩] }) s

/-- What becomes of a submitted image (R135, R140). -/
def takeImage (v : Nat) (sub : Submit) (s : State) : State :=
  let r := parseImage v sub.handle sub.addr s
  match r.2 with
  | .error st => freeSlot v (report v { record0 5 with status := st, handle := sub.handle } r.1)
  | .ok (ns, es) =>
    if roomFor r.1.dev v ns.length then
      let t := freeSlot v (enterGraph v sub.handle ns es r.1)
      sub.cancels.foldl (fun t i => cancelNodes 1 (cancelled t.dev v sub.handle i) t) t
    else r.1

/-- The Setter reads the first submitted image of a VF, part by part, and takes it when it has read it (R135). -/
def execGraphParse (v : Nat) (s : State) : Host.Outcome State Fault Refusal :=
  match (getVf s.dev v).subs with
  | [] => .next s
  | sub :: _ => .next (attempt (.graph v sub.handle) (takeImage v sub) s)

end Sys2Proof.Machine
end

