-- ==== Sys2Proof/Machine/Power.lean ====
section
/-!
DEFINITION. The power arbiter with its epochs and shared energy costs, the fast limiter, sensors, and power states (R12 to R24, R157).
-/

namespace Sys2Proof.Machine

/-! ### Demands and grants (R12), in 1/16 W -/

/-- Cyc of an epoch of 1 ms. -/
def epochLen : Nat := msec 1

/-- Power of consumer `i` measured in the past epoch: dies 0 to 7, stack n at 8 + n. -/
def measuredPower (d : Dev) (i : Nat) : Nat := Config.measured d.epoch.toNat i

/-- The demand of a consumer (R12, step 2).  A die counts as throttled when the cap it ends the epoch with is below 256, whether or
not groups were withheld, and that cap is its issue fraction also where the fast limiter has halved it within the epoch (log 11). -/
def demandOf (d : Dev) (i : Nat) : Rat :=
  let m : Rat := measuredPower d i
  if i < 8 then
    let cap := (getDie d i).cap
    if cap < 256 then min 4800 (m * 256 / cap) else m
  else
    let k := getStack d (i - 8)
    if k.waited then min 880 (m * k.budget / max k.used 1) else m

/-- The floor of a consumer before any scaling (R12, step 3). -/
def floorOf (d : Dev) (i : Nat) : Rat := min (demandOf d i) (if i < 8 then 2400 else 320)

/-- The sum of a function over the forty consumers. -/
def sumAll (f : Nat → Rat) : Rat := (List.range 40).foldl (fun a i => a + f i) 0

/-- The budget B (R12, step 1). -/
def arbBudget (d : Dev) : Rat := 16 * (d.plim - 450 : Nat)

/-- A consumer's grant (R12, steps 3 and 4); only a scaled floor is rounded, to a multiple of 1/16 W. -/
def grantOf (d : Dev) (i : Nat) : Rat :=
  let b := arbBudget d
  let fl := sumAll (floorOf d)
  if b < fl then (floorOf d i * b / fl).floor
  else
    let excess := sumAll (fun j => demandOf d j - floorOf d j)
    if excess ≤ b - fl then demandOf d i
    else floorOf d i + (b - fl) * (demandOf d i - floorOf d i) / excess

/-- A temperature in 1/4 °C (R24). -/
def degrees (t : BitVec 16) : Int := t.toInt

/-- A die's grant under the thermal limit of 200 W (R24). -/
def dieGrant (d : Dev) (i : Nat) : Rat :=
  let g := grantOf d i
  if (getDie d i).hotEpoch then min 3200 g else g

/-- CAP of a grant (R12, step 5): a demand of zero leaves it open (log 24). -/
def capOf (free : Nat) (g demand : Rat) : Nat :=
  let c := if demand = 0 then 16 + Config.freeValue free % 241 else (256 * g / demand).floor.toNat
  max 16 (min 256 c)

/-- BUDGET of a grant (R12, step 6): 1/16 W for 1 ms is 62,500,000,000 fJ.  Above 95 °C the result is halved after the lower limit of
step 6, so it can be half of that limit; R24 does not say which comes first (log 18). -/
def budgetOf (d : Dev) (n : Nat) (g : Rat) : Nat :=
  let excess := g - Config.standby d.epoch.toNat n
  let b := min 2560000000 (max 25600000 (excess * 62500000000 / Config.ebyte n).floor.toNat)
  if (getStack d n).hotEpoch then b / 2 else b

/-- GRANTW of a grant (R20): a grant that is no whole number of sixteenths of a watt is rounded down (DESIGN CHOICE, log 49). -/
def grantW (g : Rat) : Nat := g.floor.toNat

/-- The arbiter's thermal and limiter events (R259): die or stack number, grant in 1/16 W. -/
def loupeArbiter (code n grant : Nat) (s : State) : State :=
  loupe (srcPkg 8) (0x0400 + code) (natLe 8 n ++ natLe 8 grant) s

/-! ### Shared costs (R157) -/

/-- Charges a VF `n` nJ of shared cost. -/
def chargeShared (v n : Nat) (s : State) : State := if n = 0 ∨ (getVf s.dev v).state = 0 then s else quotaCheck v (addAcct v (-(n : Int)) s)

/-- Frames of a stack that VF `v` owns. -/
def framesOwned (d : Dev) (n v : Nat) : Nat := d.frames.countP (fun e => e.1 / 65536 == n && e.2.own == v + 1)

/-- Frames of a stack that VFs own. -/
def framesAll (d : Dev) (n : Nat) : Nat := d.frames.countP (fun e => e.1 / 65536 == n && e.2.own != 0)

/-- A VF's share of the stacks' refresh and standby energy; 1/16 W for 1 ms is 62,500 nJ. -/
def standbyShare (d : Dev) (v : Nat) : Nat :=
  (List.range 32).foldl (fun a n =>
    let all := framesAll d n
    if all = 0 then a else a + Config.standby d.epoch.toNat n * 62500 * framesOwned d n v / all) 0

/-- Brings the column-cyc that partitions own, and their leakage, up to the current cyc (R157). -/
def accrueCols (s : State) : State :=
  let n := s.cyc - s.dev.heldAt
  let add (t : Tab Nat) (k x : Nat) : Tab Nat := tabSet 0 t k (tabGet 0 t k + x)
  onDev (fun d => { d with
    heldAt := s.cyc
    colCyc := d.cols.foldl (fun t e => add t (e.1 / 1024 * 64 + (e.2 - 1)) n) d.colCyc
    colLeak := d.cols.foldl (fun t e => add t (e.1 / 1024) (n * Config.coef (e.1 / 1024) (e.1 / 4 % 256) 7)) d.colLeak }) s

/-- Leakage of a die's owned columns in the cyc of the epoch without an advancing task, in 2^-8 fJ. -/
def idleLeak (d : Dev) (die : Nat) : Nat := tabGet 0 d.colLeak die - tabGet 0 d.leak die

/-- ACTIVE and DEGRADED VFs of a partition. -/
def liveVfs (d : Dev) (p : Nat) : Nat := d.vfs.countP (fun e => (e.2.state == 1 || e.2.state == 2) && e.2.part == p)

/-- Whole nJ of an energy in 2^-8 fJ. -/
def wholeNj (e : Nat) : Nat := e / (256 * 10 ^ 6)

/-- A VF's share of the dies' idle leakage. -/
def leakShare (d : Dev) (v : Nat) : Nat :=
  let p := (getVf d v).part
  if !vfLive d v then 0
  else (List.range 8).foldl (fun a die =>
    let all := (List.range 48).foldl (fun n q => n + tabGet 0 d.colCyc (die * 64 + q)) 0
    let mine := tabGet 0 d.colCyc (die * 64 + p)
    if mine = 0 then a else a + wholeNj (idleLeak d die * mine / all / liveVfs d p)) 0

/-- Charges the shared costs of the epoch that ends. -/
def chargeEpoch (s : State) : State :=
  let s := accrueCols s
  let d := s.dev
  let t := (d.vfs.filter (fun e => e.2.state != 0)).foldl (fun t e =>
    chargeShared e.1 (standbyShare d e.1 + leakShare d e.1 + wholeNj (tabGet 0 d.owed e.1)) t) s
  onDev (fun d => { d with leak := [], owed := [], colCyc := [], colLeak := [] }) t

/-! ### Epochs and limits -/

/-- A die at an epoch boundary. -/
def epochDie (d0 : Dev) (i : Nat) (s : State) : State :=
  let g := dieGrant d0 i
  let hot := (getDie d0 i).hotEpoch
  let s := if hot then loupeArbiter 2 i (grantW g) s else s
  { onDev (fun d => setDie i { getDie d i with
      cap := capOf s.free g (demandOf d0 i), grant := grantW g, hotEpoch := decide (degrees (getDie d i).temp > 400) }
      { d with therm := d.therm || hot }) s with free := s.free + 1 }

/-- A stack at an epoch boundary. -/
def epochStack (d0 : Dev) (n : Nat) (s : State) : State :=
  let g := grantOf d0 (8 + n)
  let hot := (getStack d0 n).hotEpoch
  let s := if hot then loupeArbiter 2 n (grantW g) s else s
  onDev (fun d => setStack n { getStack d n with
      budget := budgetOf d0 n g, grant := grantW g, used := 0, waited := false, doubled := hot,
      hotEpoch := decide (degrees (getStack d n).temp > 380) }
      { d with therm := d.therm || hot }) s

/-- The end of an epoch (R12, R157): grants, caps and budgets of the next, and the shared charges of the past one.  PKGW is what
`Config.measured` gives at 40 (log 19). -/
def execArbiterEpoch (s : State) : Host.Outcome State Fault Refusal :=
  let d := s.dev
  let s1 := (List.range 8).foldl (fun s i => epochDie d i s) s
  let s2 := (List.range 32).foldl (fun s n => epochStack d n s) s1
  .next (onDev (fun x => { x with epoch := x.epoch + 1#32, pkgw := measuredPower d 40 / 16 % 65536 }) (chargeEpoch s2))

/-- The fast limiter (R15); a second event of a die in one epoch halves its cap again (log 13). -/
def execFastLimiter (die : Nat) (s : State) : Host.Outcome State Fault Refusal :=
  let k := getDie s.dev die
  .next (loupeArbiter 1 die k.grant (onDev (fun d => setDie die { k with cap := max 16 (k.cap / 2) } { d with fast := true }) s))

/-- A write of PWRCTL (R18). -/
def execPlimWrite (w : BitVec 64) (s : State) : Host.Outcome State Fault Refusal :=
  .next (onDev (fun d => { d with plim := max 1500 (min 4200 (fieldN w 0 16)) }) s)

/-- Whether a temperature raises the alarm: above 125 °C or below -20 °C. -/
def alarming (t : BitVec 16) : Bool := decide (degrees t > 500) || decide (degrees t < -80)

/-- The highest of sensor readings. -/
def hottest : List (BitVec 16) → BitVec 16
  | [] => 0#16
  | t :: ts => ts.foldl (fun a b => if degrees a < degrees b then b else a) t

/-- The readings of die `i`'s sensors in an update: 16 for each die, row by row. -/
def dieRows (ts : List (BitVec 16)) (i : Nat) : List (BitVec 16) := (ts.drop (16 * i)).take 16

/-- A die's sensors have read (R24): DTEMP reports the highest. -/
def senseDie (ts : List (BitVec 16)) (i : Nat) (d : Dev) : Dev :=
  let t := hottest (dieRows ts i)
  if (dieRows ts i).isEmpty then d
  else setDie i { getDie d i with
    temp := t, rows := tabSets 0#16 [] ((dieRows ts i).zipIdx.map (fun e => (e.2, e.1)))
    hotEpoch := (getDie d i).hotEpoch || decide (degrees t > 400) } d

/-- New readings of the dies' and the stacks' sensors (R24): the alarm judges what DTEMP and HTEMP report (log 12).  One reading above its limit
limits a die or a stack at the next epoch boundary, though it has cooled by then (DESIGN CHOICE, log 57). -/
def execSensorUpdate (dieT stkT : List (BitVec 16)) (s : State) : Host.Outcome State Fault Refusal :=
  let s1 := (List.range 8).foldl (fun s i => onDev (senseDie dieT i) s) s
  let s2 := (stkT.take 32).zipIdx.foldl (fun s e => onStack e.2 (fun k => { k with
    temp := e.1, hotEpoch := k.hotEpoch || decide (degrees e.1 > 380) }) s) s1
  let seen := (((List.range 8).map (dieRows dieT)).filter (fun r => !r.isEmpty)).map hottest ++ stkT.take 32
  .next (if seen.any alarming then alarm 1 s2 else s2)

/-! ### Power states (R22, R23) -/

/-- Columns of placed nodes, and of the tasks that `p` selects, by key. -/
def columnsOf (p : Task → Bool) (s : State) : List Nat :=
  (s.tasks.filter (fun e => p e.2)).flatMap (fun e => (List.range (e.2.g * (e.2.nsib + 1))).map (fun j => colKey e.2.die e.2.tile (e.2.col + j)))
    ++ s.dev.nodes.flatMap (fun e => if e.2.st != .placed then [] else
      e.2.members.flatMap (fun m => if m.done then [] else
        (List.range m.grp.g).map (fun j => colKey m.grp.die m.grp.tile (m.grp.col + j))))

/-- Columns of members whose contexts are being written (R267). -/
def savingColumns (d : Dev) : List Nat :=
  d.nodes.flatMap (fun e => (e.2.members.filter (fun m => m.saving != 0)).flatMap (fun m =>
    (List.range m.grp.g).map (fun j => colKey m.grp.die m.grp.tile (m.grp.col + j))))

/-- Columns that are not free for placement: those of a task are free once its HALT is done (R183), and those of a member that is saved
once its context is written. -/
def heldColumns (s : State) : List Nat := columnsOf (fun t => !haltDone t) s ++ savingColumns s.dev

/-- Columns that are not idle: copies of a task that has halted may still run on its columns. -/
def busyColumns (s : State) : List Nat :=
  columnsOf (fun t => !primaryHalted t || t.seqs.any (fun q => !q.2.copies.isEmpty || q.2.clearing != 0#6)) s ++ savingColumns s.dev

/-- Whether the Setter of a die has anything queued. -/
def setterIdle (d : Dev) (die : Nat) : Bool :=
  d.nodes.all (fun e => e.2.die != die) && d.vfs.all (fun e => e.2.state == 0 || e.2.die != die || e.2.subs.isEmpty)

/-- The state an element may enter now (R22), 0 for none. -/
def entryState (s : State) (e : Element) : Nat :=
  let d := s.dev
  let tol := elTol d e
  match e with
  | .column a t c =>
    let p := powerOf d (colKey a t c)
    if p.state = 0 ∧ tol ≥ usec 2 ∧ s.cyc ≥ p.idle + 2048 ∧ !(busyColumns s).contains (colKey a t c) then 1 else 0
  | .tile a t =>
    let p := powerOf d (elKey e)
    if p.state = 0 ∧ tol ≥ usec 60 ∧ (List.range (tileColumns a t)).all (fun c =>
        let q := powerOf d (colKey a t c)
        q.state != 0 && q.wake.isNone && decide (s.cyc ≥ q.since + usec 100)) then 2 else 0
  | .die a =>
    let p := powerOf d (elKey e)
    if p.state = 0 ∧ tol ≥ usec 2000 ∧ setterIdle d a ∧ s.cyc ≥ (getDie d a).dsmAt + msec 10 ∧ (List.range 256).all (fun t =>
        let q := powerOf d (elKey (.tile a t))
        q.state != 0 && q.wake.isNone && decide (s.cyc ≥ q.since + msec 10)) then 3 else 0

/-- An element enters a lower state (R22, R224). -/
def execPowerStateEntry (e : Element) (s : State) : Host.Outcome State Fault Refusal :=
  let st := entryState s e
  if st = 0 then .next s
  else .next (onDev (fun d => setPower (elKey e) { powerOf d (elKey e) with state := st, since := s.cyc, wake := none } d) s)

/-- A wake completes (R23). -/
def execWakeComplete (e : Element) (s : State) : Host.Outcome State Fault Refusal :=
  match (powerOf s.dev (elKey e)).wake with
  | none => .next s
  | some t =>
    if s.cyc < t then .next s
    else .next (onDev (fun d => setPower (elKey e) { powerOf d (elKey e) with state := 0, since := s.cyc, wake := none } d) s)

/-- A write of LTOL (R21): elements whose state takes longer to wake than their partitions now tolerate wake (R23). -/
def execLtolWrite (p : Nat) (w : BitVec 64) (s : State) : Host.Outcome State Fault Refusal :=
  .next (wakeForbidden (onDev (fun d => { d with ltol := tabSet 2 d.ltol p (fieldN w 0 24) }) s))

end Sys2Proof.Machine
end

