-- ==== Sys2Proof/Machine/Place.lean ====
section
/-!
DEFINITION. Placement, variant selection, selection rounds, the gang token and priority pre-emption (R22, R25, R54, R59, R141 to R152).
-/

namespace Sys2Proof.Machine

/-! ### Groups of a partition (R143, R192, R193) -/

/-- The (class, mode) pairs in the order of R147. -/
def classModes : List (Nat × Nat) := [(0, 0), (0, 1), (0, 2), (1, 1), (1, 2)]

/-- Columns of a group in a mode. -/
def modeCols (mode : Nat) : Nat := match mode with
  | 0 => 4
  | 1 => 2
  | _ => 1

/-- First columns of the groups of a class and mode, and the first column past them. -/
def groupFirsts (cls mode : Nat) : List Nat × Nat :=
  if cls = 1 then (if mode = 1 then ([0], 2) else ([2], 3))
  else match mode with
    | 0 => ([0], 4)
    | 1 => ([0, 2], 4)
    | _ => ([0, 1, 2, 3], 4)

/-- Tiles with a column of partition `p`, in ascending order. -/
def partTiles (d : Dev) (p : Nat) : List (Nat × Nat) :=
  ((d.cols.filter (fun e => e.2 == p + 1)).map (fun e => (e.1 / 1024, e.1 / 4 % 256))).eraseDups

/-- The difference of two numbers. -/
def absDiff (a b : Nat) : Nat := a - b + (b - a)

/-- Whether every DSM bank of the partition on the die lies within `hop` mesh hops of a tile (R286). -/
def hopsOk (d : Dev) (p die tile hop : Nat) : Bool :=
  d.dsmOwn.all (fun e => e.1 / 64 != die || e.2 != p + 1
    || decide (absDiff (4 * (e.1 % 64 % 4) + 1) (tile % 16) + absDiff (4 * (e.1 % 64 / 4 % 4) + 1) (tile / 16) ≤ hop))

/-- What a place search looks at: the columns taken, by key, and whether occupancy matters at all. -/
structure Occupied where
  taken : List Nat
  busyToo : Bool
  deriving DecidableEq, Repr

/-- The mode of a class-F tile with something placed on it is fixed (R143, R192). -/
def modeFits (d : Dev) (o : Occupied) (die tile cls mode : Nat) : Bool :=
  o.busyToo || cls == 1 || !(o.taken.any (fun k => k / 4 == (colKey die tile 0) / 4))
    || tabGet 0 d.modes (die * 256 + tile) == mode + 1

/-- Whether the columns of a span are the partition's, and free for the node (R143, R152). -/
def spanFree (d : Dev) (o : Occupied) (p node : Nat) (x : Grp) : Bool :=
  (List.range x.g).all (fun j =>
    let k := colKey x.die x.tile (x.col + j)
    tabGet 0 d.cols k == p + 1 && (o.busyToo
      || (!o.taken.contains k && (tabGet 0 d.reserved k == 0 || tabGet 0 d.reserved k == node + 1))))

/-- Spans of `w` columns on a tile for a class and mode. -/
def tileSpans (d : Dev) (o : Occupied) (p node cls mode hop w : Nat) (t : Nat × Nat) : List Grp :=
  let f := groupFirsts cls mode
  if (Config.classT t.1 t.2 == (cls == 1)) && modeFits d o t.1 t.2 cls mode && hopsOk d p t.1 t.2 hop then
    (f.1.filter (fun c => decide (c + w ≤ f.2))).filterMap (fun c =>
      let x : Grp := ⟨t.1, t.2, c, w⟩
      if spanFree d o p node x then some x else none)
  else []

/-- The home die first, then dies by ascending number. -/
def dieOrder (home : Nat) : List Nat := home :: (List.range 8).filter (· != home)

/-- Spans of a die that a node may use, by tile and column. -/
def dieSpans (d : Dev) (o : Occupied) (x : Node) (id cls mode hop w die : Nat) : List Grp :=
  let p := (getVf d x.vf).part
  if x.task.dies = 0 ∨ x.task.dies / 2 ^ die % 2 = 1 then
    ((partTiles d p).filter (fun t => t.1 == die)).flatMap (tileSpans d o p id cls mode hop w)
  else []

/-- The power state of a span: the lowest of its columns, tile and die (R143, step 1). -/
def spanPower (d : Dev) (x : Grp) : Nat :=
  (spanKeys x.die x.tile x.col x.g).foldl (fun a k => max a (powerOf d k).state) 0

/-- Awake spans first. -/
def byPower (d : Dev) (xs : List Grp) : List Grp := (List.range 4).flatMap (fun st => xs.filter (fun x => spanPower d x == st))

/-- Whether two spans share a column. -/
def sharesColumn (a b : Grp) : Bool :=
  a.die == b.die && a.tile == b.tile && decide (a.col < b.col + b.g) && decide (b.col < a.col + a.g)

/-! ### Channels (R54, R59, R141) -/

/-- Channel entry fields (R296). -/
def ceDest (c : List Byte) : Nat := field c 4 4
def ceLat (c : List Byte) : Nat := field c 8 4

/-- Whether a channel can be placed whatever the groups are. -/
def chanPlaceable (d : Dev) (p gang : Nat) (c : List Byte) : Bool :=
  if ceDest c / 2 ^ 30 = 0 then decide (ceDest c % 2048 < gang) && decide (96 ≤ ceLat c)
  else match (portList d p)[field c 2 1]? with
    | some q => (getPort d q).up && (getPort d q).width != 0 && decide (max 4096 (getPort d q).latcal ≤ ceLat c)
    | none => false

/-- Whether the members' places meet every path minimum (R59). -/
def pathsOk (v : Variant) (ms : List Grp) : Bool :=
  ms.all (fun m => v.chans.all (fun c => ceDest c / 2 ^ 30 != 0 || (match ms[ceDest c % 2048]? with
    | some q => decide ((if q.die = m.die then 96 else 512) ≤ ceLat c)
    | none => false)))

/-! ### Placements (R143, R147, R148) -/

/-- Places for `n` more members after those in `acc`, in the order of preference `xs`: the first choice for each member in turn that can
be completed to a placement that `ok` accepts. -/
def search (ok : List Grp → Bool) (xs : List Grp) : Nat → List Grp → Option (List Grp)
  | 0, acc => if ok acc then some acc else none
  | n + 1, acc => xs.findSome? (fun x => if acc.any (sharesColumn x) then none else search ok xs n (acc ++ [x]))

/-- A node's places in a class and mode that `ok` accepts: a single task takes the span in the lowest power state, and of those the first
by R143; for a gang its home die alone comes first, then, where it may span dies (`multi`), the dies together, die by die as R148 has it;
else one other die, that of the first member's span by R143. -/
def placesWith (ok : List Grp → Bool) (d : Dev) (o : Occupied) (x : Node) (id : Nat) (v : Variant) (multi : Bool) : Option (List Grp) :=
  let home := (getVf d x.vf).die
  let w := modeCols v.mode * (v.sibs + 1)
  let spans (die : Nat) := dieSpans d o x id v.cls v.mode v.hop w die
  let all := byPower d ((dieOrder home).flatMap spans)
  if x.task.gang = 1 then search ok all 1 []
  else match search ok (byPower d (spans home)) x.task.gang [] with
    | some r => some r
    | none =>
      if multi then search ok ((dieOrder home).flatMap (fun die => byPower d (spans die))) x.task.gang []
      else all.findSome? (fun g => search ok (byPower d (spans g.die)) (x.task.gang - 1) [g])

/-- A node's places in a class and mode: those that meet every path minimum (R59). -/
def placesFor (d : Dev) (o : Occupied) (x : Node) (id : Nat) (v : Variant) (multi : Bool) : Option (List Grp) :=
  placesWith (pathsOk v) d o x id v multi

/-- The dies of the tentative placement of R146. -/
def tentativeDies (d : Dev) (x : Node) (id cls mode : Nat) : Nat :=
  let all := (dieOrder (getVf d x.vf).die).flatMap (dieSpans d ⟨[], true⟩ x id cls mode 30 (modeCols mode))
  max 1 (((all.take x.task.gang).map (·.die)).eraseDups).length

/-- The variant that a class and mode select for a node (R147). -/
def pairVariant (d : Dev) (x : Node) (id : Nat) (o : Obj) (cm : Nat × Nat) : Option (Nat × Variant) :=
  if x.task.pcls / 2 ^ cm.2 % 2 = 0 ∨ x.task.pcls / 2 ^ (3 + cm.1) % 2 = 0 then none
  else
    let c := modeCols cm.2
    let q : List Int := [cm.1, cm.2, c, 2304 * c, 1, x.task.gang, tentativeDies d x id cm.1 cm.2, x.task.param.toInt]
    match runSelector q 257 x.sel [] with
    | none => none
    | some k =>
      match (if k < 0 then none else o.variants[k.toNat]?) with
      | none => none
      | some v =>
        if (x.task.vmask == 0#64 || x.task.vmask.getLsbD k.toNat) && v.mode == cm.2 && v.cls == cm.1 && v.contract == 1
            && decide (v.safed ≤ x.task.safeb)
            && v.chans.all (chanPlaceable d (getVf d x.vf).part x.task.gang) then some (k.toNat, v) else none

/-- Whether a variant is eligible for some group of the partition, busy or not (R59, R147). -/
def eligible (d : Dev) (x : Node) (id : Nat) (v : Variant) : Bool :=
  let w := modeCols v.mode * (v.sibs + 1)
  let any := (dieOrder (getVf d x.vf).die).any (fun die => !(dieSpans d ⟨[], true⟩ x id v.cls v.mode v.hop w die).isEmpty)
  any && (v.chans.isEmpty || (placesFor d ⟨[], true⟩ x id v true).isSome)

/-- The variants of a node in the order of R147. -/
def nodeVariants (d : Dev) (x : Node) (id : Nat) : List (Nat × Variant) :=
  match x.obj with
  | none => []
  | some o => (classModes.filterMap (pairVariant d x id o)).filter (fun kv => eligible d x id kv.2)

/-- The place a node takes now: its variant and its members' columns. -/
def findPlace (s : State) (id : Nat) (x : Node) (freed : List Nat) (multi : Bool) : Option (Nat × List Grp) :=
  let o : Occupied := ⟨(heldColumns s).filter (fun k => !freed.contains k), false⟩
  (nodeVariants s.dev x id).findSome? (fun kv => (placesFor s.dev o x id kv.2 multi).map (fun r => (kv.1, r)))

/-! ### Save slots (R144) -/

/-- Save slots that a VF's nodes hold. -/
def heldSlots (d : Dev) (v : Nat) : List Nat :=
  d.nodes.flatMap (fun e => if e.2.vf = v then e.2.members.flatMap (fun m => m.slots) else [])

/-- Free save slots of a VF, lowest first. -/
def freeSlots (d : Dev) (v : Nat) : List Nat :=
  let h := heldSlots d v
  (List.range 2048).filter (fun i => !h.contains i)

/-- Members for places of `w` columns: each keeps the slots it holds and takes the lowest free ones. -/
def giveMembers : List Grp → List Member → List Nat → List Member
  | [], _, _ => []
  | g :: gs, ms, free =>
    let old := ms.headD ⟨g, [], 0, false, false, 0, 0, false, false, none, 0, [], [], [], 0, [], []⟩
    let have' := old.slots.take g.g
    let more := g.g - have'.length
    { old with grp := g, slots := have' ++ free.take more } :: giveMembers gs ms.tail (free.drop more)

/-! ### Launching -/

/-- The block of arguments, which is read when the gang enters placed (R132): the trap where it cannot be. -/
def readArgs (id : Nat) (x : Node) (s : State) : State × Except Trap (List Byte) :=
  if x.resume then (s, .ok x.argv)
  else if x.task.args = 0#64 then (s, .ok [])
  else setterRead (.node id) x.vf (fieldN x.task.args 48 16) (fieldN x.task.args 0 48) 64 true false s

/-- The arguments of a placed node are its own once they have been read; a node whose arguments cannot be read faults. -/
def takeArgs (id : Nat) (x : Node) (s : State) : State :=
  let r := readArgs id x s
  match r.2 with
  | .ok b => onNode id (fun y => { y with argv := b }) r.1
  | .error t => faultEarly id t r.1

/-- A node takes its place (R138): its elements wake, tile modes are set, the read of its arguments begins. -/
def commitPlace (id : Nat) (x : Node) (k : Nat) (gs : List Grp) (s : State) : State :=
  let v := (x.obj.bind (fun o => o.variants[k]?)).map (fun v => (v.mode, v.cls, v.cost))
  let (mode, cls, cost) := v.getD (0, 0, 0)
  let ms := giveMembers gs x.members (freeSlots s.dev x.vf)
  let s1 := onNode id (fun y => { y with st := .placed, ready := none, vidx := k, members := ms, cost := cost }) s
  let s2 := onDev (fun d => { d with
    reserved := d.reserved.filter (fun e => e.2 != id + 1)
    modes := if cls = 1 then d.modes else gs.foldl (fun m g => tabSet 0 m (g.die * 256 + g.tile) (mode + 1)) d.modes }) s1
  let s3 := gs.foldl (fun s g => (spanKeys g.die g.tile g.col g.g).foldl (fun s k => wakeKey k s) s) s2
  attempt (.node id) (takeArgs id x) s3

/-- Columns that a node's members hold in all. -/
def nodeCols (x : Node) : Nat := x.members.foldl (fun a m => a + m.grp.g) 0

/-- The LC that a suspended node's save recorded, the largest of its members'. -/
def savedLcOf (x : Node) : Nat := x.members.foldl (fun a m => if m.done then a else max a m.lc) 0

/-- COST of R150 and R153. -/
def nodeCost (x : Node) (k : Nat) : Nat :=
  if x.kind ≠ 1 then sumLen (·.read) x.regions / 128
  else
    let c := ((x.obj.bind (fun o => o.variants[k]?)).map (·.cost)).getD 0
    if x.resume then x.cost - savedLcOf x * nodeCols x else c

/-- Whether a node is ready (R93, R101, R149, R153, R158).  R91 lets a DEGRADED VF launch nothing: its suspended nodes are not resumed either
(DESIGN CHOICE, log 65). -/
def isReady (s : State) (x : Node) : Bool :=
  let q := getVf s.dev x.vf
  ((x.st == .waitingLease && x.lease == .held) || x.st == .suspended) && q.state == 1 && decide (q.acct > 0) && !q.quota && !holding q

/-- Engines of a die that run copy and drain cards (R149). -/
def enginesBusy (d : Dev) (die : Nat) : Nat :=
  d.nodes.countP (fun e => e.2.die == die && e.2.st == .running && (e.2.kind == 2 || e.2.kind == 4))

/-- What launching a node takes: its COST and, for a task, its variant and places. -/
def launchOf (s : State) (id : Nat) (x : Node) (multi : Bool) : Option (Nat × Nat × List Grp) :=
  if x.kind = 3 then some (nodeCost x 0, 0, [])
  else if x.kind ≠ 1 then (if enginesBusy s.dev x.die < 4 then some (nodeCost x 0, 0, []) else none)
  else match findPlace s id x [] multi with
    | none => none
    | some (k, gs) =>
      let need := gs.foldl (fun a g => a + g.g) 0
      if need ≤ (freeSlots s.dev x.vf).length + (x.members.flatMap (fun m => m.slots)).length then some (nodeCost x k, k, gs) else none

/-- Launches a node: a task enters placed, a card runs. -/
def launchNode (id : Nat) (x : Node) (k : Nat) (gs : List Grp) (s : State) : State :=
  if x.kind = 1 then commitPlace id x k gs s
  else onNode id (fun y => { y with st := .running, ready := none, cst := { y.cst with phase := 0 } }) s

/-! ### Selection rounds (R149 to R151) -/

/-- The ready node of a VF at a level that is the oldest by handle, then index. -/
def oldestReady (s : State) (v die lvl : Nat) : Option (Nat × Node) :=
  (s.dev.nodes.filter (fun e => e.2.vf == v && e.2.die == die && e.2.prio == lvl && isReady s e.2)).foldl (fun a e => match a with
    | none => some e
    | some b => if e.2.handle < b.2.handle ∨ (e.2.handle = b.2.handle ∧ e.2.idx < b.2.idx) then some e else a) none

/-- Loads the code object of a node that has none: a refused object faults the node (R293). -/
def ensureObject (id : Nat) (x : Node) (s : State) : State :=
  if x.kind ≠ 1 ∨ x.obj.isSome then s
  else
    let r := loadObject (.node id) x.vf x.task.code s
    match r.2 with
    | some o => onNode id (fun y => { y with obj := some o.1, sel := o.2 }) r.1
    | none => faultEarly id ⟨0x0A, 0x01, 0, 0#64, 0#64, 0#64, 0#64, none⟩ r.1

/-- The deficit of a VF at a level. -/
def deficitOf (s : State) (v lvl : Nat) : Int := tabGet 0 (getVf s.dev v).deficit lvl
def setDeficit (v lvl : Nat) (n : Int) (s : State) : State := onVf v (fun q => { q with deficit := tabSet 0 q.deficit lvl n }) s

/-- The ready nodes of a die at a level. -/
def readyNodes (s : State) (die lvl : Nat) : List (Nat × Node) :=
  s.dev.nodes.filter (fun e => e.2.die == die && e.2.prio == lvl && isReady s e.2)

/-- A ready node's code object is loaded; without a variant on any group the node faults (R147). -/
def prepareLoaded (id : Nat) (s : State) : State :=
  let t := match tabFind s.dev.nodes id with
    | some x => ensureObject id x s
    | none => s
  match tabFind t.dev.nodes id with
  | none => t
  | some x =>
    if x.kind = 1 ∧ (nodeVariants t.dev x id).isEmpty then faultEarly id ⟨0x0A, 0x01, 0, 0#64, 0#64, 0#64, 0#64, none⟩ t else t

/-- A ready node is prepared; until its object has been read, it has no variant and finds no place. -/
def prepareNode (id : Nat) (s : State) : State := attempt (.node id) (prepareLoaded id) s

/-- Serves a VF's ready nodes at a level while the oldest has a place and the deficit (R150). -/
def serveVf (die lvl v : Nat) : Nat → State → State
  | 0, s => s
  | n + 1, s =>
    match oldestReady s v die lvl with
    | none => setDeficit v lvl 0 s
    | some (id, x) =>
      match launchOf s id x false with
      | none => s
      | some (cost, k, gs) =>
        if (cost : Int) ≤ deficitOf s v lvl then
          let s2 := launchNode id x k gs (setDeficit v lvl (deficitOf s v lvl - cost) s)
          serveVf die lvl v n (onDev (fun d => setDie die
            { getDie d die with served := tabSet 0 (getDie d die).served lvl (v + 1) } d) s2)
        else s

/-- Notes since when each of a level's ready nodes has been without a place, an engine, or a place on one die (R148, R152). -/
def stampReady (die lvl : Nat) (s : State) : State :=
  (readyNodes s die lvl).foldl (fun t e =>
    let late := if e.2.kind = 1 then e.2.obj.isSome && (findPlace t e.1 e.2 [] false).isNone else (launchOf t e.1 e.2 false).isNone
    onNode e.1 (fun y => { y with ready := if late then some (y.ready.getD t.cyc) else none }) t) s

/-- VFs with a ready node of the die at a level. -/
def readyVfs (s : State) (die lvl : Nat) : List Nat :=
  (s.dev.vfs.map Prod.fst).filter (fun v => (oldestReady s v die lvl).isSome)

/-- Quantum of R150. -/
def quantum (d : Dev) (die v : Nat) (vs : List Nat) : Nat :=
  let p := (getVf d v).part
  2 ^ 16 * max 1 ((colParts d die).countP (fun e => e.2 == p) / max 1 (vs.countP (fun u => (getVf d u).part == p)))

/-- One level of a round: the VFs in turn from the one after that served last (R150). -/
def serveLevel (die lvl : Nat) (s : State) : State :=
  let vs := readyVfs s die lvl
  let last := tabGet 0 (getDie s.dev die).served lvl
  (vs.filter (fun v => decide (last ≤ v)) ++ vs.filter (fun v => decide (v < last))).foldl (fun t v =>
    serveVf die lvl v (t.dev.nodes.length + 1) (setDeficit v lvl (deficitOf t v lvl + quantum s.dev die v vs) t)) s

/-- Whether a ready node of a level has a place or an engine: lower levels then wait, even where its VF's deficit does not cover it (R149). -/
def levelWaits (s : State) (die lvl : Nat) : Bool := (readyNodes s die lvl).any (fun e => (launchOf s e.1 e.2 false).isSome)

/-- Levels from the highest down, until a ready node of one has a place (R149). -/
def serveLevels (die : Nat) : Nat → State → State
  | 0, s => s
  | lvl + 1, s =>
    let t := serveLevel die lvl s
    if levelWaits t die lvl then t else serveLevels die lvl t

/-- Every ready node of a die is prepared, whether or not the round comes to its level. -/
def prepareNodes (die : Nat) (s : State) : State :=
  (((List.range 8).flatMap (readyNodes s die)).map Prod.fst).foldl (fun t id => prepareNode id t) s

/-- Every level's nodes without a place are noted at the end of a round. -/
def stampLevels (die : Nat) (s : State) : State := (List.range 8).foldl (fun t lvl => stampReady die lvl t) s

/-- Leases begin for nodes that wait for one (R126). -/
def beginLeases (die : Nat) (s : State) : State :=
  ((s.dev.nodes.filter (fun e => e.2.die == die && e.2.st == .waitingLease && e.2.lease == .none)).map Prod.fst).foldl (fun s id =>
    match tabFind s.dev.nodes id with
    | some x => if (getVf s.dev x.vf).state = 1 then beginLease id s else s
    | none => s) s

/-- A selection round of a die's Setter (R149). -/
def execSelectionRound (die : Nat) (s : State) : Host.Outcome State Fault Refusal :=
  .next (stampLevels die (serveLevels die 8 (prepareNodes die (beginLeases die s))))

/-- Gangs of a die that wait for several dies. -/
def waitingGangs (s : State) (die : Nat) : List (Nat × Node) :=
  s.dev.nodes.filter (fun e => e.2.die == die && e.2.kind == 1 && decide (e.2.task.gang > 1) && e.2.ready.isSome && isReady s e.2)

/-- A node is served before another: higher level, then longer ready. -/
def servedBefore (a b : Nat × Node) : Bool :=
  decide (b.2.prio < a.2.prio) || (a.2.prio == b.2.prio && decide (a.2.ready.getD 0 < b.2.ready.getD 0))

/-- Inserts into a list of nodes in an order. -/
def insertNode (before : Nat × Node → Nat × Node → Bool) (a : Nat × Node) : List (Nat × Node) → List (Nat × Node)
  | [] => [a]
  | b :: bs => if before a b then a :: b :: bs else b :: insertNode before a bs

/-- The gang that holds the token places itself over several dies, whole or not at all; groups that do not suffice are freed (R148). -/
def placeGang (die : Nat) (e : Nat × Node) (s : State) : State :=
  match launchOf s e.1 e.2 true with
  | none => loupeNode 6 e.1 s
  | some (cost, k, gs) =>
    if (cost : Int) ≤ deficitOf s e.2.vf e.2.prio then
      onDev (fun d => setDie die { getDie d die with served := tabSet 0 (getDie d die).served e.2.prio (e.2.vf + 1) } d)
        (launchNode e.1 e.2 k gs (setDeficit e.2.vf e.2.prio (deficitOf s e.2.vf e.2.prio - cost) s))
    else s

/-- The Setter that holds the token tries one of its gangs, the highest in level and of those the one that waits longest, and passes the
token on (R148): which of several gangs is tried the manual does not say (log 31).  A ready node of a higher level that has a place makes
the gang wait (R149). -/
def execGangToken (s : State) : Host.Outcome State Fault Refusal :=
  let die := s.dev.token
  let pass (t : State) : State := onDev (fun d => { d with token := (d.token + 1) % 8 }) t
  match (waitingGangs s die).foldl (fun l e => insertNode servedBefore e l) [] with
  | [] => .next (pass s)
  | e :: _ =>
    if (List.range 8).any (fun l => decide (e.2.prio < l) && levelWaits s die l) then .next (pass s)
    else .next (pass (placeGang die e s))

/-! ### Priority pre-emption (R152) -/

/-- Columns of a node's running tasks. -/
def runningCols (s : State) (id : Nat) : List Nat :=
  (s.tasks.filter (fun e => e.2.node == id)).flatMap (fun e =>
    (List.range (e.2.g * (e.2.nsib + 1))).map (fun j => colKey e.2.die e.2.tile (e.2.col + j)))

/-- Whether some of the columns lie in a placement that a node could use: one that R143 and R148 allow it, whatever occupies it now. -/
def usable (s : State) (id : Nat) (x : Node) (cols : List Nat) : Bool :=
  let touches (g : Grp) : Bool := (List.range g.g).any (fun j => cols.contains (colKey g.die g.tile (g.col + j)))
  (nodeVariants s.dev x id).any (fun kv =>
    (placesWith (fun gs => pathsOk kv.2 gs && gs.any touches) s.dev ⟨[], true⟩ x id kv.2 true).isSome)

/-- A candidate comes before another: lower level, then dispatched later. -/
def victimBefore (a b : Nat × Node) : Bool := decide (a.2.prio < b.2.prio) || (a.2.prio == b.2.prio && decide (b.2.order < a.2.order))

/-- Whether a pre-emption has been posted to a task of a node, or its groups are held for another node. -/
def onItsWay (s : State) (id : Nat) : Bool :=
  s.tasks.any (fun e => e.2.node == id && (e.2.preempt.isSome || e.2.taken.isSome || s.dev.posts.any (fun p => p.tid == e.1)))
    || (runningCols s id).any (fun k => tabGet 0 s.dev.reserved k != 0)

/-- Running task nodes of levels below `lvl` in the order in which they are taken. -/
def victims (s : State) (lvl : Nat) : List (Nat × Node) :=
  (s.dev.nodes.filter (fun e => e.2.kind == 1 && e.2.st == .running && decide (e.2.prio < lvl) && !onItsWay s e.1)).foldl (fun l e => insertNode victimBefore e l) []

/-- The set of nodes to pre-empt, and their columns. -/
def evictSet (s : State) (id : Nat) (x : Node) : List (Nat × Node) → List Nat → List Nat → Option (List Nat × List Nat)
  | [], _, _ => none
  | e :: es, ids, cols =>
    let mine := runningCols s e.1
    if !usable s id x mine then evictSet s id x es ids cols
    else if (findPlace s id x (cols ++ mine) true).isSome then some (ids ++ [e.1], cols ++ mine)
    else evictSet s id x es (ids ++ [e.1]) (cols ++ mine)

/-- A node that has waited 100 µs without a place, and holds no columns yet. -/
def starved (s : State) (die : Nat) (e : Nat × Node) : Bool :=
  e.2.die == die && e.2.kind == 1 && isReady s e.2 && (match e.2.ready with
    | some t => decide (t + usec 100 ≤ s.cyc)
    | none => false) && !(s.dev.reserved.any (fun r => r.2 == e.1 + 1))

/-- Posts pre-emption for a starved node (R152); where the free groups suffice there is nothing to post. -/
def evictFor (id : Nat) (s : State) : State :=
  match tabFind s.dev.nodes id with
  | none => s
  | some x =>
    if (findPlace s id x [] true).isSome then s
    else match evictSet s id x (victims s x.prio) [] [] with
    | none => s
    | some (ids, cols) =>
      let s1 := onDev (fun d => { d with reserved := cols.foldl (fun r k => tabSet 0 r k (id + 1)) d.reserved }) s
      ids.foldl (fun s v => loupeNode 3 v ((nodeTids s v).foldl (fun s t => post t .save s) s)) s1

def execPriorityPreemption (die : Nat) (s : State) : Host.Outcome State Fault Refusal :=
  .next ((((s.dev.nodes.filter (starved s die)).foldl (fun l e => insertNode servedBefore e l) []).map Prod.fst).foldl
    (fun s id => evictFor id s) s)

end Sys2Proof.Machine
end

