-- ==== Sys2Proof/Machine/Launch.lean ====
section
/-!
DEFINITION. Dispatch, restore and restart of task nodes, the end of saves and of nodes, the arrival of requests, the timeout of
invalidations and the flush of the meters (R102, R105, R124, R138, R142, R150, R153, R156, R178, R179, R182, R187, R264, R267, R270).
-/

namespace Sys2Proof.Machine

/-- Whether the Setter may launch or resume a node of a VF now (R91, R93, R101, R158). -/
def mayLaunch (s : State) (v : Nat) : Bool :=
  let q := getVf s.dev v
  q.state == 1 && decide (q.acct > 0) && !q.quota && !holding q

/-- Whether the columns of a node's members are awake (R138). -/
def membersAwake (d : Dev) (x : Node) : Bool :=
  x.members.all (fun m => m.done || (spanKeys m.grp.die m.grp.tile m.grp.col m.grp.g).all (awake d))

/-- Whether the banks of a node's columns are free of the copies of tasks that have halted there, and cleared (R182, R183): the banks that
its variant declares; every bank where a context is restored, or the copies are another VF's. -/
def banksFree (s : State) (id : Nat) (x : Node) : Bool :=
  let own := ((x.obj.bind (fun o => o.variants[x.vidx]?)).map (·.lbown)).getD (BitVec.allOnes 6)
  s.tasks.all (fun e => e.2.node == id || e.2.seqs.all (fun q =>
    let m := if e.2.vf = x.vf ∧ !x.resume then own else BitVec.allOnes 6
    (m &&& lateBanks q.2) == 0#6 || x.members.all (fun n => n.done || !(seqCols e.2 q.1).any (fun c =>
      ((List.range n.grp.g).map (fun j => colKey n.grp.die n.grp.tile (n.grp.col + j))).contains c))))

/-- Whether a placed node can start, resume or restart now: its columns are awake, its VF may run, and the banks are free. -/
def mayStart (s : State) (id : Nat) (x : Node) : Bool := membersAwake s.dev x && mayLaunch s x.vf && banksFree s id x

/-! ### A task at its launch (R58, R132, R182, R192, R296) -/

/-- Number and descriptor of a channel entry, for a member at `me` among the members' places `gs`. -/
def channelOf (gs : List Grp) (me : Grp) (c : List Byte) : Nat × Chan :=
  let recv := decide (field c 0 1 ≥ 128)
  let dest := ceDest c
  let path : BitVec 2 :=
    if dest / 2 ^ 30 = 1 then 2#2
    else if (gs.getD (dest % 2048) me).die = me.die then 0#2
    else 1#2
  (field c 0 1 % 32,
    { path := path, recv := recv, dest := BitVec.ofNat 32 dest, pch := BitVec.ofNat 5 (field c 1 1),
      port := if path = 2#2 then BitVec.ofNat 8 (field c 2 1) else 0#8, lat := BitVec.ofNat 24 (ceLat c),
      cred := if recv then 0#5 else 16#5, seq := 0#32, slots := [], fault := none })

/-- The scalar registers of a member's primary at launch. -/
def argRegs (b : List Byte) : Tab Word :=
  (List.range 8).foldl (fun t i => tabSet 0#64 t (i + 1) (w64 (field b (8 * i) 8))) []

/-- Member `i` of node `x` with variant `k` at the start of its code. -/
def launchTask (d : Dev) (id : Nat) (x : Node) (o : Obj) (k : Nat) (v : Variant) (i : Nat) (m : Member) : Task :=
  let q := getVf d x.vf
  let gs := x.members.map (·.grp)
  let idle : Seq := { seq0 with st := .idle, own := v.lbown }
  let prim : Seq := { idle with st := .running, pos := ⟨v.entry, 0⟩, s := argRegs x.argv }
  { task0 with
    alive := true, vf := x.vf, node := id, member := i, die := m.grp.die, tile := m.grp.tile, col := m.grp.col
    g := modeCols v.mode, nsib := v.sibs, gmode := v.mode, cls := v.cls, cust := q.cust, place := w64 i, safeb := x.task.safeb
    hop := v.hop, code := x.task.code, obj := o, vidx := k, gang := x.task.gang, slots := slotPlaces q m.slots, lease := x.regions
    chans := v.chans.foldl (fun t c => let e := channelOf gs m.grp c; tabPut t e.1 e.2) []
    seqs := (0, prim) :: (List.range v.sibs).map (fun j => (j + 1, idle)) }

/-- Puts a member's task on its columns. -/
def placeTask (id i : Nat) (t : Task) (s : State) : State :=
  onMember id i (fun m => { m with tid := s.nextId, saved := false, done := false, cut := false, meter := 0, aside := [] })
    { s with tasks := tabPut s.tasks s.nextId t, nextId := s.nextId + 1 }

/-- The variant a placed node was given. -/
def placedVariant (x : Node) : Option (Obj × Variant) := x.obj.bind (fun o => (o.variants[x.vidx]?).map (fun v => (o, v)))

/-- The loader measures a node's code object (R105). -/
def measure (v : Nat) (digest : List Byte) : State → State :=
  onVf v (fun q => { q with
    chain := Config.sha512 ((if q.chain.isEmpty then List.replicate 64 0#8 else q.chain) ++ digest), objects := q.objects + 1 })

/-- A node runs from its dispatch on, whose order it keeps (R138, R152). -/
def dispatched (node : Nat) (s : State) : State :=
  onDev (fun d => { d with order := d.order + 1 })
    (onNode node (fun y => { y with st := .running, resume := false, restart := false, order := s.dev.order }) s)

/-- Starts a placed node whose arguments `b` are in (R102, R105, R138). -/
def startNode (node : Nat) (x : Node) (o : Obj) (v : Variant) (b : List Byte) (s : State) : State :=
  if (getVf s.dev x.vf).cust && !o.signed then alarm 3 (endNode node [nodeRec 16 0 x] s)
  else
    let y := { x with argv := b }
    dispatched node (x.members.zipIdx.foldl (fun s e =>
      phaseMark s.nextId (placeTask node e.2 (launchTask s.dev node y o x.vidx v e.2 e.1) s)) (measure x.vf o.digest (onNode node (fun z => { z with argv := b }) s)))

/-- Dispatch (R132, R138): the code object is checked and measured, every member starts at LC 0, with its first phase mark, once the
arguments have been read. -/
def execDispatch (node : Nat) (s : State) : Host.Outcome State Fault Refusal :=
  match tabFind s.dev.nodes node with
  | none => .next s
  | some x =>
    if x.st ≠ .placed || x.resume || !mayStart s node x then .next s
    else match placedVariant x with
      | none => .next s
      | some (o, v) => .next (attempt (.node node) (fun s =>
          let r := readArgs node x s
          match r.2 with
          | .ok b => startNode node x o v b r.1
          | .error t => faultEarly node t r.1) s)

/-! ### Resume and restart (R153, R267, R270) -/

/-- Members that have not halted, with their numbers. -/
def liveMembers (x : Node) : List (Member × Nat) := x.members.zipIdx.filter (fun e => !e.1.done)

/-- The trap of a save image with a wrong MAGIC (R257, R269). -/
def imageTrap (sl : Nat × Nat) : Trap :=
  ⟨0x04, 0x07, 0, w64 (sl.1 * 2 ^ 43 + sl.2 + hdrOff), 0#64, 7#64, 0#64, some (w64 (sl.1 * 2 ^ 43 + sl.2 + hdrOff))⟩

/-- The trap of a save image, or a phase mark, that cannot be read: the manual names none (DESIGN CHOICE, log 54). -/
def lostImage (x : Node) : Record := earlyRecord x ⟨0x0E, 0x01, 0, 0#64, 0#64, 7#64, 0#64, none⟩

/-- Member `i` on its new place with the variant that its image names (R269), as far as the place has columns for its siblings. -/
def savedTask (d : Dev) (node : Nat) (x : Node) (o : Obj) (v : Variant) (i : Nat) (m : Member) (im : Tab Byte) : Task :=
  let t := launchTask d node x o x.vidx v i m
  let k := imgGet (headerOfSlot im t hdrOff) 8 8 / 2 ^ 16 % 64
  match o.variants[k]? with
  | some w => if w.mode = v.mode then launchTask d node x o k { w with sibs := min w.sibs v.sibs } i m else t
  | none => t

/-- Members of a resuming node, on their new places with the images `im`. -/
def savedTasks (d : Dev) (node : Nat) (x : Node) (o : Obj) (v : Variant) (im : Tab Byte) : List ((Member × Nat) × Task) :=
  (liveMembers x).map (fun e => (e, savedTask d node x o v e.2 e.1 im))

/-- A channel that an image restores, with the fault and the senders that its member has kept (R56, R422). -/
def keptChan (m : Member) (n : Nat) (c : Chan) : Chan :=
  { c with
    fault := tabFind m.faults n
    slots := c.slots.map (fun x => (x.1, { x.2 with src := tabGet 0 m.srcs (16 * n + x.1) })) }

/-- Members resume from their images (R267), of which `im` has been read, with what went beside them. -/
def resumeMembers (node : Nat) (ts : List ((Member × Nat) × Task)) (im : Tab Byte) (s : State) : State :=
  onNode node (fun y => { y with st := .running, resume := false }) (ts.foldl (fun u e =>
    let m := e.1.1
    let t := restored s im e.2
    placeTask node e.1.2 { t with
      serr := m.serr
      chans := t.chans.map (fun c => (c.1, keptChan m c.1 c.2)) } u) s)

/-- A node resumes whose headers `im` have been read, unless an image is bad or of another shape (R269, R270). -/
def resumeNode (node : Nat) (x : Node) (o : Obj) (v : Variant) (im : Tab Byte) (s : State) : State :=
  let ts := savedTasks s.dev node x o v im
  let hdr (t : Task) := headerOfSlot im t hdrOff
  match ts.find? (fun e => imgGet (hdr e.2) 0 8 != 0x45584358) with
  | some e =>
    let r := earlyRecord x (imageTrap (slotOf e.2 0 0))
    faultNode node x { r with place := w64 e.1.2, lc := imgGet (hdr e.2) 0x18 8, pc := (posOf (imgGet (hdr e.2) 0x10 8)).bundle } s
  | none =>
    if ts.any (fun e => imgGet (hdr e.2) 8 8 / 4 % 4 != natCode e.2.g) then
      let s1 := loupeNode 1 node s
      if (liveMembers x).any (fun e => e.1.k01) then
        let r := nodeRec 2 0 x
        faultNode node x { r with tcause := w64 (Config.freeValue s1.free % 2 ^ 32) } { s1 with free := s1.free + 1 }
      else onNode node (fun y => { y with restart := true }) s1
    else
      let a := askSlots (.image node) [1] x.vf (ts.flatMap (fun e => imageSpans s e.2 (hdr e.2))) s
      if !a.2.2 then faultNode node x (lostImage x) a.1
      else resumeMembers node ts (a.2.1.foldl (fun m e => tabSet 0#8 m e.1 e.2) im) a.1

/-- A suspended node resumes on its new place (R267), once its headers and then its contexts have been read. -/
def execContextRestore (node : Nat) (s : State) : Host.Outcome State Fault Refusal :=
  match tabFind s.dev.nodes node with
  | none => .next s
  | some x =>
    if x.st ≠ .placed || !x.resume || x.restart || !mayStart s node x then .next s
    else match placedVariant x with
      | none => .next s
      | some (o, v) => .next (attempt (.image node) (fun s =>
          let a := askSlots (.image node) [0] x.vf ((savedTasks s.dev node x o v []).map (fun e => headerSpan e.2 hdrOff)) s
          if !a.2.2 then faultNode node x (lostImage x) a.1 else resumeNode node x o v a.2.1 a.1) s)

/-- Whether every member of a running node that is not saved still has its task, on columns that no other node has taken since it halted. -/
def stillPlaced (node : Nat) (x : Node) (s : State) : Bool :=
  let others := heldColumns { s with tasks := s.tasks.filter (fun e => e.2.node != node) }
  x.members.all (fun m => m.saved || ((tabFind s.tasks m.tid).isSome
    && (List.range m.grp.g).all (fun j => !others.contains (colKey m.grp.die m.grp.tile (m.grp.col + j)))))

/-- A node whose members cannot all restart where they are leaves its columns, as after a save, and restarts on a new place (R179); a
pending cancel ends it (R139). -/
def restartElsewhere (node : Nat) (x : Node) (s : State) : State :=
  let ts := s.tasks.filter (fun e => e.2.node == node)
  let meterOf (m : Member) : Nat := ((tabFind s.tasks m.tid).map (·.meter)).getD m.meter
  let s1 := ts.foldl (fun u e => parkTask e.1 { u with reqs := u.reqs.filter (fun r => !ofTasks [e.1] r) }) s
  let s2 := onNode node (fun y => { y with
    st := .suspended, resume := true, restart := true
    members := y.members.map (fun m => { m with tid := 0, done := false, saved := true, cut := false, meter := meterOf m }) }) s1
  match x.cancel with
  | some st => endNode node [nodeRec 3 st x] s2
  | none => s2

/-- The images, or phase marks, of a node's members are being read. -/
def readsImage (d : Dev) (node : Nat) : Bool := d.jobs.any (fun j => j.why == .image node)

/-- The tasks of a node stop where they are (R179): what has taken effect leaves them, and what they have asked for is dropped. -/
def stopTasks (node : Nat) (s : State) : State :=
  let tids := nodeTids s node
  let s1 := tids.foldl (fun s u => finishCopies u (settleOut u s)) s
  let s2 := dropReplies tids { s1 with reqs := s1.reqs.filter (fun r => !(ofTasks tids r && (r.op == .read || unfilled r))) }
  tids.foldl (fun u tid => onTask tid (fun t => { t with alive := false }) u) s2

/-- A task goes on from its phase mark; a request that was on its way to it, or that its SAFE has taken, stays posted. -/
def rerun (u : State) (im : Tab Byte) (t : Task) : Task :=
  let p := match t.taken with
    | some (k, _) => some k
    | none => t.preempt
  { restarted u im t with alive := true, preempt := p, preAt := u.cyc }

/-- A running node whose tasks have stopped goes back to the start of its current phase (R179): every member reloads its latest mark, those
that have halted among them.  Members already saved do so when they resume. -/
def restartRunning (node : Nat) (x : Node) (s : State) : State :=
  let tids := nodeTids s node
  let ts := tids.filterMap (tabFind s.tasks)
  let a := askSlots (.image node) [2] x.vf (ts.map (fun t => headerSpan t markOff)) s
  if !a.2.2 then faultNode node x (lostImage x) a.1
  else
    let s2 := tids.foldl (fun u tid => onTask tid (rerun u a.2.1) u) a.1
    onNode node (fun y => { y with
      restart := x.members.any (fun m => m.saved)
      members := y.members.map (fun m => if tids.contains m.tid then { m with done := false, cut := false } else m) }) s2

/-- A suspended node restarts on a new place from its members' marks (R179, R270), once they have been read. -/
def restartPlaced (node : Nat) (x : Node) (o : Obj) (v : Variant) (s : State) : State :=
  let ts := x.members.zipIdx.map (fun e => (e, launchTask s.dev node x o x.vidx v e.2 e.1))
  let a := askSlots (.image node) [2] x.vf (ts.map (fun e => headerSpan e.2 markOff)) s
  let mark (t : Task) := headerOfSlot a.2.1 t markOff
  let same (e : Member × Nat) : Bool := e.1.markVidx == x.vidx
  if !a.2.2 then faultNode node x (lostImage x) a.1
  else match ts.find? (fun e => !same e.1 && (phaseEntry v (imgGet (mark e.2) 0x20 8)).isNone) with
  | some e =>
    let r := earlyRecord x ⟨0x0A, 0x03, 0, 0#64, w64 (imgGet (mark e.2) 0x20 8), 0#64, 0#64, none⟩
    faultNode node x { r with place := w64 e.1.2, lc := imgGet (mark e.2) 0x18 8 } a.1
  | none =>
    dispatched node (ts.foldl (fun u e =>
      let t := if same e.1 then restarted a.1 a.2.1 e.2
        else restartedVariant a.1 a.2.1 e.2 ((phaseEntry v (imgGet (mark e.2) 0x20 8)).getD v.entry)
      placeTask node e.1.2 { t with meter := e.1.1.meter } u) a.1)

/-- A node goes back to its phase marks (R179, R270): a running one stops first; where a halted member's columns are another node's by now,
all of its members restart on a new place. -/
def execPhaseRestart (node : Nat) (s : State) : Host.Outcome State Fault Refusal :=
  match tabFind s.dev.nodes node with
  | none => .next s
  | some x =>
    if x.st = .running then
      let s1 := if readsImage s.dev node then s else stopTasks node s
      .next (if stillPlaced node x s1 then attempt (.image node) (restartRunning node x) s1
        else closeJobs (.image node) (restartElsewhere node x s1))
    else if x.st ≠ .placed || !x.resume || !x.restart || !mayStart s node x then .next s
    else match placedVariant x with
      | none => .next s
      | some (o, v) => .next (attempt (.image node) (restartPlaced node x o v) s)

/-! ### The end of saves and of nodes -/

/-- Every member has halted, or is saved with its context written. -/
def membersDone (x : Node) : Bool := x.members.all (fun m => m.done || (m.saved && m.saving == 0))

/-- Whether every message that a node's members have sent has landed (R437). -/
def sentAll (d : Dev) (node : Nat) : Bool := !d.mail.any (fun m => m.src / 2048 == node)

/-- The last member is saved (R153): the node is suspended; one whose cancel is pending ends (R139). -/
def execSaveComplete (node : Nat) (s : State) : Host.Outcome State Fault Refusal :=
  match tabFind s.dev.nodes node with
  | none => .next s
  | some x =>
    if x.st ≠ .running || x.kind != 1 || !membersDone x || !x.members.any (fun m => m.saved) || x.members.any (fun m => m.cut)
        || !sentAll s.dev node then .next s
    else
      let s1 := removeTasks (nodeTids s node) s
      let s2 := onNode node (fun y => { y with
        st := .suspended, resume := true, members := y.members.map (fun m => { m with tid := 0 }) }) (onDev (fun d => { d with freed := true }) s1)
      match x.cancel with
      | some st => .next (endNode node [nodeRec 3 st x] s2)
      | none => .next s2

/-- The correction of DEF at retirement (R150): by COST less final LC times columns, held within 2^40 either way. -/
def correctDeficit (x : Node) (lc : Nat) (s : State) : State :=
  let n : Int := deficitOf s x.vf x.prio + x.cost - lc * nodeCols x
  setDeficit x.vf x.prio (max (-(2 ^ 40 : Int)) (min (2 ^ 40) n)) s

/-- Every member has ended and every access of its tasks is performed (R138, R139, R183, R252, R263): the node retires, is cancelled
where a cancel ended a member, or, stopped by a trap, ends with its records. -/
def execNodeRetire (node : Nat) (s : State) : Host.Outcome State Fault Refusal :=
  match tabFind s.dev.nodes node with
  | none => .next s
  | some x =>
    let cut := x.members.any (fun m => m.cut)
    if tasksBusy s (nodeTids s node) then .next s
    else match x.closing with
    | some recs => .next (endNode node recs s)
    | none =>
    if x.st ≠ .running || x.kind != 1 || !membersDone x || (!cut && x.members.any (fun m => m.saved)) then .next s
    else if cut then .next (endNode node [nodeRec 3 (x.cancel.getD 1) x] s)
    else
      let lc := (s.tasks.filter (fun e => e.2.node == node)).foldl (fun a e =>
        max a (((tabFind e.2.seqs 0).map (·.haltLC)).getD 0)) 0
      let s1 := correctDeficit x lc (removeTasks (nodeTids s node) s)
      match tabFind s1.dev.nodes node with
      | none => .next s1
      | some y => .next (freeNode node (satisfy node (report x.vf (nodeRec 1 0 y) s1)))

/-! ### Requests, invalidations and flushes -/

/-- A pre-emption or cancel request reaches a task (R187). -/
def execPreemptionRequestArrival (t : Nat) (kind : PreemptKind) (s : State) : Host.Outcome State Fault Refusal :=
  .next (onTask t (arrive kind s.cyc) s)

/-- Posts pre-emption to the tasks of groups that have not acknowledged (R124). -/
def pressGroups (i : Inval) (s : State) : State :=
  ((i.groups.map Prod.fst).eraseDups).foldl (fun s t => match tabFind s.tasks t with
    | some x => loupeNode 3 x.node (post t .save s)
    | none => s) s

/-- The invalidation-timeout trap of a task (R257). -/
def invalTrap (i : Inval) : Trap := ⟨0x0F, if i.ss then 2 else 1, 0, w64 i.what, w64 i.period, 0#64, 0#64,
  some (if i.ss then w64 i.what else w64 (i.what * 2 ^ 48))⟩

/-- An invalidation has lasted one more INVWD period (R124): unacknowledged groups are pre-empted after one, and their tasks end
after two. -/
def execInvalidationTimeout (id : Nat) (s : State) : Host.Outcome State Fault Refusal :=
  match s.dev.invals[id]? with
  | none => .next s
  | some i =>
    if s.cyc < i.start + (i.period + 1) * usec i.wd || decide (i.period ≥ 2) then .next s
    else
      let j := { i with period := i.period + 1 }
      let s1 := onDev (fun d => { d with invals := d.invals.set id j }) s
      if j.period = 1 then .next (pressGroups j s1)
      else .next (j.groups.foldl (fun s g => onTask g.1 (addTrap g.2 (invalTrap j)) s) s1)

/-- Flushes the counter of a VF at a port (R156). -/
def flushCharges (key : Nat) (s : State) : State :=
  let f := tabGet 0 s.dev.charges key
  chargeShared (key / 128) (nanos f) (onDev (fun d => { d with charges := tabSet 0 d.charges key (nanoRest f) }) s)

/-- A flush period ends (R156). -/
def execCaratFlush (s : State) : Host.Outcome State Fault Refusal :=
  let s1 := (s.tasks.map Prod.fst).foldl (fun s t => flushTask t s) s
  .next ((s1.dev.charges.map Prod.fst).foldl (fun s key => flushCharges key s) s1)

end Sys2Proof.Machine
end

