-- ==== Sys2Proof/Machine/Links.lean ====
section
/-!
DEFINITION. UALink ports, stream messages and credits on arrival, remote requests, reduction contexts and global time (R52 to R65,
R71 to R75, R141, R437).
-/

namespace Sys2Proof.Machine

/-! ### Global time (R72 to R75) -/

def onGtc (f : Gtc → Gtc) (s : State) : State := onDev (fun d => { d with gtc := f d.gtc }) s

/-- One nanosecond in units of 2^-40 ns. -/
def nsUnit : Nat := 2 ^ 40

/-- The slew that a reference period takes up (R74): a thousandth of INC at most, in whole units of 2^-40 ns, rounded down (DESIGN CHOICE,
log 60). -/
def slewPart (inc : Nat) (slew : Int) : Int := max (-(inc / 1000 : Nat) : Int) (min ((inc / 1000 : Nat) : Int) slew)

/-- The start of a reference period: a step that waits is made, and the period's advance is fixed (R72, R74). -/
def gtcPeriod (g : Gtc) : Gtc :=
  { g with t := g.t + g.stepBy, stepBy := 0, phase := 0, run := (g.inc + slewPart g.inc g.slew).toNat, app := slewPart g.inc g.slew }

/-- One cyc of global time (R72): the nineteenth cyc of a period adds the remainder. -/
def gtcTick (g : Gtc) : Gtc :=
  if g.phase < 18 then { g with t := g.t + g.run / 19, phase := g.phase + 1 }
  else
    gtcPeriod { g with
      t := g.t + (g.run - 18 * (g.run / 19))
      slew := if (0 ≤ g.app ∧ g.app ≤ g.slew) ∨ (g.slew ≤ g.app ∧ g.app ≤ 0) then g.slew - g.app else g.slew }

/-- GTCINC (R73): values beyond 500 ppm store the nearer limit. -/
def execGtcincWrite (w : BitVec 64) (s : State) : Host.Outcome State Fault Refusal :=
  .next (onGtc (fun g => { g with inc := min (10995116277760 + 5497558138) (max (10995116277760 - 5497558138) (fieldN w 0 48)) }) s)

/-- GTCADJ (R74): a correction of 1 µs or more is a step, any other a slew that replaces the one outstanding: what the running period
still absorbs of that one does not count toward it. -/
def execGtcadjWrite (w : BitVec 64) (s : State) : Host.Outcome State Fault Refusal :=
  let o : Int := (w.extractLsb' 0 48).toInt * 2 ^ 24
  .next (onGtc (fun g =>
    let h := { g with hold := false, adjAt := s.cyc, app := 0 }
    if o ≥ 1000 * nsUnit then { h with stepBy := g.stepBy + o.toNat, slew := 0 } else { h with slew := o }) s)

/-- GTCSET (R73): accepted only while VALID is 0.  A time below the running count makes GTC go back, and STAMPs with it, which R28 and R72
exclude: the manual does not reconcile them with R73, which is followed here (log 22). -/
def execGtcsetWrite (w : BitVec 64) (s : State) : Host.Outcome State Fault Refusal :=
  .next (onGtc (fun g => if g.valid then g else { g with t := w.toNat * nsUnit, valid := true }) s)

/-- A slew is absorbed when none is outstanding: GTC runs at its own rate again. -/
def execGtcSlewDone (s : State) : Host.Outcome State Fault Refusal :=
  .next (onGtc (fun g => if g.slew = 0 then { g with app := 0 } else g) s)

/-- Two seconds in cyc. -/
def holdAfter : Nat := 3800000000

def execGtcHoldover (s : State) : Host.Outcome State Fault Refusal :=
  .next (onGtc (fun g => if g.adjAt + holdAfter ≤ s.cyc then { g with hold := true } else g) s)

/-- ERRB (R75). -/
def gtcErrb (g : Gtc) (cyc : Nat) : Nat :=
  min 0xFFFFFFFF (g.eb + 6 + (if g.hold then 100 * ((cyc - g.adjAt) / 1900000000) else 0))

/-! ### Reduction contexts (R71) -/

/-- A byte of UARCTX written for a context: deferred while the context is in use. -/
def allotCtx (b : BitVec 8) (c : Ctx) : Ctx :=
  match c.cid with
  | some _ => { c with next := if b.getLsbD 7 = c.v ∧ min 47 (fieldN b 0 6) = c.part then none else some b }
  | none => ⟨b.getLsbD 7, min 47 (fieldN b 0 6), none, none⟩

/-- A write of UARCTXj of a port. -/
def execUarctxWrite (port j : Nat) (w : BitVec 64) (s : State) : Host.Outcome State Fault Refusal :=
  .next (onDev (fun d =>
    let p := getPort d port
    setPort port { p with ctx := (List.range 8).foldl (fun t i =>
      tabSet ctx0 t (8 * j + i) (allotCtx (w.extractLsb' (8 * i) 8) (tabGet ctx0 t (8 * j + i)))) p.ctx } d) s)

/-! ### Training (R53, R60) -/

/-- LATCAL of a round trip (R60). -/
def latcalOf (rtt : Nat) : Nat := 256 * ((19 * rtt + 5120 + 2559) / 2560)

/-- The widest width of R52 that so many lanes allow: x4, x2, x1, or none. -/
def portWidth (lanes : Nat) : Nat := if lanes ≥ 4 then 4 else if lanes ≥ 2 then 2 else lanes

/-- A port as a training or retraining leaves it: down where it cannot train at x1. -/
def trained (width rtt : Nat) (p : Port) : Port :=
  if portWidth width = 0 then { p with width := 0, up := false }
  else { p with width := portWidth width, up := true, held := false, rttmax := rtt, latcal := latcalOf rtt }

/-- VFs with a running or suspended task that uses a port, by the port place that names it (R53). -/
def portUsers (s : State) (port : Nat) : List (Nat × Nat) :=
  let place (v : Nat) : Option Nat := (portList s.dev (getVf s.dev v).part).findIdx? (· == port)
  let run := s.tasks.filterMap (fun e =>
    if e.2.chans.any (fun c => c.2.path == 2#2 && portOf { s with tk := e.2 } c.2 == port) then (place e.2.vf).map (fun k => (e.2.vf, k)) else none)
  let rest := s.dev.nodes.filterMap (fun e =>
    if e.2.kind == 1 && e.2.resume then
      match place e.2.vf, (e.2.obj.bind (fun o => o.variants[e.2.vidx]?)).map (fun v => v.chans) with
      | some k, some cs => if cs.any (fun c => ceDest c / 2 ^ 30 == 1 && field c 2 1 == k) then some (e.2.vf, k) else none
      | _, _ => none
    else none)
  (run ++ rest).eraseDups

def execLinkTraining (port width rtt : Nat) (s : State) : Host.Outcome State Fault Refusal :=
  .next (onDev (fun d => setPort port (trained width rtt (getPort d port)) d) s)

/-- A port that loses a lane retrains, or goes down: the VFs whose tasks use it are told (R53, log 48). -/
def execLaneLoss (port width rtt : Nat) (s : State) : Host.Outcome State Fault Refusal :=
  let s1 := onDev (fun d => setPort port (trained width rtt (getPort d port)) d) s
  if portWidth width = 0 then
    .next ((portUsers s port).foldl (fun t e => report e.1 { record0 12 with place := w64 e.2 } t) (loupeUa port 2 0 0 s1))
  else .next (loupeUa port 1 0 0 (onDev (fun d => setPort port { getPort d port with retrain := (getPort d port).retrain + 1#16 } d) s1))

/-- The link layer replays, and holds the skid buffer until it is done (R64, R71). -/
def execLinkReplay (port : Nat) (hold : Bool) (s : State) : Host.Outcome State Fault Refusal :=
  .next (onDev (fun d =>
    let p := getPort d port
    setPort port (if hold then { p with held := true, replay := p.replay + 1#64 } else { p with held := false }) d) s)

/-- Whether the link holds back what a port's skid buffer holds (R62): the port is down, replays, or lacks flow-control credits. -/
def skidHeld (p : Port) : Bool := !p.up || p.held || p.dry

/-- The link accepts the oldest message of the skid buffer (R62).  A port that is down keeps what it holds: a task uses a port until
every message it has sent over it has left the skid buffer, even after its end (R64, R422). -/
def execSkidSend (port : Nat) (s : State) : Host.Outcome State Fault Refusal :=
  let p := getPort s.dev port
  match p.skid with
    | [] => .next s
    | q :: qs =>
      if skidHeld p then .next s
      else .next (onDev (fun d => { setPort port { p with skid := qs } d with outbox := d.outbox ++ [.message port q.m] }) s)

/-! ### Receivers (R56, R141, R437) -/

/-- Where a receiver or sender is: a task, a saved member's image (its VF and slot 0, node and member), nowhere yet, or gone. -/
inductive Where where
  | task (tid : Nat)
  | image (vf : Nat) (slot : Nat × Nat) (node member : Nat)
  | later
  | gone
  deriving DecidableEq, Repr

/-- Where member `i` of a node is. -/
def memberWhere (s : State) (node : Nat) (x : Node) (i : Nat) : Where :=
  match x.members[i]? with
  | none => .gone
  | some m =>
    if m.done then .gone
    else if m.saved then
      match slotPlaces (getVf s.dev x.vf) m.slots with
      | sl :: _ => .image x.vf sl node i
      | [] => .gone
    else if (tabFind s.tasks m.tid).isSome then .task m.tid
    else .later

/-- The place of a destination code (R141). -/
def findDest (s : State) (dst : Nat) : Where :=
  if dst < 2 ^ 40 then
    match tabFind s.dev.nodes (dst / 2048) with
    | some x => memberWhere s (dst / 2048) x (dst % 2048)
    | none => .gone
  else
    let v := dst / 2 ^ 25 % 1024
    let gid := dst / 2 ^ 11 % 2 ^ 14
    match s.dev.nodes.find? (fun e => e.2.vf == v && e.2.kind == 1 && e.2.task.gid == gid && (e.2.st == .running || e.2.resume)) with
    | some e => memberWhere s e.1 e.2 (dst % 2048)
    | none => if (getVf s.dev v).state = 0 ∨ (getVf s.dev v).state = 5 then .gone else .later

/-- What becomes of a message of a channel whose next number is `e` (R56). -/
inductive Landing' where
  | store | repeated | fault
  deriving DecidableEq, Repr

def judge (m : Msg) (e : BitVec 32) (held : Option Nat) : Landing' :=
  let d := (BitVec.ofNat 32 m.seq - e).toNat
  if m.bad || decide (m.kind ≥ 2) then .fault
  else if d ≥ 2 ^ 31 then .repeated
  else if d ≥ 16 then .fault
  else if held = some (m.seq % 2 ^ 32) then .repeated
  else .store

/-- Counts a discarded message at its port (R56). -/
def countReplay (port : Nat) (s : State) : State :=
  if port < 72 then onDev (fun d => setPort port { getPort d port with replay := (getPort d port).replay + 1#64 } d) s else s

/-- A sequence fault at a port (R259). -/
def loupeSeq (port ch part : Nat) (s : State) : State := if port < 72 then loupeUa port 5 ch part s else s

/-- A message as a landing slot holds it. -/
def landed (m : Msg) : Landed := ⟨m.stamp, m.seq, m.kind == 1, m.payload, m.src⟩

/-- A message reaches a task's channel (R56).  One whose DCH names no receive entry is dropped, uncounted: the manual does not say what becomes
of it (DESIGN CHOICE, log 59). -/
def landAtTask (tid : Nat) (m : Msg) (s : State) : State :=
  match tabFind s.tasks tid with
  | none => s
  | some t =>
    let c := tabGet chanOff t.chans m.dch
    if c.path = 3#2 ∨ !c.recv then s
    else
      let put (c : Chan) := onTask tid (fun t => { t with chans := tabSet chanOff t.chans m.dch c }) s
      match judge m c.seq ((tabFind c.slots (m.seq % 16)).map (·.seq)) with
      | .store => put { c with slots := tabPut c.slots (m.seq % 16) (landed m) }
      | .repeated => countReplay m.port s
      | .fault => loupeSeq m.port m.dch (getVf s.dev t.vf).part (put { c with fault := some (c.fault.getD m.seq) })

/-- The channel descriptor of a saved header and the landing slot of number `seq`, in what has been read. -/
def imageChan (im : Tab Byte) (sl : Nat × Nat) (n : Nat) : Nat := leNat (slotRead im sl (hdrOff + 0x100 + 16 * n) 16)
def imageSlot (im : Tab Byte) (sl : Nat × Nat) (n seq : Nat) : Nat := leNat (slotRead im sl (entOff + 128 * n + 8 * (seq % 16)) 8)

/-- Asks for the channel descriptor and a landing slot of a saved member. -/
def askChan (why : JobFor) (v : Nat) (sl : Nat × Nat) (n seq : Nat) (s : State) : State × Tab Byte × Bool :=
  askSlots why [] v [(sl, hdrOff + 0x100 + 16 * n, 16), (sl, entOff + 128 * n + 8 * (seq % 16), 8)] s

/-- A message of this package reaches a saved member, whose channel has been read: it is written into its image (R437).  One whose
channel cannot be read goes to no one (log 54). -/
def landInImage (v : Nat) (sl : Nat × Nat) (node i : Nat) (m : Msg) (s : State) : State :=
  let a := askChan (.message (16 * sl.2 + m.seq % 16) m.dch) v sl m.dch m.seq s
  let c := imageChan a.2.1 sl m.dch
  if !a.2.2 || c / 2 ^ 89 % 4 == 3 || c / 2 ^ 88 % 2 == 0 then a.1
  else
    let e := BitVec.ofNat 32 c
    let held := imageSlot a.2.1 sl m.dch m.seq
    match judge m e (if held / 2 ^ 63 = 1 then some ((e.toNat + (m.seq % 16 + 16 - e.toNat % 16) % 16) % 2 ^ 32) else none) with
    | .store => keepMsg 0 v sl m.dch (m.seq % 16) (landed m)
        (onMember node i (fun x => { x with srcs := tabPut x.srcs (16 * m.dch + m.seq % 16) m.src }) a.1)
    | .repeated => countReplay m.port a.1
    | .fault => loupeSeq m.port m.dch (getVf s.dev v).part
        (onMember node i (fun x => { x with faults := if (tabFind x.faults m.dch).isSome then x.faults else tabPut x.faults m.dch m.seq }) a.1)

/-- A message for a saved member waits while its channel is being read, or its node is being resumed. -/
def mailImage (v : Nat) (sl : Nat × Nat) (node i : Nat) (m : Msg) (s : State) : State :=
  let why := JobFor.message (16 * sl.2 + m.seq % 16) m.dch
  let t := if readsImage s.dev node then s else attempt why (landInImage v sl node i m) s
  if readsImage s.dev node || (findJob t.dev why []).isSome then onDev (fun d => { d with mail := d.mail ++ [m] }) t else t

/-- A credit reaches the image of a saved sender, whose channel has been read (R437). -/
def creditImage (v : Nat) (sl : Nat × Nat) (ch : Nat) (s : State) : State :=
  let a := askChan (.credit sl.2 ch) v sl ch 0 s
  let c := imageChan a.2.1 sl ch
  let n := c / 2 ^ 48 % 32
  if !a.2.2 || c / 2 ^ 89 % 4 == 3 || c / 2 ^ 88 % 2 == 1 || decide (n ≥ 16) then a.1
  else slotWrite 0 v sl (hdrOff + 0x100 + 16 * ch + 6) (natLe 1 (n + 1)) a.1

/-- A credit for a saved sender waits while its channel is being read, or its node is being resumed. -/
def mailCredit (v : Nat) (sl : Nat × Nat) (node dst ch : Nat) (s : State) : State :=
  let why := JobFor.credit sl.2 ch
  let t := if readsImage s.dev node then s else attempt why (creditImage v sl ch) s
  if readsImage s.dev node || (findJob t.dev why []).isSome then onDev (fun d => { d with credits := d.credits ++ [(dst, ch)] }) t else t

/-- Bytes of a landing buffer (R62), and those that a message takes. -/
def landingBytes : Nat := 65536
def msgBytes (m : Msg) : Nat := 16 + m.payload.length

/-- The messages that a port's landing buffer holds (R62): of those listed, the first that fit; the link holds the others back at the peer,
for want of link credits. -/
def buffered : Nat → List Msg → List Msg
  | _, [] => []
  | n, m :: ms => if n + msgBytes m ≤ landingBytes then m :: buffered (n + msgBytes m) ms else []

/-- Whether a port's landing buffer takes one more message. -/
def landingRoom (d : Dev) (m : Msg) : Bool :=
  decide ((getPort d m.port).landing.foldl (fun a x => a + msgBytes x) 0 + msgBytes m ≤ landingBytes)

/-- A message from a port waits to be delivered (R141). -/
def waitLanding (m : Msg) (s : State) : State :=
  if m.port < 72 then onDev (fun d => setPort m.port { getPort d m.port with landing := (getPort d m.port).landing ++ [m] } d) s else s

/-- A message leaves its port's landing buffer. -/
def leaveLanding (m : Msg) (s : State) : State :=
  if m.port < 72 then onDev (fun d => setPort m.port { getPort d m.port with landing := (getPort d m.port).landing.erase m } d) s else s

/-- A message that is taken out of its port's landing buffer carries the port's number plus this. -/
def fromLanding : Nat := 128

/-- A message is delivered, or goes on waiting (R56, R141, R437). -/
def deliver (x : Msg) (s : State) : State :=
  match findDest s x.dst with
  | .task tid => landAtTask tid x s
  | .image v sl node i => if x.port < 72 then waitLanding x s else mailImage v sl node i x s
  | .later => waitLanding x s
  | .gone => s

/-- A stream message arrives (R56, R62, R141, R437): from a tile of the package, from a port's peer, or out of the port's landing
buffer. -/
def execMessageLanding (x : Msg) (s : State) : Host.Outcome State Fault Refusal :=
  .next (if fromLanding ≤ x.port then
      let m := { x with port := x.port - fromLanding }
      if (buffered 0 (getPort s.dev m.port).landing).contains m then deliver m (leaveLanding m s) else s
    else if x.port < 72 && !landingRoom s.dev x then waitLanding x s
    else deliver x s)

/-- A credit comes back to its sender's descriptor (R63), or to the image of a saved sender; that of a task that has ended goes to no one
(R422), so a code that names no launch of a gang returns nothing. -/
def execCreditReturn (t ch : Nat) (s : State) : Host.Outcome State Fault Refusal :=
  .next (match (if t < 2 ^ 40 then findDest s t else .gone) with
    | .task tid => onTask tid (fun k =>
        let c := tabGet chanOff k.chans ch
        if c.path = 3#2 ∨ c.recv ∨ c.cred.toNat ≥ 16 then k
        else { k with chans := tabSet chanOff k.chans ch { c with cred := c.cred + 1 } }) s
    | .image v sl node _ => mailCredit v sl node t ch s
    | _ => s)

/-- Whether the receiver of a waiting message is there. -/
def deliverable (s : State) (m : Msg) : Bool :=
  match findDest s m.dst with
  | .task _ => true
  | .gone => true
  | _ => false

/-! ### Remote requests (R52, R107, R128) -/

/-- Whether a UALink port takes a remote operation (R52): a read, a write, or an atomic of chapter 13.  The manual does not say which of the six
UALink also defines: all are taken (DESIGN CHOICE, log 58). -/
def remoteOp (op : MemOp) : Bool :=
  match op with
  | .combine _ _ => false
  | _ => true

/-- A remote request is queued at the home ports of its bytes; one that a port does not take, or for a VF that has no translation, is
answered with an error. -/
def execRemoteRequest (x : RemoteReq) (s : State) : Host.Outcome State Fault Refusal :=
  let atomic := x.op != .read && x.op != .write
  if !remoteOp x.op || !vfLive s.dev x.vf || x.size = 0 || decide (256 < x.size) || (atomic && (x.size != 8 || x.ipa % 8 != 0)) then
    .next (onDev (fun d => { d with outbox := d.outbox ++ [.reply x.port false []] }) s)
  else
    let id := s.nextId
    let rs := (piecesOf x.ipa x.size).map (fun p => (⟨id, p.1, .remote x.port x.vf x.src, x.vf, .ipa x.vf p.2.1, p.2.2, x.op,
      if atomic then x.data else (x.data.drop p.1).take p.2.2, w64 p.2.1, false, false⟩ : Req))
    let r : Reply := ⟨.remote x.port x.vf x.src, if x.op = .write then 0 else x.size, rs.length, [], [], false⟩
    .next { s with nextId := id + 1, replies := tabPut s.replies id r, reqs := s.reqs ++ rs }

end Sys2Proof.Machine
end

