-- ==== Sys2Proof/Machine/Commands.lean ====
section
/-!
DEFINITION. Configuration commands, firmware and keys, device reset and power-on (R39, R86, R88 to R93, R103 to R106, R144, R159).
-/

namespace Sys2Proof.Machine

/-! ### The command interface (R88) -/

def onCfg (f : Cfg → Cfg) (s : State) : State := onDev (fun d => { d with cfg := f d.cfg }) s

/-- The command completes with an outcome. -/
def endCmd (code : Nat) (s : State) : State := onCfg (fun c => { c with busy := false, code := code }) s

/-- A command either changes the state and completes with CODE 0, or fails with a CODE and changes nothing. -/
abbrev Command := Except Nat State

def runCommand (s : State) (c : Command) : Host.Outcome State Fault Refusal :=
  .next (match c with
    | .ok t => endCmd 0 t
    | .error n => endCmd n s)

/-- A condition that a command asks, and its CODE. -/
def need (ok : Bool) (code : Nat) : Except Nat Unit := if ok then .ok () else .error code

/-- No bit outside the named fields of the arguments is set (R89). -/
def argsIn (c : Cfg) (m0 m1 m2 m3 : Word) : Bool :=
  c.a0 &&& ~~~m0 == 0#64 && c.a1 &&& ~~~m1 == 0#64 && c.a2 &&& ~~~m2 == 0#64 && c.a3 &&& ~~~m3 == 0#64

/-- Whether a partition exists. -/
def partExists (d : Dev) (p : Nat) : Bool := d.parts.getLsbD p

/-! ### Partitions (R89) -/

def execPcreate (s : State) : Host.Outcome State Fault Refusal :=
  let c := s.dev.cfg
  let p := fieldN c.a0 0 6
  runCommand s (do
    need (argsIn c 0x3F#64 0#64 0#64 0#64 && decide (p < 48)) 2
    need (!partExists s.dev p) 3
    .ok (onDev (fun d => { d with parts := d.parts ||| (1#48 <<< p) }) s))

/-- Whether a partition owns anything, or awaits a quarantined frame. -/
def partOwns (d : Dev) (p : Nat) : Bool :=
  d.vfs.any (fun e => e.2.state != 0 && e.2.part == p) || d.cols.any (fun e => e.2 == p + 1) || d.dsmOwn.any (fun e => e.2 == p + 1)
    || d.frames.any (fun e => e.2.pool == p + 1 || e.2.quar == p + 2) || d.shares.any (fun e => e.1 % 64 == p)
    || d.ports.any (fun e => e.2.ctx.any (fun c => c.2.v && c.2.part == p)) || d.trust.slots.any (fun e => e.2.part == p)

def execPdestroy (s : State) : Host.Outcome State Fault Refusal :=
  let c := s.dev.cfg
  let p := fieldN c.a0 0 6
  runCommand s (do
    need (argsIn c 0x3F#64 0#64 0#64 0#64 && decide (p < 48)) 2
    need (partExists s.dev p) 4
    need (!partOwns s.dev p) 3
    .ok (onDev (fun d => { d with parts := d.parts &&& ~~~(1#48 <<< p) }) s))

/-- Whether everything of `keys` may go to partition `p`, or come back from it, by the owners in `t`. -/
def mayAssign (t : Tab Nat) (assign : Bool) (p : Nat) (keys : List Nat) : Bool :=
  keys.all (fun k => tabGet 0 t k == p + 1 || (assign && tabGet 0 t k == 0))

/-- The owners after an assignment or a return. -/
def assigned (t : Tab Nat) (assign : Bool) (p : Nat) (keys : List Nat) : Tab Nat :=
  keys.foldl (fun t k => tabSet 0 t k (if assign then p + 1 else 0)) t

def execColassign (s : State) : Host.Outcome State Fault Refusal :=
  let c := s.dev.cfg
  let die := fieldN c.a0 0 3
  let tile := fieldN c.a0 8 8
  let p := fieldN c.a0 24 6
  let assign := c.a0.getLsbD 31
  let keys := ((List.range 4).filter (fun i => c.a0.getLsbD (16 + i))).map (colKey die tile)
  runCommand s (do
    need (argsIn c 0xBF0FFF07#64 0#64 0#64 0#64 && decide (p < 48) && !(Config.classT die tile && c.a0.getLsbD 19)) 2
    need (!assign || partExists s.dev p) 4
    need (mayAssign s.dev.cols assign p keys && keys.all (fun k => !(busyColumns s).contains k)) 3
    .ok (wakeForbidden (onDev (fun d => { d with cols := assigned d.cols assign p keys }) (accrueCols s))))

/-- The DSM banks that DSMASSIGN names, by die × 64 + bank. -/
def dsmKeys (c : Cfg) : List Nat := (List.range (fieldN c.a0 16 6 + 1)).map (fun i => fieldN c.a0 0 3 * 64 + fieldN c.a0 8 6 + i)

/-- Whether a VF of partition `p` has a buffer in one of the banks (R117). -/
def banksUsed (s : State) (p : Nat) (keys : List Nat) : Bool :=
  s.dev.vfs.any (fun e => e.2.state != 0 && e.2.state != 5 && e.2.part == p &&
    (List.range 65536).any (fun i =>
      let b := btEntry s e.1 i
      decide (i ≥ 16) && eV b && eDsm b && (dsmBanks b).any (fun k => keys.contains (eBase b / 2 ^ 27 % 8 * 64 + k))))

/-- DSMASSIGN: banks that are returned stay their partition's, and the command runs on, until they are cleared. -/
def execDsmassign (s : State) : Host.Outcome State Fault Refusal :=
  let c := s.dev.cfg
  let p := fieldN c.a0 24 6
  let assign := c.a0.getLsbD 31
  let keys := dsmKeys c
  let checks : Except Nat Unit := do
    need (argsIn c 0xBF3F3F07#64 0#64 0#64 0#64 && decide (p < 48) && decide (fieldN c.a0 8 6 + fieldN c.a0 16 6 < 64)) 2
    need (!assign || partExists s.dev p) 4
    need (mayAssign s.dev.dsmOwn assign p keys && (assign || !banksUsed s p keys)) 3
  match checks with
  | .error n => .next (endCmd n s)
  | .ok _ =>
    if assign then .next (endCmd 0 (wakeForbidden (onDev (fun d => { d with dsmOwn := assigned d.dsmOwn true p keys }) s)))
    else .next s

/-- The returned banks are zero, and unowned from now on. -/
def execDsmBankClearDone (s : State) : Host.Outcome State Fault Refusal :=
  let c := s.dev.cfg
  let keys := dsmKeys c
  let inBank (k : Nat) : Bool := keys.any (fun b => k / 2 ^ 21 == (2 ^ 42 + b / 64 * 2 ^ 27 + b % 64 * 2 ^ 21) / 2 ^ 21)
  .next (endCmd 0 (wakeForbidden (onDev (fun d => { d with dsmOwn := assigned d.dsmOwn false 0 keys })
    { s with mem := s.mem.filter (fun e => !inBank e.1) })))

/-! ### Frames, shares and credit (R89, R93) -/

/-- The frames that POOLADD or POOLREM names. -/
def poolRange (c : Cfg) : List Nat := (List.range c.a2.toNat).map (c.a1.toNat + ·)

/-- The arguments of POOLADD and POOLREM are good: a count of 0 and a range past the frames of a stack give CODE 2, and a stack that is not up
CODE 4, which R89 does not state (DESIGN CHOICE, log 63). -/
def poolArgs (c : Cfg) : Bool :=
  argsIn c 0x3F1F#64 0xFFFF#64 0x1FFFF#64 0#64 && decide (fieldN c.a0 8 6 < 48) && decide (1 ≤ c.a2.toNat)
    && decide (c.a1.toNat + c.a2.toNat ≤ 65536)

def execPooladd (s : State) : Host.Outcome State Fault Refusal :=
  let c := s.dev.cfg
  let n := fieldN c.a0 0 5
  let p := fieldN c.a0 8 6
  runCommand s (do
    need (poolArgs c) 2
    need (partExists s.dev p && (getStack s.dev n).up) 4
    need ((poolRange c).all (fun fr =>
      let f := getFrame s.dev n fr
      !f.spare && f.quar == 0 && f.own == 0 && f.pool == 0)) 3
    .ok ((poolRange c).foldl (fun t fr => onFrame n fr (fun f => { f with pool := p + 1 }) t) s))

def execPoolrem (s : State) : Host.Outcome State Fault Refusal :=
  let c := s.dev.cfg
  let n := fieldN c.a0 0 5
  let p := fieldN c.a0 8 6
  runCommand s (do
    need (poolArgs c) 2
    need (partExists s.dev p && (poolRange c).all (fun fr => (getFrame s.dev n fr).pool == p + 1)) 4
    need ((poolRange c).all (fun fr => (getFrame s.dev n fr).own == 0)) 3
    .ok ((poolRange c).foldl (fun t fr => onFrame n fr (fun f => { f with pool := 0 }) t) s))

/-- Whether a task of `p` is placed, running or suspended, or a collective card of `p` runs. -/
def portsInUse (d : Dev) (p : Nat) : Bool :=
  d.nodes.any (fun e => (getVf d e.2.vf).part == p &&
    ((e.2.kind == 1 && (e.2.st == .placed || e.2.st == .running || e.2.st == .suspended)) || (e.2.kind == 3 && e.2.st == .running)))

def execUashare (s : State) : Host.Outcome State Fault Refusal :=
  let c := s.dev.cfg
  let port := fieldN c.a0 0 7
  let p := fieldN c.a0 8 6
  let key := port * 64 + p
  runCommand s (do
    need (argsIn c 0x3F7F#64 0xFFFF#64 0#64 0#64 && decide (p < 48) && decide (port < 72)) 2
    need (partExists s.dev p) 4
    need ((tabGet 0 s.dev.shares key == 0) == (c.a1.toNat == 0) || !portsInUse s.dev p) 3
    .ok (onDev (fun d => { d with shares := tabSet 0 d.shares key c.a1.toNat }) s))

/-- CREDIT (R93); a negative amount may leave the account below zero. -/
def execCredit (s : State) : Host.Outcome State Fault Refusal :=
  let c := s.dev.cfg
  let v := fieldN c.a0 0 10
  runCommand s (do
    need (argsIn c 0x3FF#64 (BitVec.allOnes 64) 0#64 0#64) 2
    need ((getVf s.dev v).state != 0) 4
    .ok (quotaCheck v (addAcct v c.a1.toInt s)))

/-! ### Virtual functions (R90 to R92) -/

/-- An untranslated address that names a 2 MiB frame (R116). -/
def frameAddrOk (a : Word) : Bool := a &&& 0xF81FFFE00000#64 == a

/-- Stack and frame of such an address. -/
def frameAddr (a : Word) : Nat × Nat := (fieldN a 43 5, fieldN a 21 16)

/-- A free frame of `p`'s pool. -/
def inPool (d : Dev) (p n fr : Nat) : Bool :=
  let f := getFrame d n fr
  f.pool == p + 1 && f.own == 0 && f.quar == 0 && !f.spare

/-- VCREATE (R90).  Of several failures of a command the first in the order of its checks gives the CODE: the manual states no priority (DESIGN
CHOICE, log 64). -/
def execVcreate (s : State) : Host.Outcome State Fault Refusal :=
  let c := s.dev.cfg
  let v := fieldN c.a0 0 10
  let p := fieldN c.a0 16 6
  let prot := c.a0.getLsbD 32
  let cust := c.a0.getLsbD 33
  let slot := fieldN c.a0 40 8
  let bt := frameAddr c.a1
  let sv := frameAddr c.a2
  let saves := (List.range 512).map (sv.2 + ·)
  runCommand s (do
    need (argsIn c 0xFFFFFF03073F03FF#64 0xFFFFFFFFFFFF#64 0xFFFFFFFFFFFF#64 (BitVec.allOnes 64) && decide (p < 48)
      && frameAddrOk c.a1 && frameAddrOk c.a2 && fieldN c.a3 0 2 == 0) 2
    need ((getVf s.dev v).state == 0) 3
    need (partExists s.dev p) 4
    need (inPool s.dev p bt.1 bt.2 && decide (sv.2 + 512 ≤ 65536) && saves.all (fun fr => inPool s.dev p sv.1 fr)
      && !(sv.1 == bt.1 && saves.contains bt.2)) 5
    need (!(prot && cust) && (!prot || ((tabFind s.dev.trust.slots slot).map (·.part)) == some p)) 6
    let q : Vf := { vfAbsent with
      part := p, state := 1, die := fieldN c.a0 24 3, prot := prot, cust := cust, slot := slot, msiData := fieldN c.a0 48 16
      msiAddr := c.a3, btStack := bt.1, btFrame := bt.2, svStack := sv.1, svFrame := sv.2 }
    let t := saves.foldl (fun t fr => onFrame sv.1 fr (fun f => { f with own := v + 1, use := .save }) t)
      (onFrame bt.1 bt.2 (fun f => { f with own := v + 1, use := .table }) s)
    .ok (onVf v (fun _ => q) (zeroRange bt.1 (remapFrame s.dev bt.1 bt.2 * 2 ^ 21) (2 ^ 21) t)))

/-- The nodes of a VF. -/
def vfNodes (d : Dev) (v : Nat) : List Nat := (d.nodes.filter (fun e => e.2.vf == v)).map Prod.fst

/-- Withdraws every collective membership of a VF (R70); a card that has not joined its collective joins it first. -/
def withdrawAll (v : Nat) (s : State) : State :=
  (s.dev.nodes.filter (fun e => e.2.vf == v && e.2.kind == 3 && e.2.st == .running)).foldl (fun t e =>
    withdraw e.2 (if e.2.cst.phase = 0 then joinColl e.1 e.2 t else t)) s

/-- VRESET (R92, R159): RESETTING, nodes and tasks cancelled with STATUS 3, unparsed images discarded; a VF in RESET is left as it is. -/
def execVreset (s : State) : Host.Outcome State Fault Refusal :=
  let c := s.dev.cfg
  let v := fieldN c.a0 0 10
  let q := getVf s.dev v
  if !argsIn c 0x3FF#64 0#64 0#64 0#64 then .next (endCmd 2 s)
  else if q.state = 0 then .next (endCmd 4 s)
  else if q.state = 5 then .next (endCmd 0 s)
  else
    let t := onVf v (fun q => { q with state := 4, rstep := 0, subs := [], gscred := 64, chain := [], objects := 0 }) s
    .next (cancelNodes 3 (vfNodes t.dev v) t)

/-- Whether the next step of a VF's reset can be taken (R92): its tasks have ended; its cards have completed, which they do only after
the withdrawals have been delivered; its leases have been given back. -/
def vresetDue (s : State) (v : Nat) : Bool :=
  let q := getVf s.dev v
  let ns := s.dev.nodes.filter (fun e => e.2.vf == v)
  q.state == 4 && (match q.rstep with
    | 0 => ns.all (fun e => e.2.kind != 1)
    | 1 => ns.isEmpty
    | _ => !(s.dev.releases.any (fun r => r.vf == v || (match r.what with
        | .inr f => f.vf == v
        | .inl _ => false))))

/-- Every frame of a VF passes to the Polisher, bound for its partition's pool. -/
def releaseFrames (v : Nat) (s : State) : State :=
  (s.dev.frames.filter (fun e => e.2.own == v + 1)).foldl (fun t e =>
    quarantine (e.1 / 65536) (e.1 % 65536) (some (getVf s.dev v).part) t) s

/-- The leases that a VF's reset has kept to the last are released (R159). -/
def releaseLate (v : Nat) (s : State) : State :=
  (s.dev.late.filter (fun e => e.2.vf == v)).foldl (fun t e => giveBack e.1 e.2 t)
    (onDev (fun d => { d with late := d.late.filter (fun e => e.2.vf != v) }) s)

/-- A split of a frame of VF `v`. -/
def splitOf (v : Nat) (j : Job) : Bool :=
  match j.why with
  | .split w _ _ => w == v
  | _ => false

/-- The last step of a VF reset (R92): pulls into the VF's frames fail, splits of them stop, its frames leave it, a type 14 record, RESET. -/
def endVreset (v : Nat) (s : State) : State :=
  let s1 := dropJobs (splitOf v) ((s.dev.pulls.filter (fun e => e.2.vf == v)).foldl (fun t e => pullFails e.1 e.2 t) s)
  let s2 := onDev (fun d => { d with
    invals := d.invals.map (fun i => if i.vf = v then { i with vf := 1024, olds := [], copies := [] } else i)
    waits10 := d.waits10.filter (fun w => w.vf != v) }) (releaseFrames v s1)
  endCmd 0 (onVf v (fun q => { q with state := 5 }) (report v (record0 14) s2))

/-- The next of the steps of a VF reset that follow one another (R92, R159): its collectives are withdrawn, its leases released, and
the rest. -/
def execVresetComplete (v : Nat) (s : State) : Host.Outcome State Fault Refusal :=
  if !vresetDue s v then .next s
  else match (getVf s.dev v).rstep with
    | 0 => .next (withdrawAll v (onVf v (fun q => { q with rstep := 1 }) s))
    | 1 => .next (releaseLate v (onVf v (fun q => { q with rstep := 2 }) s))
    | _ => .next (endVreset v s)

def execVdestroy (s : State) : Host.Outcome State Fault Refusal :=
  let c := s.dev.cfg
  let v := fieldN c.a0 0 10
  runCommand s (do
    need (argsIn c 0x3FF#64 0#64 0#64 0#64) 2
    need ((getVf s.dev v).state == 5) 3
    .ok (onDev (fun d => { d with charges := d.charges.filter (fun e => e.1 / 128 != v), owed := tabSet 0 d.owed v 0 })
      (onVf v (fun _ => vfAbsent) s)))

/-- A write of VFSTAT (R94): 1 in DEG returns a DEGRADED VF to ACTIVE. -/
def execVfstatDegWrite (v : Nat) (w : BitVec 64) (s : State) : Host.Outcome State Fault Refusal :=
  .next (wakeHome v (onVf v (fun q => if w.getLsbD 7 ∧ q.state = 2 then { q with state := 1 } else q) s))

/-! ### Keys, certificate and attestation (R104 to R106) -/

/-- The transport key, where present. -/
def transportKey (d : Dev) : Option Nat := d.trust.transport

/-- IDOK (R85). -/
def idOk (d : Dev) : Bool := d.trust.identity && (transportKey d).isSome

/-- Starts reading `n` bytes of host memory for the command, or for the firmware (R83); no one
awaits those of an earlier command any more. -/
def startRead (why : ReadFor) (addr : Word) (off n : Nat) (s : State) : State :=
  hostRead why addr (n / 256 + 1) off n (onHost (fun h => { h with wants := [], reads := h.reads.map (fun e => (e.1, { e.2 with live := false })) }) (onCfg (fun c => { c with got := off + n, left := n, bad := false }) s))

/-- KEYLOAD (R106): its checks, then the wrapped key is read. -/
def execKeyload (s : State) : Host.Outcome State Fault Refusal :=
  let c := s.dev.cfg
  let p := fieldN c.a0 8 6
  let checks : Except Nat Unit := do
    need (argsIn c 0x3FFF#64 (BitVec.allOnes 64) 0#64 0#64 && decide (p < 48)) 2
    need (partExists s.dev p) 4
    need (tabFind s.dev.trust.slots (fieldN c.a0 0 8)).isNone 3
    need (transportKey s.dev).isSome 6
  match checks with
  | .error n => .next (endCmd n s)
  | .ok _ => .next (startRead .key c.a1 0 512 (onCfg (fun c => { c with buf := [] }) s))

/-- The wrapped key has been read. -/
def keyRead (s : State) : State :=
  let c := s.dev.cfg
  let slot := fieldN c.a0 0 8
  let p := fieldN c.a0 8 6
  if c.bad then endCmd 8 s
  else match transportKey s.dev with
    | none => endCmd 6 s
    | some k => match Config.unwrap k (tabBytes c.buf 0 512) with
      | none => endCmd 6 s
      | some m =>
        if field m 64 1 ≠ slot ∨ field m 65 1 ≠ p then endCmd 6 s
        else if (tabFind s.dev.trust.slots slot).isSome then endCmd 3 s
        else endCmd 0 (onDev (fun d => { d with trust := { d.trust with slots := tabPut d.trust.slots slot ⟨p, m.take 64⟩ } }) s)

/-- ATTEST (R105): its checks, then the nonce is read. -/
def execAttest (s : State) : Host.Outcome State Fault Refusal :=
  let c := s.dev.cfg
  let v := fieldN c.a0 0 10
  let checks : Except Nat Unit := do
    need (argsIn c 0x3FF#64 (BitVec.allOnes 64) (BitVec.allOnes 64) 0#64) 2
    need ((getVf s.dev v).state != 0) 4
    need (idOk s.dev) 6
  match checks with
  | .error n => .next (endCmd n s)
  | .ok _ => .next (startRead .nonce c.a1 0 64 (onCfg (fun c => { c with buf := [] }) s))

/-- M of a VF's measurement chain (R105). -/
def chainOf (q : Vf) : List Byte := if q.chain.isEmpty then List.replicate 64 0#8 else q.chain

/-- Bytes 0 to 735 of the report (R105). -/
def attestBody (d : Dev) (v k : Nat) (nonce : List Byte) : List Byte :=
  let q := getVf d v
  natLe 8 0x4558415454455354 ++ nonce ++ natLe 2 v ++ natLe 1 (bitN q.prot 0 + bitN q.cust 1) ++ List.replicate 5 0#8
    ++ (d.host.image ++ List.replicate 64 0#8).take 64 ++ chainOf q ++ natLe 8 q.objects ++ natLe 8 d.gtci ++ Config.modulus k

/-- The nonce has been read: the signed report is written. -/
def nonceRead (s : State) : State :=
  let c := s.dev.cfg
  let v := fieldN c.a0 0 10
  if c.bad then endCmd 8 s
  else match transportKey s.dev with
    | none => endCmd 6 s
    | some k =>
      if !s.dev.trust.identity then endCmd 6 s
      else
        let b := attestBody s.dev v k (tabBytes c.buf 0 64)
        endCmd 0 (hostWriteAll 1025 c.a2 (b ++ Config.signed b) s)

/-- IDCERT (R89, R104). -/
def execIdcert (s : State) : Host.Outcome State Fault Refusal :=
  let c := s.dev.cfg
  runCommand s (do
    need (argsIn c 0#64 (BitVec.allOnes 64) (BitVec.allOnes 64) 0#64) 2
    need (decide (Config.certificate.length ≤ c.a2.toNat)) 5
    .ok (hostWriteAll 1025 c.a1 Config.certificate s))

/-! ### Firmware (R103) -/

/-- Bytes of the image header. -/
def fwHeader : Nat := 1104

/-- Bytes of firmware that one chunk asks for. -/
def fwChunk : Nat := 65536

/-- Reads the next chunk of an image of `len` bytes of which `got` are in. -/
def fetchFirmware (got len : Nat) (s : State) : State := startRead .firmware s.dev.host.fwaddr got (min fwChunk (len - got)) s

/-- The fetch of an image begins with its header. -/
def beginFetch (s : State) : State := fetchFirmware 0 fwHeader (onCfg (fun c => { c with buf := [] }) s)

/-- A chunk of firmware is in: the rest is asked for, or the image is verified. -/
def firmwareRead (s : State) : State :=
  let c := s.dev.cfg
  let got := c.got
  let len := leNat (tabBytes c.buf 4 4)
  if !c.bad && decide (got < len) then fetchFirmware got len s
  else { onCfg (fun c => { c with buf := [] }) s with
    agenda := .event (.firmwareVerify (if c.bad then [] else tabBytes c.buf 0 (min got len))) :: s.agenda }

/-- Whether an image is accepted (R103). -/
def firmwareOk (floor : Nat) (b : List Byte) : Bool :=
  let modulus := (b.drop 16).take 512
  decide (fwHeader ≤ b.length) && Config.trusted (Config.sha512 modulus)
    && Config.verifies modulus (b.take 592) ((b.drop 592).take 512)
    && Config.sha512 (b.drop fwHeader) == (b.drop 528).take 64 && decide (floor ≤ field b 8 1)

/-- A stack leaves self refresh, and an unfinished clearing goes on from its record (R86, R400). -/
def resumeStack (s : State) (n : Nat) : State :=
  let t := onStack n (fun k => { k with selfref := false, freshAt := s.cyc }) s
  match (getStack s.dev n).clearing with
  | some f => loupePolisher n 3 f t
  | none => t

/-- The fetched image is verified (R103): a new transport key, the ports resume and READY sets; or FWERR and the alarm.  The reset is over then,
too: RESETTING and RST read 0 (DESIGN CHOICE, log 61). -/
def execFirmwareVerify (image : List (BitVec 8)) (s : State) : Host.Outcome State Fault Refusal :=
  let h := s.dev.host
  if firmwareOk h.fwfloor image then
    let t := s.dev.trust
    let floor := if field image 9 1 ≠ 0 then max h.fwfloor (min 63 (field image 8 1)) else h.fwfloor
    let s1 := onDev (fun d => { d with
      host := { h with fwfloor := floor, image := Config.sha512 image, ready := true, resetting := false, rst := false }
      trust := { t with transport := if t.idErased then none else some t.resets } }) s
    .next ((List.range 32).foldl resumeStack s1)
  else .next (alarm 3 (onHost (fun h => { h with fwerr := true, resetting := false, rst := false }) s))

/-! ### Resets (R39, R86) -/

/-- A stack as a device reset leaves it (R39, R50, R86). -/
def resetStack (k : Stack) : Stack :=
  { stack0 with
    up := k.up, binned := k.binned, ce := k.ce, ue := k.ue, ode := k.ode, pos := k.pos, blk := k.blk, spareFree := k.spareFree
    retired := k.retired, hot := k.hot, score := k.score, filt := k.filt, fresh := k.fresh, refPos := k.refPos, copying := k.copying
    queue := k.queue, prom := k.prom, clearing := k.clearing, written := k.recorded, recorded := k.recorded }

/-- Frames after a reset: those of VFs and those not yet cleared are quarantined, bound for no pool. -/
def resetFrames (s : State) : State :=
  let t := (s.dev.frames.filter (fun e => e.2.own != 0)).foldl (fun t e => quarantine (e.1 / 65536) (e.1 % 65536) none t) s
  t.dev.frames.foldl (fun t e => onFrame (e.1 / 65536) (e.1 % 65536) (fun f => { f with pool := 0, quar := min 1 f.quar }) t) t

/-- The device at the start of a reset (R86).  MODS stays, since a reset does not untrain a module (DESIGN CHOICE, log 62). -/
def resetDev (d : Dev) (cyc : Nat) : Dev :=
  { dev0 with
    hbm := d.hbm.map (fun e => (e.1, resetStack e.2))
    power := d.power.map (fun e => (e.1, ⟨0, cyc, none, cyc⟩))
    frames := d.frames, remap := d.remap, upsets := d.upsets, sealed' := d.sealed', outbox := d.outbox
    gtc := { gtc0 with adjAt := cyc }
    host := { host0 with
      powered := d.host.powered, binning := d.host.binning, mods := d.host.mods, fwaddr := d.host.fwaddr
      reads := d.host.reads.map (fun e => (e.1, { e.2 with live := false })), fwfloor := d.host.fwfloor, tag := d.host.tag, sent := d.host.sent, rst := d.host.rst }
    trust := { d.trust with slots := [], transport := none, resets := d.trust.resets + 1 } }

/-- A device reset (R86): everything ends, DSM is cleared, frames are quarantined, and firmware is fetched. -/
def resetDevice (s : State) : State :=
  let t := { (resetFrames (endAll s)) with mem := s.mem.filter (fun e => decide (e.1 < 2 ^ 42)) }
  let u := onDev (fun d => resetDev d s.cyc) t
  if u.dev.host.binning then u else beginFetch u

/-- Whether the device takes part in anything: it has power and the alarm does not hold it (R109). -/
def inService (d : Dev) : Bool := d.host.powered && !d.trust.hold

def execDeviceReset (s : State) : Host.Outcome State Fault Refusal :=
  if inService s.dev then .next (resetDevice (onHost (fun h => { h with rst := true }) s)) else .next s

def execSidebandReset (s : State) : Host.Outcome State Fault Refusal :=
  if inService s.dev then .next (resetDevice s) else .next s

/-- Package power is applied (R39, R104): the identity key is unwrapped, the stacks of `stk` train, and binning starts. -/
def execPackagePowerOn (stk : BitVec 32) (mods : BitVec 4) (s : State) : Host.Outcome State Fault Refusal :=
  let d := { dev0 with
    hbm := ((List.range 32).filter (fun n => stk.getLsbD n)).map (fun n => (n, { stack0 with up := true }))
    host := { host0 with powered := true, binning := true, mods := mods, fwfloor := s.dev.host.fwfloor, sent := s.dev.host.sent }
    trust := { trust0 with identity := true } }
  .next { State.reset with free := s.free, inputs := s.inputs, dev := d }

/-- A frame that binning marks is retired at once (R39, R41). -/
def retireNow (n fr : Nat) (s : State) : State :=
  if (tabFind s.dev.remap (n * 65536 + fr)).isSome then s
  else match freeSpare s.dev n fr with
    | none => loupePort n 5 fr 63 (onStack n (fun k => { k with exh := true }) s)
    | some sp =>
      let m := s.dev.remap.map (fun e => if e.1 / 65536 = n ∧ e.2 = fr then (e.1, sp) else e)
      loupePort n 4 fr 63 (onStack n (fun k => { k with spareFree := k.spareFree - (if isFreeSpare s.dev n fr then 2 else 1), retired := k.retired + 1 })
        (onDev (fun d => { d with remap := tabPut m (n * 65536 + fr) sp }) s))

/-- What binning found in one row (R39). -/
def binRow (s : State) (r : BinnedRow) : State :=
  let p := blockAddr r.bank r.row 0
  if r.lost = 0 then
    retireNow r.stack (p / 2 ^ 21) (loupePort r.stack 6 p 63 (onStack r.stack (lastError 3 63 p) s))
  else onStack r.stack (insertRow r.bank r.row (if r.lost = 1 then 0 else 1)) s

/-- Binning is done (R39): the filters are filled and failing frames retired; then the first firmware is fetched. -/
def execBinningComplete (rows : List BinnedRow) (s : State) : Host.Outcome State Fault Refusal :=
  if !s.dev.host.binning then .next s
  else
    let s1 := (rows.filter (fun r => (getStack s.dev r.stack).up)).foldl binRow s
    let s2 := onDev (fun d => { d with
      hbm := d.hbm.map (fun e => (e.1, { e.2 with binned := e.2.up })), host := { d.host with binning := false } }) s1
    .next (beginFetch s2)

end Sys2Proof.Machine
end

