-- ==== Sys2Proof/Machine/HostLink.lean ====
section
/-!
DEFINITION. The Host Link Protocol and the register windows (R17 to R21, R25, R50, R51, R71, R73, R78 to R88, R94, R108, R109).
-/

namespace Sys2Proof.Machine

/-! ### Transactions (R79, R80) -/

/-- A transaction is discarded and counted in HLPERR (R80). -/
def discard (s : State) : State := onHost (fun h => { h with hlperr := h.hlperr + 1#64 }) s

/-- The header of a request is bad (R79, R80): its type, a bit that must be zero, or its function. -/
def badRequest (type : Nat) (x : Hlp) : Bool :=
  x.type != type || x.zero || x.status != 0 || decide (x.len ≥ 32) || decide (x.tag ≥ 4096) || decide (x.func > 1024)

/-- The header of a completion is bad: like any transaction from the host, it carries no FUNC above 1,024, though it answers the
device's own traffic (R80, log 30). -/
def badCompletion (type : Nat) (x : Hlp) : Bool :=
  x.type != type || x.zero || x.addr != 0#64 || decide (x.len ≥ 32) || decide (x.tag ≥ 4096) || decide (x.func > 1024)

/-- A register access is bad (R80). -/
def badAccess (x : Hlp) : Bool := x.len != 0 || x.addr.toNat % 8 != 0 || (decide (x.func < 1024) && decide (x.addr.toNat ≥ 4096))

/-- The offset in the PF window of a register access (R82, R84). -/
def windowOff (x : Hlp) : Nat := if x.func = 1024 then x.addr.toNat else 0x01000000 + 0x1000 * x.func + x.addr.toNat

/-- The device block and the security block, through the PF window. -/
def earlyBlock (x : Hlp) : Bool := x.func == 1024 && (x.addr.toNat / 65536 == 0 || x.addr.toNat / 65536 == 7)

/-- A completion of a failed read (R83). -/
def completeBad (x : Hlp) (status : Nat) (s : State) : State := sendHost ⟨0x08, 0, x.tag, x.func, status, 0#64, false, []⟩ s

/-! ### Registers that the host reads -/

/-- TCLS word `w` of a die (R25). -/
def tclsWord (die w : Nat) : Nat := (List.range 64).foldl (fun a b => a + bitN (Config.classT die (64 * w + b)) b) 0

/-- Device block (R85). -/
def readDevice (d : Dev) (o : Nat) : Nat :=
  let h := d.host
  if o = 0x00 then 0x94080003 + Config.revn % 256 * 256
  else if o = 0x08 then
    h.mods.toNat * 256 + bitN d.trust.hold 5 + bitN (idOk d) 4 + bitN h.fwerr 3 + bitN h.resetting 2 + bitN h.binning 1 + bitN h.ready 0
  else if o = 0x10 then bitN h.rst 0
  else if o = 0x18 then h.fwaddr.toNat
  else if o = 0x20 then h.fwfloor
  else if o = 0x28 then h.hlperr.toNat
  else 0

/-- Configuration commands (R88).  R88 gives ARG0 to ARG3 neither an access code nor a reset value: here they read back the last value
written, and 0 after reset (log 10). -/
def readConfig (d : Dev) (o : Nat) : Nat :=
  let c := d.cfg
  if o = 0x00 then c.arg0.toNat
  else if o = 0x08 then c.arg1.toNat
  else if o = 0x10 then c.arg2.toNat
  else if o = 0x18 then c.arg3.toNat
  else if o = 0x30 then bitN c.busy 63 + bitN c.ovr 62 + c.code
  else 0

/-- Power and telemetry (R17 to R21, R24, R25). -/
def readPower (d : Dev) (o : Nat) : Nat :=
  if o = 0x000 then d.plim
  else if o = 0x008 then bitN d.fast 50 + bitN d.therm 49 + d.epoch.toNat * 2 ^ 16 + d.pkgw % 2 ^ 16
  else if 0x040 ≤ o ∧ o < 0x080 then
    let x := getDie d ((o - 0x040) / 8)
    x.grant % 2 ^ 16 * 2 ^ 32 + x.cap
  else if 0x100 ≤ o ∧ o < 0x200 then
    let x := getStack d ((o - 0x100) / 8)
    x.grant % 2 ^ 16 * 2 ^ 32 + x.budget
  else if 0x400 ≤ o ∧ o < 0x580 then tabGet 2 d.ltol ((o - 0x400) / 8)
  else if 0x800 ≤ o ∧ o < 0x900 then tclsWord ((o - 0x800) / 32) ((o - 0x800) / 8 % 4)
  else if 0x900 ≤ o ∧ o < 0x940 then (getDie d ((o - 0x900) / 8)).temp.toNat
  else if 0x980 ≤ o ∧ o < 0xA80 then (getStack d ((o - 0x980) / 8)).temp.toNat
  else 0

/-- The port of stack `n` (R50, R51). -/
def readStack (d : Dev) (n o : Nat) : Nat :=
  let k := getStack d n
  if o = 0x00 then k.hot.length * 2 ^ 16 + bitN k.selfref 2 + bitN k.binned 1 + bitN k.up 0
  else if o = 0x08 then k.ce.toNat
  else if o = 0x10 then k.ue.toNat
  else if o = 0x18 then k.errKind * 2 ^ 62 + k.errPart * 2 ^ 42 + k.errBlk % 2 ^ 31 * 64
  else if o = 0x20 then k.period
  else if o = 0x28 then k.pos
  else if o = 0x30 then bitN k.exh 40 + k.retired * 2 ^ 16 + k.spareFree
  else if o = 0x38 then k.thr.toNat
  else if o = 0x40 then k.ode.toNat
  else 0

/-- Global time (R73). -/
def readTime (s : State) (o : Nat) : Nat :=
  let g := s.dev.gtc
  if o = 0x00 then s.dev.gtci
  else if o = 0x08 then g.t / 2 ^ 24 % 2 ^ 16
  else if o = 0x10 then g.inc
  else if o = 0x18 then (g.slew / 2 ^ 24 % 2 ^ 48).toNat
  else if o = 0x20 then g.eb
  else if o = 0x28 then gtcErrb g s.cyc * 2 ^ 16 + bitN g.hold 2 + bitN (decide (g.slew ≠ 0)) 1 + bitN g.valid 0
  else 0

/-- A byte of the UARCTX registers as last written (R5, R71): the allotment of a context, or the one that takes effect when it frees. -/
def ctxByte (c : Ctx) : Nat :=
  match c.next with
  | some b => bitN (b.getLsbD 7) 7 + min 47 (fieldN b 0 6)
  | none => bitN c.v 7 + c.part

/-- UALink port `p` (R71). -/
def readPort (d : Dev) (p o : Nat) : Nat :=
  let x := getPort d p
  if o = 0x00 then x.retrain.toNat * 2 ^ 32 + x.width * 2 ^ 4 + bitN x.up 0
  else if o = 0x08 then x.latcal % 2 ^ 24 * 2 ^ 32 + x.rttmax % 2 ^ 32
  else if o = 0x10 then x.replay.toNat
  else if o = 0x18 then x.high * 2 ^ 16 + x.skid.length
  else if o = 0x20 then x.fall.toNat
  else if o = 0x28 then x.chk.toNat
  else if 0x40 ≤ o ∧ o < 0x80 then leNat ((List.range 8).map (fun j => BitVec.ofNat 8 (ctxByte (tabGet ctx0 x.ctx (o - 0x40 + j)))))
  else 0

/-- The Loupe (R87). -/
def readLoupe (d : Dev) (o : Nat) : Nat :=
  let l := d.loupe
  if o = 0x00 then l.base.toNat
  else if o = 0x08 then l.len.toNat
  else if o = 0x10 then bitN l.full 1 + bitN l.arm 0
  else if o = 0x18 then l.pos % 2 ^ 32
  else 0

/-- The security block (R108). -/
def readSecurity (d : Dev) (o : Nat) : Nat :=
  let t := d.trust
  if o = 0x00 then t.level
  else if o = 0x08 then t.count * 2 ^ 32 + bitN t.keyErased 9 + bitN t.idErased 8 + t.causes.toNat
  else if 0x20 ≤ o ∧ o < 0x40 then (List.range 64).foldl (fun a j => a + bitN ((tabFind t.slots (8 * (o - 0x20) + j)).isSome) j) 0
  else 0

/-- The command window of a VF (R94). -/
def readVf (d : Dev) (v o : Nat) : Nat :=
  let q := getVf d v
  if o = 0x000 then bitN (q.state == 2) 7 + q.state
  else if o = 0x008 then q.gscred
  else if o = 0x010 then q.gsub.toNat
  else if o = 0x018 then q.glast
  else if o = 0x020 then q.gcan.toNat
  else if o = 0x028 then q.gerr.toNat
  else if o = 0x040 then q.eqbase.toNat
  else if o = 0x048 then bitN q.eqen 63 + q.eqlog
  else if o = 0x050 then q.eqhead.toNat
  else if o = 0x058 then q.eqtail.toNat
  else if o = 0x060 then q.eqint.toNat
  else if o = 0x068 then q.eqlost.toNat
  else if o = 0x080 then (q.acct % 2 ^ 64).toNat
  else 0

/-- The register at an offset of the PF window (R84); offsets that no block defines read as zero. -/
def readWindow (s : State) (o : Nat) : Nat :=
  let d := s.dev
  let r := o % 65536
  if o < 0x10000 then readDevice d r
  else if o < 0x20000 then readConfig d r
  else if o < 0x30000 then readPower d r
  else if o < 0x40000 then (if r < 32 * 0x200 then readStack d (r / 0x200) (r % 0x200) else 0)
  else if o < 0x50000 then readTime s r
  else if o < 0x60000 then (if r < 72 * 0x100 then readPort d (r / 0x100) (r % 0x100) else 0)
  else if o < 0x70000 then readLoupe d r
  else if o < 0x80000 then readSecurity d r
  else if 0x01000000 ≤ o ∧ o < 0x01400000 then readVf d ((o - 0x01000000) / 4096) (o % 4096)
  else 0

/-- CFGCMD, whose value on a read no rule states. -/
def cfgcmdOff : Nat := 0x10028

/-- A register read (R80, R83, R85); a bad one gets status 1 while READY is 0, too (DESIGN CHOICE, log 66). -/
def execHlpRrd (x : Hlp) (s : State) : Host.Outcome State Fault Refusal :=
  if !s.dev.host.powered then .next s
  else if s.dev.trust.hold && !earlyBlock x then .next s
  else if badRequest 0x01 x then .next (if s.dev.trust.hold then s else discard s)
  else if badAccess x then .next (completeBad x 1 s)
  else if !s.dev.host.ready && !earlyBlock x then .next (completeBad x 5 s)
  else
    let t := if windowOff x = cfgcmdOff then { s with free := s.free + 1 } else s
    let w := if windowOff x = cfgcmdOff then Config.freeValue s.free else readWindow s (windowOff x)
    .next (sendHost ⟨0x09, 0, x.tag, x.func, 0, 0#64, false, [w64 w]⟩ t)

/-! ### Registers that the host writes -/

/-- A write of CFGCMD (R88): ignored while a command runs; an unknown opcode or a set bit above the opcode fails at once. -/
def writeCommand (w : Word) (s : State) : State :=
  let c := s.dev.cfg
  if c.busy then onCfg (fun c => { c with ovr := true }) s
  else
    let t := onCfg (fun c => { c with cmd := w, a0 := c.arg0, a1 := c.arg1, a2 := c.arg2, a3 := c.arg3, busy := true }) s
    if fieldN w 8 56 ≠ 0 then endCmd 2 t
    else
      let go (e : Ev) : State := { t with agenda := .event e :: t.agenda }
      match fieldN w 0 8 with
      | 0x01 => go .pcreate
      | 0x02 => go .pdestroy
      | 0x03 => go .colassign
      | 0x04 => go .dsmassign
      | 0x05 => go .pooladd
      | 0x06 => go .poolrem
      | 0x07 => go .uashare
      | 0x08 => go .vcreate
      | 0x09 => go .vreset
      | 0x0A => go .vdestroy
      | 0x0B => go .credit
      | 0x0C => go .keyload
      | 0x0D => go .attest
      | 0x0E => go .idcert
      | _ => endCmd 1 t

/-- What a register write does: another event of the table, or a plain change. -/
abbrev Written := Ev ⊕ State

def writeDevice (o : Nat) (w : Word) (s : State) : Written :=
  if o = 0x10 ∧ w.getLsbD 0 then .inl .deviceReset
  else if o = 0x18 then .inr (onHost (fun h => { h with fwaddr := w &&& ~~~0xFFF#64 }) s)
  else .inr s

def writeConfig (o : Nat) (w : Word) (s : State) : Written :=
  .inr (if o = 0x00 then onCfg (fun c => { c with arg0 := w }) s
    else if o = 0x08 then onCfg (fun c => { c with arg1 := w }) s
    else if o = 0x10 then onCfg (fun c => { c with arg2 := w }) s
    else if o = 0x18 then onCfg (fun c => { c with arg3 := w }) s
    else if o = 0x28 then writeCommand w s
    else if o = 0x30 then onCfg (fun c => { c with ovr := c.ovr && !w.getLsbD 62 }) s
    else s)

def writePower (o : Nat) (w : Word) (s : State) : Written :=
  if o = 0x000 then .inl (.plimWrite w)
  else if o = 0x008 then .inr (onDev (fun d => { d with fast := d.fast && !w.getLsbD 50, therm := d.therm && !w.getLsbD 49 }) s)
  else if 0x400 ≤ o ∧ o < 0x580 then .inl (.ltolWrite ((o - 0x400) / 8) w)
  else .inr s

/-- A write of LASTERR (R51): 0b11 in KIND clears the record. -/
def clearError (w : Word) (k : Stack) : Stack :=
  if fieldN w 62 2 = 3 then { k with errKind := 0, errPart := 0, errBlk := 0 }
  else { k with errKind := (BitVec.ofNat 2 k.errKind &&& ~~~(w.extractLsb' 62 2)).toNat }

def writeStack (n o : Nat) (w : Word) (s : State) : Written :=
  if o = 0x20 then .inl (.scrubctlWrite n w)
  else .inr (if o = 0x18 then onStack n (clearError w) s
    else if o = 0x30 then onStack n (fun k => { k with exh := k.exh && !w.getLsbD 40 }) s
    else if o = 0x38 then onStack n (fun k => { k with thr := k.thr &&& ~~~(w.extractLsb' 0 48) }) s
    else s)

def writePort (p o : Nat) (w : Word) (s : State) : Written :=
  if 0x40 ≤ o ∧ o < 0x80 then .inl (.uarctxWrite p ((o - 0x40) / 8) w)
  else .inr (if o = 0x18 then onDev (fun d => setPort p { getPort d p with high := max (fieldN w 16 9) (getPort d p).skid.length } d) s else s)

def writeLoupe (o : Nat) (w : Word) (s : State) : Written :=
  if o = 0x10 then .inl (.loupeArm w)
  else .inr (if o = 0x00 then onDev (fun d => { d with loupe := { d.loupe with base := w } }) s
    else if o = 0x08 then onDev (fun d => { d with loupe := { d.loupe with len := w.extractLsb' 0 32 } }) s
    else s)

def writeSecurity (o : Nat) (w : Word) (s : State) : Written :=
  if o = 0x00 then .inl (.tampctlWrite w)
  else .inr (if o = 0x08 then onDev (fun d => { d with trust := { d.trust with
      keyErased := d.trust.keyErased && !w.getLsbD 9, causes := d.trust.causes &&& ~~~(w.extractLsb' 0 5) } }) s
    else s)

/-- A write of a VF's window (R94) wakes its home die (R23). -/
def writeVf (v o : Nat) (w : Word) (s : State) : Written :=
  if o = 0x000 then .inl (.vfstatDegWrite v w)
  else if o = 0x010 then .inl (.gsub v w)
  else if o = 0x020 then .inl (.gcan v w)
  else if o = 0x048 then .inl (.eqctlWrite v w)
  else if o = 0x050 then .inl (.eqheadWrite v w)
  else .inr (wakeHome v (if o = 0x028 then onVf v (fun q => { q with gerr := q.gerr &&& ~~~(w.extractLsb' 0 4 &&& 0xE#4) }) s
    else if o = 0x040 then onVf v (fun q => if q.eqen then q else { q with eqbase := w &&& ~~~0x7F#64 }) s
    else if o = 0x060 then intrByCount v (onVf v (fun q => { q with eqint := w &&& 0x80000000FFFFFFFF#64 }) s)
    else s))

/-- A write at an offset of the PF window (R84); GTC is written over the sideband only (R73). -/
def writeWindow (o : Nat) (w : Word) (s : State) : Written :=
  let r := o % 65536
  if o < 0x10000 then writeDevice r w s
  else if o < 0x20000 then writeConfig r w s
  else if o < 0x30000 then writePower r w s
  else if o < 0x40000 then (if r < 32 * 0x200 then writeStack (r / 0x200) (r % 0x200) w s else .inr s)
  else if o < 0x50000 then .inr s
  else if o < 0x60000 then (if r < 72 * 0x100 then writePort (r / 0x100) (r % 0x100) w s else .inr s)
  else if o < 0x70000 then writeLoupe r w s
  else if o < 0x80000 then writeSecurity r w s
  else if 0x01000000 ≤ o ∧ o < 0x01400000 then writeVf ((o - 0x01000000) / 4096) (o % 4096) w s
  else .inr s

/-- A register write (R5, R80, R85, R109): a bad one is counted; one whose register has an event of its own in the table posts it. -/
def execRegisterWrite (x : Hlp) (s : State) : Host.Outcome State Fault Refusal :=
  if !inService s.dev then .next s
  else if badRequest 0x02 x || badAccess x then .next (discard s)
  else if !s.dev.host.ready && !earlyBlock x then .next s
  else match writeWindow (windowOff x) (x.data.headD 0#64) s with
    | .inl e => .next { s with agenda := .event e :: s.agenda }
    | .inr t => .next t

/-- A write of SCRUBCTL (R51). -/
def execScrubctlWrite (n : Nat) (w : BitVec 64) (s : State) : Host.Outcome State Fault Refusal :=
  let p := fieldN w 0 8
  .next (onStack n (fun k => { k with period := if p = 0 then 24 else max 6 p }) s)

/-! ### Host accesses to device memory (R82, R113) -/

/-- Bytes of a memory transaction. -/
def hlpBytes (x : Hlp) : Nat := 8 * (x.len + 1)

/-- The requests of a PF access, at the stacks' physical addresses. -/
def pfReqs (id : Nat) (x : Hlp) (op : MemOp) (data : List Byte) : List Req :=
  (piecesOf x.addr.toNat (hlpBytes x)).map (fun p =>
    ⟨id, p.1, .host 1024 x.tag, 0, .phys (p.2.1 / 2 ^ 37) (p.2.1 % 2 ^ 37), p.2.2, op, (data.drop p.1).take p.2.2, w64 p.2.1, false, false⟩)

/-- The requests of an access by a VF's function. -/
def vfReqs (s : State) (id : Nat) (x : Hlp) (op : MemOp) (data : List Byte) : List Req :=
  let i := fieldN x.addr 48 16
  rangeReqs (.host x.func x.tag) x.func id 0 i (btEntry s x.func i) (fieldN x.addr 0 48) (hlpBytes x) op data

/-- Whether an access by a VF's function fails R113, steps 1 to 4. -/
def vfRefused (s : State) (x : Hlp) (wr : Bool) : Bool :=
  (accessSub s x.func (!wr) wr false (fieldN x.addr 48 16) (fieldN x.addr 0 48) (hlpBytes x)).isSome

/-- A PF address past the stacks. -/
def pfOutside (x : Hlp) : Bool := decide (x.addr.toNat + hlpBytes x > 2 ^ 42)

def execHlpMrd (x : Hlp) (s : State) : Host.Outcome State Fault Refusal :=
  if !inService s.dev then .next s
  else if badRequest 0x03 x then .next (discard s)
  else if !s.dev.host.ready then .next (completeBad x 5 s)
  else if x.func = 1024 && pfOutside x then .next (completeBad x 1 s)
  else if decide (x.func < 1024) && vfRefused s x false then .next (completeBad x 3 s)
  else
    let rs := if x.func = 1024 then pfReqs s.nextId x .read [] else vfReqs s s.nextId x .read []
    .next { s with
      nextId := s.nextId + 1
      replies := tabPut s.replies s.nextId ⟨.host x.func x.tag, hlpBytes x, rs.length, [], [], false⟩
      reqs := s.reqs ++ rs }

/-- A host memory write; one that fails its checks is not performed. -/
def execHlpMwr (x : Hlp) (s : State) : Host.Outcome State Fault Refusal :=
  if !inService s.dev then .next s
  else if badRequest 0x04 x then .next (discard s)
  else if !s.dev.host.ready then .next s
  else if x.func = 1024 && pfOutside x then .next (discard s)
  else if decide (x.func < 1024) && vfRefused s x true then .next s
  else
    let bs := (ofWords x.data).take (hlpBytes x)
    .next { s with reqs := s.reqs ++ (if x.func = 1024 then pfReqs 0 x .write bs else vfReqs s 0 x .write bs) }

/-! ### Completions of the device's reads (R83) -/

/-- One read is over: its bytes are in, or it has failed; with the last one its requester goes on, if it still awaits them. -/
def readOver (tag : Nat) (r : HostRead) (bs : Option (List Byte)) (s : State) : State :=
  let s := sendReads 1 (onHost (fun h => { h with reads := tabDel h.reads tag }) s)
  let t := onCfg (fun c => { c with
      buf := match bs with
        | some b => tabSetBytes c.buf r.off b
        | none => c.buf
      left := c.left - r.len
      bad := c.bad || bs.isNone }) s
  if !r.live then s
  else if t.dev.host.reads.any (fun e => e.2.live) || !t.dev.host.wants.isEmpty then t
  else match r.why with
    | .firmware => firmwareRead t
    | .key => if t.dev.cfg.busy && fieldN t.dev.cfg.cmd 0 8 == 0x0C then keyRead t else t
    | .nonce => if t.dev.cfg.busy && fieldN t.dev.cfg.cmd 0 8 == 0x0D then nonceRead t else t

/-- A successful completion (R80); one with too few bytes counts as failed. -/
def execHlpCpld (x : Hlp) (s : State) : Host.Outcome State Fault Refusal :=
  if !inService s.dev then .next s
  else if badCompletion 0x09 x then .next (discard s)
  else match tabFind s.dev.host.reads x.tag with
    | none => .next (discard s)
    | some r =>
      let bs := (ofWords x.data).take r.len
      .next (readOver x.tag r (if bs.length = r.len ∧ x.status = 0 then some bs else none) s)

/-- A failed completion. -/
def execHlpCpl (x : Hlp) (s : State) : Host.Outcome State Fault Refusal :=
  if !inService s.dev then .next s
  else if badCompletion 0x08 x then .next (discard s)
  else match tabFind s.dev.host.reads x.tag with
    | none => .next (discard s)
    | some r => .next (readOver x.tag r none s)

/-- A read whose completion has not come within 50 ms is abandoned (R83). -/
def execHostReadTimeout (tag : Nat) (s : State) : Host.Outcome State Fault Refusal :=
  match tabFind s.dev.host.reads tag with
  | none => .next s
  | some r => if s.cyc < r.sent + msec 50 then .next s else .next (readOver tag r none s)

/-! ### Modules (R78) -/

/-- Functions with transactions in flight over module `m`: host accesses under way, and the device's own reads. -/
def inFlight (s : State) (m : Nat) : List Nat :=
  let host (w : Agent) : Option Nat := match w with
    | .host f _ => some f
    | _ => none
  ((s.reqs.filterMap (fun (r : Req) => host r.who) ++ s.replies.filterMap (fun (e : Nat × Reply) => host e.2.who)
    ++ (if s.dev.host.reads.isEmpty && s.dev.host.wants.isEmpty then [] else [1025])).eraseDups).filter (fun f => moduleOf s.dev f == some m)

/-- A module leaves service (R78): MODS shows it, and each of its functions moves once its transactions there are over. -/
def execModuleDisabled (m : Nat) (s : State) : Host.Outcome State Fault Refusal :=
  .next (onHost (fun h => { h with
    mods := h.mods &&& ~~~(1#4 <<< m)
    serving := (inFlight s m).foldl (fun t f => tabPut t f m) h.serving }) s)

/-- Functions whose last transaction on an old module is over move (R78). -/
def moveFunctions (s : State) : State :=
  onHost (fun h => { h with serving := h.serving.filter (fun e => (inFlight s e.2).contains e.1) }) s

end Sys2Proof.Machine
end

