-- ==== Sys2Proof/Machine/Due.lean ====
section
/-!
DEFINITION. What is due: the events of the table run one by one, the acts that a new cyc brings, the clock's tick, and what
arrives from outside (R10 to R16, R22, R42, R44, R72, R81, R100, R124, R149, R156, R167, R400, R433).
-/

namespace Sys2Proof.Machine


/-! ### Events -/

/-- An event of the table happens: its meaning, the one that `exec` gives its row. -/
def runEv (e : Ev) (s : State) : Host.Outcome State Fault Refusal :=
  match e with
  | .custodianResult id => execCustodianResult id s
  | .matrixCheck t k block main check row col => execMatrixCheck t k block main check row col s
  | .copyComplete id => execCopyComplete id s
  | .resultLanding t => execResultLanding t s
  | .endpointReply id => execEndpointReply id s
  | .phaseComplete t => execPhaseComplete t s
  | .barComplete t => execBarComplete t s
  | .waittRelease t k => execWaittRelease t k s
  | .bankCleared t k bank => execBankCleared t k bank s
  | .stallTimeout t => execStallTimeout t s
  | .safeBoundOverrun t => execSafeBoundOverrun t s
  | .hlpRrd x => execHlpRrd x s
  | .registerWrite x => execRegisterWrite x s
  | .hlpMrd x => execHlpMrd x s
  | .hlpMwr x => execHlpMwr x s
  | .hlpCpld x => execHlpCpld x s
  | .hlpCpl x => execHlpCpl x s
  | .hostReadTimeout tag => execHostReadTimeout tag s
  | .moduleDisabled m => execModuleDisabled m s
  | .pcreate => execPcreate s
  | .pdestroy => execPdestroy s
  | .colassign => execColassign s
  | .dsmassign => execDsmassign s
  | .dsmBankClearDone => execDsmBankClearDone s
  | .pooladd => execPooladd s
  | .poolrem => execPoolrem s
  | .uashare => execUashare s
  | .vcreate => execVcreate s
  | .vreset => execVreset s
  | .vresetComplete v => execVresetComplete v s
  | .vdestroy => execVdestroy s
  | .credit => execCredit s
  | .keyload => execKeyload s
  | .attest => execAttest s
  | .idcert => execIdcert s
  | .deviceReset => execDeviceReset s
  | .sidebandReset => execSidebandReset s
  | .firmwareVerify image => execFirmwareVerify image s
  | .packagePowerOn stk mods => execPackagePowerOn stk mods s
  | .binningComplete rows => execBinningComplete rows s
  | .plimWrite w => execPlimWrite w s
  | .ltolWrite p w => execLtolWrite p w s
  | .scrubctlWrite n w => execScrubctlWrite n w s
  | .uarctxWrite port j w => execUarctxWrite port j w s
  | .gtcincWrite w => execGtcincWrite w s
  | .gtcadjWrite w => execGtcadjWrite w s
  | .gtcsetWrite w => execGtcsetWrite w s
  | .gtcSlewDone => execGtcSlewDone s
  | .gtcHoldover => execGtcHoldover s
  | .loupeArm w => execLoupeArm w s
  | .tampctlWrite w => execTampctlWrite w s
  | .vfstatDegWrite v w => execVfstatDegWrite v w s
  | .gsub v w => execGsub v w s
  | .gcan v w => execGcan v w s
  | .eqctlWrite v w => execEqctlWrite v w s
  | .eqheadWrite v w => execEqheadWrite v w s
  | .eventRecordWrite v => execEventRecordWrite v s
  | .eqInterruptTimer v => execEqInterruptTimer v s
  | .arbiterEpoch => execArbiterEpoch s
  | .fastLimiter die => execFastLimiter die s
  | .sensorUpdate dieT stkT => execSensorUpdate dieT stkT s
  | .supplyExcursion => execSupplyExcursion s
  | .meshBreak => execMeshBreak s
  | .powerStateEntry e => execPowerStateEntry e s
  | .wakeComplete e => execWakeComplete e s
  | .portAdmit n => execPortAdmit n s
  | .rowRefresh n bank row => execRowRefresh n bank row s
  | .activationWindow => execActivationWindow s
  | .patrolScrubStep n => execPatrolScrubStep n s
  | .hotScrubStep n row => execHotScrubStep n row s
  | .patrolPeriodEnd n => execPatrolPeriodEnd n s
  | .retirementCopyDone n frame => execRetirementCopyDone n frame s
  | .leaseIncrement node n => execLeaseIncrement node n s
  | .leaseReply node n => execLeaseReply node n s
  | .leaseRelease node n => execLeaseRelease node n s
  | .pullReadReply id ok data => execPullReadReply id ok data s
  | .pullTimeout id => execPullTimeout id s
  | .remoteRequest x => execRemoteRequest x s
  | .invalidationDone id => execInvalidationDone id s
  | .invalidationTimeout id => execInvalidationTimeout id s
  | .polisherClearBlock n => execPolisherClearBlock n s
  | .linkTraining port width rtt => execLinkTraining port width rtt s
  | .laneLoss port width rtt => execLaneLoss port width rtt s
  | .linkReplay port hold => execLinkReplay port hold s
  | .skidSend port => execSkidSend port s
  | .messageLanding x => execMessageLanding x s
  | .creditReturn t ch => execCreditReturn t ch s
  | .collectiveStart cid => execCollectiveStart cid s
  | .reductionContribution w member group elems residue => execReductionContribution w member group elems residue s
  | .collectiveComplete cid => execCollectiveComplete cid s
  | .graphParse v => execGraphParse v s
  | .selectionRound die => execSelectionRound die s
  | .gangToken => execGangToken s
  | .priorityPreemption die => execPriorityPreemption die s
  | .dispatch node => execDispatch node s
  | .saveComplete node => execSaveComplete node s
  | .contextRestore node => execContextRestore node s
  | .phaseRestart node => execPhaseRestart node s
  | .nodeRetire node => execNodeRetire node s
  | .jobCardStart node => execJobCardStart node s
  | .jobCardComplete node => execJobCardComplete node s
  | .caratFlush => execCaratFlush s
  | .preemptionRequestArrival t kind => execPreemptionRequestArrival t kind s
  | .dsmBankRequest die bank => execDsmBankRequest die bank s
  | .rangeRegisterFill t k => execRangeRegisterFill t k s

/-! ### Tasks -/

/-- Memory operations that release a group held back (R169). -/
def releaseActs (s : State) (tid : Nat) (t : Task) : List Act :=
  let ks := dueSeqs t
  (ks.filter (rangeMiss s tid)).map (fun k => .event (.rangeRegisterFill tid k))
    ++ (if duePhases s tid > 0 ∧ t.waits.phOk ≤ t.phn ∧ allMembers s t (atPhase s (t.phn + 1)) then [.event (.phaseComplete tid)] else [])
    ++ (if dueBars s tid > 0 ∧ t.waits.barOk < t.waits.bars + dueBars s tid ∧ allMembers s t (atBar s (t.waits.bars + dueBars s tid)) then
        [.event (.barComplete tid)] else [])
    ++ (ks.filter (fun k => (waittTarget s tid k).any (fun a => decide (a ≤ s.dev.gtci)) && tabGet 0 t.waits.waitOk k != t.lc + 1)).map
      (fun k => .event (.waittRelease tid k))

/-- Released banks that may be cleared now (R183, R184). -/
def bankActs (tid : Nat) (t : Task) : List Act :=
  t.seqs.flatMap (fun e => ((List.range 6).filter (fun b => e.2.clearing.getLsbD b
      && !e.2.copies.any (fun c => c.rel && decide (c.start ≤ t.lc) && (heldBanks c).getLsbD b))).map
    (fun b => .event (.bankCleared tid e.1 b)))

/-- What a task does in a cyc: its groups issue unless something holds them, or no SAFE has issued within the bound (R188), and its LC
ends. -/
def taskActs (s : State) (e : Nat × Task) : List Act :=
  let t := e.2
  if !t.alive then bankActs e.1 t
  else
    let late := t.lc == t.sref + t.safeb + 1 && !draining t && t.ending.isNone
    let stalled := decide (2 ^ 26 ≤ t.hold)
    (if stalled then [.event (.stallTimeout e.1)]
      else releaseActs s e.1 t ++ bankActs e.1 t
        ++ (if preCond (released s e.1) e.1 ≠ 0 then []
          else if late then [.event (.safeBoundOverrun e.1)]
          else (dueSeqs t).map (fun k => .issue e.1 k)))
      ++ [.event (.resultLanding e.1)]

/-! ### Memory -/

/-- The copy whose writes answer a reply. -/
def writesOf (s : State) (id : Nat) : Option Copy :=
  s.tasks.findSome? (fun e => e.2.seqs.findSome? (fun q => q.2.copies.find? (fun c => c.id + 1 == id)))

/-- Replies whose last piece is in (R169). -/
def replyActs (s : State) : List Act :=
  s.replies.filterMap (fun e =>
    if e.2.left ≠ 0 ∨ e.2.ok then none
    else match writesOf s e.1 with
      | some c => if c.wrote then some (.event (.copyComplete c.id)) else none
      | none => if e.2.size = 0 then none else some (.event (.endpointReply e.1)))

/-- Ports and banks with requests (R44, R117). -/
def portActs (s : State) : List Act :=
  let ns := (s.reqs.filterMap reqStack).eraseDups
  let bs := (s.reqs.filterMap (fun r => match r.loc with
    | .dsm d b _ => some (d, b)
    | _ => none)).eraseDups
  ns.map (fun n => .event (.portAdmit n)) ++ bs.map (fun b => .event (.dsmBankRequest b.1 b.2))

/-- Cyc between two patrol steps, and between two scrubs of the hot list (R42): a stack has 2^31 blocks. -/
def patrolGap (k : Stack) : Nat := k.running * 3600 * msec 1000 / 2 ^ 31
def hotGap (k : Stack) : Nat := k.running * 3600 * msec 1000 / 64

/-- Rows that a port visits in a cyc of its sweep, and the cyc that a sweep over the 2^27 rows takes. -/
def sweepRows : Nat := 8
def sweepLen : Nat := 2 ^ 27 / sweepRows

/-- Whether a row that the sweep visits must be refreshed now, because its interval ends before the next visit (R38). -/
def refreshDue (cyc : Nat) (k : Stack) (i : Nat) : Bool :=
  decide (msec (rowInterval k (i / 16384) (i % 16384)) < cyc - max (tabGet 0 k.fresh i) k.freshAt + sweepLen)

/-- Rows that a port refreshes in this cyc (R38). -/
def refreshActs (s : State) (n : Nat) (k : Stack) : List Act :=
  if !k.up || k.selfref then []
  else (((List.range sweepRows).map (k.refPos + ·)).filter (refreshDue s.cyc k)).map (fun i => .event (.rowRefresh n (i / 16384) (i % 16384)))

/-- The sweep goes on (R38, R39). -/
def sweepOn (k : Stack) : Stack := if !k.up || k.selfref then k else { k with refPos := (k.refPos + sweepRows) % 2 ^ 27 }

/-- The port's own work on a stack (R38, R41, R42, R400). -/
def stackActs (s : State) (n : Nat) (k : Stack) : List Act :=
  refreshActs s n k ++
  (if s.cyc % 3 = 0 ∧ (k.clearing.isSome ∨ (nextClear s.dev n).isSome) then [.event (.polisherClearBlock n)] else [])
    ++ (if k.up ∧ s.cyc % patrolGap k = 0 then
        .event (.patrolScrubStep n) :: (if k.pos = 2 ^ 27 - 1 ∧ k.blk = 15 then [.event (.patrolPeriodEnd n)] else []) else [])
    ++ (if k.up ∧ s.cyc % hotGap k = 0 then k.hot.map (fun h => .event (.hotScrubStep n h.row)) else [])
    ++ k.copying.map (fun c => .event (.retirementCopyDone n c.frame))

/-- Invalidations that are complete or late, last first (R124). -/
def invalActs (s : State) : List Act :=
  s.dev.invals.zipIdx.reverse.filterMap (fun e =>
    if invalDone s e.1 then some (.event (.invalidationDone e.2))
    else if decide (e.1.period < 2) && decide (e.1.start + (e.1.period + 1) * usec e.1.wd ≤ s.cyc) then
      some (.event (.invalidationTimeout e.2))
    else none)

/-- Pulls that have lasted too long (R128). -/
def pullActs (s : State) : List Act :=
  (s.dev.pulls.filter (fun e => decide (e.2.start + usec e.2.wd ≤ s.cyc))).map (fun e => .event (.pullTimeout e.1))

/-! ### The Setter -/

/-- A placed node that can start starts, resumes or restarts. -/
def placedActs (s : State) (id : Nat) (x : Node) : List Act :=
  if x.st ≠ .placed || !mayStart s id x then []
  else if !x.resume then [.event (.dispatch id)]
  else if x.restart then [.event (.phaseRestart id)]
  else [.event (.contextRestore id)]

/-- A running node that goes back to its phase marks goes on as it reads them (R179). -/
def restartActs (s : State) (id : Nat) (x : Node) : List Act :=
  if x.st = .running ∧ readsImage s.dev id then [.event (.phaseRestart id)] else []

/-- A node whose members have all ended or are saved, or which a trap has stopped. -/
def doneActs (s : State) (id : Nat) (x : Node) : List Act :=
  if x.closing.isSome then (if tasksBusy s (nodeTids s id) then [] else [.event (.nodeRetire id)])
  else if x.st ≠ .running || x.kind != 1 || !membersDone x || tasksBusy s (nodeTids s id) then []
  else if x.members.any (fun m => m.saved) && !x.members.any (fun m => m.cut) then (if sentAll s.dev id then [.event (.saveComplete id)] else [])
  else [.event (.nodeRetire id)]

/-- A running card that starts or ends. -/
def cardActs (s : State) (id : Nat) (x : Node) : List Act :=
  if x.st ≠ .running || x.kind == 1 then []
  else if x.cst.phase = 0 then [.event (.jobCardStart id)]
  else if x.cst.phase = 3 ∧ mayComplete s x then [.event (.jobCardComplete id)]
  else []

/-- Lease traffic of a node (R126). -/
def leaseActs (id : Nat) (x : Node) : List Act :=
  if x.lease ≠ .acquiring then []
  else (x.frames.zipIdx.filter (fun f => !f.1.done)).map (fun f => .event (.leaseIncrement id f.2))
    ++ x.replies.map (fun n => .event (.leaseReply id n))

/-- Counts that released leases have still to lower, of each node the last first (R126). -/
def releaseLeaseActs (d : Dev) : List Act :=
  ((d.releases.map (·.node)).eraseDups).flatMap (fun id =>
    ((d.releases.filter (fun r => r.node == id)).zipIdx.reverse).map (fun e => .event (.leaseRelease id e.2)))

def nodeActs (s : State) : List Act :=
  s.dev.nodes.flatMap (fun e => leaseActs e.1 e.2 ++ placedActs s e.1 e.2 ++ restartActs s e.1 e.2 ++ doneActs s e.1 e.2 ++ cardActs s e.1 e.2)
    ++ releaseLeaseActs s.dev

/-- Dies whose Setter has a node that waits. -/
def waitingDies (d : Dev) : List Nat :=
  (List.range 8).filter (fun die => d.nodes.any (fun e => e.2.die == die && (e.2.st == .waitingLease || e.2.st == .suspended)))

/-- Selection rounds, the gang token and priority pre-emption (R148, R149, R152): every microsecond, and rounds whenever a place or
an engine has become free. -/
def setterActs (s : State) : List Act :=
  let beat := s.cyc % usec 1 == 0
  (if beat || s.dev.freed then (waitingDies s.dev).map (fun die => .event (.selectionRound die)) else [])
    ++ (if beat && (List.range 8).any (fun die => !(waitingGangs s die).isEmpty) then [.event .gangToken] else [])
    ++ (if beat then ((List.range 8).filter (fun die => s.dev.nodes.any (starved s die))).map (fun die => .event (.priorityPreemption die)) else [])

/-- Collectives whose members are all here, and those that complete (R66, R69, R70). -/
def collActs (s : State) : List Act :=
  s.dev.colls.flatMap (fun c =>
    if c.done then []
    else if c.status ≠ 0 || collFull c || collBad c then [.event (.collectiveComplete c.cid)]
    else if !c.started && ((localNodes s c).length == c.nmem + 1 || (c.asked && c.others.isSome)) then [.event (.collectiveStart c.cid)]
    else [])

/-- Custodian instructions at their targets (R397, R403). -/
def custActs (s : State) : List Act :=
  let cs := (s.dev.custs.filter (fun c => decide (c.due ≤ s.cyc) && (match c.passed with
    | some _ => c.wait.isEmpty || c.wait.any (fun f => (getFrame s.dev f.1 f.2).quar == 0)
    | none => true))).map (fun c => .event (.custodianResult c.reply))
  if Config.freeValue s.free % 2 = 1 then cs.reverse else cs

/-! ### The host side -/

/-- Event queues, submissions and resets of a VF (R92, R97, R100, R135). -/
def vfActs (s : State) : List Act :=
  s.dev.vfs.flatMap (fun e =>
    List.replicate (min e.2.held.length (ringRoom e.2)) (.event (.eventRecordWrite e.1))
      ++ (if timerDue s e.2 then [.event (.eqInterruptTimer e.1)] else [])
      ++ (if s.cyc % usec 1 = 0 ∧ !e.2.subs.isEmpty ∧ awake s.dev (elKey (.die e.2.die)) then [.event (.graphParse e.1)] else [])
      ++ (if vresetDue s e.1 then [.event (.vresetComplete e.1)] else []))

/-- Reads of host memory that have lasted too long, and banks that DSMASSIGN has cleared. -/
def hostActs (s : State) : List Act :=
  (s.dev.host.reads.filter (fun e => decide (e.2.sent + msec 50 ≤ s.cyc))).map (fun e => .event (.hostReadTimeout e.1))
    ++ (if s.dev.cfg.busy ∧ fieldN s.dev.cfg.cmd 0 8 = 4 then [.event .dsmBankClearDone] else [])

/-! ### Links, time and power -/

/-- Ports with something to send, and messages that can be delivered now (R62, R64, R141). -/
def linkActs (s : State) : List Act :=
  s.dev.ports.flatMap (fun e =>
    (if e.2.skid.isEmpty ∨ skidHeld e.2 then [] else [.event (.skidSend e.1)])
      ++ ((buffered 0 e.2.landing).filter (deliverable s)).map (fun m => .event (.messageLanding { m with port := fromLanding + m.port })))

/-- Messages and credits for saved members that go on as their channels are read (R437). -/
def mailActs (d : Dev) : List Act :=
  d.credits.map (fun c => .event (.creditReturn c.1 c.2)) ++ d.mail.map (fun m => .event (.messageLanding m))

/-- Global time (R73, R74). -/
def timeActs (s : State) : List Act :=
  let g := s.dev.gtc
  (if g.slew = 0 ∧ g.app ≠ 0 then [.event .gtcSlewDone] else [])
    ++ (if !g.hold ∧ g.adjAt + holdAfter ≤ s.cyc then [.event .gtcHoldover] else [])

/-- Epochs, windows and flushes (R12, R45, R156). -/
def periodActs (s : State) : List Act :=
  (if s.cyc % epochLen = 0 then [.event .arbiterEpoch] else [])
    ++ (if s.cyc % msec 32 = 0 then [.event .activationWindow] else [])
    ++ (if s.cyc % 65536 = 0 then [.event .caratFlush] else [])

/-- Power elements of dies where a partition owns a column or a bank; those of other dies stay in P0 (R22). -/
def powerElements (d : Dev) : List Element :=
  ((List.range 8).filter (fun die => !(dieParts d die).isEmpty)).flatMap (fun die =>
    (List.range 256).flatMap (fun t => (List.range (tileColumns die t)).map (.column die t)) ++ (List.range 256).map (.tile die) ++ [.die die])

/-- Wakes that end, and the lower states that elements may enter (R22, R23). -/
def powerActs (s : State) : List Act :=
  (s.dev.power.filter (fun e => match e.2.wake with
    | some t => decide (t ≤ s.cyc)
    | none => false)).map (fun e => .event (.wakeComplete (elOf e.1)))
    ++ ((powerElements s.dev).filter (fun e => entryState s e != 0)).map (fun e => .event (.powerStateEntry e))

/-! ### The tick -/

/-- The state in which the groups of a cyc are judged: where an epoch ends, with the caps that it brings, which hold from that cyc on (R12,
R13). -/
def judged (s : State) : State :=
  if s.cyc % epochLen = 0 then
    match execArbiterEpoch s with
    | .next t => t
    | _ => s
  else s

/-- Everything that a new cyc brings. -/
def dueActs (s : State) : List Act :=
  if !inService s.dev then []
  else
    timeActs s ++ periodActs s ++ hostActs s
      ++ s.dev.posts.map (fun p => .event (.preemptionRequestArrival p.tid p.kind))
      ++ replyActs s ++ portActs s ++ s.tasks.flatMap (taskActs (judged s))
      ++ (if s.dev.host.ready then s.dev.hbm.flatMap (fun e => stackActs s e.1 e.2) else [])
      ++ custActs s ++ invalActs s ++ pullActs s ++ nodeActs s ++ collActs s ++ setterActs s ++ vfActs s ++ linkActs s ++ mailActs s.dev ++ powerActs s

/-- FENCE markers that no earlier access of their task keeps leave the queue (R386). -/
def dropFences : List Req → List Req → List Req
  | _, [] => []
  | before, r :: rs =>
    if r.fence && !before.any (fun x => !x.fence && sameAgent x.who r.who) then dropFences before rs
    else r :: dropFences (before ++ [r]) rs

/-- Whether a piece of the device's own work is still to be done. -/
def jobLive (s : State) (j : Job) : Bool :=
  let savedAt (slot : Nat) : Bool := s.dev.nodes.any (fun e => e.2.members.any (fun m =>
    m.saved && (slotPlaces (getVf s.dev e.2.vf) m.slots).any (fun p => p.2 == slot)))
  match j.why with
  | .graph v h => (getVf s.dev v).subs.any (fun b => b.handle == h)
  | .node id | .image id | .lease id | .frame id _ | .drain id => (tabFind s.dev.nodes id).isSome
  | .release id => s.dev.releases.any (fun r => r.id == id)
  | .fill tid _ => (tabFind s.tasks tid).isSome
  | .message slot _ => !s.dev.mail.isEmpty && savedAt (slot / 16)
  | .credit slot _ => !s.dev.credits.isEmpty && savedAt slot
  | .cust id => s.dev.custs.any (fun c => c.reply == id)
  | .split _ _ _ => true

/-- Work that no one awaits any more is dropped, with its reads and replies. -/
def sweepJobs (s : State) : State :=
  let t := dropJobs (fun j => !jobLive s j) s
  let owned (id : Nat) : Bool := t.dev.jobs.any (fun j => j.id == id) || (tabFind t.dev.pulls id).isSome
    || t.dev.nodes.any (fun e => e.2.members.any (fun m => m.saving == id))
  let reqs := t.reqs.filter (fun r => r.who != .setter || r.op != .read || owned r.id)
  { t with
    replies := t.replies.filter (fun e => e.2.who != .setter || owned e.1)
    reqs := reqs
    dev := { t.dev with looked := t.dev.looked.filter reqs.contains } }

/-- Occupied columns are without a task from the next cyc on at the earliest (R22). -/
def keepBusy (s : State) : State :=
  onDev (fun d => (busyColumns s).foldl (fun d k => setPower k { powerOf d k with idle := s.cyc + 1 } d) d) s

/-- The clock advances by one cyc. -/
def tick (s : State) : State :=
  let s1 := sweepJobs (moveFunctions (keepBusy s))
  let s2 := { s1 with
    cyc := s.cyc + 1
    reqs := dropFences [] s1.reqs
    dev := { s1.dev with
      gtc := if s1.dev.host.powered then gtcTick s1.dev.gtc else s1.dev.gtc
      hbm := s1.dev.hbm.map (fun (e : Nat × Stack) => (e.1, sweepOn e.2))
      window := if (s.cyc + 1) % 256 = 0 then [] else s1.dev.window } }
  { s2 with
    free := s2.free + 1
    agenda := dueActs s2
    dev := { s2.dev with posts := [], freed := false, credits := [], mail := [] } }

/-! ### What arrives from outside -/

/-- Whether a host transaction must wait for memory writes that its function sent earlier (R81). -/
def mustWait (s : State) (i : Input) : Bool :=
  let behind (x : Hlp) : Bool := s.reqs.any (fun r => r.op != .read && (match r.who with
    | .host f _ => f == x.func
    | _ => false))
  match i with
  | .event (.hlpRrd x) | .event (.registerWrite x) | .event (.hlpMrd x) | .event (.hlpMwr x) => behind x
  | _ => false

/-- Whether an input reaches a device that is without power or held by the alarm (R109): power, and reads of registers. -/
def alwaysHeard (i : Input) : Bool :=
  match i with
  | .event (.packagePowerOn _ _) | .event (.hlpRrd _) => true
  | _ => false

/-- An input arrives. -/
def takeInput (i : Input) (s : State) : Host.Outcome State Fault Refusal :=
  if !inService s.dev && !alwaysHeard i then .next s
  else match i with
    | .event e => runEv e s
    | .upset n b bad => .next (onDev (fun d => { d with upsets := tabSet 0 d.upsets (n * 2 ^ 31 + b) (tabGet 0 d.upsets (n * 2 ^ 31 + b) + bad) }) s)
    | .odecc n => .next (onStack n (fun k => { k with ode := k.ode + 1#64 }) s)
    | .gtceb eb => .next (onGtc (fun g => { g with eb := eb % 2 ^ 32 }) s)
    | .collContexts cid ok => .next (onColl cid (fun c => { c with others := some ok }) s)
    | .collMismatch cid => .next (onColl cid (fun c => { c with bad := true }) s)
    | .flowCredits p lacking => .next (onDev (fun d => setPort p { getPort d p with dry := lacking } d) s)
    | .collWithdrawn cid => .next (withdrawnElsewhere cid s)
    | .collDelivered cid n => .next (deliveredElsewhere cid n s)

end Sys2Proof.Machine
end

