-- ==== Sys2Proof/Machine/Dispatch.lean ====
section
/-!
DEFINITION. The meaning of every instruction: one direct call per row of the opcode table.
-/

namespace Sys2Proof.Machine

/-- What an instruction does to a state. -/
def exec (i : Instr) (s : State) : Host.Outcome State Fault Refusal :=
  match i with
  | .nop stop => Sys2Proof.Machine.execNop stop s
  | .illegal stop p n o => Sys2Proof.Machine.execIllegal stop p n o s
  | .add g d a b => Sys2Proof.Machine.execAdd g d a b s
  | .sub g d a b => Sys2Proof.Machine.execSub g d a b s
  | .addi g d a imm => Sys2Proof.Machine.execAddi g d a imm s
  | .lih g d imm => Sys2Proof.Machine.execLih g d imm s
  | .mul g d a b => Sys2Proof.Machine.execMul g d a b s
  | .mulh g d a b => Sys2Proof.Machine.execMulh g d a b s
  | .mulhn g d a b => Sys2Proof.Machine.execMulhn g d a b s
  | .div g d a b => Sys2Proof.Machine.execDiv g d a b s
  | .divn g d a b => Sys2Proof.Machine.execDivn g d a b s
  | .rem g d a b => Sys2Proof.Machine.execRem g d a b s
  | .remn g d a b => Sys2Proof.Machine.execRemn g d a b s
  | .andS g d a b => Sys2Proof.Machine.execAnd g d a b s
  | .orS g d a b => Sys2Proof.Machine.execOr g d a b s
  | .xorS g d a b => Sys2Proof.Machine.execXor g d a b s
  | .andi g d a imm => Sys2Proof.Machine.execAndi g d a imm s
  | .ori g d a imm => Sys2Proof.Machine.execOri g d a imm s
  | .xori g d a imm => Sys2Proof.Machine.execXori g d a imm s
  | .shl g d a b => Sys2Proof.Machine.execShl g d a b s
  | .shr g d a b => Sys2Proof.Machine.execShr g d a b s
  | .shra g d a b => Sys2Proof.Machine.execShra g d a b s
  | .shli g d a imm => Sys2Proof.Machine.execShli g d a imm s
  | .shri g d a imm => Sys2Proof.Machine.execShri g d a imm s
  | .shrai g d a imm => Sys2Proof.Machine.execShrai g d a imm s
  | .rotr g d a b => Sys2Proof.Machine.execRotr g d a b s
  | .clz g d a => Sys2Proof.Machine.execClz g d a s
  | .popc g d a => Sys2Proof.Machine.execPopc g d a s
  | .minS g d a b => Sys2Proof.Machine.execMin g d a b s
  | .maxS g d a b => Sys2Proof.Machine.execMax g d a b s
  | .minn g d a b => Sys2Proof.Machine.execMinn g d a b s
  | .maxn g d a b => Sys2Proof.Machine.execMaxn g d a b s
  | .sel g d a b => Sys2Proof.Machine.execSel g d a b s
  | .ceq g q a b => Sys2Proof.Machine.execCeq g q a b s
  | .cne g q a b => Sys2Proof.Machine.execCne g q a b s
  | .clt g q a b => Sys2Proof.Machine.execClt g q a b s
  | .cle g q a b => Sys2Proof.Machine.execCle g q a b s
  | .cltn g q a b => Sys2Proof.Machine.execCltn g q a b s
  | .clen g q a b => Sys2Proof.Machine.execClen g q a b s
  | .ceqi g q a imm => Sys2Proof.Machine.execCeqi g q a imm s
  | .clti g q a imm => Sys2Proof.Machine.execClti g q a imm s
  | .badr g d a b => Sys2Proof.Machine.execBadr g d a b s
  | .boff g d a imm => Sys2Proof.Machine.execBoff g d a imm s
  | .ldb g d a imm => Sys2Proof.Machine.execLdb g d a imm s
  | .ldh g d a imm => Sys2Proof.Machine.execLdh g d a imm s
  | .ldw g d a imm => Sys2Proof.Machine.execLdw g d a imm s
  | .ldd g d a imm => Sys2Proof.Machine.execLdd g d a imm s
  | .stb g d a imm => Sys2Proof.Machine.execStb g d a imm s
  | .sth g d a imm => Sys2Proof.Machine.execSth g d a imm s
  | .stw g d a imm => Sys2Proof.Machine.execStw g d a imm s
  | .std g d a imm => Sys2Proof.Machine.execStd g d a imm s
  | .ldl g d a imm => Sys2Proof.Machine.execLdl g d a imm s
  | .stl g d a imm => Sys2Proof.Machine.execStl g d a imm s
  | .aadd g d a b => Sys2Proof.Machine.execAadd g d a b s
  | .amin g d a b => Sys2Proof.Machine.execAmin g d a b s
  | .amax g d a b => Sys2Proof.Machine.execAmax g d a b s
  | .aor g d a b => Sys2Proof.Machine.execAor g d a b s
  | .axch g d a b => Sys2Proof.Machine.execAxch g d a b s
  | .acas g d a b => Sys2Proof.Machine.execAcas g d a b s
  | .qmov g q a => Sys2Proof.Machine.execQmov g q a s
  | .movq g d => Sys2Proof.Machine.execMovq g d s
  | .qlog g q qa qb o => Sys2Proof.Machine.execQlog g q qa qb o s
  | .pbr g t imm => Sys2Proof.Machine.execPbr g t imm s
  | .pbrr g t a => Sys2Proof.Machine.execPbrr g t a s
  | .br g t => Sys2Proof.Machine.execBr g t s
  | .brc g t a => Sys2Proof.Machine.execBrc g t a s
  | .call g t => Sys2Proof.Machine.execCall g t s
  | .ret g => Sys2Proof.Machine.execRet g s
  | .loop g l a t => Sys2Proof.Machine.execLoop g l a t s
  | .loopi g l t imm => Sys2Proof.Machine.execLoopi g l t imm s
  | .lstr g l a imm => Sys2Proof.Machine.execLstr g l a imm s
  | .lidx g d l => Sys2Proof.Machine.execLidx g d l s
  | .lbrk g l => Sys2Proof.Machine.execLbrk g l s
  | .spawn g k a t => Sys2Proof.Machine.execSpawn g k a t s
  | .joinK g k => Sys2Proof.Machine.execJoin g k s
  | .safe g imm => Sys2Proof.Machine.execSafe g imm s
  | .halt g => Sys2Proof.Machine.execHalt g s
  | .trap g imm => Sys2Proof.Machine.execTrap g imm s
  | .vany g q ma => Sys2Proof.Machine.execVany g q ma s
  | .vall g q ma => Sys2Proof.Machine.execVall g q ma s
  | .waitt g a => Sys2Proof.Machine.execWaitt g a s
  | .waitl g a => Sys2Proof.Machine.execWaitl g a s
  | .psel g t a => Sys2Proof.Machine.execPsel g t a s
  | .brk g imm => Sys2Proof.Machine.execBrk g imm s
  | .tret g imm => Sys2Proof.Machine.execTret g imm s
  | .phase g => Sys2Proof.Machine.execPhase g s
  | .bar g => Sys2Proof.Machine.execBar g s
  | .send g ch va j => Sys2Proof.Machine.execSend g ch va j s
  | .recv g vd ch j => Sys2Proof.Machine.execRecv g vd ch j s
  | .sends g ch a => Sys2Proof.Machine.execSends g ch a s
  | .recvs g d ch => Sys2Proof.Machine.execRecvs g d ch s
  | .bacq g m => Sys2Proof.Machine.execBacq g m s
  | .brel g m => Sys2Proof.Machine.execBrel g m s
  | .precW g d a b => Sys2Proof.Machine.execPrec g d a b s
  | .preci g fs imm => Sys2Proof.Machine.execPreci g fs imm s
  | .shape g n vec a b => Sys2Proof.Machine.execShape g n vec a b s
  | .shapq g d a b => Sys2Proof.Machine.execShapq g d a b s
  | .view g w a b => Sys2Proof.Machine.execView g w a b s
  | .viewq g d w => Sys2Proof.Machine.execViewq g d w s
  | .getc g d x => Sys2Proof.Machine.execGetc g d x s
  | .setc g d x => Sys2Proof.Machine.execSetc g d x s
  | .stat g d j e => Sys2Proof.Machine.execStat g d j e s
  | .engy g d => Sys2Proof.Machine.execEngy g d s
  | .gtc g d => Sys2Proof.Machine.execGtc g d s
  | .lcr g d a => Sys2Proof.Machine.execLcr g d a s
  | .fence g => Sys2Proof.Machine.execFence g s
  | .invq g => Sys2Proof.Machine.execInvq g s
  | .svcYield g => Sys2Proof.Machine.execSvcYield g s
  | .svcFlush g => Sys2Proof.Machine.execSvcFlush g s
  | .cdsc g c a b => Sys2Proof.Machine.execCdsc g c a b s
  | .kzero g d a => Sys2Proof.Machine.execKzero g d a s
  | .scrb g d a b => Sys2Proof.Machine.execScrb g d a b s
  | .scrq g d a b => Sys2Proof.Machine.execScrq g d a b s
  | .frel g d a b => Sys2Proof.Machine.execFrel g d a b s
  | .plwr g d a b => Sys2Proof.Machine.execPlwr g d a b s
  | .btwr g d a b => Sys2Proof.Machine.execBtwr g d a b s
  | .qwrt g d a b => Sys2Proof.Machine.execQwrt g d a b s
  | .custodianResult id => Sys2Proof.Machine.execCustodianResult id s
  | .mma g sh x y => Sys2Proof.Machine.execMma g sh x y s
  | .mmaz g sh x y => Sys2Proof.Machine.execMmaz g sh x y s
  | .mdrn g f u sh add => Sys2Proof.Machine.execMdrn g f u sh add s
  | .mclr g => Sys2Proof.Machine.execMclr g s
  | .mscl g o x => Sys2Proof.Machine.execMscl g o x s
  | .mvcn g en imm => Sys2Proof.Machine.execMvcn g en imm s
  | .msta g d a => Sys2Proof.Machine.execMsta g d a s
  | .mmat g f u sh x y => Sys2Proof.Machine.execMmat g f u sh x y s
  | .matrixCheck t k block main check row col => Sys2Proof.Machine.execMatrixCheck t k block main check row col s
  | .cpl g rel u c => Sys2Proof.Machine.execCpl g rel u c s
  | .cpi g rel u c b => Sys2Proof.Machine.execCpi g rel u c b s
  | .cpo g rel u c b => Sys2Proof.Machine.execCpo g rel u c b s
  | .cpdi g rel u c b => Sys2Proof.Machine.execCpdi g rel u c b s
  | .cpdo g rel u c b => Sys2Proof.Machine.execCpdo g rel u c b s
  | .cps g rel u c b => Sys2Proof.Machine.execCps g rel u c b s
  | .cpg g rel u c b => Sys2Proof.Machine.execCpg g rel u c b s
  | .cpst g rel u c b => Sys2Proof.Machine.execCpst g rel u c b s
  | .cpb g rel u c b => Sys2Proof.Machine.execCpb g rel u c b s
  | .cpr g rel u c b => Sys2Proof.Machine.execCpr g rel u c b s
  | .copyComplete id => Sys2Proof.Machine.execCopyComplete id s
  | .vaddVa g d a b => Sys2Proof.Machine.execVaddVa g d a b s
  | .vaddVb g d a b => Sys2Proof.Machine.execVaddVb g d a b s
  | .vsubVa g d a b => Sys2Proof.Machine.execVsubVa g d a b s
  | .vsubVb g d a b => Sys2Proof.Machine.execVsubVb g d a b s
  | .vmulVa g d a b => Sys2Proof.Machine.execVmulVa g d a b s
  | .vmulVb g d a b => Sys2Proof.Machine.execVmulVb g d a b s
  | .vfmaVa g d a b => Sys2Proof.Machine.execVfmaVa g d a b s
  | .vfmaVb g d a b => Sys2Proof.Machine.execVfmaVb g d a b s
  | .vfmsVa g d a b => Sys2Proof.Machine.execVfmsVa g d a b s
  | .vfmsVb g d a b => Sys2Proof.Machine.execVfmsVb g d a b s
  | .vfnmaVa g d a b => Sys2Proof.Machine.execVfnmaVa g d a b s
  | .vfnmaVb g d a b => Sys2Proof.Machine.execVfnmaVb g d a b s
  | .vminVa g d a b => Sys2Proof.Machine.execVminVa g d a b s
  | .vminVb g d a b => Sys2Proof.Machine.execVminVb g d a b s
  | .vmaxVa g d a b => Sys2Proof.Machine.execVmaxVa g d a b s
  | .vmaxVb g d a b => Sys2Proof.Machine.execVmaxVb g d a b s
  | .vabsVa g d a => Sys2Proof.Machine.execVabsVa g d a s
  | .vabsVb g d a => Sys2Proof.Machine.execVabsVb g d a s
  | .vnegVa g d a => Sys2Proof.Machine.execVnegVa g d a s
  | .vnegVb g d a => Sys2Proof.Machine.execVnegVb g d a s
  | .vrcpeVa g d a => Sys2Proof.Machine.execVrcpeVa g d a s
  | .vrcpeVb g d a => Sys2Proof.Machine.execVrcpeVb g d a s
  | .vrsqeVa g d a => Sys2Proof.Machine.execVrsqeVa g d a s
  | .vrsqeVb g d a => Sys2Proof.Machine.execVrsqeVb g d a s
  | .vdiv g d a b => Sys2Proof.Machine.execVdiv g d a b s
  | .vsqrt g d a => Sys2Proof.Machine.execVsqrt g d a s
  | .vexp2 g d a => Sys2Proof.Machine.execVexp2 g d a s
  | .vlog2 g d a => Sys2Proof.Machine.execVlog2 g d a s
  | .viaddVa g d a b => Sys2Proof.Machine.execViaddVa g d a b s
  | .viaddVb g d a b => Sys2Proof.Machine.execViaddVb g d a b s
  | .visubVa g d a b => Sys2Proof.Machine.execVisubVa g d a b s
  | .visubVb g d a b => Sys2Proof.Machine.execVisubVb g d a b s
  | .vimulVa g d a b => Sys2Proof.Machine.execVimulVa g d a b s
  | .vimulVb g d a b => Sys2Proof.Machine.execVimulVb g d a b s
  | .vimacVa g d a b => Sys2Proof.Machine.execVimacVa g d a b s
  | .vimacVb g d a b => Sys2Proof.Machine.execVimacVb g d a b s
  | .vandVa g d a b => Sys2Proof.Machine.execVandVa g d a b s
  | .vandVb g d a b => Sys2Proof.Machine.execVandVb g d a b s
  | .vorVa g d a b => Sys2Proof.Machine.execVorVa g d a b s
  | .vorVb g d a b => Sys2Proof.Machine.execVorVb g d a b s
  | .vxorVa g d a b => Sys2Proof.Machine.execVxorVa g d a b s
  | .vxorVb g d a b => Sys2Proof.Machine.execVxorVb g d a b s
  | .vshlVa g d a b => Sys2Proof.Machine.execVshlVa g d a b s
  | .vshlVb g d a b => Sys2Proof.Machine.execVshlVb g d a b s
  | .vshrVa g d a b => Sys2Proof.Machine.execVshrVa g d a b s
  | .vshrVb g d a b => Sys2Proof.Machine.execVshrVb g d a b s
  | .vshraVa g d a b => Sys2Proof.Machine.execVshraVa g d a b s
  | .vshraVb g d a b => Sys2Proof.Machine.execVshraVb g d a b s
  | .vfceqVa g m a b => Sys2Proof.Machine.execVfceqVa g m a b s
  | .vfceqVb g m a b => Sys2Proof.Machine.execVfceqVb g m a b s
  | .vfcltVa g m a b => Sys2Proof.Machine.execVfcltVa g m a b s
  | .vfcltVb g m a b => Sys2Proof.Machine.execVfcltVb g m a b s
  | .vfcleVa g m a b => Sys2Proof.Machine.execVfcleVa g m a b s
  | .vfcleVb g m a b => Sys2Proof.Machine.execVfcleVb g m a b s
  | .viceqVa g m a b => Sys2Proof.Machine.execViceqVa g m a b s
  | .viceqVb g m a b => Sys2Proof.Machine.execViceqVb g m a b s
  | .vicltVa g m a b => Sys2Proof.Machine.execVicltVa g m a b s
  | .vicltVb g m a b => Sys2Proof.Machine.execVicltVb g m a b s
  | .vicleVa g m a b => Sys2Proof.Machine.execVicleVa g m a b s
  | .vicleVb g m a b => Sys2Proof.Machine.execVicleVb g m a b s
  | .vselVa g d a b => Sys2Proof.Machine.execVselVa g d a b s
  | .vselVb g d a b => Sys2Proof.Machine.execVselVb g d a b s
  | .vmovVa g d a => Sys2Proof.Machine.execVmovVa g d a s
  | .vmovVb g d a => Sys2Proof.Machine.execVmovVb g d a s
  | .vbcstVa g d a => Sys2Proof.Machine.execVbcstVa g d a s
  | .vbcstVb g d a => Sys2Proof.Machine.execVbcstVb g d a s
  | .vlaneVa g d a imm => Sys2Proof.Machine.execVlaneVa g d a imm s
  | .vlaneVb g d a imm => Sys2Proof.Machine.execVlaneVb g d a imm s
  | .vextVa g d a imm => Sys2Proof.Machine.execVextVa g d a imm s
  | .vextVb g d a imm => Sys2Proof.Machine.execVextVb g d a imm s
  | .vcvtVa g d a dst src part sat => Sys2Proof.Machine.execVcvtVa g d a dst src part sat s
  | .vcvtVb g d a dst src part sat => Sys2Proof.Machine.execVcvtVb g d a dst src part sat s
  | .vpackVa g d a f y x => Sys2Proof.Machine.execVpackVa g d a f y x s
  | .vpackVb g d a f y x => Sys2Proof.Machine.execVpackVb g d a f y x s
  | .vunpkVa g d a f y => Sys2Proof.Machine.execVunpkVa g d a f y s
  | .vunpkVb g d a f y => Sys2Proof.Machine.execVunpkVb g d a f y s
  | .vperm g d a b => Sys2Proof.Machine.execVperm g d a b s
  | .vrotlVa g d a imm => Sys2Proof.Machine.execVrotlVa g d a imm s
  | .vrotlVb g d a imm => Sys2Proof.Machine.execVrotlVb g d a imm s
  | .vrsum g d a => Sys2Proof.Machine.execVrsum g d a s
  | .vrmax g d a => Sys2Proof.Machine.execVrmax g d a s
  | .vldxVa g d a imm => Sys2Proof.Machine.execVldxVa g d a imm s
  | .vldxVb g d a imm => Sys2Proof.Machine.execVldxVb g d a imm s
  | .vstxVa g d a imm => Sys2Proof.Machine.execVstxVa g d a imm s
  | .vstxVb g d a imm => Sys2Proof.Machine.execVstxVb g d a imm s
  | .vtrdVa g d t a r => Sys2Proof.Machine.execVtrdVa g d t a r s
  | .vtrdVb g d t a r => Sys2Proof.Machine.execVtrdVb g d t a r s
  | .vtcd g d t a => Sys2Proof.Machine.execVtcd g d t a s
  | .vtrwVa g d t a r => Sys2Proof.Machine.execVtrwVa g d t a r s
  | .vtrwVb g d t a r => Sys2Proof.Machine.execVtrwVb g d t a r s
  | .vtcw g d t a => Sys2Proof.Machine.execVtcw g d t a s
  | .vmskVa g m ma mb o => Sys2Proof.Machine.execVmskVa g m ma mb o s
  | .vmskVb g m ma mb o => Sys2Proof.Machine.execVmskVb g m ma mb o s
  | .viotaVa g d a b => Sys2Proof.Machine.execViotaVa g d a b s
  | .viotaVb g d a b => Sys2Proof.Machine.execViotaVb g d a b s
  | .resultLanding t => Sys2Proof.Machine.execResultLanding t s
  | .endpointReply id => Sys2Proof.Machine.execEndpointReply id s
  | .phaseComplete t => Sys2Proof.Machine.execPhaseComplete t s
  | .barComplete t => Sys2Proof.Machine.execBarComplete t s
  | .waittRelease t k => Sys2Proof.Machine.execWaittRelease t k s
  | .bankCleared t k bank => Sys2Proof.Machine.execBankCleared t k bank s
  | .stallTimeout t => Sys2Proof.Machine.execStallTimeout t s
  | .safeBoundOverrun t => Sys2Proof.Machine.execSafeBoundOverrun t s
  | .hlpRrd x => Sys2Proof.Machine.execHlpRrd x s
  | .registerWrite x => Sys2Proof.Machine.execRegisterWrite x s
  | .hlpMrd x => Sys2Proof.Machine.execHlpMrd x s
  | .hlpMwr x => Sys2Proof.Machine.execHlpMwr x s
  | .hlpCpld x => Sys2Proof.Machine.execHlpCpld x s
  | .hlpCpl x => Sys2Proof.Machine.execHlpCpl x s
  | .hostReadTimeout tag => Sys2Proof.Machine.execHostReadTimeout tag s
  | .moduleDisabled m => Sys2Proof.Machine.execModuleDisabled m s
  | .pcreate => Sys2Proof.Machine.execPcreate s
  | .pdestroy => Sys2Proof.Machine.execPdestroy s
  | .colassign => Sys2Proof.Machine.execColassign s
  | .dsmassign => Sys2Proof.Machine.execDsmassign s
  | .dsmBankClearDone => Sys2Proof.Machine.execDsmBankClearDone s
  | .pooladd => Sys2Proof.Machine.execPooladd s
  | .poolrem => Sys2Proof.Machine.execPoolrem s
  | .uashare => Sys2Proof.Machine.execUashare s
  | .vcreate => Sys2Proof.Machine.execVcreate s
  | .vreset => Sys2Proof.Machine.execVreset s
  | .vresetComplete v => Sys2Proof.Machine.execVresetComplete v s
  | .vdestroy => Sys2Proof.Machine.execVdestroy s
  | .credit => Sys2Proof.Machine.execCredit s
  | .keyload => Sys2Proof.Machine.execKeyload s
  | .attest => Sys2Proof.Machine.execAttest s
  | .idcert => Sys2Proof.Machine.execIdcert s
  | .deviceReset => Sys2Proof.Machine.execDeviceReset s
  | .sidebandReset => Sys2Proof.Machine.execSidebandReset s
  | .firmwareVerify image => Sys2Proof.Machine.execFirmwareVerify image s
  | .packagePowerOn stk mods => Sys2Proof.Machine.execPackagePowerOn stk mods s
  | .binningComplete rows => Sys2Proof.Machine.execBinningComplete rows s
  | .plimWrite w => Sys2Proof.Machine.execPlimWrite w s
  | .ltolWrite p w => Sys2Proof.Machine.execLtolWrite p w s
  | .scrubctlWrite n w => Sys2Proof.Machine.execScrubctlWrite n w s
  | .uarctxWrite port j w => Sys2Proof.Machine.execUarctxWrite port j w s
  | .gtcincWrite w => Sys2Proof.Machine.execGtcincWrite w s
  | .gtcadjWrite w => Sys2Proof.Machine.execGtcadjWrite w s
  | .gtcsetWrite w => Sys2Proof.Machine.execGtcsetWrite w s
  | .gtcSlewDone => Sys2Proof.Machine.execGtcSlewDone s
  | .gtcHoldover => Sys2Proof.Machine.execGtcHoldover s
  | .loupeArm w => Sys2Proof.Machine.execLoupeArm w s
  | .tampctlWrite w => Sys2Proof.Machine.execTampctlWrite w s
  | .vfstatDegWrite v w => Sys2Proof.Machine.execVfstatDegWrite v w s
  | .gsub v w => Sys2Proof.Machine.execGsub v w s
  | .gcan v w => Sys2Proof.Machine.execGcan v w s
  | .eqctlWrite v w => Sys2Proof.Machine.execEqctlWrite v w s
  | .eqheadWrite v w => Sys2Proof.Machine.execEqheadWrite v w s
  | .eventRecordWrite v => Sys2Proof.Machine.execEventRecordWrite v s
  | .eqInterruptTimer v => Sys2Proof.Machine.execEqInterruptTimer v s
  | .arbiterEpoch => Sys2Proof.Machine.execArbiterEpoch s
  | .fastLimiter die => Sys2Proof.Machine.execFastLimiter die s
  | .sensorUpdate dieT stkT => Sys2Proof.Machine.execSensorUpdate dieT stkT s
  | .supplyExcursion => Sys2Proof.Machine.execSupplyExcursion s
  | .meshBreak => Sys2Proof.Machine.execMeshBreak s
  | .powerStateEntry e => Sys2Proof.Machine.execPowerStateEntry e s
  | .wakeComplete e => Sys2Proof.Machine.execWakeComplete e s
  | .portAdmit n => Sys2Proof.Machine.execPortAdmit n s
  | .rowRefresh n bank row => Sys2Proof.Machine.execRowRefresh n bank row s
  | .activationWindow => Sys2Proof.Machine.execActivationWindow s
  | .patrolScrubStep n => Sys2Proof.Machine.execPatrolScrubStep n s
  | .hotScrubStep n row => Sys2Proof.Machine.execHotScrubStep n row s
  | .patrolPeriodEnd n => Sys2Proof.Machine.execPatrolPeriodEnd n s
  | .retirementCopyDone n frame => Sys2Proof.Machine.execRetirementCopyDone n frame s
  | .leaseIncrement node n => Sys2Proof.Machine.execLeaseIncrement node n s
  | .leaseReply node n => Sys2Proof.Machine.execLeaseReply node n s
  | .leaseRelease node n => Sys2Proof.Machine.execLeaseRelease node n s
  | .pullReadReply id ok data => Sys2Proof.Machine.execPullReadReply id ok data s
  | .pullTimeout id => Sys2Proof.Machine.execPullTimeout id s
  | .remoteRequest x => Sys2Proof.Machine.execRemoteRequest x s
  | .invalidationDone id => Sys2Proof.Machine.execInvalidationDone id s
  | .invalidationTimeout id => Sys2Proof.Machine.execInvalidationTimeout id s
  | .polisherClearBlock n => Sys2Proof.Machine.execPolisherClearBlock n s
  | .linkTraining port width rtt => Sys2Proof.Machine.execLinkTraining port width rtt s
  | .laneLoss port width rtt => Sys2Proof.Machine.execLaneLoss port width rtt s
  | .linkReplay port hold => Sys2Proof.Machine.execLinkReplay port hold s
  | .skidSend port => Sys2Proof.Machine.execSkidSend port s
  | .messageLanding x => Sys2Proof.Machine.execMessageLanding x s
  | .creditReturn t ch => Sys2Proof.Machine.execCreditReturn t ch s
  | .collectiveStart cid => Sys2Proof.Machine.execCollectiveStart cid s
  | .reductionContribution w member group elems residue => Sys2Proof.Machine.execReductionContribution w member group elems residue s
  | .collectiveComplete cid => Sys2Proof.Machine.execCollectiveComplete cid s
  | .graphParse v => Sys2Proof.Machine.execGraphParse v s
  | .selectionRound die => Sys2Proof.Machine.execSelectionRound die s
  | .gangToken => Sys2Proof.Machine.execGangToken s
  | .priorityPreemption die => Sys2Proof.Machine.execPriorityPreemption die s
  | .dispatch node => Sys2Proof.Machine.execDispatch node s
  | .saveComplete node => Sys2Proof.Machine.execSaveComplete node s
  | .contextRestore node => Sys2Proof.Machine.execContextRestore node s
  | .phaseRestart node => Sys2Proof.Machine.execPhaseRestart node s
  | .nodeRetire node => Sys2Proof.Machine.execNodeRetire node s
  | .jobCardStart node => Sys2Proof.Machine.execJobCardStart node s
  | .jobCardComplete node => Sys2Proof.Machine.execJobCardComplete node s
  | .caratFlush => Sys2Proof.Machine.execCaratFlush s
  | .preemptionRequestArrival t kind => Sys2Proof.Machine.execPreemptionRequestArrival t kind s
  | .dsmBankRequest die bank => Sys2Proof.Machine.execDsmBankRequest die bank s
  | .rangeRegisterFill t k => Sys2Proof.Machine.execRangeRegisterFill t k s

end Sys2Proof.Machine
end

