-- ==== Sys2Proof/Machine/Step.lean ====
section
/-!
DEFINITION. The step, and how an instruction is placed where the next step fetches it.
-/

namespace Sys2Proof.Machine

/-- One step: the next act of the current cyc, else an input, else the clock's tick. -/
def step (s : State) : Host.Outcome State Fault Refusal :=
  match s.agenda with
  | .issue tid k :: rest => issueAct exec tid k { s with agenda := rest }
  | .event e :: rest => runEv e { s with agenda := rest }
  | [] =>
    match s.inputs with
    | [] => .next (tick s)
    | i :: rest => if mustWait s i then .next (tick s) else takeInput i { s with inputs := rest }

/-- A task of one column at the start of its code, which lies at INDEX 16. -/
def fetchTask : Task :=
  let prim : Seq := { seq0 with st := .running, own := 0x3F#6, rr := [(16, fetchEntry)] }
  { task0 with alive := true, cust := true, safeb := 2 ^ 17, code := 0x0010000000000000#64, seqs := [(0, prim)] }
where
  /-- The entry of the code buffer: 2 MiB of stack 0, untranslated, all rights (R112). -/
  fetchEntry : BitVec 256 := (0xFCC#256 <<< 180) ||| (0x200000#256 <<< 64)

/-- A state whose next step issues the group whose first word is `w`: a launched task with the word and NOPs behind it at bundle 0 of
its code. -/
def State.withFetchWord (s : State) (nbits w : Nat) : State :=
  let nop := natLe 4 0x80400000
  let t := physWrite s 0 0 (natLe 4 (w % 2 ^ min nbits 32) ++ nop ++ nop ++ nop)
  { t with tasks := [(0, fetchTask)], agenda := [.issue 0 0] }

end Sys2Proof.Machine
end

