-- ==== Sys2Proof/Safety.lean ====
section
/-!
DEFINITION. The terms that claims about the machine are made in: one byte of memory, the canonical form, what an operation
leaves alone, and which rows of the opcode table are slot operations.
-/

namespace Sys2Proof

/-- A row of the opcode table that has an encoding: a slot operation (R285); the others are events of the device. -/
def Instr.isSlot (i : Instr) : Bool := (encode i).isSome

namespace Machine

/-- One byte of memory, by its key: stack and physical address (`hbmKey`), or die, bank and byte (`dsmKey`). -/
def memAt (s : State) (key : Nat) : Byte := tabGet 0#8 s.mem key

/-- The canonical form of memory: keys rise strictly and no listed byte is the zero that an unlisted one reads as. -/
def Memory.wf (m : Tab Byte) : Bool := tabWf 0#8 m

/-- The invariant of the machine's memory. -/
def memoryOk (s : State) : Prop := Memory.wf s.mem = true

/-- Two states agree on everything outside the issuing sequencer, its task and the device's units. -/
def sameWorld (s t : State) : Prop :=
  t.mem = s.mem ∧ t.reqs = s.reqs ∧ t.tasks = s.tasks ∧ t.cyc = s.cyc ∧ t.inputs = s.inputs ∧ t.agenda = s.agenda
    ∧ t.tid = s.tid ∧ t.k = s.k ∧ t.free = s.free

/-- The registers and stores of a sequencer that change only when a result lands (R167). -/
def sameRegisters (p q : Seq) : Prop :=
  q.s = p.s ∧ q.q = p.q ∧ q.m = p.m ∧ q.prec = p.prec ∧ q.vwin = p.vwin ∧ q.fflags = p.fflags ∧ q.mvalid = p.mvalid
    ∧ q.trapv = p.trapv ∧ q.td = p.td ∧ q.av = p.av ∧ q.sh = p.sh ∧ q.lrs = p.lrs ∧ q.acc = p.acc ∧ q.scaleA = p.scaleA
    ∧ q.scaleB = p.scaleB ∧ q.cd = p.cd ∧ q.own = p.own ∧ q.clearing = p.clearing ∧ q.nan = p.nan ∧ q.ov = p.ov
    ∧ q.engc = p.engc ∧ q.units = p.units

/-- The trap registers of a sequencer (R255, R261). -/
def sameTrapRegs (p q : Seq) : Prop := q.tcause = p.tcause ∧ q.tinfo = p.tinfo ∧ q.hret = p.hret

/-- Where the flow of control of a sequencer stands (R311 to R316). -/
def sameFlow (p q : Seq) : Prop :=
  q.bt = p.bt ∧ q.loops = p.loops ∧ q.pend = p.pend ∧ q.pos = p.pos ∧ q.st = p.st ∧ q.nextLC = p.nextLC

/-- No trap has been taken by the operation that led here. -/
def noTrap (t : State) : Prop := t.ix.trap = none

/-- What an operation without traps leaves when all it does is to let results land later (R167) and to charge one scalar
operation (R155). -/
def scheduled (s : State) (ls : List Landing) : State := charge 5 1 { s with sq := { s.sq with land := s.sq.land ++ ls } }

/-- The landing of a scalar result of latency `l`: at the end of cycle `l`, counted from the group's last cycle as cycle 1 (R167);
none for s0, whose writes are discarded (R299). -/
def toS (s : State) (l : Nat) (d : BitVec 6) (v : Word) : List Landing :=
  if d = 0#6 then [] else [⟨s.ix.c, s.ix.cl + l - 1, .sreg d v⟩]

/-- The landing of a predicate of latency 1; none for q0. -/
def toQ (s : State) (q : BitVec 3) (v : Bool) : List Landing :=
  if q = 0#3 then [] else [⟨s.ix.c, s.ix.cl, .pred q v⟩]

/-- Group row `x` can be read in this cycle: its bank is owned (R184), and no column operation holds the read ports (R216). -/
def canRead (s : State) (x : Nat) : Prop :=
  ownsRow s.sq x = true ∧ ¬(s.sq.rdHold.1 ≤ s.ix.c ∧ s.ix.c < s.sq.rdHold.2)

/-- An operand is there for `n` read cycles: its latch is loaded, or its rows can be read (R184, R200, R216). -/
def operandReady (s : State) (n latch : Nat) (x : Src) : Prop :=
  (x = .hold → (tabFind s.sq.lat latch).isSome = true) ∧ ∀ j < n, ∀ r, srcRow s j x = some r → canRead s r

/-- SH3 holds no request, or a vector grant (R208). -/
def shapeReady (s : State) : Prop :=
  let v := tabGet 0#64 s.sq.sh 3
  (shG v = true ∧ shVec v = true) ∨ (shG v = false ∧ shVec v = false ∧ shQM v = 0 ∧ shQN v = 0)

/-- The group rows that a vector operation writes are in owned banks. -/
def rowsOwned (s : State) (dst : List Nat) : Prop := ∀ x ∈ dst, ownsRow s.sq x = true

/-- Window rows from `d` up, one per read cycle. -/
def resultRows (s : State) (d : Nat) : List Nat := (List.range (vecRows s)).map (fun j => winRow s (d + j))

/-- A vector operation of operands `a`, `b` and `d` with result rows from window row `dst` runs: some lane is on, SH3 is fit for it,
its operands are there and its result rows are owned. -/
def vecReady (vb on : Bool) (s : State) (a b d : Src) (dst : Nat) : Prop :=
  on = true ∧ shapeReady s ∧ operandReady s (vecRows s) (latchNo vb false) a ∧ operandReady s (vecRows s) (latchNo vb true) b ∧
    operandReady s (vecRows s) 4 d ∧ rowsOwned s (resultRows s dst)

end Machine

end Sys2Proof
end

