-- ==== Sys2Proof/Certificates/Slice0/Obligations.lean ====
section
/-!
DEFINITION. The statements for the provers.  `scheduled`, `toS`, `toQ` and the other terms they share are in Sys2Proof/Safety.lean.
-/

open Sys2Proof Sys2Proof.Machine

/-- R300: every register-register operation, with its value and its latency; nothing else changes but the charge.  The B field of
CLZ and POPC is zero. -/
def Obligations.RegisterArithmetic : Prop :=
  ∀ (g : Guard) (d a b : BitVec 6) (s : State), predOn g s = true →
    let x := readS s a
    let y := readS s b
    let k := y.toNat % 64
    exec (.add g d a b) s = .next (scheduled s (toS s 1 d (x + y))) ∧
    exec (.sub g d a b) s = .next (scheduled s (toS s 1 d (x - y))) ∧
    exec (.andS g d a b) s = .next (scheduled s (toS s 1 d (x &&& y))) ∧
    exec (.orS g d a b) s = .next (scheduled s (toS s 1 d (x ||| y))) ∧
    exec (.xorS g d a b) s = .next (scheduled s (toS s 1 d (x ^^^ y))) ∧
    exec (.shl g d a b) s = .next (scheduled s (toS s 1 d (x <<< k))) ∧
    exec (.shr g d a b) s = .next (scheduled s (toS s 1 d (x >>> k))) ∧
    exec (.shra g d a b) s = .next (scheduled s (toS s 1 d (x.sshiftRight k))) ∧
    exec (.rotr g d a b) s = .next (scheduled s (toS s 1 d (x.rotateRight k))) ∧
    (∃ n ≤ 64, exec (.clz g d a) s = .next (scheduled s (toS s 1 d (BitVec.ofNat 64 n))) ∧
      (∀ i, 64 - n ≤ i → i < 64 → x.getLsbD i = false) ∧ (n < 64 → x.getLsbD (63 - n) = true)) ∧
    exec (.popc g d a) s =
      .next (scheduled s (toS s 1 d (BitVec.ofNat 64 ((List.range 64).filter (fun i => x.getLsbD i)).length))) ∧
    exec (.minS g d a b) s = .next (scheduled s (toS s 1 d (BitVec.ofInt 64 (min x.toInt y.toInt)))) ∧
    exec (.maxS g d a b) s = .next (scheduled s (toS s 1 d (BitVec.ofInt 64 (max x.toInt y.toInt)))) ∧
    exec (.minn g d a b) s = .next (scheduled s (toS s 1 d (BitVec.ofNat 64 (min x.toNat y.toNat)))) ∧
    exec (.maxn g d a b) s = .next (scheduled s (toS s 1 d (BitVec.ofNat 64 (max x.toNat y.toNat)))) ∧
    exec (.mul g d a b) s = .next (scheduled s (toS s 3 d (BitVec.ofNat 64 (x.toNat * y.toNat % 2 ^ 64)))) ∧
    exec (.mulh g d a b) s = .next (scheduled s (toS s 3 d (BitVec.ofInt 64 (x.toInt * y.toInt / 2 ^ 64)))) ∧
    exec (.mulhn g d a b) s = .next (scheduled s (toS s 3 d (BitVec.ofNat 64 (x.toNat * y.toNat / 2 ^ 64)))) ∧
    ∀ (e : Option Byte) (w : SlotWord), decode e w = .ok (.clz g d a) ∨ decode e w = .ok (.popc g d a) → w.extractLsb' 0 6 = 0#6

/-- R301: the immediate forms.  An immediate is sign-extended from 6 bits, or from 14 with a header; LIH shifts by 12, or by 20
with a header, and adds the zero-extended immediate. -/
def Obligations.ImmediateArithmetic : Prop :=
  ∀ (g : Guard) (d a : BitVec 6) (i : Imm14) (n : BitVec 6) (j : Imm20) (s : State), predOn g s = true →
    j.ok = true →
    let x := readS s a
    let k : Word := if i.hdr then i.v.signExtend 64 else (i.v.extractLsb' 0 6).signExtend 64
    let w := if j.hdr then 20 else 12
    exec (.addi g d a i) s = .next (scheduled s (toS s 1 d (x + k))) ∧
    exec (.andi g d a i) s = .next (scheduled s (toS s 1 d (x &&& k))) ∧
    exec (.ori g d a i) s = .next (scheduled s (toS s 1 d (x ||| k))) ∧
    exec (.xori g d a i) s = .next (scheduled s (toS s 1 d (x ^^^ k))) ∧
    exec (.shli g d a n) s = .next (scheduled s (toS s 1 d (x <<< n.toNat))) ∧
    exec (.shri g d a n) s = .next (scheduled s (toS s 1 d (x >>> n.toNat))) ∧
    exec (.shrai g d a n) s = .next (scheduled s (toS s 1 d (x.sshiftRight n.toNat))) ∧
    exec (.lih g d j) s =
      .next (scheduled s (toS s 1 d (BitVec.ofNat 64 (((readS s d).toNat * 2 ^ w + j.v.toNat % 2 ^ w) % 2 ^ 64))))

/-- R302: the quotients and remainders of a divisor other than zero; a divisor of zero takes the divide trap, SUB 0x01 or 0x02. -/
def Obligations.Division : Prop :=
  ∀ (g : Guard) (d a b : BitVec 6) (s : State), predOn g s = true →
    let x := readS s a
    let y := readS s b
    let info : Word := BitVec.ofNat 64 (d.toNat + 64 * a.toNat + 4096 * b.toNat)
    (y ≠ 0#64 →
      exec (.div g d a b) s = .next (scheduled s (toS s 20 d (BitVec.ofInt 64 (x.toInt.tdiv y.toInt)))) ∧
      exec (.divn g d a b) s = .next (scheduled s (toS s 20 d (BitVec.ofNat 64 (x.toNat / y.toNat)))) ∧
      exec (.rem g d a b) s = .next (scheduled s (toS s 20 d (BitVec.ofInt 64 (x.toInt.tmod y.toInt)))) ∧
      exec (.remn g d a b) s = .next (scheduled s (toS s 20 d (BitVec.ofNat 64 (x.toNat % y.toNat))))) ∧
    (y = 0#64 →
      exec (.div g d a b) s = .next (takeTrap (trapOf s 0x08 0x01 x info 0#64) s) ∧
      exec (.divn g d a b) s = .next (takeTrap (trapOf s 0x08 0x01 x info 0#64) s) ∧
      exec (.rem g d a b) s = .next (takeTrap (trapOf s 0x08 0x02 x info 0#64) s) ∧
      exec (.remn g d a b) s = .next (takeTrap (trapOf s 0x08 0x02 x info 0#64) s))

/-- R303: the compares. R304: QMOV, MOVQ and QLOG. -/
def Obligations.Predicates : Prop :=
  (∀ (g : Guard) (q : BitVec 3) (a b : BitVec 6) (i : Imm14) (s : State), predOn g s = true →
    let x := readS s a
    let y := readS s b
    let k : Word := if i.hdr then i.v.signExtend 64 else (i.v.extractLsb' 0 6).signExtend 64
    exec (.ceq g q a b) s = .next (scheduled s (toQ s q (decide (x = y)))) ∧
    exec (.cne g q a b) s = .next (scheduled s (toQ s q (decide (x ≠ y)))) ∧
    exec (.clt g q a b) s = .next (scheduled s (toQ s q (decide (x.toInt < y.toInt)))) ∧
    exec (.cle g q a b) s = .next (scheduled s (toQ s q (decide (x.toInt ≤ y.toInt)))) ∧
    exec (.cltn g q a b) s = .next (scheduled s (toQ s q (decide (x.toNat < y.toNat)))) ∧
    exec (.clen g q a b) s = .next (scheduled s (toQ s q (decide (x.toNat ≤ y.toNat)))) ∧
    exec (.ceqi g q a i) s = .next (scheduled s (toQ s q (decide (x = k)))) ∧
    exec (.clti g q a i) s = .next (scheduled s (toQ s q (decide (x.toInt < k.toInt))))) ∧
  (∀ (g : Guard) (q qa qb o : BitVec 3) (d a : BitVec 6) (s : State), predOn g s = true →
    let x := readQ s qa
    let y := readQ s qb
    let z := match o.toNat with
      | 0 => x && y
      | 1 => x || y
      | 2 => x != y
      | 3 => x && !y
      | 4 => x || !y
      | 5 => !(x && y)
      | 6 => !(x || y)
      | _ => x == y
    exec (.qmov g q a) s = .next (scheduled s (toQ s q (decide (readS s a ≠ 0#64)))) ∧
    (∃ v : Word, exec (.movq g d) s = .next (scheduled s (toS s 1 d v)) ∧ v.toNat < 256 ∧
      ∀ n : BitVec 3, v.getLsbD n.toNat = readQ s n) ∧
    exec (.qlog g q qa qb o) s = .next (scheduled s (toQ s q z)))

/-- R305: SEL executes whatever its P and N fields hold. R279: in a slot that a loop flag turns off it is charged as one operation
(R155) and does nothing else. -/
def Obligations.Select : Prop :=
  ∀ (g : Guard) (d a b : BitVec 6) (s : State),
    (s.ix.off = false → exec (.sel g d a b) s =
      .next (scheduled s (toS s 1 d (if readQ s g.p ≠ g.n then readS s a else readS s b)))) ∧
    (s.ix.off = true → exec (.sel g d a b) s = .next (charge 5 1 s))

/-- R306: buffer addresses are built and adjusted without checks, and an offset never carries into INDEX. -/
def Obligations.BufferAddresses : Prop :=
  ∀ (g : Guard) (d a b : BitVec 6) (i : Imm14) (s : State), predOn g s = true →
    let k : Word := if i.hdr then i.v.signExtend 64 else (i.v.extractLsb' 0 6).signExtend 64
    (∃ v : Word, exec (.badr g d a b) s = .next (scheduled s (toS s 1 d v)) ∧
      v.toNat / 2 ^ 48 = (readS s a).toNat % 2 ^ 16 ∧ v.toNat % 2 ^ 48 = (readS s b).toNat % 2 ^ 48) ∧
    (∃ v : Word, exec (.boff g d a i) s = .next (scheduled s (toS s 1 d v)) ∧
      v.toNat / 2 ^ 48 = (readS s a).toNat / 2 ^ 48 ∧ (v.toNat : Int) % 2 ^ 48 = ((readS s a).toInt + k.toInt) % 2 ^ 48)

/-- R310: LDL and STL move 8 bytes of the LRS; a row in a bank that the task does not own takes the busy-resource fault. -/
def Obligations.LrsLoadStore : Prop :=
  ∀ (g : Guard) (d a : BitVec 6) (i : Imm14) (s : State), predOn g s = true → 0 < s.tk.g →
    let k : Word := if i.hdr then i.v.signExtend 64 else (i.v.extractLsb' 0 6).signExtend 64
    let x := ldlAddr s.tk.g (readS s a) i
    let r := x / (128 * s.tk.g)
    let col := x % (128 * s.tk.g) / 128
    (x : Int) = (((readS s a).toNat : Int) + k.toInt * 8) % ((2304 * 128 * s.tk.g : Nat) : Int) / 8 * 8 ∧
    (ownsRow s.sq r = true → ¬(s.sq.rdHold.1 ≤ s.ix.c ∧ s.ix.c < s.sq.rdHold.2) →
      ∃ v : Word, exec (.ldl g d a i) s = .next (charge 5 1 (charge 1 1 (landS s 3 d v))) ∧
        ∀ n < 8, v.extractLsb' (8 * n) 8 = tabGet 0#8 s.sq.lrs (x + n)) ∧
    (ownsRow s.sq r = true →
      exec (.stl g d a i) s = .next (scheduled s
        [⟨s.ix.c, s.ix.cl, .row r (1#4 <<< col)
          ((List.range 8).map (fun n => (x + n, (readS s d).extractLsb' (8 * n) 8))) 0#5⟩])) ∧
    (ownsRow s.sq r = false →
      exec (.ldl g d a i) s = .next (takeTrap (timing s 0x02 6 (r % 6) (seqCol s + col) never (w64 r)) s) ∧
      exec (.stl g d a i) s = .next (takeTrap (timing s 0x02 6 (r % 6) (seqCol s + col) never (w64 r)) s))

/-- R307, R308: a load or store passes the checks of R113 on the bytes at Concat(a[63:48], (a[47:0] + I × z) mod 2^48), or traps and
accesses nothing; having passed, it starts its access. -/
def Obligations.ScalarMemory : Prop :=
  ∀ (g : Guard) (d a : BitVec 6) (i : Imm14) (s : State), predOn g s = true →
    let k : Word := if i.hdr then i.v.signExtend 64 else (i.v.extractLsb' 0 6).signExtend 64
    let at' (z : Nat) := elemAddr (readS s a) i z
    (∀ z : Nat, (at' z).toNat / 2 ^ 48 = (readS s a).toNat / 2 ^ 48 ∧
      ((at' z).toNat : Int) % 2 ^ 48 = (((readS s a).toNat : Int) + k.toInt * z) % 2 ^ 48) ∧
    (∀ (z : Nat) (e : BitVec 256), check s true false false false kLoad (at' z) z = .ok e →
      scalarOverlap s false (at' z) z = .ok () →
      (z = 1 → exec (.ldb g d a i) s = .next (charge 5 1 (loadEffect 1 d (at' 1) e s))) ∧
      (z = 2 → exec (.ldh g d a i) s = .next (charge 5 1 (loadEffect 2 d (at' 2) e s))) ∧
      (z = 4 → exec (.ldw g d a i) s = .next (charge 5 1 (loadEffect 4 d (at' 4) e s))) ∧
      (z = 8 → exec (.ldd g d a i) s = .next (charge 5 1 (loadEffect 8 d (at' 8) e s)))) ∧
    (∀ (z : Nat) (e : BitVec 256), check s false true false false kStore (at' z) z = .ok e →
      scalarOverlap s true (at' z) z = .ok () →
      (z = 1 → exec (.stb g d a i) s = .next (charge 5 1 (storeEffect 1 (readS s d) (at' 1) e s))) ∧
      (z = 2 → exec (.sth g d a i) s = .next (charge 5 1 (storeEffect 2 (readS s d) (at' 2) e s))) ∧
      (z = 4 → exec (.stw g d a i) s = .next (charge 5 1 (storeEffect 4 (readS s d) (at' 4) e s))) ∧
      (z = 8 → exec (.std g d a i) s = .next (charge 5 1 (storeEffect 8 (readS s d) (at' 8) e s)))) ∧
    (∀ (z : Nat) (t : Trap), check s true false false false kLoad (at' z) z = .error t →
      (z = 1 → exec (.ldb g d a i) s = .next (takeTrap t s)) ∧ (z = 2 → exec (.ldh g d a i) s = .next (takeTrap t s)) ∧
      (z = 4 → exec (.ldw g d a i) s = .next (takeTrap t s)) ∧ (z = 8 → exec (.ldd g d a i) s = .next (takeTrap t s))) ∧
    (∀ (z : Nat) (t : Trap), check s false true false false kStore (at' z) z = .error t →
      (z = 1 → exec (.stb g d a i) s = .next (takeTrap t s)) ∧ (z = 2 → exec (.sth g d a i) s = .next (takeTrap t s)) ∧
      (z = 4 → exec (.stw g d a i) s = .next (takeTrap t s)) ∧ (z = 8 → exec (.std g d a i) s = .next (takeTrap t s)))

/-- R309: the atomics act on the aligned atom and need the rights A and W. R249, R309: what the memory side of each atomic leaves in
the atom that holds `old`; ACAS compares with the first operand. -/
def Obligations.Atomics : Prop :=
  (∀ (g : Guard) (d a b : BitVec 6) (s : State), predOn g s = true →
    let ba := readS s a &&& ~~~7#64
    let y := natLe 8 (readS s b).toNat
    (∀ e : BitVec 256, check s false true true false kAtomic ba 8 = .ok e → scalarOverlap s true ba 8 = .ok () →
      exec (.aadd g d a b) s = .next (charge 5 1 (atomicEffect .aadd d y ba e s)) ∧
      exec (.amin g d a b) s = .next (charge 5 1 (atomicEffect .amin d y ba e s)) ∧
      exec (.amax g d a b) s = .next (charge 5 1 (atomicEffect .amax d y ba e s)) ∧
      exec (.aor g d a b) s = .next (charge 5 1 (atomicEffect .aor d y ba e s)) ∧
      exec (.axch g d a b) s = .next (charge 5 1 (atomicEffect .axch d y ba e s)) ∧
      exec (.acas g d a b) s = .next (charge 5 1 (atomicEffect .acas d (natLe 8 (readS s d).toNat ++ y) ba e s))) ∧
    (∀ t : Trap, check s false true true false kAtomic ba 8 = .error t →
      exec (.aadd g d a b) s = .next (takeTrap t s) ∧ exec (.amin g d a b) s = .next (takeTrap t s) ∧
      exec (.amax g d a b) s = .next (takeTrap t s) ∧ exec (.aor g d a b) s = .next (takeTrap t s) ∧
      exec (.axch g d a b) s = .next (takeTrap t s) ∧ exec (.acas g d a b) s = .next (takeTrap t s))) ∧
  (∀ (x y d : Word),
    let old := natLe 8 x.toNat
    let b := natLe 8 y.toNat
    let e := natLe 8 d.toNat
    atomResult .aadd old b = some (natLe 8 (x + y).toNat) ∧
    atomResult .amin old b = some (if x.toInt ≤ y.toInt then old else b) ∧
    atomResult .amax old b = some (if x.toInt ≤ y.toInt then b else old) ∧
    atomResult .aor old b = some (natLe 8 (x ||| y).toNat) ∧
    atomResult .axch old b = some b ∧
    atomResult .acas old (e ++ b) = (if x = d then some b else none))

/-- R242: an access of n bytes of a buffer is cut into pieces that cover exactly its bytes in order, each within one 64-byte block
of the buffer's home (R117: a linear DSM buffer may start inside a block). -/
def Obligations.PiecesCover : Prop :=
  ∀ (e : BitVec 256) (off n : Nat),
    (piecesIn e off n).flatMap (fun p => (List.range p.2.2).map (fun k => (p.1 + k, p.2.1 + k)))
      = (List.range n).map (fun k => (k, off + k)) ∧
    ∀ p ∈ piecesIn e off n, 0 < p.2.2 ∧
      (entryShift e + p.2.1) / 64 = (entryShift e + p.2.1 + p.2.2 - 1) / 64

/-- R311: PBR and PBRR write one bt register, and nothing else changes but the charge. R311, R312: BR, BRC, CALL and RET with a
readable bt register and no pending transfer.  A transfer of any of them that is taken while another is pending takes the busy-resource
fault; BR, BRC, taken or not, CALL, LOOP and LOOPI with a bt register that is empty or too young take the missing-producer fault.  The
target issues after two delay groups. -/
def Obligations.Branches : Prop :=
  (∀ (g : Guard) (t : BitVec 2) (i : Imm20) (a : BitVec 6) (s : State), predOn g s = true →
    let k : Word := if i.hdr then i.v.signExtend 64 else (i.v.extractLsb' 0 12).signExtend 64
    let writes (bundle : Nat) (u : State) : Prop :=
      tabFind u.sq.bt t.toNat = some ⟨bundle, s.ix.c, s.sq.grp⟩ ∧
      (∀ n, n ≠ t.toNat → tabFind u.sq.bt n = tabFind s.sq.bt n) ∧
      u = charge 5 1 { s with sq := { s.sq with bt := u.sq.bt } }
    (∃ u, exec (.pbr g t i) s = .next u ∧ writes ((BitVec.ofNat 64 s.ix.bundle + k).toNat % 2 ^ 32) u) ∧
    (∃ u, exec (.pbrr g t a) s = .next u ∧ writes ((readS s a).toNat % 2 ^ 32) u)) ∧
  (∀ (g : Guard) (t : BitVec 2) (a : BitVec 6) (s : State), predOn g s = true →
    let pended (target : Nat) : State := { s with sq := { s.sq with pend := some ⟨target, 2, 6⟩ } }
    (s.sq.pend = none →
      exec (.ret g) s = .next (charge 5 1 (pended ((readS s 63#6).toNat % 2 ^ 32))) ∧
      ∀ b, tabFind s.sq.bt t.toNat = some b → b.grp + 3 ≤ s.sq.grp →
        exec (.br g t) s = .next (charge 5 1 (pended b.bundle)) ∧
        exec (.brc g t a) s = .next (charge 5 1 (if readS s a = 0#64 then s else pended b.bundle)) ∧
        exec (.call g t) s = .next (charge 5 1 (landIn (pended b.bundle) 1 .link))) ∧
    (∀ p, s.sq.pend = some p →
      let busy : State := takeTrap (timing s 0x02 9 0x84 (seqCol s) (w64 (s.ix.c + p.left)) 0#64) s
      exec (.ret g) s = .next busy ∧
      ∀ b, tabFind s.sq.bt t.toNat = some b → b.grp + 3 ≤ s.sq.grp →
        exec (.br g t) s = .next busy ∧ exec (.call g t) s = .next busy ∧
        exec (.brc g t a) s = .next (if readS s a = 0#64 then charge 5 1 s else busy)) ∧
    (∀ (l : BitVec 3) (i : BitVec 20) (lc : Word),
      (tabFind s.sq.bt t.toNat = none ∧ lc = never ∨
        ∃ b, tabFind s.sq.bt t.toNat = some b ∧ s.sq.grp < b.grp + 3 ∧ lc = w64 b.lc) →
      ∀ u ∈ [Instr.br g t, .brc g t a, .call g t, .loop g l a t, .loopi g l t i],
        exec u s = .next (takeTrap (timing s 0x01 9 (0x80 + t.toNat) (seqCol s) lc (w64 t.toNat)) s)) ∧
    (∀ target drop ls last next,
      (afterGroup (some ⟨target, 2, drop⟩) ls last next).1 = some ⟨target, 1, drop⟩ ∧
      (afterGroup (some ⟨target, 1, drop⟩) ls last next).1 = none ∧
      (afterGroup (some ⟨target, 1, drop⟩) ls last next).2.2 = (⟨target, 0⟩, .target)))

/-- R314: LOOP and LOOPI with a valid structure start the level, or go past the body when the count is 0; a level that is active, or
lies below an active one, takes the busy-resource fault. R316, R317: LSTR, LIDX and LBRK, whose transfer takes that fault too while another is pending (R312). -/
def Obligations.Loops : Prop :=
  (∀ (g : Guard) (l : BitVec 3) (t : BitVec 2) (a : BitVec 6) (i : BitVec 20) (b : Bt) (s : State), predOn g s = true →
    tabFind s.sq.bt t.toNat = some b → b.grp + 3 ≤ s.sq.grp →
    let first := s.ix.last.bundle + 1
    let old := getLoop s l
    let started (count : Nat) : State :=
      if count = 0 then { s with ix := { s.ix with jump := some ⟨b.bundle + 1, 0⟩ } }
      else setLoop l { old with
        active := true, count := count, iter := 0, idx := old.start, stride := old.next, sB := first, eB := b.bundle } s
    (old.active = false → (∀ n, l.toNat < n → n < 6 → (tabGet loopOff s.sq.loops n).active = false) →
      first ≤ b.bundle → b.bundle ≤ first + 255 →
      exec (.loop g l a t) s = .next (charge 5 1 (started (readS s a).toNat)) ∧
      exec (.loopi g l t i) s = .next (charge 5 1 (started i.toNat))) ∧
    ((old.active = true ∨ (∃ n, l.toNat < n ∧ n < 6 ∧ (tabGet loopOff s.sq.loops n).active = true) ∨ b.bundle < first
        ∨ first + 255 < b.bundle) →
      exec (.loop g l a t) s = .next (takeTrap (timing s 0x02 9 (0x40 + l.toNat) (seqCol s) never (w64 l.toNat)) s) ∧
      exec (.loopi g l t i) s = .next (takeTrap (timing s 0x02 9 (0x40 + l.toNat) (seqCol s) never (w64 l.toNat)) s))) ∧
  (∀ (g : Guard) (l : BitVec 3) (d a : BitVec 6) (i : Imm14) (s : State), predOn g s = true →
    let k : Word := if i.hdr then i.v.signExtend 64 else (i.v.extractLsb' 0 6).signExtend 64
    exec (.lstr g l a i) s = .next (charge 5 1 (setLoop l { getLoop s l with lstr := true, start := readS s a, next := k } s)) ∧
    exec (.lidx g d l) s = .next (scheduled s (toS s 1 d (getLoop s l).idx)) ∧
    ((getLoop s l).active = true → s.sq.pend = none →
      exec (.lbrk g l) s = .next (charge 5 1
        { s with sq := { s.sq with pend := some ⟨(getLoop s l).eB + 1, 2, l.toNat⟩ } })) ∧
    (∀ p, (getLoop s l).active = true → s.sq.pend = some p →
      exec (.lbrk g l) s = .next (takeTrap (timing s 0x02 9 0x84 (seqCol s) (w64 (s.ix.c + p.left)) 0#64) s)) ∧
    ((getLoop s l).active = false →
      exec (.lbrk g l) s = .next (takeTrap (timing s 0x02 9 (0x40 + l.toNat) (seqCol s) never (w64 l.toNat)) s)) ∧
    (∀ ls last next n, n < 6 →
      (tabGet loopOff (afterGroup (some ⟨(getLoop s l).eB + 1, 1, l.toNat⟩) ls last next).2.1 n).active =
        (decide (n < l.toNat) && (tabGet loopOff ls n).active)))

/-- R315: after a group that ends at slot 3 of the end bundle of the one active level, the level loops back with its index moved by
its stride, or ends when its iterations are done; after any other group issue goes on in sequence. -/
def Obligations.LoopBack : Prop :=
  ∀ (n : Nat) (ls : Tab Loop) (last next : Pos), n < 6 → (tabGet loopOff ls n).active = true →
    (∀ m, m < 6 → m ≠ n → (tabGet loopOff ls m).active = false) →
    let l := tabGet loopOff ls n
    let r := loopBack last next 6 ls
    (last.bundle = l.eB → last.slot = 3 → l.iter + 1 < l.count →
      r.2 = ⟨l.sB, 0⟩ ∧ tabGet loopOff r.1 n = { l with iter := l.iter + 1, idx := l.idx + l.stride }) ∧
    (last.bundle = l.eB → last.slot = 3 → l.count ≤ l.iter + 1 →
      r.2 = next ∧ (tabGet loopOff r.1 n).active = false) ∧
    ((last.bundle ≠ l.eB ∨ last.slot ≠ 3) → r = (ls, next))

/-- R165, R166, R257, R318: SPAWN of an idle sibling and JOIN; a SPAWN of a sibling that is busy, or that halts at this LC, takes the
spawn-busy trap, whatever the branch target holds, and one with an empty branch target the missing-producer fault (R311); their operands out of range, and their issue by a sibling, are illegal
encodings whatever the predicate. R165: what a SPAWNed sibling starts with: eight arguments in s1 to s8 and zero in every other
scalar register, its first group at the target two cycles later, PREC as in force, and no branch target, loop, transfer or trap
state. -/
def Obligations.Siblings : Prop :=
  (∀ (g : Guard) (k t : BitVec 2) (a : BitVec 6) (s : State),
    (s.k = 0 → predOn g s = true → k ≠ 0#2 → k.toNat ≤ s.tk.nsib →
      (∀ q, tabFind s.tk.seqs k.toNat = some q → a ≠ 0#6 → a.toNat ≤ 56 →
        let halting := q.haltLC = s.ix.c ∧ q.startLC ≤ s.ix.c ∧ s.ix.c ≠ 0
        (∀ b, tabFind s.sq.bt t.toNat = some b → b.grp + 3 ≤ s.sq.grp → seqBusy q = false → ¬halting →
          exec (.spawn g k a t) s = .next (charge 5 1 (putSeq k.toNat (spawned s a b.bundle q) s))) ∧
        (seqBusy q = true ∨ halting →
          exec (.spawn g k a t) s = .next (takeTrap (trapOf s 0x07 0x01 (w64 k.toNat) (w64 q.startLC) 0#64) s)) ∧
        (seqBusy q = false → ¬halting → tabFind s.sq.bt t.toNat = none → exec (.spawn g k a t) s =
          .next (takeTrap (timing s 0x01 9 (0x80 + t.toNat) (seqCol s) never (w64 t.toNat)) s))) ∧
      (∀ q, tabFind s.tk.seqs k.toNat = some q → seqBusy q = false → exec (.joinK g k) s = .next (charge 5 1 s)) ∧
      (∀ q, tabFind s.tk.seqs k.toNat = some q → seqBusy q = true →
        exec (.joinK g k) s = .next (charge 5 1 { s with sq := { s.sq with st := .joining k.toNat } }))) ∧
    (s.k ≠ 0 →
      exec (.spawn g k a t) s = .next (takeTrap (illegal s 0x0B) s) ∧
      exec (.joinK g k) s = .next (takeTrap (illegal s 0x0B) s)) ∧
    (s.k = 0 → (k = 0#2 ∨ s.tk.nsib < k.toNat) →
      exec (.spawn g k a t) s = .next (takeTrap (illegal s 0x0C) s) ∧
      exec (.joinK g k) s = .next (takeTrap (illegal s 0x0C) s)) ∧
    (s.k = 0 → (a = 0#6 ∨ 56 < a.toNat) → exec (.spawn g k a t) s = .next (takeTrap (illegal s 0x0C) s))) ∧
  (∀ (s : State) (a : BitVec 6) (target : Nat) (q : Seq), a.toNat ≤ 56 →
    let u := spawned s a target q
    (∀ i < 8, tabGet 0#64 u.s (i + 1) = tabGet 0#64 s.sq.s (a.toNat + i)) ∧
    (∀ n, 8 < n → tabGet 0#64 u.s n = 0#64) ∧
    u.st = .running ∧ u.pos = ⟨target, 0⟩ ∧ u.startLC = s.ix.c + 2 ∧ u.nextLC = s.ix.c + 2 ∧ u.prec = s.sq.prec ∧
    u.q = 0#8 ∧ u.m = [] ∧ u.bt = [] ∧ u.loops = [] ∧ u.pend = none ∧ u.hret = none ∧ u.trapv = 0#64 ∧ u.tcause = 0#64 ∧
    u.tinfo = [] ∧ u.vwin = 0#64 ∧ u.fflags = 0#64 ∧ u.td = [] ∧ u.av = [] ∧ u.sh = [] ∧ u.lat = [])

/-- R185 to R188, R319: a SAFE of the primary at an empty pipeline is a safe point, and takes a pre-emption that arrived before.  A store
that met uncorrectable data takes its trap before every other (R36, R258); a live-list index out of range, and a SAFE of a sibling, are
illegal encodings; a pipeline that is not empty takes the timing fault. -/
def Obligations.SafePoint : Prop :=
  ∀ (g : Guard) (i : BitVec 12) (s : State),
    (s.k = 0 → i.toNat < s.tk.obj.live.length → predOn g s = true → pipelineEmpty s = .ok () → s.tk.serr = none →
      (s.tk.preempt = none → exec (.safe g i) s = .next (charge 5 1 (quiesce { s with tk := { s.tk with sref := s.ix.c } }))) ∧
      (∀ p, s.tk.preempt = some p → s.tk.preAt < s.cyc → ∃ t, exec (.safe g i) s = .next t ∧
        t.tk.taken = some (p, i.toNat) ∧ t.tk.preempt = none ∧ t.tk.sref = s.ix.c ∧ t.sq = { s.sq with rr := [] })) ∧
    (∀ t, s.k = 0 → i.toNat < s.tk.obj.live.length → predOn g s = true → s.tk.serr = none → pipelineEmpty s = .error t →
      exec (.safe g i) s = .next (takeTrap t s)) ∧
    (∀ e, predOn g s = true → s.tk.serr = some e →
      exec (.safe g i) s =
        .next (takeTrap { trapOf s 0x0E 0x03 e.1 e.2 (w64 kStore) with slot := 0, gaddr := some e.1 } s)) ∧
    ((predOn g s = false ∨ s.tk.serr = none) →
      (s.k ≠ 0 → exec (.safe g i) s = .next (takeTrap (illegal s 0x0B) s)) ∧
      (s.k = 0 → s.tk.obj.live.length ≤ i.toNat → exec (.safe g i) s = .next (takeTrap (illegal s 0x01) s)))

/-- R166, R183: HALT makes a sibling idle and discards its pending transfer; the primary halts once no sibling is busy, and until
then issues HALT's group again. R36: at a store that met uncorrectable data it takes its trap instead. -/
def Obligations.Halting : Prop :=
  (∀ (g : Guard) (e : Word × Nat) (s : State), predOn g s = true → s.tk.serr = some e →
    exec (.halt g) s =
      .next (takeTrap { trapOf s 0x0E 0x03 e.1 e.2 (w64 kStore) with slot := 0, gaddr := some e.1 } s)) ∧
  ∀ (g : Guard) (s : State), predOn g s = true → s.tk.serr = none →
    (s.k ≠ 0 → exec (.halt g) s =
      .next (charge 5 1 { s with sq := { s.sq with st := .idle, haltLC := s.ix.c, pend := none } })) ∧
    (s.k = 0 → (∀ e ∈ s.tk.seqs, seqBusy e.2 = false) → exec (.halt g) s =
      .next (charge 5 1 { s with sq := { s.sq with st := .halted, haltLC := s.ix.c, pend := none } })) ∧
    (s.k = 0 → (∃ e ∈ s.tk.seqs, seqBusy e.2 = true) → exec (.halt g) s =
      .next (charge 5 1 { s with
        sq := { s.sq with st := .halting, pend := none }, ix := { s.ix with jump := some s.ix.pos, keep := true } }))

/-- R298: NOP completes in every state and changes nothing. R284, R266: ILLEGAL completes in every state by its one effect, the
illegal-encoding trap SUB 0x06, whatever its predicate. R320, R262: TRAP and BRK take their traps with the immediate in TINFO0; TRET
in a handler goes to the return group, or with 1 to the group after it, and is an illegal encoding elsewhere. -/
def Obligations.TrapsFromCode : Prop :=
  (∀ (stop : Bool) (s : State), exec (.nop stop) s = .next s) ∧
  (∀ (stop : Bool) (p : BitVec 3) (n : Bool) (o : BitVec 18) (s : State), ∃ t, exec (.illegal stop p n o) s = .next t ∧
    t = takeTrap (trapOf s 0x01 0x06 (s.ix.word.setWidth 64) (w64 s.ix.bundle) 0#64) s) ∧
  ∀ (g : Guard) (i : BitVec 20) (s : State), predOn g s = true →
    exec (.trap g i) s = .next (takeTrap (trapOf s 0x0C 0x01 (i.setWidth 64) 0#64 0#64) s) ∧
    exec (.brk g i) s = .next (takeTrap (trapOf s 0x0D 0x01 (i.setWidth 64) 0#64 0#64) s) ∧
    (∀ r, s.sq.hret = some r →
      exec (.tret g false) s = .next (charge 5 1 { s with
        sq := { s.sq with hret := none, pend := r.pend, loops := r.loops, via := r.via }
        ix := { s.ix with jump := some r.ret, keep := true } }) ∧
      (let gr := groupAt s r.ret
       let a := afterGroup r.pend r.loops (groupLast r.ret gr) (groupNext r.ret gr)
       exec (.tret g true) s = .next (charge 5 1 { s with
        sq := { s.sq with hret := none, pend := a.1, loops := a.2.1, via := a.2.2.2 }
        ix := { s.ix with jump := some a.2.2.1, keep := true } }))) ∧
    (s.sq.hret = none → ∀ one, exec (.tret g one) s = .next (takeTrap (illegal s 0x12) s))

/-- R255, R256, R261, R262: taking a trap.  A divide, TRAP or BRK with TRAPV.EN set and outside a handler enters the handler: the
trap registers are written, the return state is recorded, the next group is at HANDLER one cycle later with no loop active and no
transfer pending.  Every other trap ends or restarts the task.  Memory, the scalar registers and the control registers other than
TCAUSE and TINFO are left alone either way; a trap inside a handler has NEST set. -/
def Obligations.TrapEntry : Prop :=
  ∀ (t : Trap) (s : State), t.sub < 256 → t.cause < 256 → t.slot < 8 → s.k < 4 →
    let u := takeTrap t s
    let code (res nest : Bool) : Nat :=
      t.sub + 2 ^ 8 * t.cause + 2 ^ 16 * s.k + 2 ^ 24 * t.slot + (if nest then 2 ^ 30 else 0) + (if res then 2 ^ 31 else 0)
    let handler := t.cause = 0x08 ∨ t.cause = 0x0C ∨ t.cause = 0x0D
    tabGet 0#64 u.sq.tinfo 0 = t.ti0 ∧ tabGet 0#64 u.sq.tinfo 1 = t.ti1 ∧ tabGet 0#64 u.sq.tinfo 2 = t.ti2 ∧
    sameRegisters s.sq u.sq ∧ u.sq.land = s.sq.land ∧ sameWorld s u ∧
    (handler → s.sq.trapv.getLsbD 63 = true → s.sq.hret = none →
      u.sq.tcause.toNat = code true false ∧ u.sq.pos = ⟨s.sq.trapv.toNat % 2 ^ 32, 0⟩ ∧ u.sq.nextLC = s.ix.c + 1 ∧
      u.sq.pend = none ∧ (∀ n < 6, (tabGet loopOff u.sq.loops n).active = false) ∧
      (∃ r, u.sq.hret = some r ∧ tabGet 0#64 u.sq.tinfo 3 = w64 r.ret.bundle ∧
        (t.cause = 0x08 → r = ⟨s.ix.pos, s.sq.via, s.sq.pend, s.sq.loops⟩)) ∧
      u.tk = { s.tk with out := s.tk.out ++ [.trap s.k u.sq.tcause s.ix.c] }) ∧
    (¬(handler ∧ s.sq.trapv.getLsbD 63 = true ∧ s.sq.hret = none) →
      u.sq.tcause.toNat = code false s.sq.hret.isSome ∧ u.tk.ending.isSome = true ∧
      sameFlow s.sq u.sq ∧ u.sq.hret = s.sq.hret)

/-- R321: VANY and VALL vote over the group's lanes, or over the QM lanes of a vector grant in SH3 if these are fewer; in their words
D[2:0] names qD, A[2:0] names mA, and every other operand bit is zero. -/
def Obligations.MaskVotes : Prop :=
  ∀ (g : Guard) (q m : BitVec 3) (s : State), predOn g s = true →
    let sh := tabGet 0#64 s.sq.sh 3
    let lanes := if shG sh = true ∧ shVec sh = true ∧ shQM sh < 32 * s.tk.g then shQM sh else 32 * s.tk.g
    exec (.vany g q m) s = .next (scheduled s (toQ s q (decide (∃ l < lanes, (readM s m).getLsbD l = true)))) ∧
    exec (.vall g q m) s = .next (scheduled s (toQ s q (decide (∀ l < lanes, (readM s m).getLsbD l = true)))) ∧
    ∀ (e : Option Byte) (w : SlotWord), decode e w = .ok (.vany g q m) ∨ decode e w = .ok (.vall g q m) →
      w.extractLsb' 0 18 = 0#3 ++ q ++ 0#3 ++ m ++ 0#6

/-- R322, R384 to R388, R395: operations that only set a wait or a marker, and what each sets. R36, R258: PHASE at a store that met
uncorrectable data takes its trap, whatever else is wrong with it.  Which trap a BREL takes that a running copy blocks is
`brelBlocked`, the model's own reading (log entry 46). -/
def Obligations.WaitsAndMarkers : Prop :=
  ∀ (g : Guard) (a m : BitVec 6) (s : State), predOn g s = true →
    exec (.waitt g a) s = .next (charge 5 1 s) ∧
    exec (.waitl g a) s =
      .next (charge 5 1 { s with sq := { s.sq with nextLC := max s.sq.nextLC (readS s a).toNat } }) ∧
    exec (.bar g) s =
      .next (charge 5 1 { s with tk := { s.tk with waits := { s.tk.waits with bars := s.tk.waits.bars + 1 } } }) ∧
    (∃ r, r.fence = true ∧ r.who = .task s.tid s.k ∧ exec (.fence g) s = .next (charge 5 1 (emit (.req r) s))) ∧
    exec (.invq g) s = .next (charge 5 1 (emit (.ack s.k) { s with sq := { s.sq with rr := [] } })) ∧
    exec (.svcYield g) s = .next (charge 5 1 (emit .yield s)) ∧
    exec (.svcFlush g) s = .next (charge 5 1 (emit (.flush s.k) s)) ∧
    exec (.bacq g m) s = .next (scheduled s [⟨s.ix.c, s.ix.c, .banks m 0#6⟩]) ∧
    (brelBlocked s m = none → exec (.brel g m) s = .next (scheduled s [⟨s.ix.c, s.ix.c, .banks 0#6 (m &&& s.sq.own)⟩])) ∧
    (∀ x, brelBlocked s m = some x → exec (.brel g m) s = .next (takeTrap x s)) ∧
    (s.k = 0 → s.tk.serr = none → ∃ t, exec (.phase g) s = .next t ∧ t.tk.phn = s.tk.phn + 1 ∧ t.sq = { s.sq with rr := [], rcache := [] } ∧
      t.tk.seqs = s.tk.seqs.map (fun e => (e.1, { e.2 with rcache := [] })) ∧
      t.tk.out = s.tk.out ++ [.ack s.k, .mark] ∧ sameWorld s t) ∧
    (s.k ≠ 0 → s.tk.serr = none → exec (.phase g) s = .next (takeTrap (illegal s 0x0B) s)) ∧
    (∀ e, s.tk.serr = some e → exec (.phase g) s =
      .next (takeTrap { trapOf s 0x0E 0x03 e.1 e.2 (w64 kStore) with slot := 0, gaddr := some e.1 } s))

/-- R180, R323, R312: PSEL goes to the first entry whose bound suffices, which takes the busy-resource fault where a transfer is
pending; with no such entry it takes the no-variant trap; a table that the object lacks is an illegal encoding. -/
def Obligations.ScheduleSelection : Prop :=
  ∀ (g : Guard) (t : BitVec 8) (a : BitVec 6) (s : State),
    (∀ es, s.tk.obj.sched[t.toNat]? = some es → predOn g s = true →
      (∀ n : Nat, ∀ e, es[n]? = some e → (readS s a).toNat ≤ e.1 → (∀ m < n, ∀ f, es[m]? = some f → f.1 < (readS s a).toNat) →
        (s.sq.pend = none → exec (.psel g t a) s = .next (charge 5 1 { s with sq := { s.sq with pend := some ⟨e.2, 2, 6⟩ } })) ∧
        (∀ p, s.sq.pend = some p →
          exec (.psel g t a) s = .next (takeTrap (timing s 0x02 9 0x84 (seqCol s) (w64 (s.ix.c + p.left)) 0#64) s))) ∧
      ((∀ e ∈ es, e.1 < (readS s a).toNat) →
        exec (.psel g t a) s = .next (takeTrap (trapOf s 0x0A 0x02 (w64 t.toNat) (readS s a) 0#64) s))) ∧
    (s.tk.obj.sched[t.toNat]? = none → exec (.psel g t a) s = .next (takeTrap (illegal s 0x11) s))

/-- R381 to R383, R55, R63: a send on a valid channel of its direction spends one credit, advances SEQ and sends the message with
the group's LC as its stamp; an entry that is invalid or of the other direction is an illegal encoding. R57, R381 to R383: a
receive of the message it expects takes it from its slot, returns one credit, and its payload lands with latency 1; a message
with another stamp is a timestamp mismatch. -/
def Obligations.Channels : Prop :=
  (∀ (g : Guard) (c : BitVec 5) (va : BitVec 8) (j : BitVec 2) (a : BitVec 6) (s : State),
    let ch := tabGet chanOff s.tk.chans c.toNat
    let x := winRow s va.toNat
    let sent (scalar : Bool) (payload : List Byte) (t : State) : Prop :=
      tabGet chanOff t.tk.chans c.toNat = { ch with cred := ch.cred - 1, seq := ch.seq + 1 } ∧
      (∀ n, n ≠ c.toNat → tabGet chanOff t.tk.chans n = tabGet chanOff s.tk.chans n) ∧
      t.tk.out = s.tk.out ++ [.msg c.toNat ⟨ch.dest.toNat, ch.pch.toNat, ch.port.toNat, (if scalar then 1 else 0), false,
        s.ix.c % 2 ^ 48, ch.seq.toNat, payload, destLocal s.tk.node s.tk.member⟩ ch.path] ∧ t.sq = s.sq ∧ sameWorld s t
    (ch.path ≠ 3#2 → ch.recv = false → predOn g s = true →
      (∃ t, exec (.sends g c a) s = .next t ∧ sent true (natLe 8 (readS s a).toNat) t) ∧
      (j.toNat < s.tk.g → ownsRow s.sq x = true → ¬(s.sq.rdHold.1 ≤ s.ix.c ∧ s.ix.c < s.sq.rdHold.2) →
        ∃ t, exec (.send g c va j) s = .next t ∧ sent false (tabBytes s.sq.lrs (rowByte s.tk.g x (128 * j.toNat)) 128) t)) ∧
    ((ch.path = 3#2 ∨ ch.recv = true) →
      exec (.sends g c a) s = .next (takeTrap (illegal s 0x0A) s) ∧
      (j.toNat < s.tk.g → exec (.send g c va j) s = .next (takeTrap (illegal s 0x0A) s)))) ∧
  (∀ (g : Guard) (vd : BitVec 8) (c : BitVec 5) (j : BitVec 2) (d : BitVec 6) (m : Landed) (s : State),
    let ch := tabGet chanOff s.tk.chans c.toNat
    let want := (s.ix.c + 2 ^ 48 - ch.lat.toNat) % 2 ^ 48
    let x := winRow s vd.toNat
    let taken (t : State) : Prop :=
      tabGet chanOff t.tk.chans c.toNat =
        { ch with seq := ch.seq + 1, slots := tabDel ch.slots (ch.seq.toNat % 16) } ∧
      (∀ n, n ≠ c.toNat → tabGet chanOff t.tk.chans n = tabGet chanOff s.tk.chans n) ∧
      t.tk.out = s.tk.out ++ [.credit c.toNat m.src] ∧ sameRegisters s.sq t.sq ∧ sameWorld s t
    ch.path ≠ 3#2 → ch.recv = true → predOn g s = true → ch.fault = none → m.stamp < 2 ^ 48 →
    tabFind ch.slots (ch.seq.toNat % 16) = some m →
    (m.stamp = want → m.scalar = true → ∃ t, exec (.recvs g d c) s = .next t ∧ taken t ∧
      t.sq.land = s.sq.land ++ toS s 1 d (w64 (leNat m.payload))) ∧
    (m.stamp = want → m.scalar = false → j.toNat < s.tk.g → ownsRow s.sq x = true →
      ∃ t, exec (.recv g vd c j) s = .next t ∧ taken t ∧ t.sq.land = s.sq.land ++ [⟨s.ix.c, s.ix.cl,
        .row x (1#4 <<< j.toNat) (m.payload.zipIdx.map (fun e => (rowByte s.tk.g x (128 * j.toNat + e.2), e.1))) 0#5⟩]) ∧
    (m.stamp ≠ want → m.scalar = true →
      exec (.recvs g d c) s = .next (takeTrap (mismatch s c 0x01 (w64 want) (w64 m.stamp) m.seq) s)) ∧
    (m.scalar = false →
      exec (.recvs g d c) s = .next (takeTrap (mismatch s c 0x02 (w64 want) never m.seq) s)))

/-- R363 to R366: PREC and PRECI merge into the newest PREC with the four-cycle shadow; SHAPE writes a grant, SHAPQ computes it. -/
def Obligations.PrecAndShapes : Prop :=
  ∀ (g : Guard) (d a b : BitVec 6) (n : BitVec 2) (i : BitVec 20) (s : State), predOn g s = true →
    let old := newestCtrl 0x04 s.sq.prec s.sq.land
    let later (x : Nat) (v : Word) : Landing := ⟨s.ix.c, s.ix.cl + 3, .ctrl x v⟩
    let qm := min (readS s a).toNat 2047
    let qn := min (readS s b).toNat 2047
    exec (.precW g d a b) s = .next (scheduled s (later 0x04
      (((old &&& ~~~readS s b) ||| (readS s a &&& readS s b)) &&& 0x3F1FFF#64) :: toS s 1 d old)) ∧
    exec (.preci g .mat i) s =
      .next (scheduled s [later 0x04 ((old &&& ~~~0xFFF#64) ||| (i.extractLsb' 0 12).setWidth 64)]) ∧
    exec (.preci g .acc i) s =
      .next (scheduled s [later 0x04 ((old &&& ~~~0x1000#64) ||| ((i.extractLsb' 0 1).setWidth 64 <<< 12))]) ∧
    exec (.preci g .vec i) s =
      .next (scheduled s [later 0x04 ((old &&& ~~~0x3F0000#64) ||| ((i.extractLsb' 0 6).setWidth 64 <<< 16))]) ∧
    exec (.preci g .all i) s = .next (scheduled s [later 0x04
      ((old &&& ~~~0x3F1FFF#64) ||| ((i.extractLsb' 0 13).setWidth 64 ||| ((i.extractLsb' 13 6).setWidth 64 <<< 16)))]) ∧
    exec (.shape g n false a b) s = .next (scheduled s [later (0x1C + n.toNat) (shWord s.tk.g false qm qn)]) ∧
    exec (.shape g n true a 0#6) s = .next (scheduled s [later (0x1C + n.toNat) (shWord s.tk.g true qm 0)]) ∧
    (b ≠ 0#6 → exec (.shapq g d a b) s = .next (scheduled s (toS s 1 d (shWord s.tk.g false qm qn)))) ∧
    exec (.shapq g d a 0#6) s = .next (scheduled s (toS s 1 d (shWord s.tk.g true qm 0)))

/-- R206: a grant is the least multiple of the native length that holds the request, and is refused exactly for 0 and above the
maximum. -/
def Obligations.Grants : Prop :=
  ∀ req native max : Nat, 0 < native →
    (grant req native max = 0 ↔ req = 0 ∨ max < req) ∧
    (1 ≤ req → req ≤ max → native ∣ grant req native max ∧ req ≤ grant req native max ∧
      ∀ k, native ∣ k → req ≤ k → grant req native max ≤ k)

/-- R367, R368, R201, R203, R205: VIEW writes a view that passes its checks with the four-cycle shadow, and takes the view fault
otherwise; VIEWQ reports the geometry of the descriptor in force. -/
def Obligations.Views : Prop :=
  ∀ (g : Guard) (w : BitVec 5) (v : BitVec 4) (d a b : BitVec 6) (s : State), predOn g s = true →
    let x := (readS s a &&& ~~~0xFFF#64) |||
      BitVec.ofNat 64 (((readS s a).toNat % 4096 + (readS s b).toNat) % 4096)
    let low := x &&& 0x0003FFFFFFFFFFFF#64
    let later (n : Nat) (y : Word) : Landing := ⟨s.ix.c, s.ix.cl + 3, .ctrl n y⟩
    let r := viewReg s v.toNat
    (w.toNat ≤ 7 → viewBad s.tk.g low = false → vNrow low ≠ 0 →
      exec (.view g w a b) s = .next (scheduled s [later (0x10 + w.toNat) (low ||| 0x8000000000000000#64)])) ∧
    (w.toNat ≤ 7 → vNrow low = 0 → exec (.view g w a b) s = .next (scheduled s [later (0x10 + w.toNat) low])) ∧
    (w.toNat ≤ 11 → viewBad s.tk.g low = true →
      exec (.view g w a b) s = .next (takeTrap (viewFault s 0x02 w.toNat x (vBase low)) s)) ∧
    (8 ≤ w.toNat → w.toNat ≤ 11 → viewBad s.tk.g low = false → (vNrow low = 0 ∨ vW low = 16 ∨ vW low = 32) →
      exec (.view g w a b) s = .next (scheduled s [later (0x18 + (w.toNat - 8)) low])) ∧
    (8 ≤ w.toNat → w.toNat ≤ 11 → viewBad s.tk.g low = false → vNrow low ≠ 0 → vW low ≠ 16 → vW low ≠ 32 →
      exec (.view g w a b) s = .next (takeTrap (viewFault s 0x05 w.toNat x (vBase low)) s)) ∧
    (w.toNat = 12 → x.toNat % 4096 < 2304 →
      exec (.view g w a b) s = .next (scheduled s [later 0x05 (x &&& 0xFFF#64)])) ∧
    (w.toNat = 12 → 2304 ≤ x.toNat % 4096 →
      exec (.view g w a b) s = .next (takeTrap (viewFault s 0x03 12 x (x.toNat % 4096)) s)) ∧
    (vNrow r = 0 → exec (.viewq g d v) s = .next (scheduled s (toS s 1 d 0#64))) ∧
    (vNrow r ≠ 0 → exec (.viewq g d v) s = .next (scheduled s (toS s 1 d (BitVec.ofNat 64
      (vSpan s.tk.g r + 2 ^ 16 * (vNcol r * vW r / 3072)
        + 2 ^ 32 * (vBase r + (vNrow r - 1) * vPitch r + vSpan s.tk.g r) + 2 ^ 63)))))

/-- R222, R392 to R394: GETC reads every index below 0x40, and every index in a custodian task: what it reads of each (R164, R182, R194,
R399), and zero where the table names none; SETC writes the registers that programs may write, at the cycle each takes effect, and takes
the view fault where its value fails the register's check (R201, R203, R205); a read-only or unnamed index, and a custodian index without
the custodian bit, are illegal encodings.  That a SETC of an SH register whose request is refused, zero among them, keeps the NAT field
(`shWord`) is the model's own reading (log entry 45). -/
def Obligations.ControlRegisters : Prop :=
  ∀ (g : Guard) (d : BitVec 6) (x : BitVec 8) (s : State),
    let v := readS s d
    let now (y : Word) : Landing := ⟨s.ix.c, s.ix.cl, .ctrl x.toNat y⟩
    let later (y : Word) : Landing := ⟨s.ix.c, s.ix.cl + 3, .ctrl x.toNat y⟩
    let reads (y : Word) : Prop := exec (.getc g d x) s = .next (scheduled s (toS s 1 d y))
    let faults (t : Trap) : Prop := exec (.setc g d x) s = .next (takeTrap t s)
    ((x.toNat < 0x40 ∨ s.tk.cust = true) → predOn g s = true → reads (getcValue s x.toNat)) ∧
    (predOn g s = true →
      (x = 0x00#8 → reads (BitVec.ofNat 64 s.ix.c)) ∧ (x = 0x01#8 → reads (BitVec.ofNat 64 s.dev.gtci)) ∧
      (x = 0x02#8 → reads (BitVec.ofNat 64 ((if s.tk.g = 4 then 0 else if s.tk.g = 2 then 1 else 2) + 2 ^ 2 * s.tk.cls
        + 2 ^ 4 * seqCol s + 2 ^ 6 * (s.tk.g - 1)))) ∧
      (x = 0x03#8 → reads s.tk.place) ∧ (x = 0x04#8 → reads s.sq.prec) ∧ (x = 0x05#8 → reads s.sq.vwin) ∧
      (x = 0x06#8 → reads s.sq.fflags) ∧ (x = 0x07#8 → reads (BitVec.ofNat 64 s.tk.safeb)) ∧ (x = 0x08#8 → reads s.sq.trapv) ∧
      (x = 0x09#8 → reads s.sq.tcause) ∧ (∀ n < 4, x.toNat = 0x0A + n → reads (tabGet 0#64 s.sq.tinfo n)) ∧
      (x = 0x0E#8 → reads (s.sq.engc.setWidth 64)) ∧ (x = 0x0F#8 → reads (BitVec.ofNat 64 s.tk.vf)) ∧
      (∀ n < 8, x.toNat = 0x10 + n → reads (tabGet 0#64 s.sq.td n)) ∧
      (∀ n < 4, x.toNat = 0x18 + n → reads (tabGet 0#64 s.sq.av n)) ∧ (∀ n < 4, x.toNat = 0x1C + n → reads (tabGet 0#64 s.sq.sh n)) ∧
      (x = 0x30#8 → ∃ y : Word, reads y ∧ ∀ i < 64, y.getLsbD i = (decide (i < 6 * s.tk.g) && s.sq.own.getLsbD (i % 6))) ∧
      (x = 0x31#8 → reads s.sq.mvalid) ∧
      (x = 0x32#8 → ∃ y : Word, reads y ∧ y.toNat < 256 ∧ ∀ k < 4,
        y.getLsbD (4 + k) = (seqOf s k).any (fun q => q.st != .absent) ∧ y.getLsbD k = (seqOf s k).any (busyAt s.ix.c)) ∧
      (0x20 ≤ x.toNat → x.toNat < 0x40 → x ≠ 0x30#8 → x ≠ 0x31#8 → x ≠ 0x32#8 → reads 0#64) ∧
      (s.tk.cust = true →
        let part := (getVf s.dev s.tk.vf).part
        (x = 0x40#8 → reads (BitVec.ofNat 64 part)) ∧
        (∀ n < 4, x.toNat = 0x44 + n → ∃ y : Word, reads y ∧ ∀ j < 64,
          y.getLsbD j = (tabFind s.dev.trust.slots (64 * n + j)).any (fun k => k.part == part)) ∧
        (∀ n < 32, x.toNat = 0x60 + n →
          let k := getStack s.dev n
          reads (BitVec.ofNat 64 ((if k.clearing.isSome then 2 ^ 63 else 0) + 2 ^ 32 * min 65535 k.queue.length
            + 2 ^ 16 * k.clearing.getD 0 + k.recorded))) ∧
        (0x41 ≤ x.toNat → (x.toNat < 0x44 ∨ (0x48 ≤ x.toNat ∧ x.toNat < 0x60) ∨ 0x80 ≤ x.toNat) → reads 0#64))) ∧
    (0x40 ≤ x.toNat → s.tk.cust = false →
      exec (.getc g d x) s = .next (takeTrap (illegal s 0x0D) s) ∧ exec (.setc g d x) s = .next (takeTrap (illegal s 0x0D) s)) ∧
    ((x.toNat < 0x40 ∨ s.tk.cust = true) → writable x.toNat = false →
      exec (.setc g d x) s = .next (takeTrap (illegal s 0x0E) s)) ∧
    (predOn g s = true →
      (x = 0x04#8 → exec (.setc g d x) s = .next (scheduled s [later (v &&& 0x3F1FFF#64)])) ∧
      (x = 0x05#8 → v.toNat % 4096 < 2304 → exec (.setc g d x) s = .next (scheduled s [later (v &&& 0xFFF#64)])) ∧
      (x = 0x06#8 → exec (.setc g d x) s = .next (scheduled s [⟨s.ix.c, s.ix.c, .ctrl 0x06 (v &&& 0x1F#64)⟩])) ∧
      (x = 0x08#8 → exec (.setc g d x) s = .next (scheduled s [now (v &&& 0x80000000FFFFFFFF#64)])) ∧
      (x = 0x31#8 → exec (.setc g d x) s = .next (scheduled s [now (v &&& 0x1FFFF#64)])) ∧
      (0x10 ≤ x.toNat → x.toNat ≤ 0x17 → viewBad s.tk.g (v &&& viewMask) = false → vNrow (v &&& viewMask) ≠ 0 →
        exec (.setc g d x) s = .next (scheduled s [later ((v &&& viewMask) ||| 0x8000000000000000#64)])) ∧
      (0x18 ≤ x.toNat → x.toNat ≤ 0x1B → viewBad s.tk.g (v &&& viewMask) = false →
        (vNrow (v &&& viewMask) = 0 ∨ vW (v &&& viewMask) = 16 ∨ vW (v &&& viewMask) = 32) →
        exec (.setc g d x) s = .next (scheduled s [later (v &&& viewMask)])) ∧
      (0x10 ≤ x.toNat → x.toNat ≤ 0x17 → vNrow (v &&& viewMask) = 0 →
        exec (.setc g d x) s = .next (scheduled s [later (v &&& viewMask)])) ∧
      (x = 0x05#8 → 2304 ≤ v.toNat % 4096 → faults (viewFault s 0x03 0x05 v (v.toNat % 4096))) ∧
      (0x10 ≤ x.toNat → x.toNat ≤ 0x1B → viewBad s.tk.g (v &&& viewMask) = true →
        faults (viewFault s 0x02 x.toNat v (vBase (v &&& viewMask)))) ∧
      (0x18 ≤ x.toNat → x.toNat ≤ 0x1B → viewBad s.tk.g (v &&& viewMask) = false → vNrow (v &&& viewMask) ≠ 0 →
        vW (v &&& viewMask) ≠ 16 → vW (v &&& viewMask) ≠ 32 → faults (viewFault s 0x05 x.toNat v (vBase (v &&& viewMask)))) ∧
      (0x1C ≤ x.toNat → x.toNat ≤ 0x1F → exec (.setc g d x) s = .next (scheduled s
        [later (shWord s.tk.g (v.getLsbD 62) (v.toNat / 2 ^ 11 % 2 ^ 11) (if v.getLsbD 62 then 0 else v.toNat % 2 ^ 11))])))

/-- R370, R389 to R391: STAT, ENGY, GTC, LCR and CDSC. -/
def Obligations.StatusAndClocks : Prop :=
  ∀ (g : Guard) (d a b : BitVec 6) (j : BitVec 2) (e c : BitVec 4) (s : State), predOn g s = true →
    (j.toNat < s.tk.g → (e = 0#4 → j = 0#2) → exec (.stat g d j e) s = .next (scheduled s (toS s 1 d
      (if e = 0#4 then matrixStatus s else if e = 1#4 then unitStatus s (2 * j.toNat)
       else if e = 2#4 then unitStatus s (2 * j.toNat + 1) else 0#64)))) ∧
    ((s.tk.g ≤ j.toNat ∨ (e = 0#4 ∧ j ≠ 0#2)) → exec (.stat g d j e) s = .next (takeTrap (illegal s 0x01) s)) ∧
    exec (.engy g d) s =
      .next (scheduled s (toS s 1 d (BitVec.ofNat 64 (nodeEnergy s + s.tk.meter / 256 / 10 ^ 6)))) ∧
    exec (.gtc g d) s = .next (scheduled s (toS s 1 d (BitVec.ofNat 64 s.dev.gtci))) ∧
    exec (.lcr g d a) s = .next (scheduled s (toS s 1 d (BitVec.ofNat 64 (s.ix.c + (readS s a).toNat)))) ∧
    exec (.cdsc g c a b) s = .next (scheduled s
      [⟨s.ix.c, s.ix.cl, .desc c.toNat ((readS s b &&& 0x8FF80FFFFFFFFFFF#64) ++ readS s a)⟩])

/-- R396, R397: in a custodian task each custodian instruction sends its request and its result lands with latency 1,088; in any other
task it is an illegal encoding, whatever its predicate. -/
def Obligations.CustodianIssue : Prop :=
  ∀ (g : Guard) (d a b : BitVec 6) (s : State),
    let sent (op : Nat) (x y : Word) (e : BitVec 256) : State :=
      landIn (emit (.cust ⟨s.nextId, s.tid, s.tk.vf, 0, op, x, y, e, false, 0, none, []⟩) (newReply 1 s)) 1088
        (.load d s.nextId kLoad)
    (s.tk.cust = true → predOn g s = true →
      exec (.kzero g d a) s = .next (charge 5 1 (sent 25 (readS s a) 0#64 0#256)) ∧
      exec (.scrb g d a b) s = .next (charge 5 1 (sent 26 (readS s a) (readS s b) 0#256)) ∧
      exec (.scrq g d a b) s = .next (charge 5 1 (sent 27 (readS s a) (readS s b) 0#256)) ∧
      exec (.frel g d a b) s = .next (charge 5 1 (sent 28 (readS s a) (readS s b) 0#256)) ∧
      exec (.plwr g d a b) s = .next (charge 5 1 (sent 29 (readS s a) (readS s b) 0#256)) ∧
      exec (.qwrt g d a b) s = .next (charge 5 1 (sent 31 (readS s a) (readS s b) 0#256)) ∧
      (∀ e, check s true false false false kLoad (readS s b) 32 = .ok e → scalarOverlap s false (readS s b) 32 = .ok () →
        exec (.btwr g d a b) s = .next (charge 5 1 (sent 30 (readS s a) (readS s b) e)))) ∧
    (s.tk.cust = false →
      exec (.kzero g d a) s = .next (takeTrap (illegal s 0x0D) s) ∧
      exec (.scrb g d a b) s = .next (takeTrap (illegal s 0x0D) s) ∧
      exec (.scrq g d a b) s = .next (takeTrap (illegal s 0x0D) s) ∧
      exec (.frel g d a b) s = .next (takeTrap (illegal s 0x0D) s) ∧
      exec (.plwr g d a b) s = .next (takeTrap (illegal s 0x0D) s) ∧
      exec (.btwr g d a b) s = .next (takeTrap (illegal s 0x0D) s) ∧
      exec (.qwrt g d a b) s = .next (takeTrap (illegal s 0x0D) s))

/-- R350 to R353, R215, R361: MMA, MMAZ and MMAT with configured, owned operands of equal chunk count, a matrix grant that they
cover, and no cost window open, start their tiles; the reserved MMODE value is an illegal encoding.  MMA, MMAZ and MDRN read PREC, and
MMA and MMAZ their grant, as they stand in the group's last cycle (`atLast`), MMAT reads both at its issue: from landings that are under
way at the issue, the model's own reading of R351, R353 and R355 (log entry 47).  That MMAZ zeroes the rows that MVALID skips, which R181
would leave alone, is the model's choice between the two rules (log entry 40). -/
def Obligations.MatrixCompute : Prop :=
  ∀ (g : Guard) (f u sh : BitVec 2) (x y : BitVec 3) (s : State), maskOn g s = true →
    let va := tabGet 0#64 s.sq.td x.toNat
    let vb := tabGet 0#64 s.sq.td y.toNat
    let av := tabGet 0#64 s.sq.av u.toNat
    let fit (p gr : Word) : Prop :=
      pMode p ≠ 3 ∧ vNrow va ≠ 0 ∧ vNrow vb ≠ 0 ∧ viewKC va ≠ 0 ∧ viewKC va = viewKC vb ∧
      (pMode p = 0 ∨ viewKC va * blocks p ≤ 96) ∧ shG gr = true ∧ shVec gr = false ∧
      shGM gr ≤ vNrow va ∧ shGN gr ≤ vNrow vb ∧ s.sq.win.2 ≤ s.ix.c ∧
      extentUnowned s.tk.g s.sq va = none ∧ extentUnowned s.tk.g s.sq vb = none
    (let p := (atLast s).sq.prec
     let gr := tabGet 0#64 (atLast s).sq.sh sh.toNat
     (fit p gr → shGM gr = natM s.tk.g → shGN gr = natN s.tk.g →
       exec (.mma g sh x y) s = .next (mmaEffect false p va vb gr s) ∧
       exec (.mmaz g sh x y) s = .next (mmaEffect true p va vb gr s)) ∧
     (pMode p = 3 →
       exec (.mma g sh x y) s = .next (takeTrap (illegal s 0x0F) s) ∧
       exec (.mmaz g sh x y) s = .next (takeTrap (illegal s 0x0F) s) ∧
       ∀ add, exec (.mdrn g f u sh add) s = .next (takeTrap (illegal s 0x0F) s)) ∧
     (s.ix.cl = s.ix.c → p = s.sq.prec ∧ gr = tabGet 0#64 s.sq.sh sh.toNat)) ∧
    (let gr := tabGet 0#64 s.sq.sh sh.toNat
     (fit s.sq.prec gr → vNrow av ≠ 0 → vW av = drainW f → shGM gr ≤ vNrow av → shGN gr ≤ vNcol av →
       extentUnowned s.tk.g s.sq av = none → exec (.mmat g f u sh x y) s = .next (mmatEffect f va vb av gr s)) ∧
     (pMode s.sq.prec = 3 → exec (.mmat g f u sh x y) s = .next (takeTrap (illegal s 0x0F) s)))

/-- R355, R357 to R360: the other matrix instructions.  MDRN reads PREC as it stands in its group's last cycle (`atLast`) and its grant at
its issue: the model's own reading of R355 (log entry 47). -/
def Obligations.MatrixRegisters : Prop :=
  ∀ (g : Guard) (f u sh : BitVec 2) (add o en : Bool) (x : BitVec 3) (i : BitVec 16) (d a : BitVec 6) (s : State),
    maskOn g s = true →
    let av := tabGet 0#64 s.sq.av u.toNat
    let gr := tabGet 0#64 s.sq.sh sh.toNat
    let v := tabGet 0#64 s.sq.td x.toNat
    let n := (readS s a).toNat
    let acc := getAcc s.sq.acc (n % 256 % natM s.tk.g) (n / 256 % 256 % natN s.tk.g)
    (pMode (atLast s).sq.prec ≠ 3 → vNrow av ≠ 0 → vW av = drainW f → shG gr = true → shVec gr = false →
      shGM gr = natM s.tk.g → shGN gr = natN s.tk.g → shGM gr ≤ vNrow av → shGN gr ≤ vNcol av →
      (s.sq.win.2 = 0 ∨ s.sq.win.2 + 4 ≤ s.ix.c) → extentUnowned s.tk.g s.sq av = none →
      exec (.mdrn g f u sh add) s = .next (drainEffect (atLast s).sq.prec av f add gr s)) ∧
    (s.sq.win.2 ≤ s.ix.c →
      exec (.mclr g) s = .next (scheduled s [⟨s.ix.c, s.ix.cl, .accs []⟩, ⟨s.ix.c, s.ix.cl + 5, .stat true 0#16 0#4⟩]) ∧
      exec (.msta g d a) s = .next (scheduled s (toS s 1 d
        (if n / 2 ^ 16 % 2 = 0 then acc.s
         else BitVec.ofNat 64 (acc.e.toNat + (if acc.nan then 2 ^ 16 else 0) + (if acc.ovm then 2 ^ 17 else 0))))) ∧
      (vNrow v ≠ 0 → vW v = 8 → extentUnowned s.tk.g s.sq v = none →
        exec (.mscl g o x) s = .next (charge 1 (scaleRows o v s) (landIn s 4 (.scale o (scaleBytes o v s)))))) ∧
    exec (.mvcn g en i) s = .next (scheduled s
      [⟨s.ix.c, s.ix.cl, .ctrl 0x31 (BitVec.ofNat 64 (i.toNat + (if en then 2 ^ 16 else 0)))⟩])

/-- R371 to R376: a copy that passes the checks of R374 in their order starts at its cycle on its unit; an invalid descriptor, the second
one of a CPDI too, is a missing producer. -/
def Obligations.Copies : Prop :=
  ∀ (g : Guard) (rel : Bool) (u : BitVec 3) (n : BitVec 4) (b : BitVec 6) (s : State),
    let run (op : Nat) : Host.Outcome State Fault Refusal := match op with
      | 1 => exec (.cpl g rel u n) s
      | 2 => exec (.cpi g rel u n b) s
      | 3 => exec (.cpo g rel u n b) s
      | 4 => exec (.cpdi g rel u n b) s
      | 5 => exec (.cpdo g rel u n b) s
      | 6 => exec (.cps g rel u n b) s
      | 7 => exec (.cpg g rel u n b) s
      | 8 => exec (.cpst g rel u n b) s
      | 9 => exec (.cpb g rel u n b) s
      | _ => exec (.cpr g rel u n b) s
    let d := tabGet 0#128 s.sq.cd n.toNat
    let d2 := tabGet 0#128 s.sq.cd ((n.toNat + 1) % 16)
    ∀ op, 1 ≤ op → op ≤ 10 → u.toNat < 2 * s.tk.g → maskOn g s = true →
    let kind := if op = 6 then dKind d else op
    let bw := if op = 1 then 0 else (readS s b).toNat
    let start := if op = 6 then bw else s.ix.c
    let idx := (dAddr d).toNat / 2 ^ 48
    let off := ((dAddr d).toNat + (if op = 6 then 0 else bw)) % 2 ^ 48
    let idx2 := (dAddr d2).toNat / 2 ^ 48
    let off2 := (dAddr d2).toNat % 2 ^ 48
    let e := taskEntry s idx
    let e2 := taskEntry s idx2
    let step := memStep kind d
    let lat := match kind with
      | 1 => 6
      | 4 => rowsNominal s.tk e off step (dNrows d) + rowsNominal s.tk e2 off2 128 (dNrows d)
      | 7 => bufferNominal s.tk e
      | 10 => rowsNominal s.tk e off step (dNrows d) + 64
      | _ => rowsNominal s.tk e off step (dNrows d)
    let c : Copy := ⟨s.nextId, s.ix.c, s.ix.slot, u.toNat, kind, rel, n.toNat, start, lat, dNrows d, mvalidCut s.sq.mvalid, d, idx, e, off,
      step, idx2, e2, off2, [], 0#6, false⟩
    (dV d = false → run op = .next (takeTrap (timing s 0x01 9 (0xC0 + n.toNat) (seqCol s) never (w64 n.toNat)) s)) ∧
    (dV d = true → kind = 4 → dV d2 = false →
      run op = .next (takeTrap (timing s 0x01 9 (0xC0 + n.toNat) (seqCol s) never (w64 n.toNat)) s)) ∧
    (dV d = true → (kind = 4 → dV d2 = true) → copyFields s (op == 6) kind n.toNat off d = .ok () →
      (op = 6 → s.ix.c < start ∧ start ≤ s.ix.c + 2 ^ 20) →
      unitFree s u.toNat start (start + lat + dNrows d - 1) = .ok () → copyOwned s u.toNat kind d = .ok () →
      (readsMem kind d = true → kind ≠ 7 → ∃ r, checkRows s true false false kCopySrc idx off step (dNrows d) = .ok r) →
      (kind = 4 → ∃ r, checkRows s false true false kCopyDst idx2 off2 128 (dNrows d) = .ok r) →
      (kind ≠ 4 → writesMem kind d = true →
        ∃ r, checkRows s false true (kind == 10) kCopyDst idx off step (dNrows d) = .ok r) →
      (kind = 7 → ∃ r, checkGather s idx off = .ok r) →
      copyMeets s.sq.copies (taskCopies s) c = none → run op = .next (copyEffect c s))

/-- R326 to R334: every floating-point operation whose operands are there starts its rows with its latency and its element function,
in the format and rounding mode of PREC. -/
def Obligations.VectorFloat : Prop :=
  ∀ (g : Guard) (d : BitVec 8) (a b : VOp) (s : State), laneMask g s ≠ 0#128 → pVft s.sq.prec ≠ 3 →
    let m := laneMask g s
    let rm := pRm s.sq.prec
    let f := vft s
    let bin (vb : Bool) (lat : Nat) (op : Nat → Nat → Nat × BitVec 5) : State :=
      vecEffect vb true lat m d.toNat (srcOf a) (srcOf b) .none
        (fun _ x y _ l => fpLane f (fun p q _ => op p q) (at' x l) (at' y l) 0#32) s (latched vb (vecRows s) (srcOf a) (srcOf b) s)
    let fused (vb : Bool) (op : Nat → Nat → Nat → Nat × BitVec 5) : State :=
      vecEffect vb true 4 m d.toNat (srcOf a) (srcOf b) (.win d.toNat)
        (fun _ x y z l => fpLane f op (at' x l) (at' y l) (at' z l)) s (latched vb (vecRows s) (srcOf a) (srcOf b) s)
    let un (vb : Bool) (lat : Nat) (op : Nat → Nat × BitVec 5) : State :=
      vecEffect vb true lat m d.toNat (srcOf a) .none .none
        (fun _ x _ _ l => fpLane f (fun p _ _ => op p) (at' x l) 0#32 0#32) s (latched vb (vecRows s) (srcOf a) .none s)
    let x (p : Nat) := decodeF f p
    (vecReady false true s (srcOf a) (srcOf b) .none d.toNat →
      exec (.vaddVa g d a b) s = .next (bin false 4 (fun p q => encodeX f rm (addX rm (x p) (x q)))) ∧
      exec (.vsubVa g d a b) s = .next (bin false 4 (fun p q => encodeX f rm (addX rm (x p) (negF (x q))))) ∧
      exec (.vmulVa g d a b) s = .next (bin false 4 (fun p q => encodeX f rm (mulX (x p) (x q)))) ∧
      exec (.vminVa g d a b) s = .next (bin false 4 (fun p q => minmaxEl false f rm p q 0)) ∧
      exec (.vmaxVa g d a b) s = .next (bin false 4 (fun p q => minmaxEl true f rm p q 0)) ∧
      exec (.vdiv g d a b) s = .next (bin false 14 (fun p q => encodeX f rm (divX f (x p) (x q))))) ∧
    (vecReady true true s (srcOf a) (srcOf b) .none d.toNat →
      exec (.vaddVb g d a b) s = .next (bin true 4 (fun p q => encodeX f rm (addX rm (x p) (x q)))) ∧
      exec (.vsubVb g d a b) s = .next (bin true 4 (fun p q => encodeX f rm (addX rm (x p) (negF (x q))))) ∧
      exec (.vmulVb g d a b) s = .next (bin true 4 (fun p q => encodeX f rm (mulX (x p) (x q)))) ∧
      exec (.vminVb g d a b) s = .next (bin true 4 (fun p q => minmaxEl false f rm p q 0)) ∧
      exec (.vmaxVb g d a b) s = .next (bin true 4 (fun p q => minmaxEl true f rm p q 0))) ∧
    (vecReady false true s (srcOf a) (srcOf b) (.win d.toNat) d.toNat →
      exec (.vfmaVa g d a b) s = .next (fused false (fun p q r => encodeX f rm (fmaX rm (x p) (x q) (x r)))) ∧
      exec (.vfmsVa g d a b) s = .next (fused false (fun p q r => encodeX f rm (fmaX rm (x p) (x q) (negF (x r))))) ∧
      exec (.vfnmaVa g d a b) s = .next (fused false (fun p q r => encodeX f rm (fmaX rm (negF (x p)) (x q) (x r))))) ∧
    (vecReady true true s (srcOf a) (srcOf b) (.win d.toNat) d.toNat →
      exec (.vfmaVb g d a b) s = .next (fused true (fun p q r => encodeX f rm (fmaX rm (x p) (x q) (x r)))) ∧
      exec (.vfmsVb g d a b) s = .next (fused true (fun p q r => encodeX f rm (fmaX rm (x p) (x q) (negF (x r))))) ∧
      exec (.vfnmaVb g d a b) s = .next (fused true (fun p q r => encodeX f rm (fmaX rm (negF (x p)) (x q) (x r))))) ∧
    (vecReady false true s (srcOf a) .none .none d.toNat →
      exec (.vabsVa g d a) s = .next (un false 4 (signEl false f rm)) ∧
      exec (.vnegVa g d a) s = .next (un false 4 (signEl true f rm)) ∧
      exec (.vrcpeVa g d a) s = .next (un false 3 (fun p => rcpe f (x p))) ∧
      exec (.vrsqeVa g d a) s = .next (un false 3 (fun p => rsqe f (x p))) ∧
      exec (.vsqrt g d a) s = .next (un false 14 (fun p => encodeX f rm (sqrtX f (x p)))) ∧
      exec (.vexp2 g d a) s = .next (un false 10 (fun p => encodeX f rm (exp2X f (x p)))) ∧
      exec (.vlog2 g d a) s = .next (un false 10 (fun p => encodeX f rm (log2X f (x p))))) ∧
    (vecReady true true s (srcOf a) .none .none d.toNat →
      exec (.vabsVb g d a) s = .next (un true 4 (signEl false f rm)) ∧
      exec (.vnegVb g d a) s = .next (un true 4 (signEl true f rm)) ∧
      exec (.vrcpeVb g d a) s = .next (un true 3 (fun p => rcpe f (x p))) ∧
      exec (.vrsqeVb g d a) s = .next (un true 3 (fun p => rsqe f (x p))))

/-- R335, R336: the integer and logic operations; a shift by the element width or more gives zero, or the sign. -/
def Obligations.VectorInteger : Prop :=
  ∀ (g : Guard) (d : BitVec 8) (a b : VOp) (s : State), laneMask g s ≠ 0#128 → pViw s.sq.prec ≠ 3 →
    let m := laneMask g s
    let w := viw s
    let el (vb : Bool) (op : Nat → Nat → Nat) : State :=
      vecEffect vb false 2 m d.toNat (srcOf a) (srcOf b) .none
        (fun _ x y _ l => intLane w (fun _ p q _ => op p q) (at' x l) (at' y l) 0#32) s
        (latched vb (vecRows s) (srcOf a) (srcOf b) s)
    let mac (vb : Bool) : State :=
      vecEffect vb false 2 m d.toNat (srcOf a) (srcOf b) (.win d.toNat)
        (fun _ x y z l => intLane w (fun _ p q r => p * q + r) (at' x l) (at' y l) (at' z l)) s
        (latched vb (vecRows s) (srcOf a) (srcOf b) s)
    let raw (vb : Bool) (op : BitVec 32 → BitVec 32 → BitVec 32) : State :=
      vecEffect vb false 2 m d.toNat (srcOf a) (srcOf b) .none (fun _ x y _ l => lane (op (at' x l) (at' y l)) 0#5) s
        (latched vb (vecRows s) (srcOf a) (srcOf b) s)
    let shra (p c : Nat) : Nat := intBits w (sextN w p / 2 ^ min c w)
    (vecReady false true s (srcOf a) (srcOf b) .none d.toNat →
      exec (.viaddVa g d a b) s = .next (el false (fun p q => p + q)) ∧
      exec (.visubVa g d a b) s = .next (el false (fun p q => p + (2 ^ w - q))) ∧
      exec (.vimulVa g d a b) s = .next (el false (fun p q => p * q)) ∧
      exec (.vandVa g d a b) s = .next (raw false (· &&& ·)) ∧
      exec (.vorVa g d a b) s = .next (raw false (· ||| ·)) ∧
      exec (.vxorVa g d a b) s = .next (raw false (· ^^^ ·)) ∧
      exec (.vshlVa g d a b) s = .next (el false (fun p c => if w ≤ c then 0 else p * 2 ^ c)) ∧
      exec (.vshrVa g d a b) s = .next (el false (fun p c => if w ≤ c then 0 else p / 2 ^ c)) ∧
      exec (.vshraVa g d a b) s = .next (el false shra)) ∧
    (vecReady true true s (srcOf a) (srcOf b) .none d.toNat →
      exec (.viaddVb g d a b) s = .next (el true (fun p q => p + q)) ∧
      exec (.visubVb g d a b) s = .next (el true (fun p q => p + (2 ^ w - q))) ∧
      exec (.vimulVb g d a b) s = .next (el true (fun p q => p * q)) ∧
      exec (.vandVb g d a b) s = .next (raw true (· &&& ·)) ∧
      exec (.vorVb g d a b) s = .next (raw true (· ||| ·)) ∧
      exec (.vxorVb g d a b) s = .next (raw true (· ^^^ ·)) ∧
      exec (.vshlVb g d a b) s = .next (el true (fun p c => if w ≤ c then 0 else p * 2 ^ c)) ∧
      exec (.vshrVb g d a b) s = .next (el true (fun p c => if w ≤ c then 0 else p / 2 ^ c)) ∧
      exec (.vshraVb g d a b) s = .next (el true shra)) ∧
    (vecReady false true s (srcOf a) (srcOf b) (.win d.toNat) d.toNat → exec (.vimacVa g d a b) s = .next (mac false)) ∧
    (vecReady true true s (srcOf a) (srcOf b) (.win d.toNat) d.toNat → exec (.vimacVb g d a b) s = .next (mac true))

/-- R337, R338: compares into masks, selection, mask logic and index generation.  VSEL executes whatever its P and N fields hold; in a slot
that a loop flag turns off (R279) it only loads its latches and is charged as one operation. -/
def Obligations.VectorMasks : Prop :=
  ∀ (g : Guard) (m ma mb o : BitVec 3) (d : BitVec 8) (a b : VOp) (i j : BitVec 6) (s : State),
    let k := laneMask g s
    let w := viw s
    let compared (vb fp : Bool) (width : Nat) (c : Nat → Nat → Bool × BitVec 5) : State :=
      cmpEffect vb fp width c k m a b s (latched vb (vecRows s) (srcOf a) (srcOf b) s)
    let int (c : Int → Int → Bool) (p q : Nat) : Bool × BitVec 5 := (c (sextN w p) (sextN w q), 0#5)
    let chosen (vb : Bool) : State :=
      vecEffect vb false 2 (lowMask (lanesOf s)) d.toNat (srcOf a) (srcOf b) .none
        (fun _ x y _ l => lane (if (readM s g.p).getLsbD l ≠ g.n then at' x l else at' y l) 0#5) s
        (latched vb (vecRows s) (srcOf a) (srcOf b) s)
    let indices (vb : Bool) : State :=
      vecEffect vb false 2 k d.toNat .none .none .none
        (fun r _ _ _ l => lane (ofElems w ((List.range (32 / w)).map (fun e =>
          (readS s i).toNat + (r * lanesOf s * (32 / w) + l * (32 / w) + e) * (readS s j).toNat))) 0#5) s s
    ∀ vb : Bool, shapeReady s →
    let ready := operandReady s (vecRows s) (latchNo vb false) (srcOf a) ∧ operandReady s (vecRows s) (latchNo vb true) (srcOf b)
    (k ≠ 0#128 → pVft s.sq.prec ≠ 3 → ready →
      exec (if vb then .vfceqVb g m a b else .vfceqVa g m a b) s =
        .next (compared vb true (vft s).width (fcmpEl (fun c => c == 0) true (vft s))) ∧
      exec (if vb then .vfcltVb g m a b else .vfcltVa g m a b) s =
        .next (compared vb true (vft s).width (fcmpEl (fun c => decide (c < 0)) false (vft s))) ∧
      exec (if vb then .vfcleVb g m a b else .vfcleVa g m a b) s =
        .next (compared vb true (vft s).width (fcmpEl (fun c => decide (c ≤ 0)) false (vft s)))) ∧
    (k ≠ 0#128 → pViw s.sq.prec ≠ 3 → ready →
      exec (if vb then .viceqVb g m a b else .viceqVa g m a b) s = .next (compared vb false w (int (fun x y => x == y))) ∧
      exec (if vb then .vicltVb g m a b else .vicltVa g m a b) s = .next (compared vb false w (int (fun x y => decide (x < y)))) ∧
      exec (if vb then .vicleVb g m a b else .vicleVa g m a b) s = .next (compared vb false w (int (fun x y => decide (x ≤ y))))) ∧
    (s.ix.off = false → ready → rowsOwned s (resultRows s d.toNat) →
      exec (if vb then .vselVb g d a b else .vselVa g d a b) s = .next (chosen vb)) ∧
    (s.ix.off = true → ∃ lat, exec (if vb then .vselVb g d a b else .vselVa g d a b) s =
      .next (charge 5 1 { s with sq := { s.sq with lat := lat } })) ∧
    (k ≠ 0#128 →
      exec (if vb then .vmskVb g m ma mb o else .vmskVa g m ma mb o) s = .next (mskEffect k m ma mb o s s)) ∧
    (k ≠ 0#128 → pViw s.sq.prec ≠ 3 → rowsOwned s (resultRows s d.toNat) →
      exec (if vb then .viotaVb g d i j else .viotaVa g d i j) s = .next (indices vb))

/-- R339 to R345: moves, broadcasts, lane access, permutations, reductions, conversions and block scales.  R344: VPACK takes the scale of
each column's 32 lanes from the active lanes among them, and writes into byte P of every lane the scale or the lane's quantised element:
a NaN or infinite lane spoils its block, zeros give 127; an element is scaled by 2^−X and rounded once. -/
def Obligations.VectorMoves : Prop :=
  ∀ (g : Guard) (d : BitVec 8) (a b : VOp) (e c : BitVec 6) (i : BitVec 14) (ds sr : BitVec 3) (p : BitVec 2) (t : Bool)
    (s : State), laneMask g s ≠ 0#128 → shapeReady s →
    let m := laneMask g s
    let n := vecRows s
    let win : Src := .win c.toNat
    let on (vb : Bool) (x y : Src) (dst : Nat) : Prop :=
      operandReady s n (latchNo vb false) x ∧ operandReady s n (latchNo vb true) y ∧ rowsOwned s (resultRows s dst)
    let row (vb fp : Bool) (lat dst : Nat) (x y : Src) (f : Nat → Row → Row → Nat → LaneRes) : State :=
      vecEffect vb fp lat m dst x y .none (fun j u v _ l => f j u v l) s (latched vb n x y s)
    let k := i.toNat % (n * lanesOf s)
    let val (u : Row) (l : Nat) : FV := decodeF fp32 (at' u l).toNat
    let block (j : Nat) (u : Row) (l : Nat) : List FV := ((activeLanes s m j).filter (fun y => y / 32 == l / 32)).map (val u)
    let packed (j : Nat) (u : Row) (l : Nat) : LaneRes :=
      let sc := blockScale ds (block j u l)
      let r := if t then (sc.1, 0#5) else packElem ds (pRm s.sq.prec) sc (val u l)
      ⟨BitVec.ofNat 32 (r.1 * 2 ^ (8 * p.toNat)), 1#4 <<< p.toNat, r.2⟩
    (∀ vs : List FV, (∃ x ∈ vs, isNan x = true ∨ x = .inf true ∨ x = .inf false) → blockScale ds vs = (255, none, true)) ∧
    (∀ vs : List FV, (∀ x ∈ vs, ∃ sg e, x = .fin sg 0 e) → blockScale ds vs = (127, some 0, false)) ∧
    (∀ (vs : List FV) (sg : Bool) (mm : Nat) (ee : Int), (∀ x ∈ vs, ∃ sg' m' e', x = .fin sg' m' e' ∧ (m' ≠ 0 → e' + m'.log2 ≤ ee + mm.log2)) →
      .fin sg mm ee ∈ vs → mm ≠ 0 →
      let emax : Int := if ds = 3#3 then 8 else if ds = 4#3 then 15 else -1
      let x := max (-127) (min 127 (ee + mm.log2 - emax))
      blockScale ds vs = ((x + 127).toNat, some x, false)) ∧
    (∀ (rm : BitVec 2) (sc : Nat) (b : Bool) (v : FV),
      packElem 3#3 rm (sc, none, b) v = (0x7F, fNV) ∧ packElem 4#3 rm (sc, none, b) v = (0x7E, fNV) ∧
      packElem 7#3 rm (sc, none, b) v = (0x00, fNV)) ∧
    (∀ (rm : BitVec 2) (sc : Nat) (b sg : Bool) (mm : Nat) (ee x : Int), mm ≠ 0 →
      let r := roundInt rm sg mm (ee + 7 - x)
      (∀ f : Fmt, (ds = 3#3 ∧ f = e4m3 ∨ ds = 4#3 ∧ f = e5m2) →
        packElem ds rm (sc, some x, b) (.fin sg mm ee) =
          ((roundSat f rm true sg mm (ee - x)).1, (roundSat f rm true sg mm (ee - x)).2 &&& (fOF ||| fNX))) ∧
      (-128 ≤ r.1 → r.1 ≤ 127 → packElem 7#3 rm (sc, some x, b) (.fin sg mm ee) = (intBits 8 r.1, if r.2 then fNX else 0#5)) ∧
      (r.1 < -128 → packElem 7#3 rm (sc, some x, b) (.fin sg mm ee) = (0x80, fOF ||| fNX)) ∧
      (127 < r.1 → packElem 7#3 rm (sc, some x, b) (.fin sg mm ee) = (0x7F, fOF ||| fNX))) ∧
    (on false (srcOf a) .none d.toNat →
      exec (.vmovVa g d a) s = .next (row false false 2 d.toNat (srcOf a) .none (fun _ x _ l => lane (at' x l) 0#5))) ∧
    (on true (srcOf a) .none d.toNat →
      exec (.vmovVb g d a) s = .next (row true false 2 d.toNat (srcOf a) .none (fun _ x _ l => lane (at' x l) 0#5))) ∧
    (rowsOwned s (resultRows s d.toNat) →
      exec (.vbcstVa g d e) s = .next (row false false 2 d.toNat .none .none (fun _ _ _ _ => lane ((readS s e).setWidth 32) 0#5)) ∧
      exec (.vbcstVb g d e) s = .next (row true false 2 d.toNat .none .none (fun _ _ _ _ => lane ((readS s e).setWidth 32) 0#5))) ∧
    (rowsOwned s [winRow s (e.toNat + k / lanesOf s)] →
      exec (.vlaneVa g e c i) s = .next (laneEffect m k (winRow s (e.toNat + k / lanesOf s)) c s s) ∧
      exec (.vlaneVb g e c i) s = .next (laneEffect m k (winRow s (e.toNat + k / lanesOf s)) c s s)) ∧
    (canRead s (winRow s (vextRow s c i)) →
      exec (.vextVa g e c i) s =
        .next (extEffect m k (vextRow s c i) e s (latched false 1 (.win (vextRow s c i)) .none s)) ∧
      exec (.vextVb g e c i) s =
        .next (extEffect m k (vextRow s c i) e s (latched true 1 (.win (vextRow s c i)) .none s))) ∧
    (on false (srcOf a) (srcOf b) d.toNat →
      exec (.vperm g d a b) s = .next (row false false 3 d.toNat (srcOf a) (srcOf b)
        (fun _ x y l => lane (if (at' y l).toNat < lanesOf s then at' x (at' y l).toNat else 0#32) 0#5))) ∧
    (pVft s.sq.prec ≠ 3 → on false (srcOf a) .none d.toNat →
      exec (.vrsum g d a) s = .next (reduceEffect true m d a s (latched false n (srcOf a) .none s)) ∧
      exec (.vrmax g d a) s = .next (reduceEffect false m d a s (latched false n (srcOf a) .none s))) ∧
    (on false win .none e.toNat →
      exec (.vrotlVa g e c i) s = .next (row false false 3 e.toNat win .none
        (fun _ x _ l => lane (at' x ((l + lanesOf s - i.toNat % lanesOf s) % lanesOf s)) 0#5)) ∧
      exec (.vcvtVa g e c ds sr p t) s =
        .next (row false true 3 e.toNat win .none (fun _ x _ l => cvtLane ds sr p.toNat (pRm s.sq.prec) t (at' x l))) ∧
      exec (.vunpkVa g e c ds p) s =
        .next (row false true 3 e.toNat win .none (fun _ x _ l => unpkLane ds p.toNat (pRm s.sq.prec) (at' x l))) ∧
      exec (.vpackVa g e c ds p t) s = .next (row false true 3 e.toNat win .none (fun j u _ l => packed j u l))) ∧
    (on true win .none e.toNat →
      exec (.vrotlVb g e c i) s = .next (row true false 3 e.toNat win .none
        (fun _ x _ l => lane (at' x ((l + lanesOf s - i.toNat % lanesOf s) % lanesOf s)) 0#5)) ∧
      exec (.vcvtVb g e c ds sr p t) s =
        .next (row true true 3 e.toNat win .none (fun _ x _ l => cvtLane ds sr p.toNat (pRm s.sq.prec) t (at' x l))) ∧
      exec (.vunpkVb g e c ds p) s =
        .next (row true true 3 e.toNat win .none (fun _ x _ l => unpkLane ds p.toNat (pRm s.sq.prec) (at' x l))) ∧
      exec (.vpackVb g e c ds p t) s = .next (row true true 3 e.toNat win .none (fun j u _ l => packed j u l)))

/-- R346 to R348: indirect rows and tile views; an unconfigured view takes the view fault. -/
def Obligations.VectorMemory : Prop :=
  ∀ (g : Guard) (d a : BitVec 6) (i : Imm14) (t : BitVec 3) (r : BitVec 8) (s : State), laneMask g s ≠ 0#128 → shapeReady s →
    let m := laneMask g s
    let n := vecRows s
    let k : Word := if i.hdr then i.v.signExtend 64 else (i.v.extractLsb' 0 6).signExtend 64
    let x := ((((readS s a).toNat : Int) + k.toInt) % 2304).toNat
    let v := tabGet 0#64 s.sq.td t.toNat
    let y := vBase v + (readS s a).toNat % vNrow v * vPitch v + r.toNat % vSpan s.tk.g v
    let col := (readS s a).toNat % vNcol v
    let rows := (List.range (min (vNrow v) (32 * s.tk.g))).map (fun j => vtcRow s v j col)
    (operandReady s n 4 (.abs x) → rowsOwned s (resultRows s d.toNat) → ∀ vb : Bool,
      exec (if vb then .vldxVb g d a i else .vldxVa g d a i) s =
        .next (vecEffect vb false 2 m d.toNat .none .none (.abs x) (fun _ _ _ z l => lane (at' z l) 0#5) s s)) ∧
    (operandReady s n 4 (.win d.toNat) → rowsOwned s ((List.range n).map (fun j => (x + j) % 2304)) → ∀ vb : Bool,
      exec (if vb then .vstxVb g d a i else .vstxVa g d a i) s = .next (stxEffect m d x s s)) ∧
    (vNrow v ≠ 0 → operandReady s 1 4 (.abs y) → rowsOwned s [winRow s d.toNat] → ∀ vb : Bool,
      exec (if vb then .vtrdVb g d t a r else .vtrdVa g d t a r) s = .next (vtrEffect m y (winRow s d.toNat) s s)) ∧
    (vNrow v ≠ 0 → operandReady s 1 4 (.abs (winRow s d.toNat)) → rowsOwned s [y] → ∀ vb : Bool,
      exec (if vb then .vtrwVb g d t a r else .vtrwVa g d t a r) s = .next (vtrEffect m (winRow s d.toNat) y s s)) ∧
    (vNrow v ≠ 0 → (vW v = 8 ∨ vW v = 16 ∨ vW v = 32) → ¬(s.sq.rdHold.1 ≤ s.ix.c ∧ s.ix.c < s.sq.rdHold.2) →
      rowsOwned s rows →
      (rowsOwned s [winRow s d.toNat] → exec (.vtcd g d t a) s = .next (vtcEffect false m d v col s s)) ∧
      (operandReady s 1 4 (.win d.toNat) → exec (.vtcw g d t a) s = .next (vtcEffect true m d v col s s))) ∧
    (vNrow v = 0 →
      exec (.vtcd g d t a) s = .next (takeTrap (viewFault s 0x01 t.toNat v (vBase v)) s) ∧
      exec (.vtcw g d t a) s = .next (takeTrap (viewFault s 0x01 t.toNat v (vBase v)) s) ∧
      exec (.vtrdVa g d t a r) s = .next (takeTrap (viewFault s 0x01 t.toNat v (vBase v)) s) ∧
      exec (.vtrdVb g d t a r) s = .next (takeTrap (viewFault s 0x01 t.toNat v (vBase v)) s) ∧
      exec (.vtrwVa g d t a r) s = .next (takeTrap (viewFault s 0x01 t.toNat v (vBase v)) s) ∧
      exec (.vtrwVb g d t a r) s = .next (takeTrap (viewFault s 0x01 t.toNat v (vBase v)) s))

/-- R274, R284, R298, R155: NOP has no effect; ILLEGAL takes the illegal-encoding trap whatever its predicate; and an operation whose
predicate is off is charged as one operation and does nothing else, but that a vector operation still loads its latches.  For SPAWN,
JOIN, PHASE, SAFE, PSEL, TRET, the channel and copy instructions, GETC, SETC and STAT the operands meet the static checks. -/
def Obligations.PredicateOff : Prop :=
  ∀ (g : Guard) (stop n : Bool) (p : BitVec 3) (z : BitVec 18) (d a b : BitVec 6) (i : Imm14) (j : Imm20) (x : BitVec 20)
    (y : BitVec 12) (q r o m : BitVec 3) (t k f : BitVec 2) (w : BitVec 5) (v c : BitVec 4) (e : BitVec 8) (l : BitVec 14)
    (h : BitVec 16) (A B : VOp) (ps : PreciSel) (s : State),
    exec (.nop stop) s = .next s ∧
    exec (.illegal stop p n z) s = .next (takeTrap (illegal s 0x06) s) ∧
    (predOn g s = false →
      (∀ u ∈ [Instr.add g d a b, .sub g d a b, .addi g d a i, .lih g d j, .mul g d a b, .mulh g d a b, .mulhn g d a b,
          .div g d a b, .divn g d a b, .rem g d a b, .remn g d a b, .andS g d a b, .orS g d a b, .xorS g d a b, .andi g d a i,
          .ori g d a i, .xori g d a i, .shl g d a b, .shr g d a b, .shra g d a b, .shli g d a b, .shri g d a b, .shrai g d a b,
          .rotr g d a b, .clz g d a, .popc g d a, .minS g d a b, .maxS g d a b, .minn g d a b, .maxn g d a b, .ceq g q a b,
          .cne g q a b, .clt g q a b, .cle g q a b, .cltn g q a b, .clen g q a b, .ceqi g q a i, .clti g q a i, .badr g d a b,
          .boff g d a i, .ldb g d a i, .ldh g d a i, .ldw g d a i, .ldd g d a i, .stb g d a i, .sth g d a i, .stw g d a i,
          .std g d a i, .ldl g d a i, .stl g d a i, .aadd g d a b, .amin g d a b, .amax g d a b, .aor g d a b, .axch g d a b,
          .acas g d a b, .qmov g q a, .movq g d, .qlog g q r o m, .pbr g t j, .pbrr g t a, .br g t, .brc g t a, .call g t, .ret g,
          .loop g q a t, .loopi g q t x, .lstr g q a i, .lidx g d q, .lbrk g q, .halt g, .trap g x, .vany g q r, .vall g q r,
          .waitt g a, .waitl g a, .brk g x, .bar g, .fence g, .invq g, .bacq g a, .brel g a, .precW g d a b, .preci g ps x,
          .shape g t n a b, .shapq g d a b, .view g w a b, .viewq g d v, .engy g d, .gtc g d, .lcr g d a, .svcYield g, .svcFlush g,
          .cdsc g c a b], exec u s = .next (charge 5 1 s)) ∧
      (s.k = 0 → k ≠ 0#2 → k.toNat ≤ s.tk.nsib → a ≠ 0#6 → a.toNat ≤ 56 → y.toNat < s.tk.obj.live.length →
        (s.tk.obj.sched[e.toNat]?).isSome → s.sq.hret ≠ none →
        ∀ u ∈ [Instr.spawn g k a t, .joinK g k, .phase g, .safe g y, .psel g e a, .tret g n], exec u s = .next (charge 5 1 s)) ∧
      (f.toNat < s.tk.g → (v = 0#4 → f = 0#2) → exec (.stat g d f v) s = .next (charge 5 1 s)) ∧
      ((e.toNat < 0x40 ∨ s.tk.cust = true) → exec (.getc g d e) s = .next (charge 5 1 s) ∧
        (writable e.toNat = true → exec (.setc g d e) s = .next (charge 5 1 s))) ∧
      (f.toNat < s.tk.g → (tabGet chanOff s.tk.chans w.toNat).path ≠ 3#2 →
        ((tabGet chanOff s.tk.chans w.toNat).recv = false →
          exec (.send g w e f) s = .next (charge 5 1 s) ∧ exec (.sends g w a) s = .next (charge 5 1 s)) ∧
        ((tabGet chanOff s.tk.chans w.toNat).recv = true →
          exec (.recv g e w f) s = .next (charge 5 1 s) ∧ exec (.recvs g d w) s = .next (charge 5 1 s))) ∧
      (s.tk.cust = true → ∀ u ∈ [Instr.kzero g d a, .scrb g d a b, .scrq g d a b, .frel g d a b, .plwr g d a b, .btwr g d a b,
        .qwrt g d a b], exec u s = .next (charge 5 1 s))) ∧
    (maskOn g s = false →
      (∀ u ∈ [Instr.mma g t q r, .mmaz g t q r, .mmat g f t k q r, .mdrn g f t k n, .mclr g, .mscl g n q, .mvcn g n h, .msta g d a],
        exec u s = .next (charge 5 1 s)) ∧
      (m.toNat < 2 * s.tk.g → ∀ u ∈ [Instr.cpl g n m v, .cpi g n m v b, .cpo g n m v b, .cpdi g n m v b, .cpdo g n m v b,
        .cps g n m v b, .cpg g n m v b, .cpst g n m v b, .cpb g n m v b, .cpr g n m v b], exec u s = .next (charge 5 1 s))) ∧
    (laneMask g s = 0#128 →
      ∀ u ∈ [Instr.vaddVa g e A B, .vaddVb g e A B, .vsubVa g e A B, .vsubVb g e A B, .vmulVa g e A B, .vmulVb g e A B,
        .vfmaVa g e A B, .vfmaVb g e A B, .vminVa g e A B, .vminVb g e A B, .vmaxVa g e A B, .vmaxVb g e A B, .vfmsVa g e A B,
        .vfmsVb g e A B, .vfnmaVa g e A B, .vfnmaVb g e A B, .vdiv g e A B, .vsqrt g e A, .vexp2 g e A, .vlog2 g e A,
        .vabsVa g e A, .vabsVb g e A, .vnegVa g e A, .vnegVb g e A, .vrcpeVa g e A, .vrcpeVb g e A, .vrsqeVa g e A, .vrsqeVb g e A,
        .viaddVa g e A B, .viaddVb g e A B, .visubVa g e A B, .visubVb g e A B, .vimulVa g e A B, .vimulVb g e A B,
        .vimacVa g e A B, .vimacVb g e A B, .vandVa g e A B, .vandVb g e A B, .vorVa g e A B, .vorVb g e A B, .vxorVa g e A B,
        .vxorVb g e A B, .vshlVa g e A B, .vshlVb g e A B, .vshrVa g e A B, .vshrVb g e A B, .vshraVa g e A B, .vshraVb g e A B,
        .vfceqVa g q A B, .vfceqVb g q A B, .vfcltVa g q A B, .vfcltVb g q A B, .vfcleVa g q A B, .vfcleVb g q A B,
        .viceqVa g q A B, .viceqVb g q A B, .vicltVa g q A B, .vicltVb g q A B, .vicleVa g q A B, .vicleVb g q A B,
        .vmovVa g e A, .vmovVb g e A, .vbcstVa g e a, .vbcstVb g e a, .vlaneVa g d a l, .vlaneVb g d a l,
        .vextVa g d a l, .vextVb g d a l, .vcvtVa g d a q r t n, .vcvtVb g d a q r t n, .vpackVa g d a q t n, .vpackVb g d a q t n,
        .vunpkVa g d a q t, .vunpkVb g d a q t, .vperm g e A B, .vrotlVa g d a l, .vrotlVb g d a l, .vrsum g e A, .vrmax g e A,
        .vldxVa g d a i, .vldxVb g d a i, .vstxVa g d a i, .vstxVb g d a i, .vtrdVa g d q a e, .vtrdVb g d q a e, .vtcd g d q a,
        .vtrwVa g d q a e, .vtrwVb g d q a e, .vtcw g d q a, .vmskVa g q r o m, .vmskVb g q r o m, .viotaVa g e a b,
        .viotaVb g e a b], ∃ lat, exec u s = .next (charge 5 1 { s with sq := { s.sq with lat := lat } }))

/-- R271 to R278, R285, R317's example: words of the code image of R317, the all-zero word, and one word of each class. -/
def Obligations.DecodeSamples : Prop :=
  let g : Guard := ⟨true, 0#3, false⟩
  decode none 0xD0401004#32 = .ok (.pbr g 1#2 ⟨false, 4#20⟩) ∧
  decode none 0x81002001#32 = .ok (.addi g 2#6 0#6 ⟨false, 1#14⟩) ∧
  decode none 0xD2400083#32 = .ok (.lstr g 0#3 2#6 ⟨false, 3#14⟩) ∧
  decode none 0x52008004#32 = .ok (.loopi { g with stop := false } 0#3 1#2 4#20) ∧
  decode none 0x52803000#32 = .ok (.lidx { g with stop := false } 3#6 0#3) ∧
  decode none 0x89C01216#32 = .ok (.ceqi g 1#3 8#6 ⟨false, 22#14⟩) ∧
  decode none 0xD0C82000#32 = .ok (.br ⟨true, 1#3, false⟩ 2#2) ∧
  decode none 0x80400000#32 = .ok (.nop true) ∧
  decode none 0x00000000#32 = .ok (.illegal false 0#3 false 0#18) ∧
  decode none 0x90401083#32 = .ok (.vaddVa g 1#8 ⟨2#8, false⟩ ⟨3#8, false⟩) ∧
  decode (some 0x56#8) 0x90401083#32 = .ok (.vaddVa g 65#8 ⟨66#8, true⟩ ⟨67#8, false⟩) ∧
  decode none 0xA0401083#32 = .ok (.vaddVb g 1#8 ⟨2#8, false⟩ ⟨3#8, false⟩) ∧
  decode none 0xF0000000#32 = .error .headerSlot

/-- R272 to R278, R285: for every well-formed slot operation, at every value of every operand, decoding what the encoder writes gives
it back. -/
def Obligations.DecodeEncode : Prop :=
  ∀ (i : Instr) (w : SlotWord) (x : Option Byte), i.wf = true → encode i = some (w, x) → decode x w = .ok i

/-- R272, R276 to R278, R284: every slot word that decodes is the word of the well-formed instruction it decodes to; only ILLEGAL
leaves an extension byte unread. -/
def Obligations.EncodeDecode : Prop :=
  ∀ (x : Option Byte) (w : SlotWord) (i : Instr), decode x w = .ok i → i.wf = true ∧
    ∃ y, encode i = some (w, y) ∧ ((∃ stop p n o, i = .illegal stop p n o) ∨ y.getD 0#8 = x.getD 0#8)

/-- R285, R284: reserved opcodes, opcode 0 outside class 000, class 111 outside slot 0 and the opcodes that class 010 lacks are no
instruction, under every operand and extension byte. -/
def Obligations.ReservedOpcodes : Prop :=
  ∀ (x : Option Byte) (w : SlotWord),
    let c := (w.extractLsb' 28 3).toNat
    let op := (w.extractLsb' 22 6).toNat
    (c = 0 → 62 ≤ op → decode x w = .error .unknownOp) ∧
    (c = 0 → op = 0 → ∃ stop p n o, decode x w = .ok (.illegal stop p n o)) ∧
    (c = 1 → (op = 0 ∨ 53 ≤ op) → decode x w = .error .unknownOp) ∧
    (c = 2 → (op = 0 ∨ 53 ≤ op) → decode x w = .error .unknownOp) ∧
    (c = 2 → op ∈ [13, 14, 15, 16, 41, 43, 44, 48, 50] → decode x w = .error .vaOnly) ∧
    (c = 3 → (op = 0 ∨ 9 ≤ op) → decode x w = .error .unknownOp) ∧
    (c = 4 → (op = 0 ∨ 11 ≤ op) → decode x w = .error .unknownOp) ∧
    (c = 5 → (op = 0 ∨ 24 ≤ op) → decode x w = .error .unknownOp) ∧
    (c = 6 → (op = 0 ∨ 32 ≤ op) → decode x w = .error .unknownOp) ∧
    (c = 7 → decode x w = .error .headerSlot)

/-- R167, R260, R280: a step that issues.  Where the next act is the issue of a due sequencer's group and the group at its position is
the one slot word at that position, the step runs exactly the instruction that the word decodes to, at that slot; a trap of it, or of
the group's form, is taken; else the sequencer goes on.  A group that cannot be fetched traps.  With several slots, their
instructions run one after the other on each other's effects.  Before that the range registers that the group uses become the last
used (R115), the blocks of code that the sequencer does not hold are fetched (R113; when a fetch makes an access is the model's choice,
log 52), and a group whose messages the skid buffers cannot take does not issue in this step (R63). -/
def Obligations.StepRunsGroup : Prop :=
  ∀ (tid k : Nat) (rest : List Act) (t : Task) (s : State),
    s.agenda = .issue tid k :: rest → tabFind s.tasks tid = some t → k ∈ dueSeqs { t with ending := none } →
    skidRoom { s with agenda := rest } tid = true →
    let u := groupStart (fetchCode (focus tid k (touchRange tid k { s with agenda := rest })))
    let p := u.sq.pos
    let s1 := groupState u
    let done (v : State) : Host.Outcome State Fault Refusal := .next (onDev (fun d =>
      { d with window := tabSet 0 d.window (groupKey t k) (tabGet 0 d.window (groupKey t k) + 1) }) (unfocus v))
    let x : Slot := ⟨p.bundle, p.slot, codeWord s1 p.bundle p.slot, headerOf s1 p.bundle⟩
    let form := formTraps s1 p (groupAt s1 p) ((groupAt s1 p).slots.map (fun y => (y, slotUses s1 y)))
    (∀ e, fetchTrap u p = some e → step s = done (takeTrap e u)) ∧
    (fetchTrap u p = none →
      (p.slot < 4 → (p.slot ≠ 0 ∨ x.hdr = none) → x.w.getLsbD 31 = true → (groupAt s1 p).slots = [x] ∧
        ∀ i, decode (extByte x.hdr x.k) x.w = .ok i → form = [] →
          ∀ v, exec i (atSlot (slotOff s1 x) p x s1) = .next v →
            (v.ix.trap = none → step s = done (advance s1 v)) ∧ (∀ e, v.ix.trap = some e → step s = done (takeTrap e s1))) ∧
      (∀ v ts, runSlots exec s1 p (runOrder (groupAt s1 p)) s1 [] = .next (v, ts) →
        (firstTrap (form ++ ts) = none → step s = done (advance s1 v)) ∧
        (∀ e, firstTrap (form ++ ts) = some e → step s = done (takeTrap e s1))) ∧
      (∀ y ys v ts i, decode (extByte y.hdr y.k) y.w = .ok i →
        ∀ v', exec i (atSlot (slotOff s1 y) p y v) = .next v' →
          runSlots exec s1 p (y :: ys) v ts = match v'.ix.trap with
            | none => runSlots exec s1 p ys v' ts
            | some e => runSlots exec s1 p ys v (ts ++ [e])))

/-- What the step does around the instructions: an event at the head of the agenda, or of the inputs when the agenda is empty, runs; an
input that a device without power, or held by the alarm, does not hear is lost; with no act, one cyc passes: the clock and the free
counter move on, the registers of every task and memory stay.  That the agenda comes before the inputs, and both before the tick, is the
model's choice (log 4): the manual orders no two of them within a cyc. -/
def Obligations.StepOrder : Prop :=
  ∀ (s : State),
    (∀ e rest, s.agenda = .event e :: rest → step s = runEv e { s with agenda := rest }) ∧
    (∀ e rest, s.agenda = [] → s.inputs = .event e :: rest → mustWait s (.event e) = false → inService s.dev = true →
      step s = runEv e { s with inputs := rest }) ∧
    (∀ i rest, s.agenda = [] → s.inputs = i :: rest → mustWait s i = false → inService s.dev = false → alwaysHeard i = false →
      step s = .next { s with inputs := rest }) ∧
    (s.agenda = [] → (s.inputs = [] ∨ ∃ i rest, s.inputs = i :: rest ∧ mustWait s i = true) →
      ∃ t, step s = .next t ∧ t.cyc = s.cyc + 1 ∧ t.free = s.free + 1 ∧ t.tasks = s.tasks ∧ t.mem = s.mem ∧ t.inputs = s.inputs ∧
        (∀ e ∈ s.replies, e.2.who ≠ .setter → (∀ j ∈ s.dev.jobs, j.id ≠ e.1) → e ∈ t.replies) ∧
        t.dev.gtc = if s.dev.host.powered then gtcTick s.dev.gtc else s.dev.gtc) ∧
    (∀ (a b c d e f n : Nat) (k : PreemptKind) (w v : Word) (o : Bool) (h : Hlp) (el : Element) (m : Msg) (rr : RemoteReq)
        (bs : List Byte) (stk : BitVec 32) (mods : BitVec 4) (rows : List BinnedRow) (ds us : List (BitVec 16)) (es : List Word),
      runEv (.custodianResult a) s = exec (.custodianResult a) s ∧
      runEv (.matrixCheck a b c d e f n) s = exec (.matrixCheck a b c d e f n) s ∧
      runEv (.copyComplete a) s = exec (.copyComplete a) s ∧ runEv (.resultLanding a) s = exec (.resultLanding a) s ∧
      runEv (.endpointReply a) s = exec (.endpointReply a) s ∧ runEv (.phaseComplete a) s = exec (.phaseComplete a) s ∧
      runEv (.barComplete a) s = exec (.barComplete a) s ∧ runEv (.waittRelease a b) s = exec (.waittRelease a b) s ∧
      runEv (.bankCleared a b c) s = exec (.bankCleared a b c) s ∧ runEv (.stallTimeout a) s = exec (.stallTimeout a) s ∧
      runEv (.safeBoundOverrun a) s = exec (.safeBoundOverrun a) s ∧ runEv (.hlpRrd h) s = exec (.hlpRrd h) s ∧
      runEv (.registerWrite h) s = exec (.registerWrite h) s ∧ runEv (.hlpMrd h) s = exec (.hlpMrd h) s ∧
      runEv (.hlpMwr h) s = exec (.hlpMwr h) s ∧ runEv (.hlpCpld h) s = exec (.hlpCpld h) s ∧
      runEv (.hlpCpl h) s = exec (.hlpCpl h) s ∧ runEv (.hostReadTimeout a) s = exec (.hostReadTimeout a) s ∧
      runEv (.moduleDisabled a) s = exec (.moduleDisabled a) s ∧ runEv .pcreate s = exec .pcreate s ∧
      runEv .pdestroy s = exec .pdestroy s ∧ runEv .colassign s = exec .colassign s ∧ runEv .dsmassign s = exec .dsmassign s ∧
      runEv .dsmBankClearDone s = exec .dsmBankClearDone s ∧ runEv .pooladd s = exec .pooladd s ∧
      runEv .poolrem s = exec .poolrem s ∧ runEv .uashare s = exec .uashare s ∧ runEv .vcreate s = exec .vcreate s ∧
      runEv .vreset s = exec .vreset s ∧ runEv (.vresetComplete a) s = exec (.vresetComplete a) s ∧
      runEv .vdestroy s = exec .vdestroy s ∧ runEv .credit s = exec .credit s ∧ runEv .keyload s = exec .keyload s ∧
      runEv .attest s = exec .attest s ∧ runEv .idcert s = exec .idcert s ∧ runEv .deviceReset s = exec .deviceReset s ∧
      runEv .sidebandReset s = exec .sidebandReset s ∧ runEv (.firmwareVerify bs) s = exec (.firmwareVerify bs) s ∧
      runEv (.packagePowerOn stk mods) s = exec (.packagePowerOn stk mods) s ∧
      runEv (.binningComplete rows) s = exec (.binningComplete rows) s ∧ runEv (.plimWrite w) s = exec (.plimWrite w) s ∧
      runEv (.ltolWrite a w) s = exec (.ltolWrite a w) s ∧ runEv (.scrubctlWrite a w) s = exec (.scrubctlWrite a w) s ∧
      runEv (.uarctxWrite a b w) s = exec (.uarctxWrite a b w) s ∧ runEv (.gtcincWrite w) s = exec (.gtcincWrite w) s ∧
      runEv (.gtcadjWrite w) s = exec (.gtcadjWrite w) s ∧ runEv (.gtcsetWrite w) s = exec (.gtcsetWrite w) s ∧
      runEv .gtcSlewDone s = exec .gtcSlewDone s ∧ runEv .gtcHoldover s = exec .gtcHoldover s ∧
      runEv (.loupeArm w) s = exec (.loupeArm w) s ∧ runEv (.tampctlWrite w) s = exec (.tampctlWrite w) s ∧
      runEv (.vfstatDegWrite a w) s = exec (.vfstatDegWrite a w) s ∧ runEv (.gsub a w) s = exec (.gsub a w) s ∧
      runEv (.gcan a w) s = exec (.gcan a w) s ∧ runEv (.eqctlWrite a w) s = exec (.eqctlWrite a w) s ∧
      runEv (.eqheadWrite a w) s = exec (.eqheadWrite a w) s ∧ runEv (.eventRecordWrite a) s = exec (.eventRecordWrite a) s ∧
      runEv (.eqInterruptTimer a) s = exec (.eqInterruptTimer a) s ∧ runEv .arbiterEpoch s = exec .arbiterEpoch s ∧
      runEv (.fastLimiter a) s = exec (.fastLimiter a) s ∧ runEv (.sensorUpdate ds us) s = exec (.sensorUpdate ds us) s ∧
      runEv .supplyExcursion s = exec .supplyExcursion s ∧ runEv .meshBreak s = exec .meshBreak s ∧
      runEv (.powerStateEntry el) s = exec (.powerStateEntry el) s ∧ runEv (.wakeComplete el) s = exec (.wakeComplete el) s ∧
      runEv (.portAdmit a) s = exec (.portAdmit a) s ∧ runEv (.rowRefresh a b c) s = exec (.rowRefresh a b c) s ∧
      runEv .activationWindow s = exec .activationWindow s ∧ runEv (.patrolScrubStep a) s = exec (.patrolScrubStep a) s ∧
      runEv (.hotScrubStep a b) s = exec (.hotScrubStep a b) s ∧ runEv (.patrolPeriodEnd a) s = exec (.patrolPeriodEnd a) s ∧
      runEv (.retirementCopyDone a b) s = exec (.retirementCopyDone a b) s ∧
      runEv (.leaseIncrement a b) s = exec (.leaseIncrement a b) s ∧ runEv (.leaseReply a b) s = exec (.leaseReply a b) s ∧
      runEv (.leaseRelease a b) s = exec (.leaseRelease a b) s ∧ runEv (.pullReadReply a o bs) s = exec (.pullReadReply a o bs) s ∧
      runEv (.pullTimeout a) s = exec (.pullTimeout a) s ∧ runEv (.remoteRequest rr) s = exec (.remoteRequest rr) s ∧
      runEv (.invalidationDone a) s = exec (.invalidationDone a) s ∧
      runEv (.invalidationTimeout a) s = exec (.invalidationTimeout a) s ∧
      runEv (.polisherClearBlock a) s = exec (.polisherClearBlock a) s ∧
      runEv (.linkTraining a b c) s = exec (.linkTraining a b c) s ∧ runEv (.laneLoss a b c) s = exec (.laneLoss a b c) s ∧
      runEv (.linkReplay a o) s = exec (.linkReplay a o) s ∧ runEv (.skidSend a) s = exec (.skidSend a) s ∧
      runEv (.messageLanding m) s = exec (.messageLanding m) s ∧ runEv (.creditReturn a b) s = exec (.creditReturn a b) s ∧
      runEv (.collectiveStart a) s = exec (.collectiveStart a) s ∧
      runEv (.reductionContribution ⟨a, b⟩ c d es e) s = exec (.reductionContribution ⟨a, b⟩ c d es e) s ∧
      runEv (.collectiveComplete a) s = exec (.collectiveComplete a) s ∧ runEv (.graphParse a) s = exec (.graphParse a) s ∧
      runEv (.selectionRound a) s = exec (.selectionRound a) s ∧ runEv .gangToken s = exec .gangToken s ∧
      runEv (.priorityPreemption a) s = exec (.priorityPreemption a) s ∧ runEv (.dispatch a) s = exec (.dispatch a) s ∧
      runEv (.saveComplete a) s = exec (.saveComplete a) s ∧ runEv (.contextRestore a) s = exec (.contextRestore a) s ∧
      runEv (.phaseRestart a) s = exec (.phaseRestart a) s ∧ runEv (.nodeRetire a) s = exec (.nodeRetire a) s ∧
      runEv (.jobCardStart a) s = exec (.jobCardStart a) s ∧ runEv (.jobCardComplete a) s = exec (.jobCardComplete a) s ∧
      runEv .caratFlush s = exec .caratFlush s ∧
      runEv (.preemptionRequestArrival a k) s = exec (.preemptionRequestArrival a k) s ∧
      runEv (.dsmBankRequest a b) s = exec (.dsmBankRequest a b) s ∧ runEv (.rangeRegisterFill a b) s = exec (.rangeRegisterFill a b) s)

/-- No instruction or event, and no step, of this machine faults or is refused: every state has a next state. -/
def Obligations.AlwaysCompletes : Prop :=
  (∀ (i : Instr) (s : State), ∃ t, exec i s = .next t) ∧ ∀ s : State, ∃ t, step s = .next t

/-- R39, R73, R85, R86, R191, R222, and the model's own choices for what the spec leaves open at package power (log entry 1 for the
registers, log entry 3 for memory): the state after reset, the registers of a sequencer before its first group, and the invariant of memory. -/
def Obligations.ResetValues : Prop :=
  let s := State.reset
  memoryOk s ∧ (∀ k, memAt s k = 0#8) ∧ s.tasks = [] ∧ s.agenda = [] ∧
  readDevice s.dev 0x08 = 4 ∧ readDevice s.dev 0x10 = 0 ∧ readDevice s.dev 0x18 = 0 ∧ readDevice s.dev 0x28 = 0 ∧
  s.dev.plim = 0x1068 ∧ s.dev.gtc.t = 0 ∧ s.dev.gtc.inc = 0x0A0000000000 ∧ s.dev.gtc.eb = 0xFFFFFFFF ∧
  (∀ v, getVf s.dev v = vfAbsent) ∧ (∀ n, (getStack s.dev n).period = 24 ∧ (getStack s.dev n).selfref = true) ∧
  (∀ n : BitVec 6, readS { s with sq := seq0 } n = 0#64) ∧ (∀ n : BitVec 3, readQ { s with sq := seq0 } n = decide (n = 0#3)) ∧
  seq0.prec = 0#64 ∧ seq0.vwin = 0#64 ∧ seq0.fflags = 0#64 ∧ seq0.trapv = 0#64 ∧ seq0.tcause = 0#64 ∧ seq0.mvalid = 0#64 ∧
  (∀ n, tabGet 0#64 seq0.tinfo n = 0#64 ∧ tabGet 0#64 seq0.td n = 0#64 ∧ tabGet 0#64 seq0.av n = 0#64 ∧ tabGet 0#64 seq0.sh n = 0#64)

/-- Memory keeps its canonical form over every instruction, every event and every step. -/
def Obligations.MemoryOkKept : Prop :=
  (∀ (i : Instr) (s t : State), memoryOk s → exec i s = .next t → memoryOk t) ∧
  ∀ s t : State, memoryOk s → step s = .next t → memoryOk t

/-- R34, R37, R117: where writes go.  A write within one block of a stack changes no byte outside that block; where the block reads
clean and is not sealed, it stores exactly its bytes and changes no other.  A write at a DSM bank stores exactly its bytes. -/
def Obligations.BlockWrites : Prop :=
  (∀ (n p part : Nat) (bs : List Byte) (ba place : Word) (s : State), p % 64 + bs.length ≤ 64 →
    let r := writeBlock n p part none bs ba place s
    let b := hbmKey n (p / 64 * 64)
    (∀ k, (k < b ∨ b + 64 ≤ k) → memAt r.1 k = memAt s k) ∧
    (blockReading s n p = .clean → tabFind s.dev.sealed' (blkKey n p) = none →
      r.2 = true ∧ (∀ i, ∀ h : i < bs.length, memAt r.1 (hbmKey n p + i) = bs[i]) ∧
      ∀ k, (k < hbmKey n p ∨ hbmKey n p + bs.length ≤ k) → memAt r.1 k = memAt s k)) ∧
  (∀ (die bank d b y : Nat) (r : Req) (s : State), dsmReq s die bank = some r → r.loc = .dsm d b y → r.op = .write →
    awake s.dev (elKey (.die die)) = true →
    ∃ t, exec (.dsmBankRequest die bank) s = .next t ∧
      (∀ i, ∀ h : i < r.data.length, memAt t (dsmKey d b y + i) = r.data[i]) ∧
      ∀ k, (k < dsmKey d b y ∨ dsmKey d b y + r.data.length ≤ k) → memAt t k = memAt s k)

/-- R242, R308, R309: what a scalar store, a load and an atomic start.  A store and a load: for each piece of the access, in order, one
request with its place and, for the store, its bytes; an atomic: one request of its aligned 8 bytes with its operands.  Memory, the
registers and the tables stay as they are, and the value of a load or an atomic lands when its reply is due.  R218: a load's piece whose
line is in the sequencer's read cache makes no request, its bytes are the line's; an atomic drops the line of its atom. -/
def Obligations.AccessRequests : Prop :=
  ∀ (z : Nat) (d : BitVec 6) (v ba : Word) (e : BitVec 256) (s : State),
    let off := (ba &&& 0xFFFFFFFFFFFF#64).toNat
    let idx := ba.toNat / 2 ^ 48
    let req (id : Nat) (op : MemOp) (data : List Byte) (sc : Bool) (p : Nat × Nat × Nat) : Out :=
      .req ⟨id, p.1, .task s.tid s.k, s.tk.vf, locate e p.2.1, p.2.2, op, data, w64 (idx * 2 ^ 48 + p.2.1), false, sc⟩
    (let t := storeEffect z v ba e s
     t.tk.out = s.tk.out ++ (piecesIn e off z).map (fun p =>
       req 0 .write (((natLe z v.toNat).drop p.1).take p.2.2) false p) ∧
     sameRegisters s.sq t.sq ∧ sameFlow s.sq t.sq ∧ sameTrapRegs s.sq t.sq ∧ sameWorld s t ∧ t.sq.land = s.sq.land ∧
     t.replies = s.replies) ∧
    (let t := loadEffect z d ba e s
     let hit (p : Nat × Nat × Nat) : Option Line := cachedLine s.sq (locate e p.2.1)
     let missed := (piecesIn e off z).filter (fun p => (hit p).isNone)
     t.tk.out = s.tk.out ++ missed.map (fun p => req s.nextId .read [] true p) ∧
     sameRegisters s.sq t.sq ∧ sameFlow s.sq t.sq ∧ sameTrapRegs s.sq t.sq ∧ sameWorld s t ∧ t.sq.rcache = s.sq.rcache ∧
     t.sq.land = s.sq.land ++ [⟨s.ix.c, s.ix.cl + accessNominal s.tk e off z - 1, .load d s.nextId kLoad⟩] ∧
     (∃ data, tabFind t.replies s.nextId = some ⟨.task s.tid s.k, 8, missed.length, data, [], false⟩ ∧
       (∀ p ∈ piecesIn e off z, ∀ i < p.2.2, tabGet 0#8 data (p.1 + i) = match hit p with
         | some x => x.data.getD (lineByte (locate e p.2.1) + i) 0#8
         | none => 0#8)) ∧
     (s.sq.rcache = [] → missed = piecesIn e off z) ∧
     ∀ n, n ≠ s.nextId → tabFind t.replies n = tabFind s.replies n) ∧
    (∀ (op : MemOp) (data : List Byte),
     let t := atomicEffect op d data ba e s
     let l := locate e off
     t.tk.out = s.tk.out ++ [.req ⟨s.nextId, 0, .task s.tid s.k, s.tk.vf, l, 8, op, data, ba, false, false⟩] ∧
     sameRegisters s.sq t.sq ∧ sameFlow s.sq t.sq ∧ sameTrapRegs s.sq t.sq ∧ sameWorld s t ∧
     t.sq.rcache = s.sq.rcache.filter (fun x => lineTag l != some (x.vf, x.blk)) ∧
     t.sq.land = s.sq.land ++ [⟨s.ix.c, s.ix.cl + nominal s.tk l + 64 - 1, .load d s.nextId kAtomic⟩] ∧
     tabFind t.replies s.nextId = some ⟨.task s.tid s.k, 8, 1, [], [], false⟩ ∧
     ∀ n, n ≠ s.nextId → tabFind t.replies n = tabFind s.replies n)

/-- R167, R260: the frame of every slot operation.  At its issue it changes no byte of memory, no request, no other task, no clock
and nothing of the device (but the alarm that a custodian instruction outside a custodian task raises with its trap, R108), and no
register, mask, accumulator, descriptor or control register but the trap registers: results land later.  TCAUSE and TINFO change only
with a trap; the branch, loop and position state, and the return state of a handler, only with a trap or an operation of class 101. -/
def Obligations.SlotOpsFrame : Prop :=
  ∀ (i : Instr) (w : SlotWord) (x : Option Byte) (s t : State), encode i = some (w, x) → exec i s = .next t →
    sameWorld s t ∧ (t.dev = s.dev ∨ t.dev = { s.dev with alarms := s.dev.alarms ++ [4] }) ∧ sameRegisters s.sq t.sq ∧
    (noTrap t → t.dev = s.dev ∧ t.sq.tcause = s.sq.tcause ∧ t.sq.tinfo = s.sq.tinfo ∧
      (w.extractLsb' 28 3 ≠ 5#3 → sameFlow s.sq t.sq ∧ t.sq.hret = s.sq.hret))

/-- R167: what each result writes when it lands, and that it writes nothing else. R204: a row that lands sets D of the tile views whose
extent holds it, and no view's D is cleared.  A link, a matrix operation's start, a trap and a charge of energy write no register as they
land: the end of the cycle gives lk its value (R312), computes what the operation lands (R215), takes the trap (R265) and charges the task
(R221). -/
def Obligations.LandingWrites : Prop :=
  ∀ (s : State) (g c at' : Nat) (q : Seq),
    let f (d : Dst) : Seq := landOne s g ⟨c, at', d⟩ q
    let bit : Word := 0x8000000000000000#64
    let marks (rows : List Nat) (u : Tab Word) : Prop := ∀ n, tabGet 0#64 u n =
      if rows.any (inExtent g (tabGet 0#64 q.td n)) then tabGet 0#64 q.td n ||| bit else tabGet 0#64 q.td n
    (∀ (n : BitVec 6) v, ∃ u, f (.sreg n v) = { q with s := u } ∧ tabGet 0#64 u n.toNat = v ∧
      ∀ m, m ≠ n.toNat → tabGet 0#64 u m = tabGet 0#64 q.s m) ∧
    (∀ (n : BitVec 6) id kind, ∃ u, f (.load n id kind) = { q with s := u } ∧
      (n ≠ 0#6 → tabGet 0#64 u n.toNat = w64 (leNat (replyData s id 0 8))) ∧
      ∀ m, (m ≠ n.toNat ∨ n = 0#6) → tabGet 0#64 u m = tabGet 0#64 q.s m) ∧
    (∀ (n : BitVec 3) v, ∃ u, f (.pred n v) = { q with q := u } ∧ u.getLsbD n.toNat = v ∧
      ∀ m : BitVec 3, m ≠ n → u.getLsbD m.toNat = q.q.getLsbD m.toNat) ∧
    (∀ (n : BitVec 3) en v fl, ∃ u, f (.mask n en v fl) = { q with m := u, fflags := orFlags q.fflags fl } ∧
      (n ≠ 0#3 → ∀ l < 128, (tabGet 0#128 u n.toNat).getLsbD l = if en.getLsbD l then v.getLsbD l else
        (tabGet 0#128 q.m n.toNat).getLsbD l) ∧
      ∀ m, (m ≠ n.toNat ∨ n = 0#3) → tabGet 0#128 u m = tabGet 0#128 q.m m) ∧
    (∀ x cols ws fl, ∃ u, f (.row x cols ws fl) = { q with td := u, fflags := orFlags q.fflags fl, lrs := tabSets 0#8 q.lrs ws } ∧
      (∀ b, (∀ e ∈ ws, e.1 ≠ b) → tabGet 0#8 (tabSets 0#8 q.lrs ws) b = tabGet 0#8 q.lrs b) ∧ marks [x] u) ∧
    (∀ rows ws, ∃ u, f (.slice rows ws) = { q with td := u, lrs := tabSets 0#8 q.lrs ws } ∧ marks rows u) ∧
    (∀ x cols id off, ∃ u l, f (.copyRow x cols id off) = { q with td := u, lrs := l } ∧ marks [x] u ∧
      (∀ j < g, cols.getLsbD j = true → ∀ b < 128,
        tabGet 0#8 l (rowByte g x (128 * j + b)) = (replyData s id off 128).getD b 0#8) ∧
      ∀ y, (∀ j < g, cols.getLsbD j = true → ∀ b < 128, y ≠ rowByte g x (128 * j + b)) → tabGet 0#8 l y = tabGet 0#8 q.lrs y) ∧
    (∀ x fm rm add mm es,
      let old (e : DrainElem) : Nat := rowBits g q.lrs x e.bit (drainW fm)
      let value (e : DrainElem) : Nat := (if add then drainAddValue e.acc (old e) fm rm else drainValue e.acc fm rm).1
      let ovf (e : DrainElem) : Bool := add && !accInf e.acc && (drainAddValue { e.acc with ovm := false } (old e) fm rm).2.2
      ∃ u ov, f (.drain x fm rm add mm es) = { q with
          td := u, ov := q.ov ||| ov
          lrs := tabSets 0#8 q.lrs (es.flatMap (fun e =>
            (natLe (drainW fm / 8) (value e)).zipIdx.map (fun b => (rowByte g x (e.bit / 8 + b.2), b.1)))) } ∧
        marks (es.map (fun e => x + e.bit / (1024 * g))) u ∧
        ∀ n < 4, ov.getLsbD n = es.any (fun e => ovf e && e.quad / 4 == n)) ∧
    (∀ nan ov, f (.stat false nan ov) = { q with nan := q.nan ||| nan, ov := q.ov ||| ov } ∧
      f (.stat true nan ov) = { q with nan := 0#16, ov := 0#4 }) ∧
    (∀ (tid k : Nat) (tk : Task) (i : Nat),
      f .link = q ∧ (q.land = [⟨i, at', .link⟩] →
        (landSeq s tid k g at' q).s = tabSet 0#64 q.s 63 (linkValue (focus tid k s) q)) ∧
      (∀ x, f (.matrix x) = q ∧ (q.land = [⟨i, at', .matrix x⟩] →
        (landSeq s tid k g at' q).land = (matLands g i x q.lrs q.acc).filter (fun l => l.lc != at'))) ∧
      (∀ x, f (.trap x) = q ∧ (⟨i, at', .trap x⟩ ∈ q.land → x ∈ seqTraps s tid k at' tk q)) ∧
      (∀ b r, f (.energy b r) = q ∧ landCharge g ⟨i, at', .energy b r⟩ tk =
        { tk with meter := tk.meter + r * Config.coef tk.die tk.tile 1 + b * Config.coef tk.die tk.tile 0 })) ∧
    (∀ v, f (.ctrl 0x04 v) = { q with prec := v } ∧ f (.ctrl 0x05 v) = { q with vwin := v } ∧
      f (.ctrl 0x06 v) = { q with fflags := v } ∧ f (.ctrl 0x08 v) = { q with trapv := v } ∧
      f (.ctrl 0x31 v) = { q with mvalid := v } ∧
      ∀ n, (n < 8 → f (.ctrl (0x10 + n) v) = { q with td := tabSet 0#64 q.td n (v ||| (tabGet 0#64 q.td n &&& bit)) }) ∧
        (n < 4 → f (.ctrl (0x18 + n) v) = { q with av := tabSet 0#64 q.av n v } ∧
          f (.ctrl (0x1C + n) v) = { q with sh := tabSet 0#64 q.sh n v })) ∧
    (∀ n v, f (.desc n v) = { q with cd := tabSet 0#128 q.cd n v }) ∧
    (∀ a, f (.accs a) = { q with acc := a }) ∧ (∀ a, f (.scale false a) = { q with scaleA := a } ∧ f (.scale true a) = { q with scaleB := a }) ∧
    (∀ set clr, f (.banks set clr) = { q with own := (q.own ||| set) &&& ~~~clr, clearing := q.clearing ||| clr })

/-- R32: no two offsets of a buffer lie at one intermediate address, as long as its stack-local part does not run over its 43 bits. -/
def Obligations.InterleaveDistinct : Prop :=
  ∀ (e : BitVec 256) (a b : Nat), eBase e % 2 ^ 43 + a < 2 ^ 43 → eBase e % 2 ^ 43 + b < 2 ^ 43 →
    interleave e a = interleave e b → a = b

/-- R115, R167, R169, R175, R177, R183, R187, R188, R237, R245, R373, R397: what each event of a tile does where it is due: a LC that ends
lands its results, one that is held counts the cyc; a custodian instruction, a reply, a copy, a PHASE, a BAR, a WAITT, a bank's clearing, a
matrix check, the bounds of a stall and of the SAFEs, the range registers and a pre-emption.  The model's choices among them: what the
groups of a LC have sent leaves only after the next LC's stalls (log 33), and the tables' entries that a custodian instruction or a
range-register fill needs are read as any other block, before it goes on (log 17). -/
def Obligations.TileEvents : Prop :=
  ∀ (tid k id : Nat) (t : Task) (q : Seq) (s : State), tabFind s.tasks tid = some t →
    let put (u : Task) : Host.Outcome State Fault Refusal := .next { s with tasks := tabPut s.tasks tid u }
    (t.alive = true → dueSeqs t = [] → t.seqs = [(0, q)] → q.st = .running → q.copies = [] → t.out = [] → t.kept = [] →
      t.ending = none → t.taken = none →
      let s0 := { s with tasks := tabPut (tabPut s.tasks tid t) tid t }
      landWait (sendKept tid s) t = 0 → seqTraps (sendKept tid s) tid 0 t.lc t q = [] →
      ∃ u t', exec (.resultLanding tid) s = .next (settle tid u) ∧ tabFind u.tasks tid = some t' ∧ t'.lc = t.lc + 1 ∧ t'.cond = 0 ∧
        t'.seqs = [(0, landSeq s0 tid 0 t.g t.lc q)] ∧ u.mem = s.mem ∧ u.reqs = s.reqs ∧ u.agenda = s.agenda) ∧
    (t.alive = true → dueSeqs t ≠ [] →
      (preCond s tid ≠ 5 → preCond s tid ≠ 8 → exec (.resultLanding tid) s = put { t with
        hold := if t.holdAt = t.lc then t.hold + 1 else 1, holdAt := t.lc, cond := preCond s tid }) ∧
      (preCond s tid = 5 → exec (.resultLanding tid) s = .next (onTask tid (heldOn t.lc 5) (sendKept tid s))) ∧
      (preCond s tid = 8 → exec (.resultLanding tid) s = .next (onTask tid (heldOn t.lc 8) (heldSplits tid s)))) ∧
    (∀ c, s.dev.custs.find? (fun c => c.reply == id) = some c → c.due ≤ s.cyc →
      let p := (getVf s.dev c.vf).part
      let s1 := onDev (fun d => { d with reading := false, custs := d.custs.filter (fun x => x.reply != id) }) s
      let set := askEntries (.cust id) [] c.vf (setEntries s1 p c.a c.b) s1
      let settled (u : State) (v : Verdict) : Prop :=
        (∀ w, v = .ok w → performCust c s1 = custReply id (resultWord 0 0 w.2) [] w.1) ∧
        (∀ e, v = .error e → performCust c s1 = custRefuse id e.1 e.2 u)
      (∀ v, c.passed = some v → exec (.custodianResult id) s = .next (closeJobs (.cust id) (frelWait c v c.wait s1))) ∧
      (c.passed = none → exec (.custodianResult id) s =
        .next (worked (.cust id) (performCust c s1) s)) ∧
      (c.op = 25 → settled s1 (kzero p c.a c.overtaken s1)) ∧
      (c.op = 26 → settled set.1 (scrb p c.a c.b set.2 set.1)) ∧
      (c.op = 27 → settled s1 (scrq p c.a c.b s1)) ∧
      (c.op = 28 → (∀ e, frel p c.a c.b set.2 set.1 = .error e → performCust c s1 = custRefuse id e.1 e.2 set.1) ∧
        ∀ x, frel p c.a c.b set.2 set.1 = .ok x → performCust c s1 = frelWait c x.2.1 x.2.2 x.1) ∧
      (c.op = 29 → settled s1 (plwr p c.a c.b s1)) ∧
      (c.op = 30 →
        (∀ code, btwrCode s1 c = some code → performCust c s1 = custRefuse id code 0 { s1 with replies := tabDel s1.replies c.src }) ∧
        ∀ x, btwrCode s1 c = none → tabFind s1.replies c.src = some x → x.left = 0 →
          (∀ e es, x.errs = e :: es → performCust c s1 =
            custReply id 0#64 [{ e with off := 0, kind := 1 }] { s1 with replies := tabDel s1.replies c.src }) ∧
          (x.errs = [] →
            let r := btwrWrite c (tabBytes x.data 0 32) s1
            let u := { r.1 with replies := tabDel r.1.replies c.src }
            (∀ v, r.2 = .ok v → performCust c s1 = custReply id (resultWord 0 0 v) [] u) ∧
            (∀ e, r.2 = .error e → performCust c s1 = custRefuse id e.1 e.2 u))) ∧
      (c.op = 31 → settled s1 (qwrt p c.a c.b s1))) ∧
    (∀ u : State, (keepAsked u s).mem = s.mem ∧ (keepAsked u s).tasks = s.tasks ∧
      (keepAsked u s).dev = { s.dev with jobs := (keepAsked u s).dev.jobs, reading := false }) ∧
    (∀ b m c r x, tabFind t.seqs k = some q → q.win.1 ≤ t.lc → t.lc < q.win.2 → q.winExt.length < 3 →
      exec (.matrixCheck tid k b m c r x) s = .next (onSeq tid k (fun q => { q with land := q.land ++ [⟨q.opLc, q.win.2 - 1,
        .trap ⟨0x09, 0x01, 0, w64 b, w64 (m % 256 + 256 * (c % 256)), w64 (x % 256 + 256 * (r % 256)), w64 q.opLc, none⟩⟩] }) s)) ∧
    (∀ r, tabFind s.replies (id + 1) = some r → r.left = 0 →
      s.tasks.any (fun e => e.2.seqs.any (fun q => q.2.copies.any (fun c => c.id == id && c.wrote))) = true →
      exec (.copyComplete id) s = .next { s with replies := tabPut s.replies (id + 1) { r with ok := true } }) ∧
    (∀ r, tabFind s.replies id = some r → r.left = 0 → r.size ≠ 0 → r.ok = false → r.who = .task tid k →
      tabFind t.seqs k = some q → q.copies.find? (fun c => c.id == id && c.kind == 4) = none →
      exec (.endpointReply id) s = .next { s with replies := tabPut s.replies id { r with ok := true } }) ∧
    (∀ r c, tabFind s.replies id = some r → r.left = 0 → r.size ≠ 0 → r.ok = false → r.who = .task tid k →
      tabFind t.seqs k = some q → q.copies.find? (fun c => c.id == id && c.kind == 4) = some c → r.errs = [] →
      let s1 := { s with replies := tabPut s.replies id { r with ok := true } }
      exec (.endpointReply id) s = .next (onCopy tid k id (fun c => { c with wrote := true })
        (onTask tid (chargeTask 6 (128 * (writeOffs c).length)) (dropPlaces (id + 1) (sendWrites (id + 1)
          ((writeOffs c).flatMap (fun j => rowReqs tid k t (id + 1) j.1 c.entry2 c.index2 j.2 .write (replyData s1 id (128 * j.1) 128))) s1))))) ∧
    (0 < duePhases s tid → allMembers s t (atPhase s (t.phn + 1)) = true →
      exec (.phaseComplete tid) s = put { t with waits := { t.waits with phOk := t.phn + 1 } }) ∧
    (0 < dueBars s tid → allMembers s t (atBar s (t.waits.bars + dueBars s tid)) = true →
      exec (.barComplete tid) s =
        put { t with waits := { t.waits with barOk := t.waits.bars + dueBars s tid } }) ∧
    (∀ a, waittTarget s tid k = some a →
      (a ≤ s.dev.gtci → exec (.waittRelease tid k) s =
        put { t with waits := { t.waits with waitOk := tabSet 0 t.waits.waitOk k (t.lc + 1) } }) ∧
      (s.dev.gtci < a → exec (.waittRelease tid k) s = .next s)) ∧
    (∀ b, tabFind t.seqs k = some q → q.clearing.getLsbD b = true →
      q.copies.any (fun c => c.rel && decide (c.start ≤ t.lc) && (heldBanks c).getLsbD b) = false →
      exec (.bankCleared tid k b) s = put { t with seqs := tabPut t.seqs k { q with
        clearing := q.clearing &&& ~~~(1#6 <<< b), lrs := q.lrs.filter (fun e => e.1 / (128 * t.g) % 6 != b) } }) ∧
    (2 ^ 26 ≤ t.hold → exec (.stallTimeout tid) s = put (addTrap 0 { looseTiming 0x06 0#64 never 0#64 with ti3 := w64 t.cond } t)) ∧
    (t.hold < 2 ^ 26 → exec (.stallTimeout tid) s = .next s) ∧
    (t.lc = t.sref + t.safeb + 1 → draining t = false → t.ending = none → preCond s tid = 0 →
      exec (.safeBoundOverrun tid) s = put (addTrap 0 (looseTiming 0x07 0#64 never 0#64) t)) ∧
    (let s1 := onDev (fun d => { d with reading := false }) s
     let is := missedIndices s1 tid k
     (∀ j r, is ≠ [] → findJob s.dev (.fill tid k) is = some j → tabFind s.replies j.id = some r → r.left = 0 →
       exec (.rangeRegisterFill tid k) s = .next (closeJobs (.fill tid k) (touchRange tid k s1))) ∧
     (is ≠ [] → findJob s.dev (.fill tid k) is = none →
       exec (.rangeRegisterFill tid k) s = .next (keepAsked (openJob (.fill tid k) is (32 * is.length) (fillReqs s.dev tid k t.vf is) s1) s))) ∧
    (∀ kind, t.preempt = none → exec (.preemptionRequestArrival tid kind) s =
      put { t with preempt := some kind, preAt := s.cyc })

/-- R23, R38, R41 to R45, R51, R110, R117, R129, R249, R400: what each event of a memory port, a DSM bank, a scrubber and the Polisher does.
Which of the requests that R44 lets in comes first within a cyc (log 5), and the pace and the row numbers of the patrol, the refresh sweep
and the hot scrubs (log 15), are the model's choice. -/
def Obligations.MemoryEvents : Prop :=
  ∀ (n : Nat) (s : State),
    let k := getStack s.dev n
    (let t := (s.reqs.filter (fun r => reqStack r == some n && !r.fence)).foldl meetSplit s
     (∀ c, nextReq t n = some c → exec (.portAdmit n) s = .next (perform c.2.2 n t)) ∧
     (nextReq t n = none → ∃ w, exec (.portAdmit n) s =
       .next (onStack n (fun k => { k with waited := k.waited || w }) t))) ∧
    (∀ r, reqStack r = some n → r.fence = false → splitCase s r = 0 → meetSplit s r = s) ∧
    (∀ die bank r, dsmReq s die bank = some r →
      (keyless s.dev r = true →
        exec (.dsmBankRequest die bank) s = .next (finishReply r.id (fail r 3 { s with reqs := s.reqs.erase r }))) ∧
      (keyless s.dev r = false → awake s.dev (elKey (.die die)) = false →
        exec (.dsmBankRequest die bank) s = .next (wakeKey (elKey (.die die)) s)) ∧
      (∀ d b y, keyless s.dev r = false → awake s.dev (elKey (.die die)) = true → r.loc = .dsm d b y →
        (r.op = .read → ∃ t, exec (.dsmBankRequest die bank) s = .next t ∧ t.mem = s.mem ∧ t.reqs = s.reqs.erase r) ∧
        (r.op = .write → ∃ t, exec (.dsmBankRequest die bank) s = .next t ∧ t.mem = tabSetBytes s.mem (dsmKey d b y) r.data ∧
          t.reqs = s.reqs.erase r) ∧
        ∀ new, atomResult r.op (tabBytes s.mem (dsmKey d b y) r.size) r.data = some new →
          ∃ t, exec (.dsmBankRequest die bank) s = .next t ∧ t.mem = tabSetBytes s.mem (dsmKey d b y) new ∧
            t.reqs = s.reqs.erase r)) ∧
    (∀ bank row, exec (.rowRefresh n bank row) s =
      .next (onStack n (fun k => { k with fresh := tabSet 0 k.fresh (bank * 16384 + row) s.cyc }) s)) ∧
    (∃ t, exec .activationWindow s = .next t ∧ (t = { s with dev := t.dev }) ∧ t.dev.hbm.map Prod.fst = s.dev.hbm.map Prod.fst ∧
      ∀ e ∈ t.dev.hbm, e.2.track = [] ∧ e.2.acts = [] ∧ e.2.throt = []) ∧
    (k.up = true → exec (.patrolScrubStep n) s =
      .next (onStack n (fun x => if k.blk < 15 then { x with blk := k.blk + 1 } else { x with blk := 0, pos := (k.pos + 1) % 2 ^ 27 })
        (scrubBlock n (k.pos / 16384) (k.pos % 16384) k.blk true s))) ∧
    (∀ row, k.hot.any (fun h => h.row == row) = true →
      let bad := (List.range 16).any (fun b => tabGet 0 s.dev.upsets (blkKey n (blockAddr (row / 16384) (row % 16384) b)) != 0)
      let t := (List.range 16).foldl (fun t b => scrubBlock n (row / 16384) (row % 16384) b false t) s
      (bad = true → exec (.hotScrubStep n row) s = .next (onStack n (fun k => { k with
        hot := k.hot.map (fun h => if h.row = row then { h with clean := 0 } else h) }) t)) ∧
      (bad = false → exec (.hotScrubStep n row) s = .next (onStack n (fun k => { k with
        hot := (k.hot.map (fun h => if h.row = row then { h with clean := h.clean + 1 } else h)).filter
          (fun h => h.row != row || decide (h.clean < 64)) }) t))) ∧
    exec (.patrolPeriodEnd n) s = .next (onStack n (fun k => { k with
      score := (k.score.map (fun e => (e.1, e.2 / 2))).filter (fun e => e.2 != 0), running := k.period }) s) ∧
    (∀ frame c, k.copying.find? (fun c => c.frame == frame) = some c → ∃ t, exec (.retirementCopyDone n frame) s = .next t ∧
      t.mem = (copyFrame n frame c.spare s).mem ∧ t.dev.upsets = (copyFrame n frame c.spare s).dev.upsets) ∧
    (∀ f, k.clearing = none → nextClear s.dev n = some f → ∃ t, exec (.polisherClearBlock n) s = .next t ∧ t.mem = s.mem ∧
      (getStack t.dev n).clearing = some f ∧ (getStack t.dev n).queue = k.queue.filter (· != f) ∧ (getStack t.dev n).written = 0) ∧
    (∀ f, k.clearing = some f → k.written + 1 < 32768 → ∃ t, exec (.polisherClearBlock n) s = .next t ∧
      t.mem = (zeroRange n (remapFrame s.dev n f * 2 ^ 21 + 64 * k.written) 64 s).mem ∧
      (getStack t.dev n).clearing = some f ∧ (getStack t.dev n).written = k.written + 1) ∧
    (∃ t, exec .dsmBankClearDone s = .next t ∧ t.dev.cfg.busy = false ∧ t.dev.cfg.code = 0 ∧ t.tasks = s.tasks ∧ t.reqs = s.reqs ∧
      (∀ e ∈ t.mem, e ∈ s.mem) ∧ ∀ key ∈ dsmKeys s.dev.cfg, ∀ y < 2 ^ 21, memAt t (dsmKey (key / 64) (key % 64) y) = 0#8)

/-- R52, R53, R56, R62 to R64, R71, R124, R126, R128, R141, R422: what each event of the lease protocol, the pulls, the invalidations and
the UALink ports does where it is due.  The model's choices among them: a lane loss that leaves a width counts in RETRAIN,
one that leaves none does not, and neither does LINK_TRAINING (log 48); messages that find no room, or no receiver yet, wait in the order
of their arrival (log 37); which atomics a port takes (log 58), what becomes of a message for no receive entry (log 59), and of the bytes of a failed pull (log 53). -/
def Obligations.LeaseAndLinkEvents : Prop :=
  ∀ (n id : Nat) (s : State),
    (∀ x f, tabFind s.dev.nodes id = some x → x.frames[n]? = some f → x.lease = .acquiring → f.done = false →
      let e := ssEntry s f.vf f.stack f.gfn
      let s1 := onDev (fun d => { d with reading := false }) s
      (noEntry s f = true → exec (.leaseIncrement id n) s = .next (leaseRefused id (frameRegion s x f) s)) ∧
      (noEntry s f = false → 65535 ≤ ssLcount e → exec (.leaseIncrement id n) s = .next s) ∧
      (noEntry s f = false → ssLcount e < 65535 →
        (findJob s.dev (.frame id n) [] = none → ∃ t, exec (.leaseIncrement id n) s = .next t ∧ t.mem = s.mem ∧
          t.dev.nodes = s.dev.nodes ∧ t.dev.jobs = s.dev.jobs ++ [⟨.frame id n, [], s.nextId⟩] ∧
          (tabFind t.replies s.nextId).isSome = true) ∧
        ∀ j r, findJob s.dev (.frame id n) [] = some j → tabFind s.replies j.id = some r → r.left = 0 →
          (ssV e = true → ssLoc e = false → r.errs = [] →
            exec (.leaseIncrement id n) s = .next (closeJobs (.frame id n) (onNode id (fun x => { x with
              frames := x.frames.set n { f with done := true }, replies := x.replies ++ [n] }) (addLcount f true s1)))) ∧
          ((ssV e = false ∨ r.errs ≠ []) → exec (.leaseIncrement id n) s =
            .next (worked (.frame id n) (leaseRefused id (frameRegion s1 x f) s1) s)))) ∧
    (∀ x, tabFind s.dev.nodes id = some x → x.lease = .acquiring → x.replies.contains n = true → ∃ u,
      exec (.leaseReply id n) s = .next { s with dev := { s.dev with nodes := tabPut s.dev.nodes id u } } ∧
      u.replies = x.replies.filter (· != n) ∧ u.frames = x.frames) ∧
    (∀ r, (s.dev.releases.filter (fun r => r.node == id))[n]? = some r →
      let gone (u : State) : State := onDev (fun d => { d with reading := false, releases := d.releases.filter (fun x => x.id != r.id) }) u
      (releasePlace s r = none → exec (.leaseRelease id n) s = .next (closeJobs (.release r.id) (gone s))) ∧
      ∀ p, releasePlace s r = some p →
        (findJob s.dev (.release r.id) [] = none → ∃ t, exec (.leaseRelease id n) s = .next t ∧ t.mem = s.mem ∧
          t.dev.releases = s.dev.releases ∧ t.dev.jobs = s.dev.jobs ++ [⟨.release r.id, [], s.nextId⟩]) ∧
        ∀ j y, findJob s.dev (.release r.id) [] = some j → tabFind s.replies j.id = some y → y.left = 0 → y.errs = [] →
          (∀ i, r.what = .inl i → exec (.leaseRelease id n) s =
            .next (closeJobs (.release r.id) (gone (addLcnt r.vf i false (onDev (fun d => { d with reading := false }) s))))) ∧
          (∀ f, r.what = .inr f → exec (.leaseRelease id n) s =
            .next (closeJobs (.release r.id) (gone (addLcount f false (onDev (fun d => { d with reading := false }) s)))))) ∧
    (∀ p, tabFind s.dev.pulls id = some p →
      (p.got + 1 < 8192 → ∀ bs, ∃ t u, exec (.pullReadReply id true bs) s = .next t ∧ tabFind t.dev.pulls id = some u ∧
        u.got = p.got + 1 ∧ t.reqs = s.reqs ++ pullWrites s id p bs ∧ t.mem = s.mem) ∧
      (p.got + 1 = 8192 → ∀ bs, exec (.pullReadReply id true bs) s = .next { s with
        reqs := s.reqs ++ pullWrites s id p bs
        dev := { s.dev with pulls := tabPut s.dev.pulls id { p with got := p.got + 1, sent := p.sent + 1 } } }) ∧
      (∀ r, tabFind s.replies id = some r → r.left = 0 → r.size ≠ 0 → r.ok = false → r.who = .setter →
        let s1 := { s with replies := tabPut s.replies id { r with ok := true } }
        (r.errs ≠ [] → exec (.endpointReply id) s = .next (pullFails id p s1)) ∧
        (r.errs = [] → r.size = 2 ^ 21 → ∃ t, exec (.endpointReply id) s = .next t ∧ t.mem = s.mem ∧
          t.reqs = s.reqs ++ [ownReq id 0 p.vf (.phys p.stack (ssPlace s p.vf p.stack p.gfn).2) 32 .read []]) ∧
        (r.errs = [] → r.size = 32 → exec (.endpointReply id) s = .next (pullDone id p s1))) ∧
      (∀ bs, exec (.pullReadReply id false bs) s = .next (pullFails id p s)) ∧
      (p.start + usec p.wd ≤ s.cyc → exec (.pullTimeout id) s = .next (pullFails id p s)) ∧
      (s.cyc < p.start + usec p.wd → exec (.pullTimeout id) s = .next s)) ∧
    (∀ i, s.dev.invals[id]? = some i → vfGone s.dev i.vf = false → invalDone s i = true → ∃ t,
      exec (.invalidationDone id) s = .next (putEntry i.stack i.addr
        (entryAt s i.stack i.addr &&& ~~~(1#256 <<< (if i.ss then 57 else 181))) t) ∧ t.dev.invals = s.dev.invals.eraseIdx id) ∧
    (∀ i, s.dev.invals[id]? = some i → i.start + (i.period + 1) * usec i.wd ≤ s.cyc →
      (i.period = 0 → exec (.invalidationTimeout id) s = .next (pressGroups { i with period := 1 }
        (onDev (fun d => { d with invals := d.invals.set id { i with period := 1 } }) s))) ∧
      (i.period = 1 → exec (.invalidationTimeout id) s = .next (i.groups.foldl
        (fun s g => onTask g.1 (addTrap g.2 (invalTrap { i with period := 2 })) s)
        (onDev (fun d => { d with invals := d.invals.set id { i with period := 2 } }) s)))) ∧
    (∀ w r, exec (.linkTraining n w r) s = .next (onDev (fun d => setPort n (trained w r (getPort d n)) d) s)) ∧
    (∀ r, exec (.laneLoss n 0 r) s = .next ((portUsers s n).foldl (fun t e => report e.1 { record0 12 with place := w64 e.2 } t)
      (loupeUa n 2 0 0 (onDev (fun d => setPort n { getPort s.dev n with width := 0, up := false } d) s)))) ∧
    (∀ w r, w ≠ 0 → ∃ t, exec (.laneLoss n w r) s = .next (loupeUa n 1 0 0 t) ∧
      t = onDev (fun d => setPort n { trained w r (getPort s.dev n) with retrain := (getPort s.dev n).retrain + 1#16 }
        (setPort n (trained w r (getPort s.dev n)) d)) s) ∧
    (exec (.linkReplay n true) s = .next (onDev (fun d => setPort n { getPort s.dev n with
        held := true, replay := (getPort s.dev n).replay + 1#64 } d) s)) ∧
    (exec (.linkReplay n false) s = .next (onDev (fun d => setPort n { getPort s.dev n with held := false } d) s)) ∧
    (∀ m ms, skidHeld (getPort s.dev n) = true → (getPort s.dev n).skid = m :: ms → exec (.skidSend n) s = .next s) ∧
    (∀ m ms, skidHeld (getPort s.dev n) = false → (getPort s.dev n).skid = m :: ms →
      exec (.skidSend n) s = .next (onDev (fun d => { setPort n { getPort s.dev n with skid := ms } d with
        outbox := d.outbox ++ [.message n m.m] }) s)) ∧
    (∀ m tid, findDest s m.dst = .task tid →
      (m.port < fromLanding → (m.port < 72 → landingRoom s.dev m = true) →
        exec (.messageLanding m) s = .next (landAtTask tid m s)) ∧
      (m.port < 72 → landingRoom s.dev m = false → exec (.messageLanding m) s = .next (waitLanding m s)) ∧
      (let y := { m with port := m.port - fromLanding }
       fromLanding ≤ m.port → (buffered 0 (getPort s.dev y.port).landing).contains y = true →
        exec (.messageLanding m) s = .next (landAtTask tid y (leaveLanding y s)))) ∧
    (∀ m, m.port < fromLanding → (m.port < 72 → landingRoom s.dev m = true) →
      (findDest s m.dst = .gone → exec (.messageLanding m) s = .next s) ∧
      (findDest s m.dst = .later → exec (.messageLanding m) s = .next (waitLanding m s))) ∧
    (∀ ch, 2 ^ 40 ≤ id → exec (.creditReturn id ch) s = .next s) ∧
    (∀ tid t ch, id < 2 ^ 40 → findDest s id = .task tid → tabFind s.tasks tid = some t →
      let c := tabGet chanOff t.chans ch
      c.path ≠ 3#2 → c.recv = false → c.cred.toNat < 16 → exec (.creditReturn id ch) s =
        .next { s with tasks := tabPut s.tasks tid { t with chans := tabSet chanOff t.chans ch { c with cred := c.cred + 1 } } }) ∧
    (∀ x, vfLive s.dev x.vf = true → 0 < x.size → x.size ≤ 256 → (x.op = .read ∨ x.op = .write) →
      exec (.remoteRequest x) s = .next { s with
        nextId := s.nextId + 1
        replies := tabPut s.replies s.nextId ⟨.remote x.port x.vf x.src, if x.op = .write then 0 else x.size, (piecesOf x.ipa x.size).length, [], [], false⟩
        reqs := s.reqs ++ (piecesOf x.ipa x.size).map (fun p => ⟨s.nextId, p.1, .remote x.port x.vf x.src, x.vf, .ipa x.vf p.2.1, p.2.2, x.op,
          (x.data.drop p.1).take p.2.2, w64 p.2.1, false, false⟩) }) ∧
    (∀ x, (vfLive s.dev x.vf = false ∨ x.size = 0 ∨ 256 < x.size ∨ remoteOp x.op = false) →
      exec (.remoteRequest x) s = .next (onDev (fun d => { d with outbox := d.outbox ++ [.reply x.port false []] }) s)) ∧
    (∀ x, vfLive s.dev x.vf = true → x.size = 8 → x.ipa % 8 = 0 → remoteOp x.op = true → x.op ≠ .read → x.op ≠ .write →
      exec (.remoteRequest x) s = .next { s with
        nextId := s.nextId + 1
        replies := tabPut s.replies s.nextId ⟨.remote x.port x.vf x.src, 8, (piecesOf x.ipa 8).length, [], [], false⟩
        reqs := s.reqs ++ (piecesOf x.ipa 8).map (fun p => ⟨s.nextId, p.1, .remote x.port x.vf x.src, x.vf, .ipa x.vf p.2.1, p.2.2, x.op,
          x.data, w64 p.2.1, false, false⟩) }) ∧
    (∀ j w, exec (.uarctxWrite n j w) s = .next (onDev (fun d => setPort n { getPort s.dev n with
      ctx := (List.range 8).foldl (fun t i => tabSet ctx0 t (8 * j + i) (allotCtx (w.extractLsb' (8 * i) 8) (tabGet ctx0 t (8 * j + i))))
        (getPort s.dev n).ctx } d) s))

/-- R66 to R70, R95, R96, R129, R133, R135, R148 to R152, R154: what each event of the Setters, the collectives and the job cards does where
it is due.  A round serves the levels from the highest down until one has a ready node with a place, and of a VF's ready nodes the oldest;
a pre-emption takes running task nodes of lower levels, the lowest first and of a level the last dispatched, until the place suffices.  The
model's choices among them: how the packages of a collective agree (log 28), which gang the token's holder tries (log 31), and that work
which reads memory goes on in one step once every read is in (log 35). -/
def Obligations.SetterEvents : Prop :=
  ∀ (v die : Nat) (w : Word) (s : State),
    let s0 := onDev (fun d => { d with reading := false }) s
    (∀ sub rest, (getVf s.dev v).subs = sub :: rest →
      let r := parseImage v sub.handle sub.addr s0
      let works (u : State) : Prop := exec (.graphParse v) s = .next (worked (.graph v sub.handle) u s)
      (∀ ns es, r.2 = .ok (ns, es) → roomFor r.1.dev v ns.length = true → sub.cancels = [] →
        works (freeSlot v (enterGraph v sub.handle ns es r.1))) ∧
      (∀ ns es, r.2 = .ok (ns, es) → roomFor r.1.dev v ns.length = false → works r.1) ∧
      (∀ st, r.2 = .error st → works (freeSlot v (report v { record0 5 with status := st, handle := sub.handle } r.1)))) ∧
    exec (.selectionRound die) s = .next (stampLevels die (serveLevels die 8 (prepareNodes die (beginLeases die s)))) ∧
    (∀ lvl (t : State),
      let u := serveLevel die lvl t
      serveLevels die (lvl + 1) t = if levelWaits u die lvl then u else serveLevels die lvl u) ∧
    (∀ lvl (t : State), levelWaits t die lvl = true ↔ ∃ e ∈ t.dev.nodes, e.2.die = die ∧ e.2.prio = lvl ∧ isReady t e.2 = true ∧
      launchOf t e.1 e.2 false ≠ none) ∧
    (∀ lvl (t : State) e, oldestReady t v die lvl = some e → e ∈ t.dev.nodes ∧ e.2.vf = v ∧ e.2.die = die ∧ e.2.prio = lvl ∧
      isReady t e.2 = true ∧ ∀ y ∈ t.dev.nodes, y.2.vf = v → y.2.die = die → y.2.prio = lvl → isReady t y.2 = true →
        e.2.handle < y.2.handle ∨ (e.2.handle = y.2.handle ∧ e.2.idx ≤ y.2.idx)) ∧
    (∀ lvl n (t : State),
      (oldestReady t v die lvl = none → serveVf die lvl v (n + 1) t = setDeficit v lvl 0 t) ∧
      ∀ e, oldestReady t v die lvl = some e →
        (launchOf t e.1 e.2 false = none → serveVf die lvl v (n + 1) t = t) ∧
        ∀ c k gs, launchOf t e.1 e.2 false = some (c, k, gs) →
          (deficitOf t v lvl < c → serveVf die lvl v (n + 1) t = t) ∧
          (c ≤ deficitOf t v lvl → serveVf die lvl v (n + 1) t = serveVf die lvl v n (onDev (fun d => setDie die
            { getDie d die with served := tabSet 0 (getDie d die).served lvl (v + 1) } d)
            (launchNode e.1 e.2 k gs (setDeficit v lvl (deficitOf t v lvl - c) t))))) ∧
    (let pass (t : State) : State := onDev (fun d => { d with token := (d.token + 1) % 8 }) t
     let ws := (waitingGangs s s.dev.token).foldl (fun l e => insertNode servedBefore e l) []
     ws.Pairwise (fun a b => servedBefore b a = false) ∧
     (ws = [] → exec .gangToken s = .next (pass s)) ∧
     (∀ e es, ws = e :: es →
       ((List.range 8).any (fun l => decide (e.2.prio < l) && levelWaits s s.dev.token l) = true → exec .gangToken s = .next (pass s)) ∧
       ((List.range 8).any (fun l => decide (e.2.prio < l) && levelWaits s s.dev.token l) = false →
         exec .gangToken s = .next (pass (placeGang s.dev.token e s))))) ∧
    exec (.priorityPreemption die) s = .next ((((s.dev.nodes.filter (starved s die)).foldl
      (fun l e => insertNode servedBefore e l) []).map Prod.fst).foldl (fun s id => evictFor id s) s) ∧
    (∀ lvl, (victims s lvl).Pairwise (fun a b => victimBefore b a = false) ∧ ∀ e ∈ victims s lvl,
      e ∈ s.dev.nodes ∧ e.2.kind = 1 ∧ e.2.st = .running ∧ e.2.prio < lvl ∧ onItsWay s e.1 = false) ∧
    (∀ id x, tabFind s.dev.nodes id = some x →
      (findPlace s id x [] true ≠ none → evictFor id s = s) ∧
      (evictSet s id x (victims s x.prio) [] [] = none → evictFor id s = s) ∧
      ∀ ids cols, findPlace s id x [] true = none → evictSet s id x (victims s x.prio) [] [] = some (ids, cols) →
        findPlace s id x cols true ≠ none ∧
        (∀ i ∈ ids, ∃ e ∈ victims s x.prio, e.1 = i ∧ usable s id x (runningCols s i) = true) ∧
        evictFor id s = ids.foldl (fun s v => loupeNode 3 v ((nodeTids s v).foldl (fun s t => post t .save s) s))
          (onDev (fun d => { d with reserved := cols.foldl (fun r k => tabSet 0 r k (id + 1)) d.reserved }) s)) ∧
    (((getVf s.dev v).state = 1 ∨ (getVf s.dev v).state = 2) → 0 < (getVf s.dev v).gscred →
      let q := getVf s.dev v
      let h := (q.glast + 1) % 2 ^ 32
      exec (.gsub v w) s = .next (wakeHome v (onDev (setVf v { q with
        gsub := w, glast := h, gscred := q.gscred - 1, subs := q.subs ++ [⟨h, w, []⟩] }) s))) ∧
    (((getVf s.dev v).gscred = 0 ∨ vfLive s.dev v = false) →
      exec (.gsub v w) s = .next (onDev (setVf v { getVf s.dev v with gerr := (getVf s.dev v).gerr ||| 2#4 }) s)) ∧
    ((getVf s.dev v).state ≠ 4 → (getVf s.dev v).state ≠ 5 → (getVf s.dev v).subs = [] →
      s.dev.graphs.any (fun g => g.vf == v && g.handle == fieldN w 32 32) = true →
      exec (.gcan v w) s = .next (cancelNodes 1 (cancelled s.dev v (fieldN w 32 32) (fieldN w 0 32))
        (wakeHome v (onVf v (fun q => { q with gcan := w }) s)))) ∧
    (s.dev.charges = [] → s.tasks = [] → exec .caratFlush s = .next s) ∧
    (∀ tid, s.dev.charges = [] → s.tasks.map Prod.fst = [tid] → (flushTask tid s).dev.charges = [] →
      exec .caratFlush s = .next (flushTask tid s)) ∧
    (∀ cid c, getColl s.dev cid = some c → c.started = false →
      (c.asked = false → ∀ d, takeCtxs c.key c.part c.ports s.dev = .ok d →
        (spread c = false → exec (.collectiveStart cid) s = .next (beginColl c true { s with dev := d })) ∧
        (spread c = true → c.others = none → exec (.collectiveStart cid) s = .next (onDev (fun d =>
          { d with outbox := d.outbox ++ [.contexts c.root cid true] }) (onColl cid (fun c => { c with asked := true }) { s with dev := d })))) ∧
      (c.asked = false → ∀ q, takeCtxs c.key c.part c.ports s.dev = .error q → exec (.collectiveStart cid) s =
        .next (beginColl c false (fallBack c q (tell c (.contexts c.root cid false) s)))) ∧
      (c.asked = true → spread c = true →
        (c.others = some true → exec (.collectiveStart cid) s = .next (beginColl c true s)) ∧
        (c.others = some false → exec (.collectiveStart cid) s = .next (beginColl c false (fellBack c (onDev (freeCtxs c.key) s)))) ∧
        (c.others = none → exec (.collectiveStart cid) s = .next s))) ∧
    (∀ port cid m g es r, ∃ t, exec (.reductionContribution ⟨port, cid⟩ m g es r) s = .next t ∧ t = { s with dev := t.dev } ∧
      t.dev = { s.dev with colls := t.dev.colls } ∧
      ∀ c ∈ s.dev.colls, c.cid = cid → c.done = false → c.started = true → c.contribs = [] → g < groupCount c →
        ∃ c' ∈ t.dev.colls, ∃ k, c'.contribs = [k] ∧ k.member = m ∧ k.groups = [g] ∧ k.node = none ∧ k.port = some port ∧
          k.elems = es.zipIdx.foldl (fun t e => tabSet 0#64 t (g * groupEls c.fmt + e.2) e.1) [] ∧
          tabGet 0 k.rhos g = r % 255) ∧
    (∀ cid c, getColl s.dev cid = some c →
      let r := collResult c
      let ns := (localNodes s c).filter (fun e => e.2.cst.phase == 1 || e.2.cst.phase ≥ 4)
      let u := dropColls (onColl cid (fun c => { c with
        done := true, waiting := ns.map Prod.fst, away := if spread c then c.away else some 0 }) (oweReduction s c))
      (c.status = 0 → collFull c = true → collBad c = false → exec (.collectiveComplete cid) s =
        .next (ns.foldl (fun t e => cardWrite e.1 e.2 r.1 false (fun _ => false) (cardStatus r.2 0) t) u)) ∧
      (c.status = 0 → collBad c = true → exec (.collectiveComplete cid) s =
        .next (ns.foldl (fun t e => cardWrite e.1 e.2 r.1 true (fun _ => false) (cardStatus r.2 1) t) (countBad c u))) ∧
      (c.status ≠ 0 → exec (.collectiveComplete cid) s = .next (ns.foldl (fun t e => withdrawnCard e.1 e.2 c.status t) u))) ∧
    (∀ id x, tabFind s.dev.nodes id = some x → x.st = .running →
      (x.kind ≠ 1 → x.cst.phase = 0 → cardRefused s x = true → exec (.jobCardStart id) s = .next (cardDone id 4 s)) ∧
      (x.kind = 3 → x.cst.phase = 0 → cardRefused s x = false → exec (.jobCardStart id) s = .next (joinColl id x s)) ∧
      (x.kind = 2 → x.cst.phase = 0 → cardRefused s x = false → streamLen (readRegions x) ≠ 0 →
        exec (.jobCardStart id) s = .next (closeJobs (.drain id) (cardSend id 1 (streamLen (readRegions x))
          (fun m => streamReqs s0 id x m .read (readRegions x) []) s0))) ∧
      (x.kind = 4 → x.cst.phase = 0 → cardRefused s x = false → streamLen (readRegions x) ≠ 0 →
        exec (.jobCardStart id) s = .next (worked (.drain id) (cardSend id 1 (streamLen (readRegions x))
          (fun m => byAddress (streamReqs (beginDrain id x s0) id x m .read (readRegions x) [])) (beginDrain id x s0)) s)) ∧
      (x.kind = 2 → x.cst.phase = 3 → x.cancel = none → x.cst.status % 256 = 0 → exec (.jobCardComplete id) s =
        .next (worked (.drain id) (freeNode id (satisfy id (report x.vf (nodeRec 4 x.cst.status x) (collDelivered id s0)))) s)) ∧
      (x.kind = 2 → x.cst.phase = 3 → x.cancel = none → x.cst.status % 256 ≠ 0 → exec (.jobCardComplete id) s =
        .next (worked (.drain id) (endNode id [nodeRec 4 x.cst.status x] (collDelivered id s0)) s)))

/-- R102, R105, R138, R139, R153, R179, R183, R267, R270: what the launch, save, resume, restart and retirement of a node do where they are
due.  The model's choices among them: what a resume finds beside the image (log 26), and which channel fields it takes from it (log 36);
what becomes of an image that cannot be read (log 54); and where a phase restart runs on (log 67). -/
def Obligations.NodeEvents : Prop :=
  ∀ (id : Nat) (x : Node) (s : State), tabFind s.dev.nodes id = some x →
    let s0 := onDev (fun d => { d with reading := false }) s
    (∀ o v, x.st = .placed → x.resume = false → mayStart s id x = true → placedVariant x = some (o, v) →
      let r := readArgs id x s0
      (x.task.args = 0#64 → r = (s0, .ok [])) ∧
      (∀ b, r.2 = .ok b → ((getVf r.1.dev x.vf).cust = true → o.signed = true) →
        exec (.dispatch id) s = .next (worked (.node id) (dispatched id (x.members.zipIdx.foldl (fun s e =>
          phaseMark s.nextId (placeTask id e.2 (launchTask r.1.dev id { x with argv := b } o x.vidx v e.2 e.1) s))
          (measure x.vf o.digest (onNode id (fun z => { z with argv := b }) r.1)))) s)) ∧
      (∀ b, r.2 = .ok b → (getVf r.1.dev x.vf).cust = true → o.signed = false →
        exec (.dispatch id) s = .next (worked (.node id) (alarm 3 (endNode id [nodeRec 16 0 x] r.1)) s)) ∧
      (∀ t, r.2 = .error t → exec (.dispatch id) s = .next (worked (.node id) (faultEarly id t r.1) s))) ∧
    (∀ t, tabFind t.dev.nodes id = some x → (dispatched id t).dev.nodes =
      tabPut t.dev.nodes id { x with st := .running, resume := false, restart := false, order := t.dev.order }) ∧
    (x.st = .running → x.kind = 1 → membersDone x = true → x.members.any (fun m => m.saved) = true →
      x.members.any (fun m => m.cut) = false → sentAll s.dev id = true →
      let u := onNode id (fun y => { y with
        st := .suspended, resume := true, members := y.members.map (fun m => { m with tid := 0 }) })
        (onDev (fun d => { d with freed := true }) (removeTasks (nodeTids s id) s))
      (x.cancel = none → exec (.saveComplete id) s = .next u) ∧
      (∀ st, x.cancel = some st → exec (.saveComplete id) s = .next (endNode id [nodeRec 3 st x] u))) ∧
    (∀ o v, x.st = .placed → x.resume = true → x.restart = false → mayStart s id x = true →
      placedVariant x = some (o, v) →
      let a := askSlots (.image id) [0] x.vf ((savedTasks s0.dev id x o v []).map (fun e => headerSpan e.2 hdrOff)) s0
      exec (.contextRestore id) s = .next (worked (.image id)
        (if a.2.2 then resumeNode id x o v a.2.1 a.1 else faultNode id x (lostImage x) a.1) s)) ∧
    (∀ o v im (u : State),
      let ts := savedTasks u.dev id x o v im
      let hdr (t : Machine.Task) := headerOfSlot im t hdrOff
      let a := askSlots (.image id) [1] x.vf (ts.flatMap (fun e => imageSpans u e.2 (hdr e.2))) u
      ((∀ e ∈ ts, imgGet (hdr e.2) 0 8 = 0x45584358) →
        (∀ e ∈ ts, imgGet (hdr e.2) 8 8 / 4 % 4 = natCode e.2.g) →
          (a.2.2 = true → resumeNode id x o v im u = resumeMembers id ts (a.2.1.foldl (fun m e => tabSet 0#8 m e.1 e.2) im) a.1) ∧
          (a.2.2 = false → resumeNode id x o v im u = faultNode id x (lostImage x) a.1)) ∧
      ((∀ e ∈ ts, imgGet (hdr e.2) 0 8 = 0x45584358) → (∃ e ∈ ts, imgGet (hdr e.2) 8 8 / 4 % 4 ≠ natCode e.2.g) →
        (∀ m ∈ x.members, m.k01 = false) → resumeNode id x o v im u = onNode id (fun y => { y with restart := true }) (loupeNode 1 id u)) ∧
      (∀ e es, ts = e :: es → imgGet (hdr e.2) 0 8 ≠ 0x45584358 → resumeNode id x o v im u = faultNode id x
        { earlyRecord x (imageTrap (slotOf e.2 0 0)) with
          place := w64 e.1.2, lc := imgGet (hdr e.2) 0x18 8, pc := (posOf (imgGet (hdr e.2) 0x10 8)).bundle } u)) ∧
    (x.st = .running →
      let s1 := if readsImage s.dev id then s else stopTasks id s
      (stillPlaced id x s1 = true → exec (.phaseRestart id) s =
        .next (worked (.image id) (restartRunning id x (onDev (fun d => { d with reading := false }) s1)) s1)) ∧
      (stillPlaced id x s1 = false → exec (.phaseRestart id) s = .next (closeJobs (.image id) (restartElsewhere id x s1)))) ∧
    (∀ (u : State),
      let ts := (nodeTids u id).filterMap (tabFind u.tasks)
      let a := askSlots (.image id) [2] x.vf (ts.map (fun t => headerSpan t markOff)) u
      (a.2.2 = true → restartRunning id x u = onNode id (fun y => { y with
          restart := x.members.any (fun m => m.saved)
          members := y.members.map (fun m => if (nodeTids u id).contains m.tid then { m with done := false, cut := false } else m) })
        ((nodeTids u id).foldl (fun u tid => onTask tid (rerun u a.2.1) u) a.1)) ∧
      (a.2.2 = false → restartRunning id x u = faultNode id x (lostImage x) a.1)) ∧
    (∀ o v, x.st = .placed → x.resume = true → x.restart = true → mayStart s id x = true → placedVariant x = some (o, v) →
      exec (.phaseRestart id) s = .next (worked (.image id) (restartPlaced id x o v s0) s)) ∧
    (tasksBusy s (nodeTids s id) = false →
      (∀ recs, x.closing = some recs → exec (.nodeRetire id) s = .next (endNode id recs s)) ∧
      (x.st = .running → x.kind = 1 → x.closing = none → membersDone x = true →
        (x.members.any (fun m => m.cut) = true →
          exec (.nodeRetire id) s = .next (endNode id [nodeRec 3 (x.cancel.getD 1) x] s)) ∧
        (x.members.any (fun m => m.saved) = false → x.members.any (fun m => m.cut) = false →
          let lc := (s.tasks.filter (fun e => e.2.node == id)).foldl (fun a e => max a (((tabFind e.2.seqs 0).map (·.haltLC)).getD 0)) 0
          let s1 := correctDeficit x lc (removeTasks (nodeTids s id) s)
          ∀ y, tabFind s1.dev.nodes id = some y →
            exec (.nodeRetire id) s = .next (freeNode id (satisfy id (report x.vf (nodeRec 1 0 y) s1))))))

/-- R5, R80, R82, R83, R85: what each host packet and the read timeout do: a register read answers with the register, a memory access
enters the queue, a completion ends the device's read, and a transaction with a bad header is discarded and counted.  The model's choices
among them: which module the device's own transactions take (log 29); that a completion is matched by its TAG, with any FUNC up to 1,024
(log 30); that a bad register read gets status 1 while READY is 0, too (log 66); and that what CFGCMD reads as is free (log 9). -/
def Obligations.HostLinkEvents : Prop :=
  ∀ (x : Hlp) (s : State), s.dev.host.powered = true → s.dev.trust.hold = false →
    let answered (w : Word) (u : State) : Host.Outcome State Fault Refusal :=
      .next (sendHost ⟨0x09, 0, x.tag, x.func, 0, 0#64, false, [w]⟩ u)
    let open' := s.dev.host.ready = true ∨ earlyBlock x = true
    let shut := s.dev.host.ready = false ∧ earlyBlock x = false
    (badRequest 0x01 x = false → badAccess x = false → open' →
      (windowOff x ≠ cfgcmdOff → exec (.hlpRrd x) s = answered (w64 (readWindow s (windowOff x))) s) ∧
      (windowOff x = cfgcmdOff → exec (.hlpRrd x) s = answered (w64 (Config.freeValue s.free)) { s with free := s.free + 1 })) ∧
    (badRequest 0x01 x = false → badAccess x = true → exec (.hlpRrd x) s = .next (completeBad x 1 s)) ∧
    (badRequest 0x01 x = false → badAccess x = false → shut → exec (.hlpRrd x) s = .next (completeBad x 5 s)) ∧
    (badRequest 0x02 x = false → badAccess x = false → open' →
      (∀ e, writeWindow (windowOff x) (x.data.headD 0#64) s = .inl e →
        exec (.registerWrite x) s = .next { s with agenda := .event e :: s.agenda }) ∧
      (∀ t, writeWindow (windowOff x) (x.data.headD 0#64) s = .inr t → exec (.registerWrite x) s = .next t)) ∧
    (badRequest 0x02 x = false → badAccess x = false → shut → exec (.registerWrite x) s = .next s) ∧
    ((badRequest 0x02 x = true ∨ badAccess x = true) → exec (.registerWrite x) s = .next (discard s)) ∧
    (badRequest 0x01 x = true → exec (.hlpRrd x) s = .next (discard s)) ∧
    (badRequest 0x03 x = true → exec (.hlpMrd x) s = .next (discard s)) ∧
    (badRequest 0x04 x = true → exec (.hlpMwr x) s = .next (discard s)) ∧
    (badRequest 0x03 x = false → s.dev.host.ready = false → exec (.hlpMrd x) s = .next (completeBad x 5 s)) ∧
    (badRequest 0x04 x = false → s.dev.host.ready = false → exec (.hlpMwr x) s = .next s) ∧
    (badRequest 0x03 x = false → s.dev.host.ready = true →
      let queued (rs : List Req) : Host.Outcome State Fault Refusal := .next { s with
        nextId := s.nextId + 1
        replies := tabPut s.replies s.nextId ⟨.host x.func x.tag, hlpBytes x, rs.length, [], [], false⟩
        reqs := s.reqs ++ rs }
      (x.func = 1024 → pfOutside x = false → exec (.hlpMrd x) s = queued (pfReqs s.nextId x .read [])) ∧
      (x.func = 1024 → pfOutside x = true → exec (.hlpMrd x) s = .next (completeBad x 1 s)) ∧
      (x.func < 1024 → vfRefused s x false = false → exec (.hlpMrd x) s = queued (vfReqs s s.nextId x .read [])) ∧
      (x.func < 1024 → vfRefused s x false = true → exec (.hlpMrd x) s = .next (completeBad x 3 s))) ∧
    (badRequest 0x04 x = false → s.dev.host.ready = true →
      let bs := (ofWords x.data).take (hlpBytes x)
      (x.func = 1024 → pfOutside x = false → exec (.hlpMwr x) s = .next { s with reqs := s.reqs ++ pfReqs 0 x .write bs }) ∧
      (x.func = 1024 → pfOutside x = true → exec (.hlpMwr x) s = .next (discard s)) ∧
      (x.func < 1024 → vfRefused s x true = false → exec (.hlpMwr x) s = .next { s with reqs := s.reqs ++ vfReqs s 0 x .write bs }) ∧
      (x.func < 1024 → vfRefused s x true = true → exec (.hlpMwr x) s = .next s)) ∧
    ((badCompletion 0x09 x = true ∨ tabFind s.dev.host.reads x.tag = none) → exec (.hlpCpld x) s = .next (discard s)) ∧
    ((badCompletion 0x08 x = true ∨ tabFind s.dev.host.reads x.tag = none) → exec (.hlpCpl x) s = .next (discard s)) ∧
    (1024 < x.func → badCompletion 0x09 x = true ∧ badCompletion 0x08 x = true) ∧
    (∀ r, tabFind s.dev.host.reads x.tag = some r →
      let bs := (ofWords x.data).take r.len
      (badCompletion 0x09 x = false → x.status = 0 → bs.length = r.len → exec (.hlpCpld x) s = .next (readOver x.tag r (some bs) s)) ∧
      (badCompletion 0x09 x = false → (x.status ≠ 0 ∨ bs.length ≠ r.len) → exec (.hlpCpld x) s = .next (readOver x.tag r none s)) ∧
      (badCompletion 0x08 x = false → exec (.hlpCpl x) s = .next (readOver x.tag r none s)) ∧
      (r.sent + 95000000 ≤ s.cyc → exec (.hostReadTimeout x.tag) s = .next (readOver x.tag r none s)) ∧
      (s.cyc < r.sent + 95000000 → exec (.hostReadTimeout x.tag) s = .next s))

/-- R88 to R93, R104 to R106: what each configuration command does when its arguments and the state allow it; every one of them ends
with CODE 0, but those that go on over several steps.  VRESET goes on in three: its tasks have ended, its cards have completed, its
leases have been given back; VDESTROY of a VF that is not in RESET, the absent one too, ends with CODE 3.  Elements that a new owner of
columns or banks does not let sleep wake.  Which CODE a bad POOLADD or POOLREM gives (log 63) is the model's choice, and so is which of
several failures is reported (log 64). -/
def Obligations.ConfigCommands : Prop :=
  ∀ (s : State),
    let c := s.dev.cfg
    let v := fieldN c.a0 0 10
    let p := fieldN c.a0 0 6
    let p8 := fieldN c.a0 8 6
    let done (d : Dev) : Host.Outcome State Fault Refusal :=
      .next { s with dev := { d with cfg := { d.cfg with busy := false, code := 0 } } }
    (argsIn c 0x3F#64 0#64 0#64 0#64 = true → p < 48 →
      (partExists s.dev p = false → exec .pcreate s = done { s.dev with parts := s.dev.parts ||| (1#48 <<< p) }) ∧
      (partExists s.dev p = true → partOwns s.dev p = false →
        exec .pdestroy s = done { s.dev with parts := s.dev.parts &&& ~~~(1#48 <<< p) })) ∧
    (let q := fieldN c.a0 24 6
     let assign := c.a0.getLsbD 31
     let keys := ((List.range 4).filter (fun i => c.a0.getLsbD (16 + i))).map (colKey (fieldN c.a0 0 3) (fieldN c.a0 8 8))
     argsIn c 0xBF0FFF07#64 0#64 0#64 0#64 = true → q < 48 →
     (Config.classT (fieldN c.a0 0 3) (fieldN c.a0 8 8) = true → c.a0.getLsbD 19 = false) → (assign = true → partExists s.dev q = true) →
     mayAssign s.dev.cols assign q keys = true → (∀ k ∈ keys, k ∉ busyColumns s) →
     exec .colassign s = .next (endCmd 0 (wakeForbidden (onDev (fun d => { d with cols := assigned d.cols assign q keys }) (accrueCols s))))) ∧
    (let q := fieldN c.a0 24 6
     argsIn c 0xBF3F3F07#64 0#64 0#64 0#64 = true → q < 48 → fieldN c.a0 8 6 + fieldN c.a0 16 6 < 64 → c.a0.getLsbD 31 = true →
     partExists s.dev q = true → mayAssign s.dev.dsmOwn true q (dsmKeys c) = true →
     exec .dsmassign s = .next (endCmd 0 (wakeForbidden (onDev (fun d => { d with dsmOwn := assigned d.dsmOwn true q (dsmKeys c) }) s)))) ∧
    (poolArgs c = false → exec .pooladd s = .next (endCmd 2 s) ∧ exec .poolrem s = .next (endCmd 2 s)) ∧
    (poolArgs c = true → (getStack s.dev (fieldN c.a0 0 5)).up = false → exec .pooladd s = .next (endCmd 4 s)) ∧
    (poolArgs c = true → partExists s.dev p8 = true →
      ((getStack s.dev (fieldN c.a0 0 5)).up = true →
        (poolRange c).all (fun fr => let f := getFrame s.dev (fieldN c.a0 0 5) fr
          !f.spare && f.quar == 0 && f.own == 0 && f.pool == 0) = true →
        exec .pooladd s = .next (endCmd 0 ((poolRange c).foldl (fun t fr => onFrame (fieldN c.a0 0 5) fr (fun f => { f with pool := p8 + 1 }) t) s))) ∧
      ((poolRange c).all (fun fr => let f := getFrame s.dev (fieldN c.a0 0 5) fr
          f.pool == p8 + 1 && f.own == 0) = true →
        exec .poolrem s = .next (endCmd 0 ((poolRange c).foldl (fun t fr => onFrame (fieldN c.a0 0 5) fr (fun f => { f with pool := 0 }) t) s)))) ∧
    (argsIn c 0x3F7F#64 0xFFFF#64 0#64 0#64 = true → p8 < 48 → fieldN c.a0 0 7 < 72 → partExists s.dev p8 = true →
      portsInUse s.dev p8 = false →
      exec .uashare s = done { s.dev with shares := tabSet 0 s.dev.shares (fieldN c.a0 0 7 * 64 + p8) c.a1.toNat }) ∧
    (argsIn c 0x3FF#64 (BitVec.allOnes 64) 0#64 0#64 = true → (getVf s.dev v).state ≠ 0 →
      exec .credit s = .next (endCmd 0 (quotaCheck v (addAcct v c.a1.toInt s)))) ∧
    (let bt := frameAddr c.a1
     let sv := frameAddr c.a2
     let q := fieldN c.a0 16 6
     argsIn c 0xFFFFFF03073F03FF#64 0xFFFFFFFFFFFF#64 0xFFFFFFFFFFFF#64 (BitVec.allOnes 64) = true → q < 48 →
     frameAddrOk c.a1 = true → frameAddrOk c.a2 = true → fieldN c.a3 0 2 = 0 → (getVf s.dev v).state = 0 → partExists s.dev q = true →
     inPool s.dev q bt.1 bt.2 = true → sv.2 + 512 ≤ 65536 → (∀ i < 512, inPool s.dev q sv.1 (sv.2 + i) = true) →
     (sv.1 = bt.1 → bt.2 < sv.2 ∨ sv.2 + 512 ≤ bt.2) → c.a0.getLsbD 32 = false →
     ∃ t, exec .vcreate s = .next t ∧ t.dev.cfg.busy = false ∧ t.dev.cfg.code = 0 ∧
       t.mem = (zeroRange bt.1 (remapFrame t.dev bt.1 bt.2 * 2 ^ 21) (2 ^ 21) s).mem ∧
       getVf t.dev v = { vfAbsent with
         part := q, state := 1, die := fieldN c.a0 24 3, prot := false, cust := c.a0.getLsbD 33, slot := fieldN c.a0 40 8
         msiData := fieldN c.a0 48 16, msiAddr := c.a3, btStack := bt.1, btFrame := bt.2, svStack := sv.1, svFrame := sv.2 }) ∧
    (argsIn c 0x3FF#64 0#64 0#64 0#64 = true →
      ((getVf s.dev v).state = 0 → exec .vreset s = .next (endCmd 4 s)) ∧
      ((getVf s.dev v).state = 5 → exec .vreset s = .next (endCmd 0 s)) ∧
      ((getVf s.dev v).state ≠ 0 → (getVf s.dev v).state ≠ 5 →
        let t := onVf v (fun q => { q with state := 4, rstep := 0, subs := [], gscred := 64, chain := [], objects := 0 }) s
        exec .vreset s = .next (cancelNodes 3 (vfNodes t.dev v) t)) ∧
      ((getVf s.dev v).state = 5 → exec .vdestroy s = done { setVf v vfAbsent s.dev with
        charges := s.dev.charges.filter (fun e => e.1 / 128 != v), owed := tabSet 0 s.dev.owed v 0 }) ∧
      ((getVf s.dev v).state ≠ 5 → exec .vdestroy s = .next (endCmd 3 s))) ∧
    (∀ w, (getVf s.dev w).state = 4 →
      let tasksOver := ∀ e ∈ s.dev.nodes, e.2.vf = w → e.2.kind ≠ 1
      let nodesOver := ∀ e ∈ s.dev.nodes, e.2.vf ≠ w
      let leasesOver := ∀ r ∈ s.dev.releases, r.vf ≠ w ∧ ∀ f, r.what = .inr f → f.vf ≠ w
      ((getVf s.dev w).rstep = 0 → tasksOver →
        exec (.vresetComplete w) s = .next (withdrawAll w (onVf w (fun q => { q with rstep := 1 }) s))) ∧
      ((getVf s.dev w).rstep = 1 → nodesOver →
        exec (.vresetComplete w) s = .next (releaseLate w (onVf w (fun q => { q with rstep := 2 }) s))) ∧
      ((getVf s.dev w).rstep = 2 → leasesOver → exec (.vresetComplete w) s = .next (endVreset w s) ∧
        ∃ t, endVreset w s = endCmd 0 (onVf w (fun q => { q with state := 5 }) (report w (record0 14) t)))) ∧
    (argsIn c 0x3FFF#64 (BitVec.allOnes 64) 0#64 0#64 = true → p8 < 48 → partExists s.dev p8 = true →
      tabFind s.dev.trust.slots (fieldN c.a0 0 8) = none → (transportKey s.dev).isSome = true →
      exec .keyload s = .next (startRead .key c.a1 0 512 (onCfg (fun c => { c with buf := [] }) s))) ∧
    (argsIn c 0x3FF#64 (BitVec.allOnes 64) (BitVec.allOnes 64) 0#64 = true → (getVf s.dev v).state ≠ 0 → idOk s.dev = true →
      exec .attest s = .next (startRead .nonce c.a1 0 64 (onCfg (fun c => { c with buf := [] }) s))) ∧
    (argsIn c 0#64 (BitVec.allOnes 64) (BitVec.allOnes 64) 0#64 = true → exec .idcert s = .next (
      if Config.certificate.length ≤ c.a2.toNat then endCmd 0 (hostWriteAll 1025 c.a1 Config.certificate s) else endCmd 5 s))

/-- R18, R21, R23, R51, R73, R74, R87, R94, R97, R100, R108: what a write of each register that has an event of its own stores, and the
two events of the clock.  That a GTCSET which is accepted stores any value, one below the running count too, is the model's choice (log 22):
R72 says that GTC never decreases, and nothing reconciles it with R73. -/
def Obligations.RegisterWriteEvents : Prop :=
  ∀ (n v : Nat) (w : Word) (s : State),
    let g := s.dev.gtc
    let q := getVf s.dev v
    let withGtc (h : Gtc) : Host.Outcome State Fault Refusal := .next { s with dev := { s.dev with gtc := h } }
    let withVf (h : Vf) : Host.Outcome State Fault Refusal := .next (wakeHome v { s with dev := setVf v h s.dev })
    let f16 := (w.extractLsb' 0 16).toNat
    exec (.plimWrite w) s = .next { s with dev := { s.dev with
      plim := if f16 < 1500 then 1500 else if 4200 < f16 then 4200 else f16 } } ∧
    exec (.ltolWrite n w) s =
      .next (wakeForbidden { s with dev := { s.dev with ltol := tabSet 2 s.dev.ltol n (w.extractLsb' 0 24).toNat } }) ∧
    (∀ u : State, (∀ e ∈ u.dev.power, wakeTime e.2.state ≤ elTol u.dev (elOf e.1)) → wakeForbidden u = u) ∧
    (let p := (w.extractLsb' 0 8).toNat
     exec (.scrubctlWrite n w) s = .next { s with dev := setStack n { getStack s.dev n with
       period := if p = 0 then 24 else if p < 6 then 6 else p } s.dev }) ∧
    (let i := (w.extractLsb' 0 48).toNat
     exec (.gtcincWrite w) s = withGtc { g with
       inc := if i < 10989618719622 then 10989618719622 else if 11000613835898 < i then 11000613835898 else i }) ∧
    (let o : Int := (w.extractLsb' 0 48).toInt * 2 ^ 24
     (o < 1000 * 2 ^ 40 → exec (.gtcadjWrite w) s = withGtc { g with hold := false, adjAt := s.cyc, app := 0, slew := o }) ∧
     (1000 * 2 ^ 40 ≤ o → exec (.gtcadjWrite w) s = withGtc { g with
       hold := false, adjAt := s.cyc, app := 0, stepBy := g.stepBy + o.toNat, slew := 0 })) ∧
    (g.valid = false → exec (.gtcsetWrite w) s = withGtc { g with t := w.toNat * 2 ^ 40, valid := true }) ∧
    (g.valid = true → exec (.gtcsetWrite w) s = .next s) ∧
    (g.slew = 0 → exec .gtcSlewDone s = withGtc { g with app := 0 }) ∧
    (g.adjAt + 3800000000 ≤ s.cyc → exec .gtcHoldover s = withGtc { g with hold := true }) ∧
    (w.getLsbD 0 = true → exec (.loupeArm w) s = .next { s with dev := { s.dev with loupe := { s.dev.loupe with
      arm := true, full := false, pos := 0, abase := s.dev.loupe.base, alen := s.dev.loupe.len.toNat } } }) ∧
    (w.getLsbD 0 = false → exec (.loupeArm w) s = .next { s with dev := { s.dev with loupe := { s.dev.loupe with arm := false } } }) ∧
    exec (.tampctlWrite w) s = .next { s with dev := { s.dev with trust := { s.dev.trust with
      level := max s.dev.trust.level (w.extractLsb' 0 2).toNat } } } ∧
    (w.getLsbD 7 = true → q.state = 2 → exec (.vfstatDegWrite v w) s = withVf { q with state := 1 }) ∧
    ((w.getLsbD 7 = false ∨ q.state ≠ 2) → exec (.vfstatDegWrite v w) s = withVf q) ∧
    (let l := (w.extractLsb' 0 5).toNat
     let l1 := if l < 6 then 6 else if 16 < l then 16 else l
     (q.eqen = true → exec (.eqctlWrite v w) s = withVf { q with eqen := w.getLsbD 63 }) ∧
     (q.eqen = false → w.getLsbD 63 = true →
       exec (.eqctlWrite v w) s = withVf { q with eqen := true, eqlog := l1, eqhead := 0#32, eqtail := 0#32 }) ∧
     (q.eqen = false → w.getLsbD 63 = false → exec (.eqctlWrite v w) s = withVf { q with eqlog := l1 })) ∧
    (let h := w.extractLsb' 0 32
     ((h - q.eqhead).toNat ≤ (q.eqtail - q.eqhead).toNat → exec (.eqheadWrite v w) s = withVf { q with eqhead := h }) ∧
     ((q.eqtail - q.eqhead).toNat < (h - q.eqhead).toNat → exec (.eqheadWrite v w) s = withVf { q with gerr := q.gerr ||| 8#4 })) ∧
    (∀ r rest, q.held = r :: rest → canWrite q = true →
      let i := q.eqtail.toNat
      let a := q.eqbase + w64 (128 * (i % 2 ^ q.eqlog))
      let b := recordBytes r (i / 2 ^ q.eqlog % 2 == 0)
      exec (.eventRecordWrite v) s = .next (intrByCount v (onVf v (fun q => { q with
        held := rest, eqtail := q.eqtail + 1#32, since := q.since + 1, stamp1 := if (getVf s.dev v).since = 0 then s.cyc else (getVf s.dev v).stamp1 })
        (hostWriteAll v (a + 120#64) (b.drop 120) (hostWriteAll v a (b.take 120) s))))) ∧
    (timerDue s q = true → exec (.eqInterruptTimer v) s = .next (sendIntr v s)) ∧
    (timerDue s q = false → exec (.eqInterruptTimer v) s = .next s)

/-- R12, R15, R19, R22 to R24, R39, R78, R86, R103, R109: what the power units, the resets and the firmware check do.  The model's choices
among them: the alarm judges what DTEMP and HTEMP report (log 12); a second fast-limiter event in an epoch halves CAP again (log 13); PKGW
is index 40 of what is measured (log 19); a wake takes the longest time its state allows (log 51); one hot reading limits a die or a stack
at the next boundary (log 57); and a failed verification ends the reset (log 61), which keeps MODS (log 62). -/
def Obligations.PowerReset : Prop :=
  ∀ (die : Nat) (s : State),
    (inService s.dev = true → exec .deviceReset s = .next (resetDevice (onHost (fun h => { h with rst := true }) s)) ∧
      exec .sidebandReset s = .next (resetDevice s)) ∧
    (inService s.dev = false → exec .deviceReset s = .next s ∧ exec .sidebandReset s = .next s) ∧
    (∀ bs, ∃ u, exec (.firmwareVerify bs) s = .next (if firmwareOk s.dev.host.fwfloor bs = true then (List.range 32).foldl resumeStack u
        else alarm 3 (onHost (fun h => { h with fwerr := true, resetting := false, rst := false }) s)) ∧
      u = { s with dev := u.dev } ∧ u.dev.host.ready = true ∧ u.dev.host.resetting = false ∧ u.dev.host.rst = false ∧
      u.dev.host.image = Config.sha512 bs ∧ s.dev.host.fwfloor ≤ u.dev.host.fwfloor) ∧
    (∀ stk mods, ∃ t, exec (.packagePowerOn stk mods) s = .next t ∧ t.mem = [] ∧ t.tasks = [] ∧ t.reqs = [] ∧
      t.dev.host.powered = true ∧ t.dev.host.ready = false ∧ t.dev.trust.hold = false ∧ t.dev.host.mods = mods ∧
      t.dev.host.fwfloor = s.dev.host.fwfloor ∧ ∀ n < 32, (getStack t.dev n).up = stk.getLsbD n) ∧
    (s.dev.host.binning = true → exec (.binningComplete []) s = .next (beginFetch (onDev (fun d => { d with
      hbm := d.hbm.map (fun e => (e.1, { e.2 with binned := e.2.up })), host := { d.host with binning := false } }) s))) ∧
    (∀ m, exec (.moduleDisabled m) s = .next (onHost (fun h => { h with
      mods := h.mods &&& ~~~(1#4 <<< m), serving := (inFlight s m).foldl (fun t f => tabPut t f m) h.serving }) s)) ∧
    (∃ t, exec .arbiterEpoch s = .next (onDev (fun d => { d with
        epoch := d.epoch + 1#32, pkgw := measuredPower s.dev 40 / 16 % 65536 }) (chargeEpoch t)) ∧
      t.dev.epoch = s.dev.epoch ∧ t.mem = s.mem ∧ t.tasks = s.tasks ∧ t.agenda = s.agenda) ∧
    (let k := getDie s.dev die
     exec (.fastLimiter die) s = .next (loupeArbiter 1 die k.grant (onDev (fun d =>
       setDie die { k with cap := if k.cap / 2 < 16 then 16 else k.cap / 2 } { d with fast := true }) s))) ∧
    (∀ ts : List (BitVec 16), ts.length = 16 → degrees (hottest ts) ≤ 400 → alarming (hottest ts) = false →
      exec (.sensorUpdate ts []) s = .next (onDev (fun d => setDie 0 { getDie d 0 with
        temp := hottest ts, rows := tabSets 0#16 [] (ts.zipIdx.map (fun e => (e.2, e.1))) } d) s) ∧
      hottest ts ∈ ts ∧ ∀ t ∈ ts, degrees t ≤ degrees (hottest ts)) ∧
    (∀ t : BitVec 16, 380 < degrees t → alarming t = false → exec (.sensorUpdate [] [t]) s =
      .next (onStack 0 (fun k => { k with temp := t, hotEpoch := true }) s)) ∧
    (∀ ts us, ((∃ i < 8, dieRows ts i ≠ [] ∧ alarming (hottest (dieRows ts i)) = true) ∨ (us.take 32).any alarming = true) →
      ∃ u, exec (.sensorUpdate ts us) s = .next (alarm 1 u)) ∧
    exec .supplyExcursion s = .next (alarm 0 s) ∧ exec .meshBreak s = .next (alarm 2 s) ∧
    (∀ e, (entryState s e ≠ 0 → exec (.powerStateEntry e) s = .next (onDev (setPower (elKey e)
        ⟨entryState s e, s.cyc, none, (powerOf s.dev (elKey e)).idle⟩) s)) ∧
      (entryState s e = 0 → exec (.powerStateEntry e) s = .next s) ∧
      (let p := powerOf s.dev (elKey e)
       p.state ≠ 0 → p.wake = none → p.since ≠ s.cyc →
        wakeKey (elKey e) s = onDev (setPower (elKey e) { p with wake := some (s.cyc + wakeTime p.state) }) s) ∧
      ∀ t, (powerOf s.dev (elKey e)).wake = some t →
        (t ≤ s.cyc → exec (.wakeComplete e) s = .next (onDev (setPower (elKey e)
          ⟨0, s.cyc, none, (powerOf s.dev (elKey e)).idle⟩) s)) ∧
        (s.cyc < t → exec (.wakeComplete e) s = .next s))
end

