-- ==== Sys2Proof/Laws/Ops.lean ====
section
/-! SUPPORT. What the shared effects of slot operations do when the predicate is on, as one `scheduled` state each, and what
taking a trap keeps. -/

namespace Sys2Proof.Machine

theorem landS_eq (s : State) (l : Nat) (d : BitVec 6) (v : Word) : charge 5 1 (landS s l d v) = scheduled s (toS s l d v) := by
  unfold landS toS scheduled landIn landAt; split <;> simp
theorem landQ_eq (s : State) (q : BitVec 3) (v : Bool) : charge 5 1 (landQ s q v) = scheduled s (toQ s q v) := by
  unfold landQ toQ scheduled landIn landAt; split <;> simp
theorem alu_on {f l g d a b} {s : State} (h : predOn g s = true) : alu f l g d a b s = .next (scheduled s (toS s l d (f (readS s a) (readS s b)))) := by
  simp [alu, guarded, h, finishOp, landS_eq]
theorem aluI_on {f g d a i} {s : State} (h : predOn g s = true) : aluI f g d a i s = .next (scheduled s (toS s 1 d (f (readS s a) i))) := by
  simp [aluI, guarded, h, finishOp, landS_eq]
theorem cmp_on {f g q a b} {s : State} (h : predOn g s = true) : Machine.cmp f g q a b s = .next (scheduled s (toQ s q (f (readS s a) b))) := by
  simp [Machine.cmp, guarded, h, finishOp, landQ_eq]

/-- R255 to R263: taking a trap changes no world state and no register; of the device it may gain alarm 4 (CAUSE 01 SUB 0D). -/
theorem takeTrap_kept (t : Trap) (s : State) : sameWorld s (takeTrap t s) ∧ sameRegisters s.sq (takeTrap t s).sq ∧
    ((takeTrap t s).dev = s.dev ∨ (takeTrap t s).dev = { s.dev with alarms := s.dev.alarms ++ [4] }) ∧ ¬ noTrap (takeTrap t s) := by
  unfold takeTrap
  dsimp only
  split
  · simp [enterHandler, sameWorld, sameRegisters, noTrap]
  · unfold endTrap
    by_cases h : (withReturn t s).cause = 0x01 ∧ (withReturn t s).sub = 0x0D <;> split <;>
      simp [sameWorld, sameRegisters, noTrap, h]

end Sys2Proof.Machine
end

