-- ==== Sys2Proof/Laws/Frame.lean ====
section
/-! SUPPORT. What every slot operation keeps at its issue: `Steady` (registers, control flow, memory, device), `Quiet` for the
operations of class 101; one lemma for each shared effect. -/

namespace Sys2Proof.Machine

/-- What every slot operation keeps at its issue: memory, the device, the registers and the trap registers. -/
structure Quiet (s t : State) : Prop where
  world : sameWorld s t
  dev : t.dev = s.dev
  regs : sameRegisters s.sq t.sq
  tcause : t.sq.tcause = s.sq.tcause
  tinfo : t.sq.tinfo = s.sq.tinfo

/-- What every operation outside class 101 keeps beside that. -/
structure Steady (s t : State) : Prop extends Quiet s t where
  flow : sameFlow s.sq t.sq
  hret : t.sq.hret = s.sq.hret

theorem Quiet.rfl' (s : State) : Quiet s s := by constructor <;> simp [sameWorld, sameRegisters]
theorem Steady.rfl' (s : State) : Steady s s := by
  refine ⟨Quiet.rfl' s, ?_, rfl⟩; simp [sameFlow]

theorem Quiet.trans {s t u : State} (h : Quiet s t) (k : Quiet t u) : Quiet s u := by
  obtain ⟨h1, h2, h3, h4, h5⟩ := h
  obtain ⟨k1, k2, k3, k4, k5⟩ := k
  constructor
  · simp only [sameWorld] at *; grind
  · rw [k2, h2]
  · simp only [sameRegisters] at *; grind
  · rw [k4, h4]
  · rw [k5, h5]
theorem Steady.trans {s t u : State} (h : Steady s t) (k : Steady t u) : Steady s u := by
  refine ⟨h.toQuiet.trans k.toQuiet, ?_, k.hret.trans h.hret⟩
  have := h.flow; have := k.flow; simp only [sameFlow] at *; grind

theorem Steady.foldl {α : Type} {f : State → α → State} (h : ∀ s a, Steady s (f s a)) (l : List α) (s : State) :
    Steady s (l.foldl f s) := by
  induction l generalizing s with
  | nil => exact .rfl' s
  | cons a l ih => exact (h s a).trans (ih _)

theorem steady_landAt (s : State) (n : Nat) (d : Dst) : Steady s (landAt s n d) := by
  refine ⟨⟨?_, rfl, ?_, rfl, rfl⟩, ?_, rfl⟩ <;> simp [landAt, sameWorld, sameRegisters, sameFlow]
theorem steady_landIn (s : State) (n : Nat) (d : Dst) : Steady s (landIn s n d) := steady_landAt _ _ _
theorem steady_landS (s : State) (n : Nat) (d : BitVec 6) (v : Word) : Steady s (landS s n d v) := by
  unfold landS; split; exact .rfl' s; exact steady_landIn _ _ _
theorem steady_landQ (s : State) (q : BitVec 3) (v : Bool) : Steady s (landQ s q v) := by
  unfold landQ; split; exact .rfl' s; exact steady_landIn _ _ _
theorem steady_charge (k n : Nat) (s : State) : Steady s (charge k n s) := by
  refine ⟨⟨?_, rfl, ?_, rfl, rfl⟩, ?_, rfl⟩ <;> simp [charge, sameWorld, sameRegisters, sameFlow]
theorem steady_emit (o : Out) (s : State) : Steady s (emit o s) := by
  refine ⟨⟨?_, rfl, ?_, rfl, rfl⟩, ?_, rfl⟩ <;> simp [emit, sameWorld, sameRegisters, sameFlow]
theorem steady_newReply (n : Nat) (s : State) : Steady s (newReply n s) := by
  refine ⟨⟨?_, rfl, ?_, rfl, rfl⟩, ?_, rfl⟩ <;> simp [newReply, sameWorld, sameRegisters, sameFlow]
theorem steady_setChan (c : BitVec 5) (v : Chan) (s : State) : Steady s (setChan c v s) := by
  refine ⟨⟨?_, rfl, ?_, rfl, rfl⟩, ?_, rfl⟩ <;> simp [setChan, sameWorld, sameRegisters, sameFlow]
theorem steady_quiesce (s : State) : Steady s (quiesce s) := by
  refine ⟨⟨?_, rfl, ?_, rfl, rfl⟩, ?_, rfl⟩ <;> simp [quiesce, emit, sameWorld, sameRegisters, sameFlow]
theorem steady_recvWaits (s : State) : Steady s (recvWaits s) := by
  refine ⟨⟨?_, rfl, ?_, rfl, rfl⟩, ?_, rfl⟩ <;> simp [recvWaits, sameWorld, sameRegisters, sameFlow]
theorem steady_emitReqs (id base : Nat) (e : BitVec 256) (idx off n : Nat) (op : MemOp) (data : List Byte) (s : State) :
    Steady s (emitReqs id base e idx off n op data s) := Steady.foldl (fun _ _ => steady_emit _ _) _ _
theorem steady_loadPieces (id : Nat) (e : BitVec 256) (idx off n : Nat) (s : State) :
    Steady s (loadPieces id e idx off n s) := by
  refine Steady.foldl (fun t p => ?_) _ _
  dsimp only
  split
  · refine ⟨⟨?_, rfl, ?_, rfl, rfl⟩, ?_, rfl⟩ <;> simp [sameWorld, sameRegisters, sameFlow]
  · exact steady_emit _ _
theorem steady_onCaches_update (l : Loc) (bs : List Byte) (s : State) : Steady s (onCaches (updateLine l bs) s) := by
  have h : ∀ q : Seq, ∃ c, updateLine l bs q = { q with rcache := c } := by
    intro q; unfold updateLine; split; exact ⟨q.rcache, rfl⟩; exact ⟨_, rfl⟩
  obtain ⟨c, h⟩ := h s.sq
  refine ⟨⟨?_, rfl, ?_, ?_, ?_⟩, ?_, ?_⟩ <;> simp [onCaches, h, sameWorld, sameRegisters, sameFlow]
theorem steady_onCaches_drop (l : Loc) (s : State) : Steady s (onCaches (dropLine l) s) := by
  have h : ∀ q : Seq, ∃ c, dropLine l q = { q with rcache := c } := by
    intro q; unfold dropLine; split; exact ⟨q.rcache, rfl⟩; exact ⟨_, rfl⟩
  obtain ⟨c, h⟩ := h s.sq
  refine ⟨⟨?_, rfl, ?_, ?_, ?_⟩, ?_, ?_⟩ <;> simp [onCaches, h, sameWorld, sameRegisters, sameFlow]
theorem steady_loadEffect (z : Nat) (d : BitVec 6) (ba : Word) (e : BitVec 256) (s : State) : Steady s (loadEffect z d ba e s) :=
  ((steady_newReply _ s).trans (steady_loadPieces _ _ _ _ _ _)).trans (steady_landAt _ _ _)
theorem steady_storeEffect (z : Nat) (v ba : Word) (e : BitVec 256) (s : State) : Steady s (storeEffect z v ba e s) :=
  (steady_emitReqs _ _ _ _ _ _ _ _ s).trans (Steady.foldl (fun _ _ => steady_onCaches_update _ _ _) _ _)
theorem steady_atomicEffect (op : MemOp) (d : BitVec 6) (data : List Byte) (ba : Word) (e : BitVec 256) (s : State) :
    Steady s (atomicEffect op d data ba e s) :=
  (((steady_newReply _ s).trans (steady_onCaches_drop _ _)).trans (steady_emit _ _)).trans (steady_landAt _ _ _)
theorem steady_sendMsg (c : BitVec 5) (b : Bool) (p : List Byte) (s : State) : Steady s (sendMsg c b p s) :=
  (steady_setChan _ _ s).trans (steady_emit _ _)
theorem steady_copyEffect (c : Copy) (s : State) : Steady s (copyEffect c s) := by
  refine Steady.trans (t := { s with
    nextId := s.nextId + 2
    replies := tabPut (tabPut s.replies s.nextId ⟨.task s.tid s.k, 0, 0, [], [], false⟩) (s.nextId + 1)
      ⟨.task s.tid s.k, 0, 0, [], [], false⟩
    sq := { s.sq with copies := s.sq.copies ++ [c] } }) ?_ (Steady.foldl (fun t x => ?_) _ _)
  · refine ⟨⟨?_, rfl, ?_, rfl, rfl⟩, ?_, rfl⟩ <;> simp [sameWorld, sameRegisters, sameFlow]
  · split; exact steady_landAt _ _ _; exact .rfl' t
theorem steady_setMat (s : State) (l : List Landing) (w : Nat × Nat) (e : List Word) (o : Nat) (d : List (Nat × Nat)) :
    Steady s { s with sq := { s.sq with land := l, win := w, winExt := e, opLc := o, drn := d } } := by
  refine ⟨⟨?_, rfl, ?_, rfl, rfl⟩, ?_, rfl⟩ <;> simp [sameWorld, sameRegisters, sameFlow]
theorem steady_startMat (x : MatOp) (s : State) : Steady s (startMat x s) := by
  unfold startMat; split
  · exact steady_setMat _ _ _ _ _ _
  · exact steady_landAt _ _ _
theorem steady_mmaEffect (z : Bool) (p va vb gr : Word) (s : State) : Steady s (mmaEffect z p va vb gr s) := by
  unfold mmaEffect
  have h := fun l w e o => (steady_setMat s l w e o s.sq.drn).trans (steady_startMat (matOp false z p 0#2 va vb 0#64 gr s) _)
  split
  · exact (h _ _ _ _).trans (steady_landAt _ _ _)
  · exact h _ _ _ _
theorem steady_drainEffect (p av : Word) (f : BitVec 2) (add : Bool) (gr : Word) (s : State) : Steady s (drainEffect p av f add gr s) :=
  steady_setMat _ _ _ _ _ _
theorem steady_mmatEffect (f : BitVec 2) (va vb av gr : Word) (s : State) : Steady s (mmatEffect f va vb av gr s) :=
  (steady_setMat s _ _ _ _ _).trans (steady_startMat _ _)
theorem steady_landRow (s : State) (n x : Nat) (rs : List (Nat × LaneRes)) : Steady s (landRow s n x rs) := by
  unfold landRow; split; exact .rfl' s; exact steady_landAt _ _ _
theorem steady_loadLatch (s : State) (l n : Nat) (x : Src) : Steady s (loadLatch s l n x) := by
  unfold loadLatch; split
  · split
    · refine ⟨⟨?_, rfl, ?_, rfl, rfl⟩, ?_, rfl⟩ <;> simp [sameWorld, sameRegisters, sameFlow]
    · exact .rfl' s
  · exact .rfl' s
theorem steady_latched (vb : Bool) (n : Nat) (a b : Src) (s : State) : Steady s (latched vb n a b s) :=
  (steady_loadLatch _ _ _ _).trans (steady_loadLatch _ _ _ _)

theorem steady_vecEffect (vb fp : Bool) (lat : Nat) (mask : BitVec 128) (dst : Nat) (a b d : Src)
    (f : Nat → Row → Row → Row → Nat → LaneRes) (s t : State) : Steady t (vecEffect vb fp lat mask dst a b d f s t) :=
  ((Steady.foldl (fun _ _ => steady_landRow _ _ _ _) _ _).trans (steady_charge _ _ _)).trans (steady_charge _ _ _)
theorem steady_cmpEffect (vb fp : Bool) (w : Nat) (c : Nat → Nat → Bool × BitVec 5) (mask : BitVec 128) (m : BitVec 3) (a b : VOp)
    (s t : State) : Steady t (cmpEffect vb fp w c mask m a b s t) :=
  ((steady_landIn _ _ _).trans (steady_charge _ _ _)).trans (steady_charge _ _ _)
theorem steady_mskEffect (mask : BitVec 128) (m ma mb o : BitVec 3) (s t : State) : Steady t (mskEffect mask m ma mb o s t) :=
  (steady_landIn _ _ _).trans (steady_charge _ _ _)
theorem steady_laneEffect (mask : BitVec 128) (i x : Nat) (a : BitVec 6) (s t : State) : Steady t (laneEffect mask i x a s t) :=
  (steady_landRow _ _ _ _).trans (steady_charge _ _ _)
theorem steady_extEffect (mask : BitVec 128) (i r : Nat) (d : BitVec 6) (s t : State) : Steady t (extEffect mask i r d s t) := by
  unfold extEffect
  by_cases h : mask.getLsbD (i % lanesOf s) = true
  · simp only [h, if_true]; exact ((steady_landS _ _ _ _).trans (steady_charge _ _ _)).trans (steady_charge _ _ _)
  · simp only [h]; exact (steady_charge _ _ _).trans (steady_charge _ _ _)
theorem steady_reduceEffect (sum : Bool) (mask : BitVec 128) (d : BitVec 8) (a : VOp) (s t : State) :
    Steady t (reduceEffect sum mask d a s t) :=
  ((Steady.foldl (fun _ _ => steady_landRow _ _ _ _) _ _).trans (steady_charge _ _ _)).trans (steady_charge _ _ _)
theorem steady_stxEffect (mask : BitVec 128) (d : BitVec 6) (x : Nat) (s t : State) : Steady t (stxEffect mask d x s t) :=
  ((Steady.foldl (fun _ _ => steady_landRow _ _ _ _) _ _).trans (steady_charge _ _ _)).trans (steady_charge _ _ _)
theorem steady_vtrEffect (mask : BitVec 128) (a b : Nat) (s t : State) : Steady t (vtrEffect mask a b s t) :=
  ((steady_landRow _ _ _ _).trans (steady_charge _ _ _)).trans (steady_charge _ _ _)
theorem steady_vtcEffect (w : Bool) (mask : BitVec 128) (d : BitVec 6) (v : Word) (c : Nat) (s t : State) :
    Steady t (vtcEffect w mask d v c s t) := by
  have h1 : ∀ t : State, ∀ x, Steady t { t with sq := { t.sq with rdHold := x } } := fun t x => by
    refine ⟨⟨?_, rfl, ?_, rfl, rfl⟩, ?_, rfl⟩ <;> simp [sameWorld, sameRegisters, sameFlow]
  have h2 : ∀ t : State, ∀ x, Steady t { t with sq := { t.sq with wrHold := x } } := fun t x => by
    refine ⟨⟨?_, rfl, ?_, rfl, rfl⟩, ?_, rfl⟩ <;> simp [sameWorld, sameRegisters, sameFlow]
  cases w
  · exact (((h1 _ _).trans (steady_charge _ _ _)).trans (steady_charge _ _ _)).trans (steady_landRow _ _ _ _)
  · exact ((((h1 _ _).trans (steady_charge _ _ _)).trans (steady_charge _ _ _)).trans (h2 _ _)).trans (steady_landAt _ _ _)

/-- Every effect that a check lets through stands in `R` to `s`. -/
def OkIn (R : State → State → Prop) (s : State) (e : Eff) : Prop := ∀ t, e = .ok t → R s t

theorem OkIn.ok {R : State → State → Prop} {s t : State} (h : R s t) : OkIn R s (.ok t) := fun _ e => by cases e; exact h
theorem OkIn.pure {R : State → State → Prop} {s t : State} (h : R s t) : OkIn R s (pure t) := .ok h
theorem OkIn.error {R : State → State → Prop} {s : State} {x : Trap} : OkIn R s (.error x) := fun _ e => by cases e
theorem okIn_throw {R : State → State → Prop} {s : State} {x : Trap} : OkIn R s (throw x) := fun _ e => by cases e
theorem okIn_throwBind {R : State → State → Prop} {s : State} {α : Type} {x : Trap} {f : α → Eff} :
    OkIn R s ((throw x : Except Trap α) >>= f) := fun _ e => by cases e
theorem OkIn.bind {R : State → State → Prop} {s : State} {α : Type} {x : Except Trap α} {f : α → Eff} (h : ∀ a, OkIn R s (f a)) :
    OkIn R s (x >>= f) := by
  cases x with
  | error e => exact .error
  | ok a => exact h a
theorem OkIn.ite {R : State → State → Prop} {s : State} {c : Prop} [Decidable c] {a b : Eff} (ha : OkIn R s a) (hb : OkIn R s b) :
    OkIn R s (if c then a else b) := by split; exact ha; exact hb
theorem OkIn.guarded {R : State → State → Prop} {s : State} {b : Bool} {e : Eff} (hs : R s s) (h : OkIn R s e) :
    OkIn R s (guarded b s e) := .ite h (.ok hs)

theorem OkIn.id {R : State → State → Prop} {s : State} {e : Eff} (h : OkIn R s e) : OkIn R s e := h

theorem okIn_ok_iff {R : State → State → Prop} {s t : State} : OkIn R s (.ok t) ↔ R s t :=
  ⟨fun h => h t rfl, OkIn.ok⟩
theorem okIn_error_iff {R : State → State → Prop} {s : State} {x : Trap} : OkIn R s (.error x) ↔ True := ⟨fun _ => trivial, fun _ => .error⟩
theorem okIn_throw_iff {R : State → State → Prop} {s : State} {x : Trap} : OkIn R s (throw x) ↔ True :=
  ⟨fun _ => trivial, fun _ => .error⟩
theorem okIn_throwBind_iff {R : State → State → Prop} {s : State} {α : Type} {x : Trap} {f : α → Eff} :
    OkIn R s ((throw x : Except Trap α) >>= f) ↔ True := ⟨fun _ => trivial, fun _ _ e => by cases e⟩
theorem okIn_bind_iff {R : State → State → Prop} {s : State} {α : Type} {x : Except Trap α} {f : α → Eff} :
    OkIn R s (x >>= f) ↔ ∀ a, x = .ok a → OkIn R s (f a) := by
  cases x with
  | error e => exact ⟨fun _ a h => (by cases h), fun _ t h => (by cases h)⟩
  | ok a => exact ⟨fun h b e => by cases e; exact h, fun h => h a rfl⟩
theorem okIn_ite_iff {R : State → State → Prop} {s : State} {c : Prop} [Decidable c] {a b : Eff} :
    OkIn R s (if c then a else b) ↔ (c → OkIn R s a) ∧ (¬c → OkIn R s b) := by
  split <;> simp [*]
theorem okIn_guarded_iff {R : State → State → Prop} {s : State} {c : Bool} {e : Eff} :
    OkIn R s (guarded c s e) ↔ (c = true → OkIn R s e) ∧ (c = false → R s s) := by
  cases c <;> simp [guarded, okIn_ok_iff]

/-- An operation's outcome: a next state that stands in `R` to `s`, or one of its traps. -/
def Ends (R : State → State → Prop) (s : State) (o : Host.Outcome State Fault Refusal) : Prop :=
  ∃ t, o = .next t ∧ (R s t ∨ ∃ x, t = takeTrap x s)

theorem ends_let {R : State → State → Prop} {s : State} {α : Type} {v : α} {f : α → Host.Outcome State Fault Refusal}
    (h : ∀ x, Ends R s (f x)) : Ends R s (have x := v; f x) := h v

theorem Ends.finish {R : State → State → Prop} {s : State} {e : Eff} (h : OkIn R s e) : Ends R s (finish s e) := by
  cases e with
  | error x => exact ⟨_, rfl, .inr ⟨x, rfl⟩⟩
  | ok t => exact ⟨t, rfl, .inl (h t rfl)⟩
theorem Ends.finishOp {R : State → State → Prop} (hc : ∀ s t, R s t → R s (charge 5 1 t)) {s : State} {e : Eff} (h : OkIn R s e) :
    Ends R s (finishOp s e) := by
  cases e with
  | error x => exact ⟨_, rfl, .inr ⟨x, rfl⟩⟩
  | ok t => exact ⟨_, rfl, .inl (hc s t (h t rfl))⟩
theorem steady_op {s : State} {e : Eff} (h : OkIn Steady s e) : Ends Steady s (finishOp s e) :=
  .finishOp (fun _ _ h => h.trans (steady_charge _ _ _)) h
theorem quiet_op {s : State} {e : Eff} (h : OkIn Quiet s e) : Ends Quiet s (finishOp s e) :=
  .finishOp (fun _ _ h => h.trans (steady_charge _ _ _).toQuiet) h
theorem steady_guarded {s : State} {b : Bool} {e : Eff} (h : OkIn Steady s e) : Ends Steady s (finishOp s (guarded b s e)) :=
  steady_op (.guarded (.rfl' s) h)
theorem quiet_guarded {s : State} {b : Bool} {e : Eff} (h : OkIn Quiet s e) : Ends Quiet s (finishOp s (guarded b s e)) :=
  quiet_op (.guarded (.rfl' s) h)
theorem steady_vecFrame (on vb : Bool) (n : Nat) (a b : Src) (s : State) (chk : Except Trap Unit) (eff : State → State)
    (h : ∀ t, Steady t (eff t)) : Ends Steady s (vecFrame on vb n a b s chk eff) := by
  unfold vecFrame
  cases on
  · exact ⟨_, rfl, .inl ((steady_latched _ _ _ _ _).trans (steady_charge _ _ _))⟩
  · exact .finish (.bind fun _ => .ok ((steady_latched _ _ _ _ _).trans (h _)))
theorem steady_vecOp (vb fp : Bool) (lat : Nat) (mask : BitVec 128) (on : Bool) (resv : Except Trap Unit) (dst : Nat) (a b d : Src)
    (f : Nat → Row → Row → Row → Nat → LaneRes) (s : State) : Ends Steady s (vecOp vb fp lat mask on resv dst a b d f s) :=
  steady_vecFrame _ _ _ _ _ _ _ _ (fun _ => steady_vecEffect _ _ _ _ _ _ _ _ _ _ _)

theorem steady_alu (f : Word → Word → Word) (l : Nat) (g : Guard) (d a b : BitVec 6) (s : State) : Ends Steady s (alu f l g d a b s) :=
  steady_guarded (.ok (steady_landS _ _ _ _))
theorem steady_aluI (f : Word → Word → Word) (g : Guard) (d a : BitVec 6) (i : Word) (s : State) : Ends Steady s (aluI f g d a i s) :=
  steady_guarded (.ok (steady_landS _ _ _ _))
theorem steady_cmp (f : Word → Word → Bool) (g : Guard) (q : BitVec 3) (a : BitVec 6) (b : Word) (s : State) :
    Ends Steady s (Machine.cmp f g q a b s) := steady_guarded (.ok (steady_landQ _ _ _))
theorem steady_divide (f : Word → Word → Word) (n : Nat) (g : Guard) (d a b : BitVec 6) (s : State) :
    Ends Steady s (divide f n g d a b s) := steady_guarded (.ite .error (.ok (steady_landS _ _ _ _)))
theorem steady_loadOp (z : Nat) (g : Guard) (d a : BitVec 6) (i : Imm14) (s : State) : Ends Steady s (loadOp z g d a i s) :=
  steady_guarded (.bind fun _ => .bind fun _ => .ok (steady_loadEffect _ _ _ _ _))
theorem steady_storeOp (z : Nat) (g : Guard) (d a : BitVec 6) (i : Imm14) (s : State) : Ends Steady s (storeOp z g d a i s) :=
  steady_guarded (.bind fun _ => .bind fun _ => .ok (steady_storeEffect _ _ _ _ _))
theorem steady_atomicOp (op : MemOp) (g : Guard) (d a b : BitVec 6) (s : State) : Ends Steady s (atomicOp op g d a b s) :=
  steady_guarded (.bind fun _ => .bind fun _ => .ok (steady_atomicEffect _ _ _ _ _ _))
theorem steady_custodianOp (op : Nat) (g : Guard) (d a b : BitVec 6) (s : State) : Ends Steady s (custodianOp op g d a b s) := by
  refine steady_op ?_
  try simp only [okIn_ok_iff, okIn_error_iff, okIn_throw_iff, okIn_throwBind_iff, okIn_bind_iff, okIn_ite_iff, okIn_guarded_iff, true_and, and_true, implies_true]
  repeat' first
    | with_reducible refine And.intro ?_ ?_
    | with_reducible intro _
    | (with_reducible refine OkIn.id ?_; split)
    | (with_reducible refine OkIn.id ?_; simp only [okIn_ok_iff, okIn_error_iff, okIn_throw_iff, okIn_throwBind_iff, okIn_bind_iff, okIn_ite_iff, okIn_guarded_iff, true_and, and_true, implies_true])
    | exact trivial
    | with_reducible exact Steady.rfl' s
    | with_reducible exact Quiet.rfl' s
  all_goals exact ((steady_newReply _ _).trans (steady_emit _ _)).trans (steady_landIn _ _ _)
theorem steady_vote (b : Bool) (g : Guard) (q m : BitVec 3) (s : State) : Ends Steady s (vote b g q m s) :=
  steady_guarded (.ok (steady_landQ _ _ _))
theorem steady_mmaOp (z : Bool) (g : Guard) (n : BitVec 2) (x y : BitVec 3) (s : State) : Ends Steady s (mmaOp z g n x y s) := by
  unfold mmaOp; split
  · exact ⟨_, rfl, .inl (steady_charge _ _ _)⟩
  · refine .finish ?_
    try simp only [okIn_ok_iff, okIn_error_iff, okIn_throw_iff, okIn_throwBind_iff, okIn_bind_iff, okIn_ite_iff, okIn_guarded_iff, true_and, and_true, implies_true]
    repeat' first
      | with_reducible refine And.intro ?_ ?_
      | with_reducible intro _
      | (with_reducible refine OkIn.id ?_; split)
      | (with_reducible refine OkIn.id ?_; simp only [okIn_ok_iff, okIn_error_iff, okIn_throw_iff, okIn_throwBind_iff, okIn_bind_iff, okIn_ite_iff, okIn_guarded_iff, true_and, and_true, implies_true])
      | exact trivial
      | with_reducible exact Steady.rfl' s
      | with_reducible exact Quiet.rfl' s
    all_goals exact steady_mmaEffect _ _ _ _ _ _
theorem steady_mmat (g : Guard) (f u n : BitVec 2) (x y : BitVec 3) (s : State) : Ends Steady s (execMmat g f u n x y s) := by
  unfold execMmat; split
  · exact ⟨_, rfl, .inl (steady_charge _ _ _)⟩
  · refine .finish ?_
    try simp only [okIn_ok_iff, okIn_error_iff, okIn_throw_iff, okIn_throwBind_iff, okIn_bind_iff, okIn_ite_iff, okIn_guarded_iff, true_and, and_true, implies_true]
    repeat' first
      | with_reducible refine And.intro ?_ ?_
      | with_reducible intro _
      | (with_reducible refine OkIn.id ?_; split)
      | (with_reducible refine OkIn.id ?_; simp only [okIn_ok_iff, okIn_error_iff, okIn_throw_iff, okIn_throwBind_iff, okIn_bind_iff, okIn_ite_iff, okIn_guarded_iff, true_and, and_true, implies_true])
      | exact trivial
      | with_reducible exact Steady.rfl' s
      | with_reducible exact Quiet.rfl' s
    all_goals exact steady_mmatEffect _ _ _ _ _ _
theorem steady_mdrn (g : Guard) (f u n : BitVec 2) (add : Bool) (s : State) : Ends Steady s (execMdrn g f u n add s) := by
  unfold execMdrn; split
  · exact ⟨_, rfl, .inl (steady_charge _ _ _)⟩
  · refine .finish ?_
    try simp only [okIn_ok_iff, okIn_error_iff, okIn_throw_iff, okIn_throwBind_iff, okIn_bind_iff, okIn_ite_iff, okIn_guarded_iff, true_and, and_true, implies_true]
    repeat' first
      | with_reducible refine And.intro ?_ ?_
      | with_reducible intro _
      | (with_reducible refine OkIn.id ?_; split)
      | (with_reducible refine OkIn.id ?_; simp only [okIn_ok_iff, okIn_error_iff, okIn_throw_iff, okIn_throwBind_iff, okIn_bind_iff, okIn_ite_iff, okIn_guarded_iff, true_and, and_true, implies_true])
      | exact trivial
      | with_reducible exact Steady.rfl' s
      | with_reducible exact Quiet.rfl' s
    all_goals exact steady_drainEffect _ _ _ _ _ _
theorem steady_mscl (g : Guard) (o : Bool) (x : BitVec 3) (s : State) : Ends Steady s (execMscl g o x s) := by
  unfold execMscl; split
  · exact ⟨_, rfl, .inl (steady_charge _ _ _)⟩
  · refine .finish ?_
    try simp only [okIn_ok_iff, okIn_error_iff, okIn_throw_iff, okIn_throwBind_iff, okIn_bind_iff, okIn_ite_iff, okIn_guarded_iff, true_and, and_true, implies_true]
    repeat' first
      | with_reducible refine And.intro ?_ ?_
      | with_reducible intro _
      | (with_reducible refine OkIn.id ?_; split)
      | (with_reducible refine OkIn.id ?_; simp only [okIn_ok_iff, okIn_error_iff, okIn_throw_iff, okIn_throwBind_iff, okIn_bind_iff, okIn_ite_iff, okIn_guarded_iff, true_and, and_true, implies_true])
      | exact trivial
      | with_reducible exact Steady.rfl' s
      | with_reducible exact Quiet.rfl' s
    all_goals exact (steady_landIn _ _ _).trans (steady_charge _ _ _)
theorem steady_copyBody (cps rel : Bool) (u : BitVec 3) (n : BitVec 4) (b : Word) (d d2 : BitVec 128)
    (kind st idx off idx2 off2 step rows lat : Nat) (s : State) : OkIn Steady s (do
      if !dV d then throw (timing s 0x01 9 (0xC0 + n.toNat) (seqCol s) never (w64 n.toNat))
      if kind = 4 && !dV d2 then throw (timing s 0x01 9 (0xC0 + n.toNat) (seqCol s) never (w64 n.toNat))
      copyFields s cps kind n.toNat off d
      if cps && (decide (st ≤ s.ix.c) || decide (st > s.ix.c + 2 ^ 20)) then
        throw (timing s 0x08 5 u.toNat (seqCol s + u.toNat / 2) b 0#64)
      let e := taskEntry s idx
      let e2 := taskEntry s idx2
      unitFree s u.toNat st (st + lat + rows - 1)
      copyOwned s u.toNat kind d
      if readsMem kind d && kind != 7 then
        let _ ← checkRows s true false false kCopySrc idx off step rows
      if kind = 4 then
        let _ ← checkRows s false true false kCopyDst idx2 off2 128 rows
      else if writesMem kind d then
        let _ ← checkRows s false true (kind == 10) kCopyDst idx off step rows
      if kind = 7 then
        let _ ← checkGather s idx off
      let cut := mvalidCut s.sq.mvalid
      let c : Copy := ⟨s.nextId, s.ix.c, s.ix.slot, u.toNat, kind, rel, n.toNat, st, lat, rows, cut, d, idx, e, off, step, idx2, e2, off2, [], 0#6, false⟩
      match copyMeets s.sq.copies (taskCopies s) c with
      | some k => throw (unitBusy s k.unit (w64 (copyEnd k + 1)))
      | none => .ok (copyEffect c s)) := by
  try simp only [okIn_ok_iff, okIn_error_iff, okIn_throw_iff, okIn_throwBind_iff, okIn_bind_iff, okIn_ite_iff, okIn_guarded_iff, true_and, and_true, implies_true]
  repeat' first
    | with_reducible refine And.intro ?_ ?_
    | with_reducible intro _
    | (with_reducible refine OkIn.id ?_; split)
    | (with_reducible refine OkIn.id ?_; simp only [okIn_ok_iff, okIn_error_iff, okIn_throw_iff, okIn_throwBind_iff, okIn_bind_iff, okIn_ite_iff, okIn_guarded_iff, true_and, and_true, implies_true])
    | exact trivial
    | with_reducible exact Steady.rfl' s
    | with_reducible exact Quiet.rfl' s
  all_goals exact steady_copyEffect _ _
theorem steady_copyOp (op : Nat) (g : Guard) (rel : Bool) (u : BitVec 3) (n : BitVec 4) (b : Word) (s : State) :
    Ends Steady s (copyOp op g rel u n b s) :=
  .finish (.ite .error (.ite (.ok (steady_charge _ _ _)) (steady_copyBody _ _ _ _ _ _ _ _ _ _ _ _ _ _ _ _ _)))
theorem steady_ldl (g : Guard) (d a : BitVec 6) (i : Imm14) (s : State) : Ends Steady s (execLdl g d a i s) := by
  refine steady_op ?_
  try simp only [okIn_ok_iff, okIn_error_iff, okIn_throw_iff, okIn_throwBind_iff, okIn_bind_iff, okIn_ite_iff, okIn_guarded_iff, true_and, and_true, implies_true]
  repeat' first
    | with_reducible refine And.intro ?_ ?_
    | with_reducible intro _
    | (with_reducible refine OkIn.id ?_; split)
    | (with_reducible refine OkIn.id ?_; simp only [okIn_ok_iff, okIn_error_iff, okIn_throw_iff, okIn_throwBind_iff, okIn_bind_iff, okIn_ite_iff, okIn_guarded_iff, true_and, and_true, implies_true])
    | exact trivial
    | with_reducible exact Steady.rfl' s
    | with_reducible exact Quiet.rfl' s
  all_goals exact (steady_landS _ _ _ _).trans (steady_charge _ _ _)
theorem steady_stl (g : Guard) (d a : BitVec 6) (i : Imm14) (s : State) : Ends Steady s (execStl g d a i s) := by
  refine steady_op ?_
  try simp only [okIn_ok_iff, okIn_error_iff, okIn_throw_iff, okIn_throwBind_iff, okIn_bind_iff, okIn_ite_iff, okIn_guarded_iff, true_and, and_true, implies_true]
  repeat' first
    | with_reducible refine And.intro ?_ ?_
    | with_reducible intro _
    | (with_reducible refine OkIn.id ?_; split)
    | (with_reducible refine OkIn.id ?_; simp only [okIn_ok_iff, okIn_error_iff, okIn_throw_iff, okIn_throwBind_iff, okIn_bind_iff, okIn_ite_iff, okIn_guarded_iff, true_and, and_true, implies_true])
    | exact trivial
    | with_reducible exact Steady.rfl' s
    | with_reducible exact Quiet.rfl' s
  all_goals exact steady_landIn _ _ _
theorem steady_getc (g : Guard) (d : BitVec 6) (x : BitVec 8) (s : State) : Ends Steady s (execGetc g d x s) := by
  refine steady_op ?_
  try simp only [okIn_ok_iff, okIn_error_iff, okIn_throw_iff, okIn_throwBind_iff, okIn_bind_iff, okIn_ite_iff, okIn_guarded_iff, true_and, and_true, implies_true]
  repeat' first
    | with_reducible refine And.intro ?_ ?_
    | with_reducible intro _
    | (with_reducible refine OkIn.id ?_; split)
    | (with_reducible refine OkIn.id ?_; simp only [okIn_ok_iff, okIn_error_iff, okIn_throw_iff, okIn_throwBind_iff, okIn_bind_iff, okIn_ite_iff, okIn_guarded_iff, true_and, and_true, implies_true])
    | exact trivial
    | with_reducible exact Steady.rfl' s
    | with_reducible exact Quiet.rfl' s
  all_goals exact steady_landS _ _ _ _
theorem steady_setcOk (x : Nat) (a : Word) (s : State) : OkIn Steady s (setc x a s) := by
  unfold setc
  try simp only [okIn_ok_iff, okIn_error_iff, okIn_throw_iff, okIn_throwBind_iff, okIn_bind_iff, okIn_ite_iff, okIn_guarded_iff, true_and, and_true, implies_true]
  repeat' first
    | with_reducible refine And.intro ?_ ?_
    | with_reducible intro _
    | (with_reducible refine OkIn.id ?_; split)
    | (with_reducible refine OkIn.id ?_; simp only [okIn_ok_iff, okIn_error_iff, okIn_throw_iff, okIn_throwBind_iff, okIn_bind_iff, okIn_ite_iff, okIn_guarded_iff, true_and, and_true, implies_true])
    | exact trivial
    | with_reducible exact Steady.rfl' s
    | with_reducible exact Quiet.rfl' s
  all_goals exact steady_landAt _ _ _
theorem steady_setc (g : Guard) (d : BitVec 6) (x : BitVec 8) (s : State) : Ends Steady s (execSetc g d x s) := by
  refine steady_op ?_
  try simp only [okIn_ok_iff, okIn_error_iff, okIn_throw_iff, okIn_throwBind_iff, okIn_bind_iff, okIn_ite_iff, okIn_guarded_iff, true_and, and_true, implies_true]
  repeat' first
    | with_reducible refine And.intro ?_ ?_
    | with_reducible intro _
    | (with_reducible refine OkIn.id ?_; split)
    | (with_reducible refine OkIn.id ?_; simp only [okIn_ok_iff, okIn_error_iff, okIn_throw_iff, okIn_throwBind_iff, okIn_bind_iff, okIn_ite_iff, okIn_guarded_iff, true_and, and_true, implies_true])
    | exact trivial
    | with_reducible exact Steady.rfl' s
    | with_reducible exact Quiet.rfl' s
  all_goals exact steady_setcOk _ _ _
theorem steady_view (g : Guard) (v : BitVec 5) (a b : BitVec 6) (s : State) : Ends Steady s (execView g v a b s) := by
  refine steady_op ?_
  try simp only [okIn_ok_iff, okIn_error_iff, okIn_throw_iff, okIn_throwBind_iff, okIn_bind_iff, okIn_ite_iff, okIn_guarded_iff, true_and, and_true, implies_true]
  repeat' first
    | with_reducible refine And.intro ?_ ?_
    | with_reducible intro _
    | (with_reducible refine OkIn.id ?_; split)
    | (with_reducible refine OkIn.id ?_; simp only [okIn_ok_iff, okIn_error_iff, okIn_throw_iff, okIn_throwBind_iff, okIn_bind_iff, okIn_ite_iff, okIn_guarded_iff, true_and, and_true, implies_true])
    | exact trivial
    | with_reducible exact Steady.rfl' s
    | with_reducible exact Quiet.rfl' s
  all_goals exact steady_landIn _ _ _
theorem steady_stat (g : Guard) (d : BitVec 6) (j : BitVec 2) (e : BitVec 4) (s : State) : Ends Steady s (execStat g d j e s) := by
  refine steady_op ?_
  try simp only [okIn_ok_iff, okIn_error_iff, okIn_throw_iff, okIn_throwBind_iff, okIn_bind_iff, okIn_ite_iff, okIn_guarded_iff, true_and, and_true, implies_true]
  repeat' first
    | with_reducible refine And.intro ?_ ?_
    | with_reducible intro _
    | (with_reducible refine OkIn.id ?_; split)
    | (with_reducible refine OkIn.id ?_; simp only [okIn_ok_iff, okIn_error_iff, okIn_throw_iff, okIn_throwBind_iff, okIn_bind_iff, okIn_ite_iff, okIn_guarded_iff, true_and, and_true, implies_true])
    | exact trivial
    | with_reducible exact Steady.rfl' s
    | with_reducible exact Quiet.rfl' s
  all_goals exact steady_landS _ _ _ _
theorem steady_send (g : Guard) (c : BitVec 5) (va : BitVec 8) (j : BitVec 2) (s : State) : Ends Steady s (execSend g c va j s) := by
  refine steady_op ?_
  try simp only [okIn_ok_iff, okIn_error_iff, okIn_throw_iff, okIn_throwBind_iff, okIn_bind_iff, okIn_ite_iff, okIn_guarded_iff, true_and, and_true, implies_true]
  repeat' first
    | with_reducible refine And.intro ?_ ?_
    | with_reducible intro _
    | (with_reducible refine OkIn.id ?_; split)
    | (with_reducible refine OkIn.id ?_; simp only [okIn_ok_iff, okIn_error_iff, okIn_throw_iff, okIn_throwBind_iff, okIn_bind_iff, okIn_ite_iff, okIn_guarded_iff, true_and, and_true, implies_true])
    | exact trivial
    | with_reducible exact Steady.rfl' s
    | with_reducible exact Quiet.rfl' s
  all_goals exact (steady_sendMsg _ _ _ _).trans (steady_charge _ _ _)
theorem steady_sends (g : Guard) (c : BitVec 5) (a : BitVec 6) (s : State) : Ends Steady s (execSends g c a s) := by
  refine steady_op ?_
  try simp only [okIn_ok_iff, okIn_error_iff, okIn_throw_iff, okIn_throwBind_iff, okIn_bind_iff, okIn_ite_iff, okIn_guarded_iff, true_and, and_true, implies_true]
  repeat' first
    | with_reducible refine And.intro ?_ ?_
    | with_reducible intro _
    | (with_reducible refine OkIn.id ?_; split)
    | (with_reducible refine OkIn.id ?_; simp only [okIn_ok_iff, okIn_error_iff, okIn_throw_iff, okIn_throwBind_iff, okIn_bind_iff, okIn_ite_iff, okIn_guarded_iff, true_and, and_true, implies_true])
    | exact trivial
    | with_reducible exact Steady.rfl' s
    | with_reducible exact Quiet.rfl' s
  all_goals exact steady_sendMsg _ _ _ _
theorem steady_takeMsg (c : BitVec 5) (b : Bool) (s : State) {p : List Byte} {t : State} (h : takeMsg c b s = .ok (some (p, t))) :
    Steady s t := by
  unfold takeMsg at h
  dsimp only at h
  split at h
  · cases h
  · split at h
    · cases h
    · split at h
      · cases h
      · split at h
        · cases h
        · cases h; exact (steady_setChan _ _ _).trans (steady_emit _ _)
theorem steady_takeBind (c : BitVec 5) (b : Bool) (s : State) (f : Option (List Byte × State) → Eff) (h0 : OkIn Steady s (f none))
    (h : ∀ p t, Steady s t → OkIn Steady s (f (some (p, t)))) : OkIn Steady s (takeMsg c b s >>= f) := by
  cases e : takeMsg c b s with
  | error x => exact .error
  | ok r =>
    match r with
    | none => exact h0
    | some (p, t) => exact h p t (steady_takeMsg c b s e)
theorem steady_recv (g : Guard) (vd : BitVec 8) (c : BitVec 5) (j : BitVec 2) (s : State) : Ends Steady s (execRecv g vd c j s) := by
  refine steady_op ?_
  dsimp only
  have h : OkIn Steady s (takeMsg c false s >>= fun r => match r with
      | none => .ok (recvWaits s)
      | some r => .ok (landIn r.2 1 (.row (winRow s vd.toNat) (1#4 <<< j.toNat)
          (r.1.zipIdx.map (fun e => (rowByte s.tk.g (winRow s vd.toNat) (128 * j.toNat + e.2), e.1))) 0#5))) :=
    steady_takeBind _ _ _ _ (.ok (steady_recvWaits _)) (fun _ _ k => .ok (k.trans (steady_landIn _ _ _)))
  repeat' first
    | with_reducible exact okIn_throw
    | with_reducible exact okIn_throwBind
    | with_reducible refine OkIn.guarded (.rfl' s) ?_
    | with_reducible refine OkIn.ite ?_ ?_
    | exact h
    | with_reducible refine OkIn.bind fun _ => ?_
    | (with_reducible refine OkIn.id ?_; dsimp only)
theorem steady_recvs (g : Guard) (d : BitVec 6) (c : BitVec 5) (s : State) : Ends Steady s (execRecvs g d c s) := by
  refine steady_op (.bind fun _ => .guarded (.rfl' s) ?_)
  exact steady_takeBind _ _ _ _ (.ok (steady_recvWaits _)) (fun _ _ k => .ok (k.trans (steady_landS _ _ _ _)))
theorem steady_phaseEffect (t : State) :
    Steady t (onCaches (fun q => { q with rcache := [] }) { t with tk := { t.tk with phn := t.tk.phn + 1 } }) := by
  refine ⟨⟨?_, rfl, ?_, rfl, rfl⟩, ?_, rfl⟩ <;> simp [onCaches, sameWorld, sameRegisters, sameFlow]
theorem steady_phase (g : Guard) (s : State) : Ends Steady s (execPhase g s) := by
  refine steady_op ?_
  try simp only [okIn_ok_iff, okIn_error_iff, okIn_throw_iff, okIn_throwBind_iff, okIn_bind_iff, okIn_ite_iff, okIn_guarded_iff, true_and, and_true, implies_true]
  repeat' first
    | with_reducible refine And.intro ?_ ?_
    | with_reducible intro _
    | (with_reducible refine OkIn.id ?_; split)
    | (with_reducible refine OkIn.id ?_; simp only [okIn_ok_iff, okIn_error_iff, okIn_throw_iff, okIn_throwBind_iff, okIn_bind_iff, okIn_ite_iff, okIn_guarded_iff, true_and, and_true, implies_true])
    | exact trivial
    | with_reducible exact Steady.rfl' s
    | with_reducible exact Quiet.rfl' s
  all_goals exact ((steady_quiesce s).trans (steady_phaseEffect _)).trans (steady_emit _ _)
theorem steady_bar (g : Guard) (s : State) : Ends Steady s (execBar g s) := by
  refine steady_op ?_
  try simp only [okIn_ok_iff, okIn_error_iff, okIn_throw_iff, okIn_throwBind_iff, okIn_bind_iff, okIn_ite_iff, okIn_guarded_iff, true_and, and_true, implies_true]
  repeat' first
    | with_reducible refine And.intro ?_ ?_
    | with_reducible intro _
    | (with_reducible refine OkIn.id ?_; split)
    | (with_reducible refine OkIn.id ?_; simp only [okIn_ok_iff, okIn_error_iff, okIn_throw_iff, okIn_throwBind_iff, okIn_bind_iff, okIn_ite_iff, okIn_guarded_iff, true_and, and_true, implies_true])
    | exact trivial
    | with_reducible exact Steady.rfl' s
    | with_reducible exact Quiet.rfl' s
  all_goals (refine ⟨⟨?_, rfl, ?_, rfl, rfl⟩, ?_, rfl⟩ <;> simp [sameWorld, sameRegisters, sameFlow])
theorem steady_brel (g : Guard) (m : BitVec 6) (s : State) : Ends Steady s (execBrel g m s) := by
  refine steady_op ?_
  try simp only [okIn_ok_iff, okIn_error_iff, okIn_throw_iff, okIn_throwBind_iff, okIn_bind_iff, okIn_ite_iff, okIn_guarded_iff, true_and, and_true, implies_true]
  repeat' first
    | with_reducible refine And.intro ?_ ?_
    | with_reducible intro _
    | (with_reducible refine OkIn.id ?_; split)
    | (with_reducible refine OkIn.id ?_; simp only [okIn_ok_iff, okIn_error_iff, okIn_throw_iff, okIn_throwBind_iff, okIn_bind_iff, okIn_ite_iff, okIn_guarded_iff, true_and, and_true, implies_true])
    | exact trivial
    | with_reducible exact Steady.rfl' s
    | with_reducible exact Quiet.rfl' s
  all_goals exact steady_landAt _ _ _
theorem quiet_takeTransfer (n m : Nat) (s : State) : OkIn Quiet s (takeTransfer n m s) := by
  unfold takeTransfer
  try simp only [okIn_ok_iff, okIn_error_iff, okIn_throw_iff, okIn_throwBind_iff, okIn_bind_iff, okIn_ite_iff, okIn_guarded_iff, true_and, and_true, implies_true]
  repeat' first
    | with_reducible refine And.intro ?_ ?_
    | with_reducible intro _
    | (with_reducible refine OkIn.id ?_; split)
    | (with_reducible refine OkIn.id ?_; simp only [okIn_ok_iff, okIn_error_iff, okIn_throw_iff, okIn_throwBind_iff, okIn_bind_iff, okIn_ite_iff, okIn_guarded_iff, true_and, and_true, implies_true])
    | exact trivial
    | with_reducible exact Steady.rfl' s
    | with_reducible exact Quiet.rfl' s
  all_goals (constructor <;> simp [sameWorld, sameRegisters])
theorem quiet_startLoop (l : BitVec 3) (n : Nat) (b : BitVec 2) (s : State) : OkIn Quiet s (startLoop l n b s) := by
  unfold startLoop
  try simp only [okIn_ok_iff, okIn_error_iff, okIn_throw_iff, okIn_throwBind_iff, okIn_bind_iff, okIn_ite_iff, okIn_guarded_iff, true_and, and_true, implies_true]
  repeat' first
    | with_reducible refine And.intro ?_ ?_
    | with_reducible intro _
    | (with_reducible refine OkIn.id ?_; split)
    | (with_reducible refine OkIn.id ?_; simp only [okIn_ok_iff, okIn_error_iff, okIn_throw_iff, okIn_throwBind_iff, okIn_bind_iff, okIn_ite_iff, okIn_guarded_iff, true_and, and_true, implies_true])
    | exact trivial
    | with_reducible exact Steady.rfl' s
    | with_reducible exact Quiet.rfl' s
  all_goals (constructor <;> simp [sameWorld, sameRegisters, setLoop])
theorem quiet_setBt (b : BitVec 2) (v : Word) (s : State) : Quiet s (setBt b v s) := by
  constructor <;> simp [sameWorld, sameRegisters, setBt]
theorem quiet_call (g : Guard) (b : BitVec 2) (s : State) : Ends Quiet s (execCall g b s) := by
  refine quiet_op (.guarded (.rfl' s) (.bind fun n => ?_))
  cases e : takeTransfer n 6 s with
  | error x => exact .error
  | ok t => exact .ok ((quiet_takeTransfer n 6 s t e).trans (steady_landIn _ _ _).toQuiet)
theorem quiet_brc (g : Guard) (b : BitVec 2) (a : BitVec 6) (s : State) : Ends Quiet s (execBrc g b a s) := by
  refine quiet_op ?_
  try simp only [okIn_ok_iff, okIn_error_iff, okIn_throw_iff, okIn_throwBind_iff, okIn_bind_iff, okIn_ite_iff, okIn_guarded_iff, true_and, and_true, implies_true]
  repeat' first
    | with_reducible refine And.intro ?_ ?_
    | with_reducible intro _
    | (with_reducible refine OkIn.id ?_; split)
    | (with_reducible refine OkIn.id ?_; simp only [okIn_ok_iff, okIn_error_iff, okIn_throw_iff, okIn_throwBind_iff, okIn_bind_iff, okIn_ite_iff, okIn_guarded_iff, true_and, and_true, implies_true])
    | exact trivial
    | with_reducible exact Steady.rfl' s
    | with_reducible exact Quiet.rfl' s
  all_goals first | exact .rfl' s | exact quiet_takeTransfer _ _ _
theorem quiet_lbrk (g : Guard) (l : BitVec 3) (s : State) : Ends Quiet s (execLbrk g l s) := by
  refine quiet_op ?_
  try simp only [okIn_ok_iff, okIn_error_iff, okIn_throw_iff, okIn_throwBind_iff, okIn_bind_iff, okIn_ite_iff, okIn_guarded_iff, true_and, and_true, implies_true]
  repeat' first
    | with_reducible refine And.intro ?_ ?_
    | with_reducible intro _
    | (with_reducible refine OkIn.id ?_; split)
    | (with_reducible refine OkIn.id ?_; simp only [okIn_ok_iff, okIn_error_iff, okIn_throw_iff, okIn_throwBind_iff, okIn_bind_iff, okIn_ite_iff, okIn_guarded_iff, true_and, and_true, implies_true])
    | exact trivial
    | with_reducible exact Steady.rfl' s
    | with_reducible exact Quiet.rfl' s
  all_goals exact quiet_takeTransfer _ _ _
theorem quiet_spawn (g : Guard) (k : BitVec 2) (a : BitVec 6) (b : BitVec 2) (s : State) : Ends Quiet s (execSpawn g k a b s) := by
  refine quiet_op ?_
  try simp only [okIn_ok_iff, okIn_error_iff, okIn_throw_iff, okIn_throwBind_iff, okIn_bind_iff, okIn_ite_iff, okIn_guarded_iff, true_and, and_true, implies_true]
  repeat' first
    | with_reducible refine And.intro ?_ ?_
    | with_reducible intro _
    | (with_reducible refine OkIn.id ?_; split)
    | (with_reducible refine OkIn.id ?_; simp only [okIn_ok_iff, okIn_error_iff, okIn_throw_iff, okIn_throwBind_iff, okIn_bind_iff, okIn_ite_iff, okIn_guarded_iff, true_and, and_true, implies_true])
    | exact trivial
    | with_reducible exact Steady.rfl' s
    | with_reducible exact Quiet.rfl' s
  all_goals (constructor <;> simp [sameWorld, sameRegisters, putSeq])
theorem quiet_joinK (g : Guard) (k : BitVec 2) (s : State) : Ends Quiet s (execJoin g k s) := by
  refine quiet_op ?_
  try simp only [okIn_ok_iff, okIn_error_iff, okIn_throw_iff, okIn_throwBind_iff, okIn_bind_iff, okIn_ite_iff, okIn_guarded_iff, true_and, and_true, implies_true]
  repeat' first
    | with_reducible refine And.intro ?_ ?_
    | with_reducible intro _
    | (with_reducible refine OkIn.id ?_; split)
    | (with_reducible refine OkIn.id ?_; simp only [okIn_ok_iff, okIn_error_iff, okIn_throw_iff, okIn_throwBind_iff, okIn_bind_iff, okIn_ite_iff, okIn_guarded_iff, true_and, and_true, implies_true])
    | exact trivial
    | with_reducible exact Steady.rfl' s
    | with_reducible exact Quiet.rfl' s
  all_goals first | exact .rfl' s | (constructor <;> simp [sameWorld, sameRegisters])
theorem quiet_safe (g : Guard) (i : BitVec 12) (s : State) : Ends Quiet s (execSafe g i s) := by
  refine quiet_op ?_
  try simp only [okIn_ok_iff, okIn_error_iff, okIn_throw_iff, okIn_throwBind_iff, okIn_bind_iff, okIn_ite_iff, okIn_guarded_iff, true_and, and_true, implies_true]
  repeat' first
    | with_reducible refine And.intro ?_ ?_
    | with_reducible intro _
    | (with_reducible refine OkIn.id ?_; split)
    | (with_reducible refine OkIn.id ?_; simp only [okIn_ok_iff, okIn_error_iff, okIn_throw_iff, okIn_throwBind_iff, okIn_bind_iff, okIn_ite_iff, okIn_guarded_iff, true_and, and_true, implies_true])
    | exact trivial
    | with_reducible exact Steady.rfl' s
    | with_reducible exact Quiet.rfl' s
  all_goals (constructor <;> simp [sameWorld, sameRegisters, quiesce, emit])
theorem quiet_halt (g : Guard) (s : State) : Ends Quiet s (execHalt g s) := by
  refine quiet_op ?_
  try simp only [okIn_ok_iff, okIn_error_iff, okIn_throw_iff, okIn_throwBind_iff, okIn_bind_iff, okIn_ite_iff, okIn_guarded_iff, true_and, and_true, implies_true]
  repeat' first
    | with_reducible refine And.intro ?_ ?_
    | with_reducible intro _
    | (with_reducible refine OkIn.id ?_; split)
    | (with_reducible refine OkIn.id ?_; simp only [okIn_ok_iff, okIn_error_iff, okIn_throw_iff, okIn_throwBind_iff, okIn_bind_iff, okIn_ite_iff, okIn_guarded_iff, true_and, and_true, implies_true])
    | exact trivial
    | with_reducible exact Steady.rfl' s
    | with_reducible exact Quiet.rfl' s
  all_goals (constructor <;> simp [sameWorld, sameRegisters])
theorem quiet_tret (g : Guard) (b : Bool) (s : State) : Ends Quiet s (execTret g b s) := by
  refine quiet_op ?_
  try simp only [okIn_ok_iff, okIn_error_iff, okIn_throw_iff, okIn_throwBind_iff, okIn_bind_iff, okIn_ite_iff, okIn_guarded_iff, true_and, and_true, implies_true]
  repeat' first
    | with_reducible refine And.intro ?_ ?_
    | with_reducible intro _
    | (with_reducible refine OkIn.id ?_; split)
    | (with_reducible refine OkIn.id ?_; simp only [okIn_ok_iff, okIn_error_iff, okIn_throw_iff, okIn_throwBind_iff, okIn_bind_iff, okIn_ite_iff, okIn_guarded_iff, true_and, and_true, implies_true])
    | exact trivial
    | with_reducible exact Steady.rfl' s
    | with_reducible exact Quiet.rfl' s
  all_goals (constructor <;> simp [sameWorld, sameRegisters, trapReturn])
theorem quiet_waitl (g : Guard) (a : BitVec 6) (s : State) : Ends Quiet s (execWaitl g a s) := by
  refine quiet_op ?_
  try simp only [okIn_ok_iff, okIn_error_iff, okIn_throw_iff, okIn_throwBind_iff, okIn_bind_iff, okIn_ite_iff, okIn_guarded_iff, true_and, and_true, implies_true]
  repeat' first
    | with_reducible refine And.intro ?_ ?_
    | with_reducible intro _
    | (with_reducible refine OkIn.id ?_; split)
    | (with_reducible refine OkIn.id ?_; simp only [okIn_ok_iff, okIn_error_iff, okIn_throw_iff, okIn_throwBind_iff, okIn_bind_iff, okIn_ite_iff, okIn_guarded_iff, true_and, and_true, implies_true])
    | exact trivial
    | with_reducible exact Steady.rfl' s
    | with_reducible exact Quiet.rfl' s
  all_goals (constructor <;> simp [sameWorld, sameRegisters])
theorem quiet_lstr (g : Guard) (l : BitVec 3) (a : BitVec 6) (i : Imm14) (s : State) : Ends Quiet s (execLstr g l a i s) := by
  refine quiet_op ?_
  try simp only [okIn_ok_iff, okIn_error_iff, okIn_throw_iff, okIn_throwBind_iff, okIn_bind_iff, okIn_ite_iff, okIn_guarded_iff, true_and, and_true, implies_true]
  repeat' first
    | with_reducible refine And.intro ?_ ?_
    | with_reducible intro _
    | (with_reducible refine OkIn.id ?_; split)
    | (with_reducible refine OkIn.id ?_; simp only [okIn_ok_iff, okIn_error_iff, okIn_throw_iff, okIn_throwBind_iff, okIn_bind_iff, okIn_ite_iff, okIn_guarded_iff, true_and, and_true, implies_true])
    | exact trivial
    | with_reducible exact Steady.rfl' s
    | with_reducible exact Quiet.rfl' s
  all_goals (constructor <;> simp [sameWorld, sameRegisters, setLoop])
theorem quiet_psel (g : Guard) (x : BitVec 8) (a : BitVec 6) (s : State) : Ends Quiet s (execPsel g x a s) := by
  refine quiet_op ?_
  try simp only [okIn_ok_iff, okIn_error_iff, okIn_throw_iff, okIn_throwBind_iff, okIn_bind_iff, okIn_ite_iff, okIn_guarded_iff, true_and, and_true, implies_true]
  repeat' first
    | with_reducible refine And.intro ?_ ?_
    | with_reducible intro _
    | (with_reducible refine OkIn.id ?_; split)
    | (with_reducible refine OkIn.id ?_; simp only [okIn_ok_iff, okIn_error_iff, okIn_throw_iff, okIn_throwBind_iff, okIn_bind_iff, okIn_ite_iff, okIn_guarded_iff, true_and, and_true, implies_true])
    | exact trivial
    | with_reducible exact Steady.rfl' s
    | with_reducible exact Quiet.rfl' s
  all_goals exact quiet_takeTransfer _ _ _

end Sys2Proof.Machine
end

