-- ==== Sys2Proof/Laws/Ends.lean ====
section
/-! SUPPORT. For each slot operation: it answers a next state, which keeps what `Steady` or `Quiet` says or is the state after one
of its traps. -/

namespace Sys2Proof.Machine

theorem ends_nop (stop : Bool) (s : State) : Ends Steady s (exec (.nop stop) s) := by
  show Ends _ s (execNop stop s)
  unfold execNop
  exact .finish (.ok (.rfl' s))
theorem ends_illegal (stop : Bool) (p : BitVec 3) (n : Bool) (o : BitVec 18) (s : State) : Ends Steady s (exec (.illegal stop p n o) s) := by
  show Ends _ s (execIllegal stop p n o s)
  unfold execIllegal
  exact steady_op .error
theorem ends_add (g : Guard) (d : BitVec 6) (a : BitVec 6) (b : BitVec 6) (s : State) : Ends Steady s (exec (.add g d a b) s) := by
  show Ends _ s (execAdd g d a b s)
  unfold execAdd
  exact steady_alu _ _ _ _ _ _ _
theorem ends_sub (g : Guard) (d : BitVec 6) (a : BitVec 6) (b : BitVec 6) (s : State) : Ends Steady s (exec (.sub g d a b) s) := by
  show Ends _ s (execSub g d a b s)
  unfold execSub
  exact steady_alu _ _ _ _ _ _ _
theorem ends_addi (g : Guard) (d : BitVec 6) (a : BitVec 6) (i : Imm14) (s : State) : Ends Steady s (exec (.addi g d a i) s) := by
  show Ends _ s (execAddi g d a i s)
  unfold execAddi
  exact steady_aluI _ _ _ _ _ _
theorem ends_lih (g : Guard) (d : BitVec 6) (i : Imm20) (s : State) : Ends Steady s (exec (.lih g d i) s) := by
  show Ends _ s (execLih g d i s)
  unfold execLih
  exact steady_aluI _ _ _ _ _ _
theorem ends_mul (g : Guard) (d : BitVec 6) (a : BitVec 6) (b : BitVec 6) (s : State) : Ends Steady s (exec (.mul g d a b) s) := by
  show Ends _ s (execMul g d a b s)
  unfold execMul
  exact steady_alu _ _ _ _ _ _ _
theorem ends_mulh (g : Guard) (d : BitVec 6) (a : BitVec 6) (b : BitVec 6) (s : State) : Ends Steady s (exec (.mulh g d a b) s) := by
  show Ends _ s (execMulh g d a b s)
  unfold execMulh
  exact steady_alu _ _ _ _ _ _ _
theorem ends_mulhn (g : Guard) (d : BitVec 6) (a : BitVec 6) (b : BitVec 6) (s : State) : Ends Steady s (exec (.mulhn g d a b) s) := by
  show Ends _ s (execMulhn g d a b s)
  unfold execMulhn
  exact steady_alu _ _ _ _ _ _ _
theorem ends_div (g : Guard) (d : BitVec 6) (a : BitVec 6) (b : BitVec 6) (s : State) : Ends Steady s (exec (.div g d a b) s) := by
  show Ends _ s (execDiv g d a b s)
  unfold execDiv
  exact steady_divide _ _ _ _ _ _ _
theorem ends_divn (g : Guard) (d : BitVec 6) (a : BitVec 6) (b : BitVec 6) (s : State) : Ends Steady s (exec (.divn g d a b) s) := by
  show Ends _ s (execDivn g d a b s)
  unfold execDivn
  exact steady_divide _ _ _ _ _ _ _
theorem ends_rem (g : Guard) (d : BitVec 6) (a : BitVec 6) (b : BitVec 6) (s : State) : Ends Steady s (exec (.rem g d a b) s) := by
  show Ends _ s (execRem g d a b s)
  unfold execRem
  exact steady_divide _ _ _ _ _ _ _
theorem ends_remn (g : Guard) (d : BitVec 6) (a : BitVec 6) (b : BitVec 6) (s : State) : Ends Steady s (exec (.remn g d a b) s) := by
  show Ends _ s (execRemn g d a b s)
  unfold execRemn
  exact steady_divide _ _ _ _ _ _ _
theorem ends_andS (g : Guard) (d : BitVec 6) (a : BitVec 6) (b : BitVec 6) (s : State) : Ends Steady s (exec (.andS g d a b) s) := by
  show Ends _ s (execAnd g d a b s)
  unfold execAnd
  exact steady_alu _ _ _ _ _ _ _
theorem ends_orS (g : Guard) (d : BitVec 6) (a : BitVec 6) (b : BitVec 6) (s : State) : Ends Steady s (exec (.orS g d a b) s) := by
  show Ends _ s (execOr g d a b s)
  unfold execOr
  exact steady_alu _ _ _ _ _ _ _
theorem ends_xorS (g : Guard) (d : BitVec 6) (a : BitVec 6) (b : BitVec 6) (s : State) : Ends Steady s (exec (.xorS g d a b) s) := by
  show Ends _ s (execXor g d a b s)
  unfold execXor
  exact steady_alu _ _ _ _ _ _ _
theorem ends_andi (g : Guard) (d : BitVec 6) (a : BitVec 6) (i : Imm14) (s : State) : Ends Steady s (exec (.andi g d a i) s) := by
  show Ends _ s (execAndi g d a i s)
  unfold execAndi
  exact steady_aluI _ _ _ _ _ _
theorem ends_ori (g : Guard) (d : BitVec 6) (a : BitVec 6) (i : Imm14) (s : State) : Ends Steady s (exec (.ori g d a i) s) := by
  show Ends _ s (execOri g d a i s)
  unfold execOri
  exact steady_aluI _ _ _ _ _ _
theorem ends_xori (g : Guard) (d : BitVec 6) (a : BitVec 6) (i : Imm14) (s : State) : Ends Steady s (exec (.xori g d a i) s) := by
  show Ends _ s (execXori g d a i s)
  unfold execXori
  exact steady_aluI _ _ _ _ _ _
theorem ends_shl (g : Guard) (d : BitVec 6) (a : BitVec 6) (b : BitVec 6) (s : State) : Ends Steady s (exec (.shl g d a b) s) := by
  show Ends _ s (execShl g d a b s)
  unfold execShl
  exact steady_alu _ _ _ _ _ _ _
theorem ends_shr (g : Guard) (d : BitVec 6) (a : BitVec 6) (b : BitVec 6) (s : State) : Ends Steady s (exec (.shr g d a b) s) := by
  show Ends _ s (execShr g d a b s)
  unfold execShr
  exact steady_alu _ _ _ _ _ _ _
theorem ends_shra (g : Guard) (d : BitVec 6) (a : BitVec 6) (b : BitVec 6) (s : State) : Ends Steady s (exec (.shra g d a b) s) := by
  show Ends _ s (execShra g d a b s)
  unfold execShra
  exact steady_alu _ _ _ _ _ _ _
theorem ends_shli (g : Guard) (d : BitVec 6) (a : BitVec 6) (i : BitVec 6) (s : State) : Ends Steady s (exec (.shli g d a i) s) := by
  show Ends _ s (execShli g d a i s)
  unfold execShli
  exact steady_aluI _ _ _ _ _ _
theorem ends_shri (g : Guard) (d : BitVec 6) (a : BitVec 6) (i : BitVec 6) (s : State) : Ends Steady s (exec (.shri g d a i) s) := by
  show Ends _ s (execShri g d a i s)
  unfold execShri
  exact steady_aluI _ _ _ _ _ _
theorem ends_shrai (g : Guard) (d : BitVec 6) (a : BitVec 6) (i : BitVec 6) (s : State) : Ends Steady s (exec (.shrai g d a i) s) := by
  show Ends _ s (execShrai g d a i s)
  unfold execShrai
  exact steady_aluI _ _ _ _ _ _
theorem ends_rotr (g : Guard) (d : BitVec 6) (a : BitVec 6) (b : BitVec 6) (s : State) : Ends Steady s (exec (.rotr g d a b) s) := by
  show Ends _ s (execRotr g d a b s)
  unfold execRotr
  exact steady_alu _ _ _ _ _ _ _
theorem ends_clz (g : Guard) (d : BitVec 6) (a : BitVec 6) (s : State) : Ends Steady s (exec (.clz g d a) s) := by
  show Ends _ s (execClz g d a s)
  unfold execClz
  exact steady_alu _ _ _ _ _ _ _
theorem ends_popc (g : Guard) (d : BitVec 6) (a : BitVec 6) (s : State) : Ends Steady s (exec (.popc g d a) s) := by
  show Ends _ s (execPopc g d a s)
  unfold execPopc
  exact steady_alu _ _ _ _ _ _ _
theorem ends_minS (g : Guard) (d : BitVec 6) (a : BitVec 6) (b : BitVec 6) (s : State) : Ends Steady s (exec (.minS g d a b) s) := by
  show Ends _ s (execMin g d a b s)
  unfold execMin
  exact steady_alu _ _ _ _ _ _ _
theorem ends_maxS (g : Guard) (d : BitVec 6) (a : BitVec 6) (b : BitVec 6) (s : State) : Ends Steady s (exec (.maxS g d a b) s) := by
  show Ends _ s (execMax g d a b s)
  unfold execMax
  exact steady_alu _ _ _ _ _ _ _
theorem ends_minn (g : Guard) (d : BitVec 6) (a : BitVec 6) (b : BitVec 6) (s : State) : Ends Steady s (exec (.minn g d a b) s) := by
  show Ends _ s (execMinn g d a b s)
  unfold execMinn
  exact steady_alu _ _ _ _ _ _ _
theorem ends_maxn (g : Guard) (d : BitVec 6) (a : BitVec 6) (b : BitVec 6) (s : State) : Ends Steady s (exec (.maxn g d a b) s) := by
  show Ends _ s (execMaxn g d a b s)
  unfold execMaxn
  exact steady_alu _ _ _ _ _ _ _
theorem ends_sel (g : Guard) (d : BitVec 6) (a : BitVec 6) (b : BitVec 6) (s : State) : Ends Steady s (exec (.sel g d a b) s) := by
  show Ends _ s (execSel g d a b s)
  unfold execSel
  exact steady_guarded (.ok (steady_landS _ _ _ _))
theorem ends_ceq (g : Guard) (q : BitVec 3) (a : BitVec 6) (b : BitVec 6) (s : State) : Ends Steady s (exec (.ceq g q a b) s) := by
  show Ends _ s (execCeq g q a b s)
  unfold execCeq
  exact steady_cmp _ _ _ _ _ _
theorem ends_cne (g : Guard) (q : BitVec 3) (a : BitVec 6) (b : BitVec 6) (s : State) : Ends Steady s (exec (.cne g q a b) s) := by
  show Ends _ s (execCne g q a b s)
  unfold execCne
  exact steady_cmp _ _ _ _ _ _
theorem ends_clt (g : Guard) (q : BitVec 3) (a : BitVec 6) (b : BitVec 6) (s : State) : Ends Steady s (exec (.clt g q a b) s) := by
  show Ends _ s (execClt g q a b s)
  unfold execClt
  exact steady_cmp _ _ _ _ _ _
theorem ends_cle (g : Guard) (q : BitVec 3) (a : BitVec 6) (b : BitVec 6) (s : State) : Ends Steady s (exec (.cle g q a b) s) := by
  show Ends _ s (execCle g q a b s)
  unfold execCle
  exact steady_cmp _ _ _ _ _ _
theorem ends_cltn (g : Guard) (q : BitVec 3) (a : BitVec 6) (b : BitVec 6) (s : State) : Ends Steady s (exec (.cltn g q a b) s) := by
  show Ends _ s (execCltn g q a b s)
  unfold execCltn
  exact steady_cmp _ _ _ _ _ _
theorem ends_clen (g : Guard) (q : BitVec 3) (a : BitVec 6) (b : BitVec 6) (s : State) : Ends Steady s (exec (.clen g q a b) s) := by
  show Ends _ s (execClen g q a b s)
  unfold execClen
  exact steady_cmp _ _ _ _ _ _
theorem ends_ceqi (g : Guard) (q : BitVec 3) (a : BitVec 6) (i : Imm14) (s : State) : Ends Steady s (exec (.ceqi g q a i) s) := by
  show Ends _ s (execCeqi g q a i s)
  unfold execCeqi
  exact steady_cmp _ _ _ _ _ _
theorem ends_clti (g : Guard) (q : BitVec 3) (a : BitVec 6) (i : Imm14) (s : State) : Ends Steady s (exec (.clti g q a i) s) := by
  show Ends _ s (execClti g q a i s)
  unfold execClti
  exact steady_cmp _ _ _ _ _ _
theorem ends_badr (g : Guard) (d : BitVec 6) (a : BitVec 6) (b : BitVec 6) (s : State) : Ends Steady s (exec (.badr g d a b) s) := by
  show Ends _ s (execBadr g d a b s)
  unfold execBadr
  exact steady_alu _ _ _ _ _ _ _
theorem ends_boff (g : Guard) (d : BitVec 6) (a : BitVec 6) (i : Imm14) (s : State) : Ends Steady s (exec (.boff g d a i) s) := by
  show Ends _ s (execBoff g d a i s)
  unfold execBoff
  exact steady_aluI _ _ _ _ _ _
theorem ends_ldb (g : Guard) (d : BitVec 6) (a : BitVec 6) (i : Imm14) (s : State) : Ends Steady s (exec (.ldb g d a i) s) := by
  show Ends _ s (execLdb g d a i s)
  unfold execLdb
  exact steady_loadOp _ _ _ _ _ _
theorem ends_ldh (g : Guard) (d : BitVec 6) (a : BitVec 6) (i : Imm14) (s : State) : Ends Steady s (exec (.ldh g d a i) s) := by
  show Ends _ s (execLdh g d a i s)
  unfold execLdh
  exact steady_loadOp _ _ _ _ _ _
theorem ends_ldw (g : Guard) (d : BitVec 6) (a : BitVec 6) (i : Imm14) (s : State) : Ends Steady s (exec (.ldw g d a i) s) := by
  show Ends _ s (execLdw g d a i s)
  unfold execLdw
  exact steady_loadOp _ _ _ _ _ _
theorem ends_ldd (g : Guard) (d : BitVec 6) (a : BitVec 6) (i : Imm14) (s : State) : Ends Steady s (exec (.ldd g d a i) s) := by
  show Ends _ s (execLdd g d a i s)
  unfold execLdd
  exact steady_loadOp _ _ _ _ _ _
theorem ends_stb (g : Guard) (d : BitVec 6) (a : BitVec 6) (i : Imm14) (s : State) : Ends Steady s (exec (.stb g d a i) s) := by
  show Ends _ s (execStb g d a i s)
  unfold execStb
  exact steady_storeOp _ _ _ _ _ _
theorem ends_sth (g : Guard) (d : BitVec 6) (a : BitVec 6) (i : Imm14) (s : State) : Ends Steady s (exec (.sth g d a i) s) := by
  show Ends _ s (execSth g d a i s)
  unfold execSth
  exact steady_storeOp _ _ _ _ _ _
theorem ends_stw (g : Guard) (d : BitVec 6) (a : BitVec 6) (i : Imm14) (s : State) : Ends Steady s (exec (.stw g d a i) s) := by
  show Ends _ s (execStw g d a i s)
  unfold execStw
  exact steady_storeOp _ _ _ _ _ _
theorem ends_std (g : Guard) (d : BitVec 6) (a : BitVec 6) (i : Imm14) (s : State) : Ends Steady s (exec (.std g d a i) s) := by
  show Ends _ s (execStd g d a i s)
  unfold execStd
  exact steady_storeOp _ _ _ _ _ _
theorem ends_ldl (g : Guard) (d : BitVec 6) (a : BitVec 6) (i : Imm14) (s : State) : Ends Steady s (exec (.ldl g d a i) s) :=
  steady_ldl _ _ _ _ _
theorem ends_stl (g : Guard) (d : BitVec 6) (a : BitVec 6) (i : Imm14) (s : State) : Ends Steady s (exec (.stl g d a i) s) :=
  steady_stl _ _ _ _ _
theorem ends_aadd (g : Guard) (d : BitVec 6) (a : BitVec 6) (b : BitVec 6) (s : State) : Ends Steady s (exec (.aadd g d a b) s) := by
  show Ends _ s (execAadd g d a b s)
  unfold execAadd
  exact steady_atomicOp _ _ _ _ _ _
theorem ends_amin (g : Guard) (d : BitVec 6) (a : BitVec 6) (b : BitVec 6) (s : State) : Ends Steady s (exec (.amin g d a b) s) := by
  show Ends _ s (execAmin g d a b s)
  unfold execAmin
  exact steady_atomicOp _ _ _ _ _ _
theorem ends_amax (g : Guard) (d : BitVec 6) (a : BitVec 6) (b : BitVec 6) (s : State) : Ends Steady s (exec (.amax g d a b) s) := by
  show Ends _ s (execAmax g d a b s)
  unfold execAmax
  exact steady_atomicOp _ _ _ _ _ _
theorem ends_aor (g : Guard) (d : BitVec 6) (a : BitVec 6) (b : BitVec 6) (s : State) : Ends Steady s (exec (.aor g d a b) s) := by
  show Ends _ s (execAor g d a b s)
  unfold execAor
  exact steady_atomicOp _ _ _ _ _ _
theorem ends_axch (g : Guard) (d : BitVec 6) (a : BitVec 6) (b : BitVec 6) (s : State) : Ends Steady s (exec (.axch g d a b) s) := by
  show Ends _ s (execAxch g d a b s)
  unfold execAxch
  exact steady_atomicOp _ _ _ _ _ _
theorem ends_acas (g : Guard) (d : BitVec 6) (a : BitVec 6) (b : BitVec 6) (s : State) : Ends Steady s (exec (.acas g d a b) s) := by
  show Ends _ s (execAcas g d a b s)
  unfold execAcas
  exact steady_atomicOp _ _ _ _ _ _
theorem ends_qmov (g : Guard) (q : BitVec 3) (a : BitVec 6) (s : State) : Ends Steady s (exec (.qmov g q a) s) := by
  show Ends _ s (execQmov g q a s)
  unfold execQmov
  exact steady_cmp _ _ _ _ _ _
theorem ends_movq (g : Guard) (d : BitVec 6) (s : State) : Ends Steady s (exec (.movq g d) s) := by
  show Ends _ s (execMovq g d s)
  unfold execMovq
  exact steady_guarded (.ok (steady_landS _ _ _ _))
theorem ends_qlog (g : Guard) (q : BitVec 3) (qa : BitVec 3) (qb : BitVec 3) (o : BitVec 3) (s : State) : Ends Steady s (exec (.qlog g q qa qb o) s) := by
  show Ends _ s (execQlog g q qa qb o s)
  unfold execQlog
  exact steady_guarded (.ok (steady_landQ _ _ _))
theorem ends_pbr (g : Guard) (t : BitVec 2) (i : Imm20) (s : State) : Ends Quiet s (exec (.pbr g t i) s) := by
  show Ends _ s (execPbr g t i s)
  unfold execPbr
  exact quiet_guarded (.ok (quiet_setBt _ _ _))
theorem ends_pbrr (g : Guard) (t : BitVec 2) (a : BitVec 6) (s : State) : Ends Quiet s (exec (.pbrr g t a) s) := by
  show Ends _ s (execPbrr g t a s)
  unfold execPbrr
  exact quiet_guarded (.ok (quiet_setBt _ _ _))
theorem ends_br (g : Guard) (t : BitVec 2) (s : State) : Ends Quiet s (exec (.br g t) s) := by
  show Ends _ s (execBr g t s)
  unfold execBr
  exact quiet_guarded (.bind fun _ => quiet_takeTransfer _ _ _)
theorem ends_brc (g : Guard) (t : BitVec 2) (a : BitVec 6) (s : State) : Ends Quiet s (exec (.brc g t a) s) :=
  quiet_brc _ _ _ _
theorem ends_call (g : Guard) (t : BitVec 2) (s : State) : Ends Quiet s (exec (.call g t) s) :=
  quiet_call _ _ _
theorem ends_ret (g : Guard) (s : State) : Ends Quiet s (exec (.ret g) s) := by
  show Ends _ s (execRet g s)
  unfold execRet
  exact quiet_guarded (quiet_takeTransfer _ _ _)
theorem ends_loop (g : Guard) (l : BitVec 3) (a : BitVec 6) (t : BitVec 2) (s : State) : Ends Quiet s (exec (.loop g l a t) s) := by
  show Ends _ s (execLoop g l a t s)
  unfold execLoop
  exact quiet_guarded (quiet_startLoop _ _ _ _)
theorem ends_loopi (g : Guard) (l : BitVec 3) (t : BitVec 2) (i : BitVec 20) (s : State) : Ends Quiet s (exec (.loopi g l t i) s) := by
  show Ends _ s (execLoopi g l t i s)
  unfold execLoopi
  exact quiet_guarded (quiet_startLoop _ _ _ _)
theorem ends_lstr (g : Guard) (l : BitVec 3) (a : BitVec 6) (i : Imm14) (s : State) : Ends Quiet s (exec (.lstr g l a i) s) :=
  quiet_lstr _ _ _ _ _
theorem ends_lidx (g : Guard) (d : BitVec 6) (l : BitVec 3) (s : State) : Ends Steady s (exec (.lidx g d l) s) := by
  show Ends _ s (execLidx g d l s)
  unfold execLidx
  exact steady_guarded (.ok (steady_landS _ _ _ _))
theorem ends_lbrk (g : Guard) (l : BitVec 3) (s : State) : Ends Quiet s (exec (.lbrk g l) s) :=
  quiet_lbrk _ _ _
theorem ends_spawn (g : Guard) (k : BitVec 2) (a : BitVec 6) (t : BitVec 2) (s : State) : Ends Quiet s (exec (.spawn g k a t) s) :=
  quiet_spawn _ _ _ _ _
theorem ends_joinK (g : Guard) (k : BitVec 2) (s : State) : Ends Quiet s (exec (.joinK g k) s) :=
  quiet_joinK _ _ _
theorem ends_safe (g : Guard) (i : BitVec 12) (s : State) : Ends Quiet s (exec (.safe g i) s) :=
  quiet_safe _ _ _
theorem ends_halt (g : Guard) (s : State) : Ends Quiet s (exec (.halt g) s) :=
  quiet_halt _ _
theorem ends_trap (g : Guard) (i : BitVec 20) (s : State) : Ends Quiet s (exec (.trap g i) s) := by
  show Ends _ s (execTrap g i s)
  unfold execTrap
  exact quiet_guarded .error
theorem ends_vany (g : Guard) (q : BitVec 3) (ma : BitVec 3) (s : State) : Ends Steady s (exec (.vany g q ma) s) := by
  show Ends _ s (execVany g q ma s)
  unfold execVany
  exact steady_vote _ _ _ _ _
theorem ends_vall (g : Guard) (q : BitVec 3) (ma : BitVec 3) (s : State) : Ends Steady s (exec (.vall g q ma) s) := by
  show Ends _ s (execVall g q ma s)
  unfold execVall
  exact steady_vote _ _ _ _ _
theorem ends_waitt (g : Guard) (a : BitVec 6) (s : State) : Ends Quiet s (exec (.waitt g a) s) := by
  show Ends _ s (execWaitt g a s)
  unfold execWaitt
  exact quiet_guarded (.ok (.rfl' s))
theorem ends_waitl (g : Guard) (a : BitVec 6) (s : State) : Ends Quiet s (exec (.waitl g a) s) :=
  quiet_waitl _ _ _
theorem ends_psel (g : Guard) (t : BitVec 8) (a : BitVec 6) (s : State) : Ends Quiet s (exec (.psel g t a) s) :=
  quiet_psel _ _ _ _
theorem ends_brk (g : Guard) (i : BitVec 20) (s : State) : Ends Quiet s (exec (.brk g i) s) := by
  show Ends _ s (execBrk g i s)
  unfold execBrk
  exact quiet_guarded .error
theorem ends_tret (g : Guard) (i : Bool) (s : State) : Ends Quiet s (exec (.tret g i) s) :=
  quiet_tret _ _ _
theorem ends_phase (g : Guard) (s : State) : Ends Steady s (exec (.phase g) s) :=
  steady_phase _ _
theorem ends_bar (g : Guard) (s : State) : Ends Steady s (exec (.bar g) s) :=
  steady_bar _ _
theorem ends_send (g : Guard) (ch : BitVec 5) (va : BitVec 8) (j : BitVec 2) (s : State) : Ends Steady s (exec (.send g ch va j) s) :=
  steady_send _ _ _ _ _
theorem ends_recv (g : Guard) (vd : BitVec 8) (ch : BitVec 5) (j : BitVec 2) (s : State) : Ends Steady s (exec (.recv g vd ch j) s) :=
  steady_recv _ _ _ _ _
theorem ends_sends (g : Guard) (ch : BitVec 5) (a : BitVec 6) (s : State) : Ends Steady s (exec (.sends g ch a) s) :=
  steady_sends _ _ _ _
theorem ends_recvs (g : Guard) (d : BitVec 6) (ch : BitVec 5) (s : State) : Ends Steady s (exec (.recvs g d ch) s) :=
  steady_recvs _ _ _ _
theorem ends_bacq (g : Guard) (m : BitVec 6) (s : State) : Ends Steady s (exec (.bacq g m) s) := by
  show Ends _ s (execBacq g m s)
  unfold execBacq
  exact steady_guarded (.ok (steady_landAt _ _ _))
theorem ends_brel (g : Guard) (m : BitVec 6) (s : State) : Ends Steady s (exec (.brel g m) s) :=
  steady_brel _ _ _
theorem ends_precW (g : Guard) (d : BitVec 6) (a : BitVec 6) (b : BitVec 6) (s : State) : Ends Steady s (exec (.precW g d a b) s) := by
  show Ends _ s (execPrec g d a b s)
  unfold execPrec
  exact steady_guarded (.ok ((steady_landIn _ _ _).trans (steady_landS _ _ _ _)))
theorem ends_preci (g : Guard) (fs : PreciSel) (i : BitVec 20) (s : State) : Ends Steady s (exec (.preci g fs i) s) := by
  show Ends _ s (execPreci g fs i s)
  unfold execPreci
  exact steady_guarded (.ok (steady_landIn _ _ _))
theorem ends_shape (g : Guard) (n : BitVec 2) (vec : Bool) (a : BitVec 6) (b : BitVec 6) (s : State) : Ends Steady s (exec (.shape g n vec a b) s) := by
  show Ends _ s (execShape g n vec a b s)
  unfold execShape
  exact steady_guarded (.ok (steady_landIn _ _ _))
theorem ends_shapq (g : Guard) (d : BitVec 6) (a : BitVec 6) (b : BitVec 6) (s : State) : Ends Steady s (exec (.shapq g d a b) s) := by
  show Ends _ s (execShapq g d a b s)
  unfold execShapq
  exact steady_guarded (.ok (steady_landS _ _ _ _))
theorem ends_view (g : Guard) (w : BitVec 5) (a : BitVec 6) (b : BitVec 6) (s : State) : Ends Steady s (exec (.view g w a b) s) :=
  steady_view _ _ _ _ _
theorem ends_viewq (g : Guard) (d : BitVec 6) (w : BitVec 4) (s : State) : Ends Steady s (exec (.viewq g d w) s) := by
  show Ends _ s (execViewq g d w s)
  unfold execViewq
  exact steady_guarded (.ok (steady_landS _ _ _ _))
theorem ends_getc (g : Guard) (d : BitVec 6) (x : BitVec 8) (s : State) : Ends Steady s (exec (.getc g d x) s) :=
  steady_getc _ _ _ _
theorem ends_setc (g : Guard) (d : BitVec 6) (x : BitVec 8) (s : State) : Ends Steady s (exec (.setc g d x) s) :=
  steady_setc _ _ _ _
theorem ends_stat (g : Guard) (d : BitVec 6) (j : BitVec 2) (e : BitVec 4) (s : State) : Ends Steady s (exec (.stat g d j e) s) :=
  steady_stat _ _ _ _ _
theorem ends_engy (g : Guard) (d : BitVec 6) (s : State) : Ends Steady s (exec (.engy g d) s) := by
  show Ends _ s (execEngy g d s)
  unfold execEngy
  exact steady_guarded (.ok (steady_landS _ _ _ _))
theorem ends_gtc (g : Guard) (d : BitVec 6) (s : State) : Ends Steady s (exec (.gtc g d) s) := by
  show Ends _ s (execGtc g d s)
  unfold execGtc
  exact steady_guarded (.ok (steady_landS _ _ _ _))
theorem ends_lcr (g : Guard) (d : BitVec 6) (a : BitVec 6) (s : State) : Ends Steady s (exec (.lcr g d a) s) := by
  show Ends _ s (execLcr g d a s)
  unfold execLcr
  exact steady_guarded (.ok (steady_landS _ _ _ _))
theorem ends_fence (g : Guard) (s : State) : Ends Steady s (exec (.fence g) s) := by
  show Ends _ s (execFence g s)
  unfold execFence
  exact steady_guarded (.ok (steady_emit _ _))
theorem ends_invq (g : Guard) (s : State) : Ends Steady s (exec (.invq g) s) := by
  show Ends _ s (execInvq g s)
  unfold execInvq
  exact steady_guarded (.ok (steady_quiesce _))
theorem ends_svcYield (g : Guard) (s : State) : Ends Steady s (exec (.svcYield g) s) := by
  show Ends _ s (execSvcYield g s)
  unfold execSvcYield
  exact steady_guarded (.ok (steady_emit _ _))
theorem ends_svcFlush (g : Guard) (s : State) : Ends Steady s (exec (.svcFlush g) s) := by
  show Ends _ s (execSvcFlush g s)
  unfold execSvcFlush
  exact steady_guarded (.ok (steady_emit _ _))
theorem ends_cdsc (g : Guard) (c : BitVec 4) (a : BitVec 6) (b : BitVec 6) (s : State) : Ends Steady s (exec (.cdsc g c a b) s) := by
  show Ends _ s (execCdsc g c a b s)
  unfold execCdsc
  exact steady_guarded (.ok (steady_landIn _ _ _))
theorem ends_kzero (g : Guard) (d : BitVec 6) (a : BitVec 6) (s : State) : Ends Steady s (exec (.kzero g d a) s) := by
  show Ends _ s (execKzero g d a s)
  unfold execKzero
  exact steady_custodianOp _ _ _ _ _ _
theorem ends_scrb (g : Guard) (d : BitVec 6) (a : BitVec 6) (b : BitVec 6) (s : State) : Ends Steady s (exec (.scrb g d a b) s) := by
  show Ends _ s (execScrb g d a b s)
  unfold execScrb
  exact steady_custodianOp _ _ _ _ _ _
theorem ends_scrq (g : Guard) (d : BitVec 6) (a : BitVec 6) (b : BitVec 6) (s : State) : Ends Steady s (exec (.scrq g d a b) s) := by
  show Ends _ s (execScrq g d a b s)
  unfold execScrq
  exact steady_custodianOp _ _ _ _ _ _
theorem ends_frel (g : Guard) (d : BitVec 6) (a : BitVec 6) (b : BitVec 6) (s : State) : Ends Steady s (exec (.frel g d a b) s) := by
  show Ends _ s (execFrel g d a b s)
  unfold execFrel
  exact steady_custodianOp _ _ _ _ _ _
theorem ends_plwr (g : Guard) (d : BitVec 6) (a : BitVec 6) (b : BitVec 6) (s : State) : Ends Steady s (exec (.plwr g d a b) s) := by
  show Ends _ s (execPlwr g d a b s)
  unfold execPlwr
  exact steady_custodianOp _ _ _ _ _ _
theorem ends_btwr (g : Guard) (d : BitVec 6) (a : BitVec 6) (b : BitVec 6) (s : State) : Ends Steady s (exec (.btwr g d a b) s) := by
  show Ends _ s (execBtwr g d a b s)
  unfold execBtwr
  exact steady_custodianOp _ _ _ _ _ _
theorem ends_qwrt (g : Guard) (d : BitVec 6) (a : BitVec 6) (b : BitVec 6) (s : State) : Ends Steady s (exec (.qwrt g d a b) s) := by
  show Ends _ s (execQwrt g d a b s)
  unfold execQwrt
  exact steady_custodianOp _ _ _ _ _ _
theorem ends_mma (g : Guard) (sh : BitVec 2) (x : BitVec 3) (y : BitVec 3) (s : State) : Ends Steady s (exec (.mma g sh x y) s) := by
  show Ends _ s (execMma g sh x y s)
  unfold execMma
  exact steady_mmaOp _ _ _ _ _ _
theorem ends_mmaz (g : Guard) (sh : BitVec 2) (x : BitVec 3) (y : BitVec 3) (s : State) : Ends Steady s (exec (.mmaz g sh x y) s) := by
  show Ends _ s (execMmaz g sh x y s)
  unfold execMmaz
  exact steady_mmaOp _ _ _ _ _ _
theorem ends_mdrn (g : Guard) (f : BitVec 2) (u : BitVec 2) (sh : BitVec 2) (add : Bool) (s : State) : Ends Steady s (exec (.mdrn g f u sh add) s) :=
  steady_mdrn _ _ _ _ _ _
theorem ends_mclr (g : Guard) (s : State) : Ends Steady s (exec (.mclr g) s) := by
  show Ends _ s (execMclr g s)
  unfold execMclr
  exact steady_guarded (.bind fun _ => .ok ((steady_landIn _ _ _).trans (steady_landAt _ _ _)))
theorem ends_mscl (g : Guard) (o : Bool) (x : BitVec 3) (s : State) : Ends Steady s (exec (.mscl g o x) s) :=
  steady_mscl _ _ _ _
theorem ends_mvcn (g : Guard) (en : Bool) (i : BitVec 16) (s : State) : Ends Steady s (exec (.mvcn g en i) s) := by
  show Ends _ s (execMvcn g en i s)
  unfold execMvcn
  exact steady_guarded (.ok (steady_landIn _ _ _))
theorem ends_msta (g : Guard) (d : BitVec 6) (a : BitVec 6) (s : State) : Ends Steady s (exec (.msta g d a) s) := by
  show Ends _ s (execMsta g d a s)
  unfold execMsta
  exact steady_guarded (.bind fun _ => .ok (steady_landS _ _ _ _))
theorem ends_mmat (g : Guard) (f : BitVec 2) (u : BitVec 2) (sh : BitVec 2) (x : BitVec 3) (y : BitVec 3) (s : State) : Ends Steady s (exec (.mmat g f u sh x y) s) :=
  steady_mmat _ _ _ _ _ _ _
theorem ends_cpl (g : Guard) (rel : Bool) (u : BitVec 3) (c : BitVec 4) (s : State) : Ends Steady s (exec (.cpl g rel u c) s) := by
  show Ends _ s (execCpl g rel u c s)
  unfold execCpl
  exact steady_copyOp _ _ _ _ _ _ _
theorem ends_cpi (g : Guard) (rel : Bool) (u : BitVec 3) (c : BitVec 4) (b : BitVec 6) (s : State) : Ends Steady s (exec (.cpi g rel u c b) s) := by
  show Ends _ s (execCpi g rel u c b s)
  unfold execCpi
  exact steady_copyOp _ _ _ _ _ _ _
theorem ends_cpo (g : Guard) (rel : Bool) (u : BitVec 3) (c : BitVec 4) (b : BitVec 6) (s : State) : Ends Steady s (exec (.cpo g rel u c b) s) := by
  show Ends _ s (execCpo g rel u c b s)
  unfold execCpo
  exact steady_copyOp _ _ _ _ _ _ _
theorem ends_cpdi (g : Guard) (rel : Bool) (u : BitVec 3) (c : BitVec 4) (b : BitVec 6) (s : State) : Ends Steady s (exec (.cpdi g rel u c b) s) := by
  show Ends _ s (execCpdi g rel u c b s)
  unfold execCpdi
  exact steady_copyOp _ _ _ _ _ _ _
theorem ends_cpdo (g : Guard) (rel : Bool) (u : BitVec 3) (c : BitVec 4) (b : BitVec 6) (s : State) : Ends Steady s (exec (.cpdo g rel u c b) s) := by
  show Ends _ s (execCpdo g rel u c b s)
  unfold execCpdo
  exact steady_copyOp _ _ _ _ _ _ _
theorem ends_cps (g : Guard) (rel : Bool) (u : BitVec 3) (c : BitVec 4) (b : BitVec 6) (s : State) : Ends Steady s (exec (.cps g rel u c b) s) := by
  show Ends _ s (execCps g rel u c b s)
  unfold execCps
  exact steady_copyOp _ _ _ _ _ _ _
theorem ends_cpg (g : Guard) (rel : Bool) (u : BitVec 3) (c : BitVec 4) (b : BitVec 6) (s : State) : Ends Steady s (exec (.cpg g rel u c b) s) := by
  show Ends _ s (execCpg g rel u c b s)
  unfold execCpg
  exact steady_copyOp _ _ _ _ _ _ _
theorem ends_cpst (g : Guard) (rel : Bool) (u : BitVec 3) (c : BitVec 4) (b : BitVec 6) (s : State) : Ends Steady s (exec (.cpst g rel u c b) s) := by
  show Ends _ s (execCpst g rel u c b s)
  unfold execCpst
  exact steady_copyOp _ _ _ _ _ _ _
theorem ends_cpb (g : Guard) (rel : Bool) (u : BitVec 3) (c : BitVec 4) (b : BitVec 6) (s : State) : Ends Steady s (exec (.cpb g rel u c b) s) := by
  show Ends _ s (execCpb g rel u c b s)
  unfold execCpb
  exact steady_copyOp _ _ _ _ _ _ _
theorem ends_cpr (g : Guard) (rel : Bool) (u : BitVec 3) (c : BitVec 4) (b : BitVec 6) (s : State) : Ends Steady s (exec (.cpr g rel u c b) s) := by
  show Ends _ s (execCpr g rel u c b s)
  unfold execCpr
  exact steady_copyOp _ _ _ _ _ _ _
theorem ends_vaddVa (g : Guard) (d : BitVec 8) (a : VOp) (b : VOp) (s : State) : Ends Steady s (exec (.vaddVa g d a b) s) := by
  show Ends _ s (execVaddVa g d a b s)
  unfold execVaddVa fpOp
  exact steady_vecOp _ _ _ _ _ _ _ _ _ _ _ _
theorem ends_vaddVb (g : Guard) (d : BitVec 8) (a : VOp) (b : VOp) (s : State) : Ends Steady s (exec (.vaddVb g d a b) s) := by
  show Ends _ s (execVaddVb g d a b s)
  unfold execVaddVb fpOp
  exact steady_vecOp _ _ _ _ _ _ _ _ _ _ _ _
theorem ends_vsubVa (g : Guard) (d : BitVec 8) (a : VOp) (b : VOp) (s : State) : Ends Steady s (exec (.vsubVa g d a b) s) := by
  show Ends _ s (execVsubVa g d a b s)
  unfold execVsubVa fpOp
  exact steady_vecOp _ _ _ _ _ _ _ _ _ _ _ _
theorem ends_vsubVb (g : Guard) (d : BitVec 8) (a : VOp) (b : VOp) (s : State) : Ends Steady s (exec (.vsubVb g d a b) s) := by
  show Ends _ s (execVsubVb g d a b s)
  unfold execVsubVb fpOp
  exact steady_vecOp _ _ _ _ _ _ _ _ _ _ _ _
theorem ends_vmulVa (g : Guard) (d : BitVec 8) (a : VOp) (b : VOp) (s : State) : Ends Steady s (exec (.vmulVa g d a b) s) := by
  show Ends _ s (execVmulVa g d a b s)
  unfold execVmulVa fpOp
  exact steady_vecOp _ _ _ _ _ _ _ _ _ _ _ _
theorem ends_vmulVb (g : Guard) (d : BitVec 8) (a : VOp) (b : VOp) (s : State) : Ends Steady s (exec (.vmulVb g d a b) s) := by
  show Ends _ s (execVmulVb g d a b s)
  unfold execVmulVb fpOp
  exact steady_vecOp _ _ _ _ _ _ _ _ _ _ _ _
theorem ends_vfmaVa (g : Guard) (d : BitVec 8) (a : VOp) (b : VOp) (s : State) : Ends Steady s (exec (.vfmaVa g d a b) s) := by
  show Ends _ s (execVfmaVa g d a b s)
  unfold execVfmaVa fpOp
  exact steady_vecOp _ _ _ _ _ _ _ _ _ _ _ _
theorem ends_vfmaVb (g : Guard) (d : BitVec 8) (a : VOp) (b : VOp) (s : State) : Ends Steady s (exec (.vfmaVb g d a b) s) := by
  show Ends _ s (execVfmaVb g d a b s)
  unfold execVfmaVb fpOp
  exact steady_vecOp _ _ _ _ _ _ _ _ _ _ _ _
theorem ends_vfmsVa (g : Guard) (d : BitVec 8) (a : VOp) (b : VOp) (s : State) : Ends Steady s (exec (.vfmsVa g d a b) s) := by
  show Ends _ s (execVfmsVa g d a b s)
  unfold execVfmsVa fpOp
  exact steady_vecOp _ _ _ _ _ _ _ _ _ _ _ _
theorem ends_vfmsVb (g : Guard) (d : BitVec 8) (a : VOp) (b : VOp) (s : State) : Ends Steady s (exec (.vfmsVb g d a b) s) := by
  show Ends _ s (execVfmsVb g d a b s)
  unfold execVfmsVb fpOp
  exact steady_vecOp _ _ _ _ _ _ _ _ _ _ _ _
theorem ends_vfnmaVa (g : Guard) (d : BitVec 8) (a : VOp) (b : VOp) (s : State) : Ends Steady s (exec (.vfnmaVa g d a b) s) := by
  show Ends _ s (execVfnmaVa g d a b s)
  unfold execVfnmaVa fpOp
  exact steady_vecOp _ _ _ _ _ _ _ _ _ _ _ _
theorem ends_vfnmaVb (g : Guard) (d : BitVec 8) (a : VOp) (b : VOp) (s : State) : Ends Steady s (exec (.vfnmaVb g d a b) s) := by
  show Ends _ s (execVfnmaVb g d a b s)
  unfold execVfnmaVb fpOp
  exact steady_vecOp _ _ _ _ _ _ _ _ _ _ _ _
theorem ends_vminVa (g : Guard) (d : BitVec 8) (a : VOp) (b : VOp) (s : State) : Ends Steady s (exec (.vminVa g d a b) s) := by
  show Ends _ s (execVminVa g d a b s)
  unfold execVminVa fpOp
  exact steady_vecOp _ _ _ _ _ _ _ _ _ _ _ _
theorem ends_vminVb (g : Guard) (d : BitVec 8) (a : VOp) (b : VOp) (s : State) : Ends Steady s (exec (.vminVb g d a b) s) := by
  show Ends _ s (execVminVb g d a b s)
  unfold execVminVb fpOp
  exact steady_vecOp _ _ _ _ _ _ _ _ _ _ _ _
theorem ends_vmaxVa (g : Guard) (d : BitVec 8) (a : VOp) (b : VOp) (s : State) : Ends Steady s (exec (.vmaxVa g d a b) s) := by
  show Ends _ s (execVmaxVa g d a b s)
  unfold execVmaxVa fpOp
  exact steady_vecOp _ _ _ _ _ _ _ _ _ _ _ _
theorem ends_vmaxVb (g : Guard) (d : BitVec 8) (a : VOp) (b : VOp) (s : State) : Ends Steady s (exec (.vmaxVb g d a b) s) := by
  show Ends _ s (execVmaxVb g d a b s)
  unfold execVmaxVb fpOp
  exact steady_vecOp _ _ _ _ _ _ _ _ _ _ _ _
theorem ends_vabsVa (g : Guard) (d : BitVec 8) (a : VOp) (s : State) : Ends Steady s (exec (.vabsVa g d a) s) := by
  show Ends _ s (execVabsVa g d a s)
  unfold execVabsVa fpUn
  exact steady_vecOp _ _ _ _ _ _ _ _ _ _ _ _
theorem ends_vabsVb (g : Guard) (d : BitVec 8) (a : VOp) (s : State) : Ends Steady s (exec (.vabsVb g d a) s) := by
  show Ends _ s (execVabsVb g d a s)
  unfold execVabsVb fpUn
  exact steady_vecOp _ _ _ _ _ _ _ _ _ _ _ _
theorem ends_vnegVa (g : Guard) (d : BitVec 8) (a : VOp) (s : State) : Ends Steady s (exec (.vnegVa g d a) s) := by
  show Ends _ s (execVnegVa g d a s)
  unfold execVnegVa fpUn
  exact steady_vecOp _ _ _ _ _ _ _ _ _ _ _ _
theorem ends_vnegVb (g : Guard) (d : BitVec 8) (a : VOp) (s : State) : Ends Steady s (exec (.vnegVb g d a) s) := by
  show Ends _ s (execVnegVb g d a s)
  unfold execVnegVb fpUn
  exact steady_vecOp _ _ _ _ _ _ _ _ _ _ _ _
theorem ends_vrcpeVa (g : Guard) (d : BitVec 8) (a : VOp) (s : State) : Ends Steady s (exec (.vrcpeVa g d a) s) := by
  show Ends _ s (execVrcpeVa g d a s)
  unfold execVrcpeVa fpUn
  exact steady_vecOp _ _ _ _ _ _ _ _ _ _ _ _
theorem ends_vrcpeVb (g : Guard) (d : BitVec 8) (a : VOp) (s : State) : Ends Steady s (exec (.vrcpeVb g d a) s) := by
  show Ends _ s (execVrcpeVb g d a s)
  unfold execVrcpeVb fpUn
  exact steady_vecOp _ _ _ _ _ _ _ _ _ _ _ _
theorem ends_vrsqeVa (g : Guard) (d : BitVec 8) (a : VOp) (s : State) : Ends Steady s (exec (.vrsqeVa g d a) s) := by
  show Ends _ s (execVrsqeVa g d a s)
  unfold execVrsqeVa fpUn
  exact steady_vecOp _ _ _ _ _ _ _ _ _ _ _ _
theorem ends_vrsqeVb (g : Guard) (d : BitVec 8) (a : VOp) (s : State) : Ends Steady s (exec (.vrsqeVb g d a) s) := by
  show Ends _ s (execVrsqeVb g d a s)
  unfold execVrsqeVb fpUn
  exact steady_vecOp _ _ _ _ _ _ _ _ _ _ _ _
theorem ends_vdiv (g : Guard) (d : BitVec 8) (a : VOp) (b : VOp) (s : State) : Ends Steady s (exec (.vdiv g d a b) s) := by
  show Ends _ s (execVdiv g d a b s)
  unfold execVdiv fpOp
  exact steady_vecOp _ _ _ _ _ _ _ _ _ _ _ _
theorem ends_vsqrt (g : Guard) (d : BitVec 8) (a : VOp) (s : State) : Ends Steady s (exec (.vsqrt g d a) s) := by
  show Ends _ s (execVsqrt g d a s)
  unfold execVsqrt fpUn
  exact steady_vecOp _ _ _ _ _ _ _ _ _ _ _ _
theorem ends_vexp2 (g : Guard) (d : BitVec 8) (a : VOp) (s : State) : Ends Steady s (exec (.vexp2 g d a) s) := by
  show Ends _ s (execVexp2 g d a s)
  unfold execVexp2 fpUn
  exact steady_vecOp _ _ _ _ _ _ _ _ _ _ _ _
theorem ends_vlog2 (g : Guard) (d : BitVec 8) (a : VOp) (s : State) : Ends Steady s (exec (.vlog2 g d a) s) := by
  show Ends _ s (execVlog2 g d a s)
  unfold execVlog2 fpUn
  exact steady_vecOp _ _ _ _ _ _ _ _ _ _ _ _
theorem ends_viaddVa (g : Guard) (d : BitVec 8) (a : VOp) (b : VOp) (s : State) : Ends Steady s (exec (.viaddVa g d a b) s) := by
  show Ends _ s (execViaddVa g d a b s)
  unfold execViaddVa intOp
  exact steady_vecOp _ _ _ _ _ _ _ _ _ _ _ _
theorem ends_viaddVb (g : Guard) (d : BitVec 8) (a : VOp) (b : VOp) (s : State) : Ends Steady s (exec (.viaddVb g d a b) s) := by
  show Ends _ s (execViaddVb g d a b s)
  unfold execViaddVb intOp
  exact steady_vecOp _ _ _ _ _ _ _ _ _ _ _ _
theorem ends_visubVa (g : Guard) (d : BitVec 8) (a : VOp) (b : VOp) (s : State) : Ends Steady s (exec (.visubVa g d a b) s) := by
  show Ends _ s (execVisubVa g d a b s)
  unfold execVisubVa intOp
  exact steady_vecOp _ _ _ _ _ _ _ _ _ _ _ _
theorem ends_visubVb (g : Guard) (d : BitVec 8) (a : VOp) (b : VOp) (s : State) : Ends Steady s (exec (.visubVb g d a b) s) := by
  show Ends _ s (execVisubVb g d a b s)
  unfold execVisubVb intOp
  exact steady_vecOp _ _ _ _ _ _ _ _ _ _ _ _
theorem ends_vimulVa (g : Guard) (d : BitVec 8) (a : VOp) (b : VOp) (s : State) : Ends Steady s (exec (.vimulVa g d a b) s) := by
  show Ends _ s (execVimulVa g d a b s)
  unfold execVimulVa intOp
  exact steady_vecOp _ _ _ _ _ _ _ _ _ _ _ _
theorem ends_vimulVb (g : Guard) (d : BitVec 8) (a : VOp) (b : VOp) (s : State) : Ends Steady s (exec (.vimulVb g d a b) s) := by
  show Ends _ s (execVimulVb g d a b s)
  unfold execVimulVb intOp
  exact steady_vecOp _ _ _ _ _ _ _ _ _ _ _ _
theorem ends_vimacVa (g : Guard) (d : BitVec 8) (a : VOp) (b : VOp) (s : State) : Ends Steady s (exec (.vimacVa g d a b) s) := by
  show Ends _ s (execVimacVa g d a b s)
  unfold execVimacVa intOp
  exact steady_vecOp _ _ _ _ _ _ _ _ _ _ _ _
theorem ends_vimacVb (g : Guard) (d : BitVec 8) (a : VOp) (b : VOp) (s : State) : Ends Steady s (exec (.vimacVb g d a b) s) := by
  show Ends _ s (execVimacVb g d a b s)
  unfold execVimacVb intOp
  exact steady_vecOp _ _ _ _ _ _ _ _ _ _ _ _
theorem ends_vandVa (g : Guard) (d : BitVec 8) (a : VOp) (b : VOp) (s : State) : Ends Steady s (exec (.vandVa g d a b) s) := by
  show Ends _ s (execVandVa g d a b s)
  unfold execVandVa rawOp
  exact steady_vecOp _ _ _ _ _ _ _ _ _ _ _ _
theorem ends_vandVb (g : Guard) (d : BitVec 8) (a : VOp) (b : VOp) (s : State) : Ends Steady s (exec (.vandVb g d a b) s) := by
  show Ends _ s (execVandVb g d a b s)
  unfold execVandVb rawOp
  exact steady_vecOp _ _ _ _ _ _ _ _ _ _ _ _
theorem ends_vorVa (g : Guard) (d : BitVec 8) (a : VOp) (b : VOp) (s : State) : Ends Steady s (exec (.vorVa g d a b) s) := by
  show Ends _ s (execVorVa g d a b s)
  unfold execVorVa rawOp
  exact steady_vecOp _ _ _ _ _ _ _ _ _ _ _ _
theorem ends_vorVb (g : Guard) (d : BitVec 8) (a : VOp) (b : VOp) (s : State) : Ends Steady s (exec (.vorVb g d a b) s) := by
  show Ends _ s (execVorVb g d a b s)
  unfold execVorVb rawOp
  exact steady_vecOp _ _ _ _ _ _ _ _ _ _ _ _
theorem ends_vxorVa (g : Guard) (d : BitVec 8) (a : VOp) (b : VOp) (s : State) : Ends Steady s (exec (.vxorVa g d a b) s) := by
  show Ends _ s (execVxorVa g d a b s)
  unfold execVxorVa rawOp
  exact steady_vecOp _ _ _ _ _ _ _ _ _ _ _ _
theorem ends_vxorVb (g : Guard) (d : BitVec 8) (a : VOp) (b : VOp) (s : State) : Ends Steady s (exec (.vxorVb g d a b) s) := by
  show Ends _ s (execVxorVb g d a b s)
  unfold execVxorVb rawOp
  exact steady_vecOp _ _ _ _ _ _ _ _ _ _ _ _
theorem ends_vshlVa (g : Guard) (d : BitVec 8) (a : VOp) (b : VOp) (s : State) : Ends Steady s (exec (.vshlVa g d a b) s) := by
  show Ends _ s (execVshlVa g d a b s)
  unfold execVshlVa intOp
  exact steady_vecOp _ _ _ _ _ _ _ _ _ _ _ _
theorem ends_vshlVb (g : Guard) (d : BitVec 8) (a : VOp) (b : VOp) (s : State) : Ends Steady s (exec (.vshlVb g d a b) s) := by
  show Ends _ s (execVshlVb g d a b s)
  unfold execVshlVb intOp
  exact steady_vecOp _ _ _ _ _ _ _ _ _ _ _ _
theorem ends_vshrVa (g : Guard) (d : BitVec 8) (a : VOp) (b : VOp) (s : State) : Ends Steady s (exec (.vshrVa g d a b) s) := by
  show Ends _ s (execVshrVa g d a b s)
  unfold execVshrVa intOp
  exact steady_vecOp _ _ _ _ _ _ _ _ _ _ _ _
theorem ends_vshrVb (g : Guard) (d : BitVec 8) (a : VOp) (b : VOp) (s : State) : Ends Steady s (exec (.vshrVb g d a b) s) := by
  show Ends _ s (execVshrVb g d a b s)
  unfold execVshrVb intOp
  exact steady_vecOp _ _ _ _ _ _ _ _ _ _ _ _
theorem ends_vshraVa (g : Guard) (d : BitVec 8) (a : VOp) (b : VOp) (s : State) : Ends Steady s (exec (.vshraVa g d a b) s) := by
  show Ends _ s (execVshraVa g d a b s)
  unfold execVshraVa intOp
  exact steady_vecOp _ _ _ _ _ _ _ _ _ _ _ _
theorem ends_vshraVb (g : Guard) (d : BitVec 8) (a : VOp) (b : VOp) (s : State) : Ends Steady s (exec (.vshraVb g d a b) s) := by
  show Ends _ s (execVshraVb g d a b s)
  unfold execVshraVb intOp
  exact steady_vecOp _ _ _ _ _ _ _ _ _ _ _ _
theorem ends_vfceqVa (g : Guard) (m : BitVec 3) (a : VOp) (b : VOp) (s : State) : Ends Steady s (exec (.vfceqVa g m a b) s) := by
  show Ends _ s (execVfceqVa g m a b s)
  unfold execVfceqVa fcmp cmpOp
  exact steady_vecFrame _ _ _ _ _ _ _ _ (fun _ => steady_cmpEffect _ _ _ _ _ _ _ _ _ _)
theorem ends_vfceqVb (g : Guard) (m : BitVec 3) (a : VOp) (b : VOp) (s : State) : Ends Steady s (exec (.vfceqVb g m a b) s) := by
  show Ends _ s (execVfceqVb g m a b s)
  unfold execVfceqVb fcmp cmpOp
  exact steady_vecFrame _ _ _ _ _ _ _ _ (fun _ => steady_cmpEffect _ _ _ _ _ _ _ _ _ _)
theorem ends_vfcltVa (g : Guard) (m : BitVec 3) (a : VOp) (b : VOp) (s : State) : Ends Steady s (exec (.vfcltVa g m a b) s) := by
  show Ends _ s (execVfcltVa g m a b s)
  unfold execVfcltVa fcmp cmpOp
  exact steady_vecFrame _ _ _ _ _ _ _ _ (fun _ => steady_cmpEffect _ _ _ _ _ _ _ _ _ _)
theorem ends_vfcltVb (g : Guard) (m : BitVec 3) (a : VOp) (b : VOp) (s : State) : Ends Steady s (exec (.vfcltVb g m a b) s) := by
  show Ends _ s (execVfcltVb g m a b s)
  unfold execVfcltVb fcmp cmpOp
  exact steady_vecFrame _ _ _ _ _ _ _ _ (fun _ => steady_cmpEffect _ _ _ _ _ _ _ _ _ _)
theorem ends_vfcleVa (g : Guard) (m : BitVec 3) (a : VOp) (b : VOp) (s : State) : Ends Steady s (exec (.vfcleVa g m a b) s) := by
  show Ends _ s (execVfcleVa g m a b s)
  unfold execVfcleVa fcmp cmpOp
  exact steady_vecFrame _ _ _ _ _ _ _ _ (fun _ => steady_cmpEffect _ _ _ _ _ _ _ _ _ _)
theorem ends_vfcleVb (g : Guard) (m : BitVec 3) (a : VOp) (b : VOp) (s : State) : Ends Steady s (exec (.vfcleVb g m a b) s) := by
  show Ends _ s (execVfcleVb g m a b s)
  unfold execVfcleVb fcmp cmpOp
  exact steady_vecFrame _ _ _ _ _ _ _ _ (fun _ => steady_cmpEffect _ _ _ _ _ _ _ _ _ _)
theorem ends_viceqVa (g : Guard) (m : BitVec 3) (a : VOp) (b : VOp) (s : State) : Ends Steady s (exec (.viceqVa g m a b) s) := by
  show Ends _ s (execViceqVa g m a b s)
  unfold execViceqVa icmp cmpOp
  exact steady_vecFrame _ _ _ _ _ _ _ _ (fun _ => steady_cmpEffect _ _ _ _ _ _ _ _ _ _)
theorem ends_viceqVb (g : Guard) (m : BitVec 3) (a : VOp) (b : VOp) (s : State) : Ends Steady s (exec (.viceqVb g m a b) s) := by
  show Ends _ s (execViceqVb g m a b s)
  unfold execViceqVb icmp cmpOp
  exact steady_vecFrame _ _ _ _ _ _ _ _ (fun _ => steady_cmpEffect _ _ _ _ _ _ _ _ _ _)
theorem ends_vicltVa (g : Guard) (m : BitVec 3) (a : VOp) (b : VOp) (s : State) : Ends Steady s (exec (.vicltVa g m a b) s) := by
  show Ends _ s (execVicltVa g m a b s)
  unfold execVicltVa icmp cmpOp
  exact steady_vecFrame _ _ _ _ _ _ _ _ (fun _ => steady_cmpEffect _ _ _ _ _ _ _ _ _ _)
theorem ends_vicltVb (g : Guard) (m : BitVec 3) (a : VOp) (b : VOp) (s : State) : Ends Steady s (exec (.vicltVb g m a b) s) := by
  show Ends _ s (execVicltVb g m a b s)
  unfold execVicltVb icmp cmpOp
  exact steady_vecFrame _ _ _ _ _ _ _ _ (fun _ => steady_cmpEffect _ _ _ _ _ _ _ _ _ _)
theorem ends_vicleVa (g : Guard) (m : BitVec 3) (a : VOp) (b : VOp) (s : State) : Ends Steady s (exec (.vicleVa g m a b) s) := by
  show Ends _ s (execVicleVa g m a b s)
  unfold execVicleVa icmp cmpOp
  exact steady_vecFrame _ _ _ _ _ _ _ _ (fun _ => steady_cmpEffect _ _ _ _ _ _ _ _ _ _)
theorem ends_vicleVb (g : Guard) (m : BitVec 3) (a : VOp) (b : VOp) (s : State) : Ends Steady s (exec (.vicleVb g m a b) s) := by
  show Ends _ s (execVicleVb g m a b s)
  unfold execVicleVb icmp cmpOp
  exact steady_vecFrame _ _ _ _ _ _ _ _ (fun _ => steady_cmpEffect _ _ _ _ _ _ _ _ _ _)
theorem ends_vselVa (g : Guard) (d : BitVec 8) (a : VOp) (b : VOp) (s : State) : Ends Steady s (exec (.vselVa g d a b) s) := by
  show Ends _ s (execVselVa g d a b s)
  unfold execVselVa selOp
  exact steady_vecOp _ _ _ _ _ _ _ _ _ _ _ _
theorem ends_vselVb (g : Guard) (d : BitVec 8) (a : VOp) (b : VOp) (s : State) : Ends Steady s (exec (.vselVb g d a b) s) := by
  show Ends _ s (execVselVb g d a b s)
  unfold execVselVb selOp
  exact steady_vecOp _ _ _ _ _ _ _ _ _ _ _ _
theorem ends_vmovVa (g : Guard) (d : BitVec 8) (a : VOp) (s : State) : Ends Steady s (exec (.vmovVa g d a) s) := by
  show Ends _ s (execVmovVa g d a s)
  unfold execVmovVa rawOp
  exact steady_vecOp _ _ _ _ _ _ _ _ _ _ _ _
theorem ends_vmovVb (g : Guard) (d : BitVec 8) (a : VOp) (s : State) : Ends Steady s (exec (.vmovVb g d a) s) := by
  show Ends _ s (execVmovVb g d a s)
  unfold execVmovVb rawOp
  exact steady_vecOp _ _ _ _ _ _ _ _ _ _ _ _
theorem ends_vbcstVa (g : Guard) (d : BitVec 8) (a : BitVec 6) (s : State) : Ends Steady s (exec (.vbcstVa g d a) s) := by
  show Ends _ s (execVbcstVa g d a s)
  unfold execVbcstVa bcstOp rawOp
  exact steady_vecOp _ _ _ _ _ _ _ _ _ _ _ _
theorem ends_vbcstVb (g : Guard) (d : BitVec 8) (a : BitVec 6) (s : State) : Ends Steady s (exec (.vbcstVb g d a) s) := by
  show Ends _ s (execVbcstVb g d a s)
  unfold execVbcstVb bcstOp rawOp
  exact steady_vecOp _ _ _ _ _ _ _ _ _ _ _ _
theorem ends_vlaneVa (g : Guard) (d : BitVec 6) (a : BitVec 6) (i : BitVec 14) (s : State) : Ends Steady s (exec (.vlaneVa g d a i) s) := by
  show Ends _ s (execVlaneVa g d a i s)
  unfold execVlaneVa laneOp
  exact steady_vecFrame _ _ _ _ _ _ _ _ (fun _ => steady_laneEffect _ _ _ _ _ _)
theorem ends_vlaneVb (g : Guard) (d : BitVec 6) (a : BitVec 6) (i : BitVec 14) (s : State) : Ends Steady s (exec (.vlaneVb g d a i) s) := by
  show Ends _ s (execVlaneVb g d a i s)
  unfold execVlaneVb laneOp
  exact steady_vecFrame _ _ _ _ _ _ _ _ (fun _ => steady_laneEffect _ _ _ _ _ _)
theorem ends_vextVa (g : Guard) (d : BitVec 6) (a : BitVec 6) (i : BitVec 14) (s : State) : Ends Steady s (exec (.vextVa g d a i) s) := by
  show Ends _ s (execVextVa g d a i s)
  unfold execVextVa extOp
  exact steady_vecFrame _ _ _ _ _ _ _ _ (fun _ => steady_extEffect _ _ _ _ _ _)
theorem ends_vextVb (g : Guard) (d : BitVec 6) (a : BitVec 6) (i : BitVec 14) (s : State) : Ends Steady s (exec (.vextVb g d a i) s) := by
  show Ends _ s (execVextVb g d a i s)
  unfold execVextVb extOp
  exact steady_vecFrame _ _ _ _ _ _ _ _ (fun _ => steady_extEffect _ _ _ _ _ _)
theorem ends_vcvtVa (g : Guard) (d : BitVec 6) (a : BitVec 6) (dst : BitVec 3) (src : BitVec 3) (part : BitVec 2) (sat : Bool) (s : State) : Ends Steady s (exec (.vcvtVa g d a dst src part sat) s) := by
  show Ends _ s (execVcvtVa g d a dst src part sat s)
  unfold execVcvtVa cvtOp
  exact steady_vecOp _ _ _ _ _ _ _ _ _ _ _ _
theorem ends_vcvtVb (g : Guard) (d : BitVec 6) (a : BitVec 6) (dst : BitVec 3) (src : BitVec 3) (part : BitVec 2) (sat : Bool) (s : State) : Ends Steady s (exec (.vcvtVb g d a dst src part sat) s) := by
  show Ends _ s (execVcvtVb g d a dst src part sat s)
  unfold execVcvtVb cvtOp
  exact steady_vecOp _ _ _ _ _ _ _ _ _ _ _ _
theorem ends_vpackVa (g : Guard) (d : BitVec 6) (a : BitVec 6) (f : BitVec 3) (y : BitVec 2) (x : Bool) (s : State) : Ends Steady s (exec (.vpackVa g d a f y x) s) := by
  show Ends _ s (execVpackVa g d a f y x s)
  unfold execVpackVa packOp
  exact steady_vecOp _ _ _ _ _ _ _ _ _ _ _ _
theorem ends_vpackVb (g : Guard) (d : BitVec 6) (a : BitVec 6) (f : BitVec 3) (y : BitVec 2) (x : Bool) (s : State) : Ends Steady s (exec (.vpackVb g d a f y x) s) := by
  show Ends _ s (execVpackVb g d a f y x s)
  unfold execVpackVb packOp
  exact steady_vecOp _ _ _ _ _ _ _ _ _ _ _ _
theorem ends_vunpkVa (g : Guard) (d : BitVec 6) (a : BitVec 6) (f : BitVec 3) (y : BitVec 2) (s : State) : Ends Steady s (exec (.vunpkVa g d a f y) s) := by
  show Ends _ s (execVunpkVa g d a f y s)
  unfold execVunpkVa unpkOp
  exact steady_vecOp _ _ _ _ _ _ _ _ _ _ _ _
theorem ends_vunpkVb (g : Guard) (d : BitVec 6) (a : BitVec 6) (f : BitVec 3) (y : BitVec 2) (s : State) : Ends Steady s (exec (.vunpkVb g d a f y) s) := by
  show Ends _ s (execVunpkVb g d a f y s)
  unfold execVunpkVb unpkOp
  exact steady_vecOp _ _ _ _ _ _ _ _ _ _ _ _
theorem ends_vperm (g : Guard) (d : BitVec 8) (a : VOp) (b : VOp) (s : State) : Ends Steady s (exec (.vperm g d a b) s) := by
  show Ends _ s (execVperm g d a b s)
  unfold execVperm
  exact steady_vecOp _ _ _ _ _ _ _ _ _ _ _ _
theorem ends_vrotlVa (g : Guard) (d : BitVec 6) (a : BitVec 6) (i : BitVec 14) (s : State) : Ends Steady s (exec (.vrotlVa g d a i) s) := by
  show Ends _ s (execVrotlVa g d a i s)
  unfold execVrotlVa rotlOp
  exact steady_vecOp _ _ _ _ _ _ _ _ _ _ _ _
theorem ends_vrotlVb (g : Guard) (d : BitVec 6) (a : BitVec 6) (i : BitVec 14) (s : State) : Ends Steady s (exec (.vrotlVb g d a i) s) := by
  show Ends _ s (execVrotlVb g d a i s)
  unfold execVrotlVb rotlOp
  exact steady_vecOp _ _ _ _ _ _ _ _ _ _ _ _
theorem ends_vrsum (g : Guard) (d : BitVec 8) (a : VOp) (s : State) : Ends Steady s (exec (.vrsum g d a) s) := by
  show Ends _ s (execVrsum g d a s)
  unfold execVrsum reduceOp
  exact steady_vecFrame _ _ _ _ _ _ _ _ (fun _ => steady_reduceEffect _ _ _ _ _ _)
theorem ends_vrmax (g : Guard) (d : BitVec 8) (a : VOp) (s : State) : Ends Steady s (exec (.vrmax g d a) s) := by
  show Ends _ s (execVrmax g d a s)
  unfold execVrmax reduceOp
  exact steady_vecFrame _ _ _ _ _ _ _ _ (fun _ => steady_reduceEffect _ _ _ _ _ _)
theorem ends_vldxVa (g : Guard) (d : BitVec 6) (a : BitVec 6) (i : Imm14) (s : State) : Ends Steady s (exec (.vldxVa g d a i) s) := by
  show Ends _ s (execVldxVa g d a i s)
  unfold execVldxVa ldxOp
  exact steady_vecOp _ _ _ _ _ _ _ _ _ _ _ _
theorem ends_vldxVb (g : Guard) (d : BitVec 6) (a : BitVec 6) (i : Imm14) (s : State) : Ends Steady s (exec (.vldxVb g d a i) s) := by
  show Ends _ s (execVldxVb g d a i s)
  unfold execVldxVb ldxOp
  exact steady_vecOp _ _ _ _ _ _ _ _ _ _ _ _
theorem ends_vstxVa (g : Guard) (d : BitVec 6) (a : BitVec 6) (i : Imm14) (s : State) : Ends Steady s (exec (.vstxVa g d a i) s) := by
  show Ends _ s (execVstxVa g d a i s)
  unfold execVstxVa stxOp
  exact steady_vecFrame _ _ _ _ _ _ _ _ (fun _ => steady_stxEffect _ _ _ _ _)
theorem ends_vstxVb (g : Guard) (d : BitVec 6) (a : BitVec 6) (i : Imm14) (s : State) : Ends Steady s (exec (.vstxVb g d a i) s) := by
  show Ends _ s (execVstxVb g d a i s)
  unfold execVstxVb stxOp
  exact steady_vecFrame _ _ _ _ _ _ _ _ (fun _ => steady_stxEffect _ _ _ _ _)
theorem ends_vtrdVa (g : Guard) (d : BitVec 6) (t : BitVec 3) (a : BitVec 6) (r : BitVec 8) (s : State) : Ends Steady s (exec (.vtrdVa g d t a r) s) := by
  show Ends _ s (execVtrdVa g d t a r s)
  unfold execVtrdVa vtrOp
  exact steady_vecFrame _ _ _ _ _ _ _ _ (fun _ => steady_vtrEffect _ _ _ _ _)
theorem ends_vtrdVb (g : Guard) (d : BitVec 6) (t : BitVec 3) (a : BitVec 6) (r : BitVec 8) (s : State) : Ends Steady s (exec (.vtrdVb g d t a r) s) := by
  show Ends _ s (execVtrdVb g d t a r s)
  unfold execVtrdVb vtrOp
  exact steady_vecFrame _ _ _ _ _ _ _ _ (fun _ => steady_vtrEffect _ _ _ _ _)
theorem ends_vtcd (g : Guard) (d : BitVec 6) (t : BitVec 3) (a : BitVec 6) (s : State) : Ends Steady s (exec (.vtcd g d t a) s) := by
  show Ends _ s (execVtcd g d t a s)
  unfold execVtcd vtcOp
  exact steady_vecFrame _ _ _ _ _ _ _ _ (fun _ => steady_vtcEffect _ _ _ _ _ _ _)
theorem ends_vtrwVa (g : Guard) (d : BitVec 6) (t : BitVec 3) (a : BitVec 6) (r : BitVec 8) (s : State) : Ends Steady s (exec (.vtrwVa g d t a r) s) := by
  show Ends _ s (execVtrwVa g d t a r s)
  unfold execVtrwVa vtrOp
  exact steady_vecFrame _ _ _ _ _ _ _ _ (fun _ => steady_vtrEffect _ _ _ _ _)
theorem ends_vtrwVb (g : Guard) (d : BitVec 6) (t : BitVec 3) (a : BitVec 6) (r : BitVec 8) (s : State) : Ends Steady s (exec (.vtrwVb g d t a r) s) := by
  show Ends _ s (execVtrwVb g d t a r s)
  unfold execVtrwVb vtrOp
  exact steady_vecFrame _ _ _ _ _ _ _ _ (fun _ => steady_vtrEffect _ _ _ _ _)
theorem ends_vtcw (g : Guard) (d : BitVec 6) (t : BitVec 3) (a : BitVec 6) (s : State) : Ends Steady s (exec (.vtcw g d t a) s) := by
  show Ends _ s (execVtcw g d t a s)
  unfold execVtcw vtcOp
  exact steady_vecFrame _ _ _ _ _ _ _ _ (fun _ => steady_vtcEffect _ _ _ _ _ _ _)
theorem ends_vmskVa (g : Guard) (m : BitVec 3) (ma : BitVec 3) (mb : BitVec 3) (o : BitVec 3) (s : State) : Ends Steady s (exec (.vmskVa g m ma mb o) s) := by
  show Ends _ s (execVmskVa g m ma mb o s)
  unfold execVmskVa mskOp
  exact steady_vecFrame _ _ _ _ _ _ _ _ (fun _ => steady_mskEffect _ _ _ _ _ _ _)
theorem ends_vmskVb (g : Guard) (m : BitVec 3) (ma : BitVec 3) (mb : BitVec 3) (o : BitVec 3) (s : State) : Ends Steady s (exec (.vmskVb g m ma mb o) s) := by
  show Ends _ s (execVmskVb g m ma mb o s)
  unfold execVmskVb mskOp
  exact steady_vecFrame _ _ _ _ _ _ _ _ (fun _ => steady_mskEffect _ _ _ _ _ _ _)
theorem ends_viotaVa (g : Guard) (d : BitVec 8) (a : BitVec 6) (b : BitVec 6) (s : State) : Ends Steady s (exec (.viotaVa g d a b) s) := by
  show Ends _ s (execViotaVa g d a b s)
  unfold execViotaVa iotaOp
  exact steady_vecOp _ _ _ _ _ _ _ _ _ _ _ _
theorem ends_viotaVb (g : Guard) (d : BitVec 8) (a : BitVec 6) (b : BitVec 6) (s : State) : Ends Steady s (exec (.viotaVb g d a b) s) := by
  show Ends _ s (execViotaVb g d a b s)
  unfold execViotaVb iotaOp
  exact steady_vecOp _ _ _ _ _ _ _ _ _ _ _ _

end Sys2Proof.Machine
end

