-- ==== Sys2Proof/Laws/Jobs.lean ====
section
/-! SUPPORT. What the shared operations of the device's own work on memory can do: an answered read changes nothing, an unanswered one only
asks, and a piece of work that still awaits a read leaves memory, tasks and clock as they were. -/

namespace Sys2Proof.Machine

@[simp] theorem notYet_mem (s : State) : (notYet s).mem = s.mem := rfl
@[simp] theorem notYet_tasks (s : State) : (notYet s).tasks = s.tasks := rfl
@[simp] theorem notYet_cyc (s : State) : (notYet s).cyc = s.cyc := rfl
@[simp] theorem notYet_reading (s : State) : (notYet s).dev.reading = true := rfl

@[simp] theorem openJob_mem (why : JobFor) (key : List Nat) (n : Nat) (mk : Nat → List Req) (s : State) : (openJob why key n mk s).mem = s.mem := rfl
@[simp] theorem openJob_tasks (why : JobFor) (key : List Nat) (n : Nat) (mk : Nat → List Req) (s : State) : (openJob why key n mk s).tasks = s.tasks := rfl
@[simp] theorem openJob_cyc (why : JobFor) (key : List Nat) (n : Nat) (mk : Nat → List Req) (s : State) : (openJob why key n mk s).cyc = s.cyc := rfl
@[simp] theorem openJob_reqs (why : JobFor) (key : List Nat) (n : Nat) (mk : Nat → List Req) (s : State) :
    (openJob why key n mk s).reqs = s.reqs ++ mk s.nextId := rfl

@[simp] theorem keepAsked_mem (t s : State) : (keepAsked t s).mem = s.mem := rfl
@[simp] theorem keepAsked_tasks (t s : State) : (keepAsked t s).tasks = s.tasks := rfl
@[simp] theorem keepAsked_cyc (t s : State) : (keepAsked t s).cyc = s.cyc := rfl

@[simp] theorem dropJobs_mem (p : Job → Bool) (s : State) : (dropJobs p s).mem = s.mem := rfl
@[simp] theorem dropJobs_tasks (p : Job → Bool) (s : State) : (dropJobs p s).tasks = s.tasks := rfl
@[simp] theorem dropJobs_cyc (p : Job → Bool) (s : State) : (dropJobs p s).cyc = s.cyc := rfl
@[simp] theorem dropJobs_reqs (p : Job → Bool) (s : State) : (dropJobs p s).reqs = s.reqs := rfl

/-- Everything `askRead` can do: with the reply in, it answers and changes nothing; else it answers none, and the work stops. -/
theorem askRead_cases (why : JobFor) (key : List Nat) (n : Nat) (mk : Nat → List Req) (s : State) :
    (∃ j r, findJob s.dev why key = some j ∧ tabFind s.replies j.id = some r ∧ r.left = 0 ∧ askRead why key n mk s = (s, some r)) ∨
    askRead why key n mk s = (notYet s, none) ∨
    (findJob s.dev why key = none ∧ s.dev.reading = false ∧ askRead why key n mk s = (notYet (openJob why key n mk s), none)) := by
  unfold askRead
  cases h : findJob s.dev why key with
  | none => cases hr : s.dev.reading <;> simp
  | some j =>
    cases hf : tabFind s.replies j.id with
    | none => simp [hf]
    | some r => by_cases hl : r.left = 0 <;> simp [hf, hl]

theorem askRead_mem (why : JobFor) (key : List Nat) (n : Nat) (mk : Nat → List Req) (s : State) : (askRead why key n mk s).1.mem = s.mem := by
  obtain ⟨_, _, -, -, -, h⟩ | h | ⟨-, -, h⟩ := askRead_cases why key n mk s <;> simp [h]

/-- A piece of work that still awaits a read only asks. -/
theorem worked_waits {why : JobFor} {t s : State} (h : t.dev.reading = true) : worked why t s = keepAsked t s := by simp [worked, h]

/-- A piece of work that has all it reads takes its effect, and its replies are dropped. -/
theorem worked_done {why : JobFor} {t s : State} (h : t.dev.reading = false) : worked why t s = closeJobs why t := by simp [worked, h]

/-- Until its reads are in, a piece of work leaves memory, tasks and clock alone. -/
theorem attempt_waits {why : JobFor} {f : State → State} {s : State} (h : (f { s with dev := { s.dev with reading := false } }).dev.reading = true) :
    (attempt why f s).mem = s.mem ∧ (attempt why f s).tasks = s.tasks ∧ (attempt why f s).cyc = s.cyc := by
  simp [attempt, worked_waits h]

end Sys2Proof.Machine
end

