-- ==== Sys2Proof/Laws/Tab.lean ====
section
/-! SUPPORT. The laws of sparse tables: a read after a write, and the canonical form that every write keeps. -/

namespace Sys2Proof.Machine

variable {α : Type} [DecidableEq α] {d : α}

theorem tabGet_of_above {t : Tab α} {b k : Nat} (h : tabAbove d b t = true) (hk : k < b) : tabGet d t k = d := by
  induction t generalizing b with
  | nil => rfl
  | cons e t ih =>
    obtain ⟨j, v⟩ := e
    simp only [tabAbove, Bool.and_eq_true, decide_eq_true_eq] at h
    have : j ≠ k := by omega
    simp only [tabGet, this, if_false]
    exact ih h.2 (by omega)

theorem tabAbove_mono {t : Tab α} {a b : Nat} (h : tabAbove d b t = true) (hab : a ≤ b) : tabAbove d a t = true := by
  cases t with
  | nil => rfl
  | cons e t =>
    obtain ⟨j, v⟩ := e
    simp only [tabAbove, Bool.and_eq_true, decide_eq_true_eq] at h ⊢
    exact ⟨⟨by omega, h.1.2⟩, h.2⟩

theorem tabAbove_put {t : Tab α} {b k : Nat} {v : α} (hv : v ≠ d) (h : tabAbove d b t = true) (hk : b ≤ k) :
    tabAbove d b (tabPut t k v) = true := by
  induction t generalizing b with
  | nil => simp [tabPut, hv, tabAbove]; omega
  | cons e t ih =>
    obtain ⟨j, w⟩ := e
    simp only [tabAbove, Bool.and_eq_true, decide_eq_true_eq] at h
    obtain ⟨⟨h1, h2⟩, h3⟩ := h
    by_cases c1 : k < j
    · simp only [tabPut, c1, if_true, tabAbove, Bool.and_eq_true, decide_eq_true_eq]
      exact ⟨⟨by omega, hv⟩, ⟨by omega, h2⟩, h3⟩
    · by_cases c2 : k = j
      · subst c2
        simp [tabPut, hv, tabAbove, h1, h3]
      · simp only [tabPut, c1, c2, if_false, tabAbove, Bool.and_eq_true, decide_eq_true_eq]
        exact ⟨⟨h1, h2⟩, ih h3 (by omega)⟩

theorem tabAbove_filter {t : Tab α} {b : Nat} (p : Nat × α → Bool) (h : tabAbove d b t = true) :
    tabAbove d b (t.filter p) = true := by
  induction t generalizing b with
  | nil => rfl
  | cons e t ih =>
    obtain ⟨j, v⟩ := e
    simp only [tabAbove, Bool.and_eq_true, decide_eq_true_eq] at h
    by_cases hp : p (j, v) = true
    · rw [List.filter_cons_of_pos hp]
      simp only [tabAbove, Bool.and_eq_true, decide_eq_true_eq]
      exact ⟨h.1, ih h.2⟩
    · rw [List.filter_cons_of_neg hp]
      exact ih (tabAbove_mono h.2 (by omega))

/-- Leaving entries out keeps the canonical form. -/
theorem tabWf_filter {t : Tab α} (p : Nat × α → Bool) (h : tabWf d t = true) : tabWf d (t.filter p) = true :=
  tabAbove_filter p h

/-- Writes keep the canonical form. -/
theorem tabWf_set {t : Tab α} (k : Nat) (v : α) (h : tabWf d t = true) : tabWf d (tabSet d t k v) = true := by
  unfold tabSet
  split
  · exact tabWf_filter _ h
  · exact tabAbove_put ‹_› h (Nat.zero_le k)

theorem tabWf_nil : tabWf d ([] : Tab α) = true := rfl

omit [DecidableEq α] in
theorem tabGet_del_same (t : Tab α) (k : Nat) : tabGet d (tabDel t k) k = d := by
  induction t with
  | nil => rfl
  | cons e t ih =>
    obtain ⟨j, w⟩ := e
    by_cases c : j = k
    · simpa [tabDel, c] using ih
    · simpa [tabDel, c, tabGet] using ih

omit [DecidableEq α] in
theorem tabGet_del_other (t : Tab α) {k a : Nat} (h : a ≠ k) : tabGet d (tabDel t k) a = tabGet d t a := by
  induction t with
  | nil => rfl
  | cons e t ih =>
    obtain ⟨j, w⟩ := e
    by_cases c : j = k
    · have : k ≠ a := fun e => h e.symm
      simpa [tabDel, c, tabGet, this] using ih
    · by_cases c2 : j = a
      · simp [tabDel, tabGet, c2, h]
      · simpa [tabDel, c, tabGet, c2] using ih

omit [DecidableEq α] in
theorem tabGet_put_same (t : Tab α) (k : Nat) (v : α) : tabGet d (tabPut t k v) k = v := by
  induction t with
  | nil => simp [tabPut, tabGet]
  | cons e t ih =>
    obtain ⟨j, w⟩ := e
    by_cases c1 : k < j
    · simp [tabPut, c1, tabGet]
    · by_cases c2 : k = j
      · simp [tabPut, c2, tabGet]
      · have : j ≠ k := fun e => c2 e.symm
        simp [tabPut, c1, c2, tabGet, this, ih]

omit [DecidableEq α] in
theorem tabGet_put_other (t : Tab α) {k a : Nat} (v : α) (h : a ≠ k) : tabGet d (tabPut t k v) a = tabGet d t a := by
  have hk : k ≠ a := fun e => h e.symm
  induction t with
  | nil => simp [tabPut, tabGet, hk]
  | cons e t ih =>
    obtain ⟨j, w⟩ := e
    by_cases c1 : k < j
    · simp [tabPut, c1, tabGet, hk]
    · by_cases c2 : k = j
      · subst c2
        simp [tabPut, tabGet, hk]
      · simp only [tabPut, c1, c2, if_false, tabGet, ih]

/-- A read of the key written gives the value written. -/
theorem tabGet_set_same (t : Tab α) (k : Nat) (v : α) : tabGet d (tabSet d t k v) k = v := by
  unfold tabSet
  split
  · rw [tabGet_del_same]; exact Eq.symm ‹_›
  · exact tabGet_put_same t k v

/-- Every other key reads as before. -/
theorem tabGet_set_other (t : Tab α) (k : Nat) (v : α) {a : Nat} (ha : a ≠ k) :
    tabGet d (tabSet d t k v) a = tabGet d t a := by
  unfold tabSet
  split
  · exact tabGet_del_other t ha
  · exact tabGet_put_other t v ha

omit [DecidableEq α] in
/-- The optional table after a put: the value at its key. -/
theorem tabFind_put_same (t : Tab α) (k : Nat) (v : α) : tabFind (tabPut t k v) k = some v := by
  induction t with
  | nil => simp [tabPut, tabFind]
  | cons e t ih =>
    obtain ⟨j, w⟩ := e
    by_cases c1 : k < j
    · simp [tabPut, c1, tabFind]
    · by_cases c2 : k = j
      · simp [tabPut, c2, tabFind]
      · have : j ≠ k := fun e => c2 e.symm
        simp [tabPut, c1, c2, tabFind, this, ih]

omit [DecidableEq α] in
/-- The optional table after a put: every other key as before. -/
theorem tabFind_put_other (t : Tab α) {k a : Nat} (v : α) (h : a ≠ k) : tabFind (tabPut t k v) a = tabFind t a := by
  have hk : k ≠ a := fun e => h e.symm
  induction t with
  | nil => simp [tabPut, tabFind, hk]
  | cons e t ih =>
    obtain ⟨j, w⟩ := e
    by_cases c1 : k < j
    · simp [tabPut, c1, tabFind, hk]
    · by_cases c2 : k = j
      · subst c2
        simp [tabPut, tabFind, hk]
      · simp only [tabPut, c1, c2, if_false, tabFind, ih]

/-- Several writes keep the canonical form. -/
theorem tabWf_sets {t : Tab α} (ws : List (Nat × α)) (h : tabWf d t = true) : tabWf d (tabSets d t ws) = true := by
  induction ws generalizing t with
  | nil => exact h
  | cons w ws ih => exact ih (tabWf_set _ _ h)

/-- Consecutive bytes written keep the canonical form. -/
theorem tabWf_setBytes {t : Tab Byte} (a : Nat) (bs : List Byte) (h : tabWf 0#8 t = true) :
    tabWf 0#8 (tabSetBytes t a bs) = true := by
  induction bs generalizing t a with
  | nil => exact h
  | cons b bs ih => exact ih _ (tabWf_set _ _ h)

/-- Keys below the bytes written read as before. -/
theorem tabGet_setBytes_below (t : Tab Byte) (a : Nat) (bs : List Byte) {k : Nat} (h : k < a) :
    tabGet 0#8 (tabSetBytes t a bs) k = tabGet 0#8 t k := by
  induction bs generalizing t a with
  | nil => rfl
  | cons b bs ih =>
    rw [tabSetBytes, ih _ _ (by omega), tabGet_set_other _ _ _ (by omega)]

/-- Keys outside the bytes written read as before. -/
theorem tabGet_setBytes_other (t : Tab Byte) (a : Nat) (bs : List Byte) {k : Nat} (h : k < a ∨ a + bs.length ≤ k) :
    tabGet 0#8 (tabSetBytes t a bs) k = tabGet 0#8 t k := by
  induction bs generalizing t a with
  | nil => rfl
  | cons b bs ih =>
    simp only [List.length_cons] at h
    rw [tabSetBytes, ih _ _ (by omega), tabGet_set_other _ _ _ (by omega)]

/-- The bytes written read back. -/
theorem tabBytes_setBytes (t : Tab Byte) (a : Nat) (bs : List Byte) :
    tabBytes (tabSetBytes t a bs) a bs.length = bs := by
  induction bs generalizing t a with
  | nil => rfl
  | cons b bs ih =>
    simp only [List.length_cons, tabBytes, tabSetBytes]
    rw [ih, tabGet_setBytes_below _ _ _ (by omega), tabGet_set_same]

/-- What two tables have in common they have in common in part. -/
theorem tabBytes_part {t u : Tab Byte} {a b n : Nat} (h : tabBytes t a n = tabBytes u b n) {o m : Nat} (hm : o + m ≤ n) :
    tabBytes t (a + o) m = tabBytes u (b + o) m := by
  induction n generalizing a b o m with
  | zero => obtain ⟨rfl, rfl⟩ : o = 0 ∧ m = 0 := by omega
            rfl
  | succ n ih =>
    simp only [tabBytes, List.cons.injEq] at h
    cases o with
    | succ o =>
      have := ih h.2 (o := o) (m := m) (by omega)
      rwa [show a + (o + 1) = a + 1 + o by omega, show b + (o + 1) = b + 1 + o by omega]
    | zero =>
      cases m with
      | zero => rfl
      | succ m => simpa only [tabBytes, Nat.add_zero, h.1, List.cons.injEq, true_and] using ih h.2 (o := 0) (m := m) (by omega)

theorem tabBytes_length (t : Tab Byte) (a n : Nat) : (tabBytes t a n).length = n := by
  induction n generalizing a with
  | zero => rfl
  | succ n ih => simp [tabBytes, ih]

/-- A canonical table is known by what it reads as. -/
theorem tab_ext {t u : Tab α} {b : Nat} (ht : tabAbove d b t = true) (hu : tabAbove d b u = true)
    (h : ∀ k, tabGet d t k = tabGet d u k) : t = u := by
  induction t generalizing u b with
  | nil =>
    cases u with
    | nil => rfl
    | cons e u =>
      obtain ⟨j, v⟩ := e
      simp only [tabAbove, Bool.and_eq_true, decide_eq_true_eq] at hu
      have := h j
      simp only [tabGet, if_true] at this
      exact absurd this.symm hu.1.2
  | cons e t ih =>
    obtain ⟨i, v⟩ := e
    simp only [tabAbove, Bool.and_eq_true, decide_eq_true_eq] at ht
    cases u with
    | nil =>
      have := h i
      simp only [tabGet, if_true] at this
      exact absurd this ht.1.2
    | cons f u =>
      obtain ⟨j, w⟩ := f
      simp only [tabAbove, Bool.and_eq_true, decide_eq_true_eq] at hu
      have hi := h i
      have hj := h j
      simp only [tabGet, if_true] at hi hj
      by_cases c : i = j
      · subst c
        simp only [if_true] at hi
        subst hi
        have : t = u := by
          refine ih ht.2 hu.2 (fun k => ?_)
          have hk := h k
          simp only [tabGet] at hk
          by_cases c : i = k
          · subst c
            rw [tabGet_of_above ht.2 (by omega), tabGet_of_above hu.2 (by omega)]
          · simpa [c] using hk
        rw [this]
      · have c' : j ≠ i := fun e => c e.symm
        simp only [c, c', if_false] at hi hj
        by_cases lt : i < j
        · exact absurd (hi.trans (tabGet_of_above hu.2 (by omega))) ht.1.2
        · exact absurd (hj.symm.trans (tabGet_of_above ht.2 (by omega))) hu.1.2

end Sys2Proof.Machine
end

