-- ==== Sys2Proof/Laws/Memory.lean ====
section
/-! SUPPORT. Every operation that writes memory keeps its canonical form; reset memory has it; what a block write leaves alone. -/

namespace Sys2Proof.Machine

theorem memoryOk_reset : memoryOk State.reset := rfl

theorem memoryOk_of_mem {s t : State} (h : t.mem = s.mem) (hs : memoryOk s) : memoryOk t := by
  unfold memoryOk at *; rw [h]; exact hs

theorem memoryOk_physWrite {s : State} (n p : Nat) (bs : List Byte) (h : memoryOk s) : memoryOk (physWrite s n p bs) :=
  tabWf_setBytes _ _ h

theorem memoryOk_putBlock {s : State} (n p : Nat) (key : Option Sealed) (bs : List Byte) (h : memoryOk s) :
    memoryOk (putBlock n p key bs s) := tabWf_setBytes _ _ h

theorem memoryOk_zeroRange {s : State} (n p len : Nat) (h : memoryOk s) : memoryOk (zeroRange n p len s) :=
  tabWf_filter _ h

/-! ### What reports and error records leave alone -/

@[simp] theorem hostWrite_mem (func : Nat) (addr : Word) (n : Nat) (bs : List Byte) (s : State) :
    (hostWrite func addr n bs s).mem = s.mem := by
  induction n generalizing addr bs s with
  | zero => rfl
  | succ n ih =>
    simp only [hostWrite]
    split
    · rfl
    · rw [ih]; rfl

@[simp] theorem loupe_mem (src code : Nat) (data : List Byte) (s : State) : (loupe src code data s).mem = s.mem := by
  unfold loupe
  dsimp only
  split
  · rfl
  · split
    · rfl
    · exact hostWrite_mem ..

@[simp] theorem loupePort_mem (stack code x part : Nat) (s : State) : (loupePort stack code x part s).mem = s.mem := loupe_mem ..

@[simp] theorem report_mem (v : Nat) (r : Record) (s : State) : (report v r s).mem = s.mem := rfl

@[simp] theorem retire_mem (n fr : Nat) (s : State) : (retire n fr s).mem = s.mem := by
  unfold retire
  dsimp only
  split
  · rfl
  · split
    · rfl
    · exact loupePort_mem ..

@[simp] theorem addScore_mem (n fr pts : Nat) (s : State) : (addScore n fr pts s).mem = s.mem := by
  unfold addScore
  dsimp only
  split
  · exact retire_mem ..
  · rfl

@[simp] theorem corrected_mem (n p bad part : Nat) (s : State) : (corrected n p bad part s).mem = s.mem := by
  simp only [corrected, addScore_mem, loupePort_mem]; rfl

@[simp] theorem uncorrectable_mem (n p part : Nat) (ba place : Word) (s : State) :
    (uncorrectable n p part ba place s).mem = s.mem := by
  unfold uncorrectable
  dsimp only
  split <;> simp only [report_mem, addScore_mem, loupePort_mem] <;> rfl

/-! ### Writers of memory -/

/-- A port's read of a code word changes no stored byte, unless it takes 6 or more bad bytes for another code word (R35). -/
theorem memoryOk_readCode {s : State} (n p part : Nat) (ba place : Word) (h : memoryOk s) :
    memoryOk (readCode n p part ba place s).1 := by
  unfold readCode
  split
  · exact h
  · exact memoryOk_of_mem (corrected_mem ..) h
  · exact memoryOk_of_mem (uncorrectable_mem ..) h
  · exact memoryOk_of_mem (corrected_mem ..) (memoryOk_putBlock (s := s) n p none _ h)

theorem memoryOk_readBlock {s : State} (n p part : Nat) (key : Option Sealed) (ba place : Word) (h : memoryOk s) :
    memoryOk (readBlock n p part key ba place s).1 := memoryOk_readCode n p part ba place h

theorem memoryOk_writeBlock {s : State} (n p part : Nat) (key : Option Sealed) (bs : List Byte) (ba place : Word)
    (h : memoryOk s) : memoryOk (writeBlock n p part key bs ba place s).1 := by
  unfold writeBlock
  split
  · exact memoryOk_putBlock (s := setUpsets n p 0 s) n p key bs h
  · dsimp only
    split
    · exact memoryOk_readBlock n p part key ba place h
    · exact memoryOk_putBlock _ _ _ _ (memoryOk_readBlock n p part key ba place h)

theorem memoryOk_readFrame {s : State} (n f : Nat) (h : memoryOk s) : memoryOk (readFrame n f s) := by
  unfold readFrame
  generalize (s.dev.upsets.map Prod.fst).filter (fun k => k / 32768 == n * 65536 + f) = ks
  induction ks generalizing s with
  | nil => exact h
  | cons k ks ih => exact ih (memoryOk_readCode _ _ _ _ _ h)

theorem memoryOk_copyFrame {s : State} (n a b : Nat) (h : memoryOk s) : memoryOk (copyFrame n a b s) :=
  tabWf_sets _ (tabWf_filter _ (memoryOk_readFrame n a h))

theorem memoryOk_filter {s : State} (p : Nat × Byte → Bool) (h : memoryOk s) : memoryOk { s with mem := s.mem.filter p } :=
  tabWf_filter _ h

theorem memoryOk_setBytes {s : State} (a : Nat) (bs : List Byte) (h : memoryOk s) :
    memoryOk { s with mem := tabSetBytes s.mem a bs } := tabWf_setBytes _ _ h

/-- The bytes of a stack written by `physWrite` read back. -/
theorem physBytes_physWrite (s : State) (n p : Nat) (bs : List Byte) :
    physBytes (physWrite s n p bs) n p bs.length = bs := tabBytes_setBytes _ _ _

/-- `physWrite` changes no byte outside those it writes. -/
theorem memAt_physWrite_other (s : State) (n p : Nat) (bs : List Byte) {k : Nat}
    (h : k < hbmKey n (remapAddr s.dev n p) ∨ hbmKey n (remapAddr s.dev n p) + bs.length ≤ k) :
    memAt (physWrite s n p bs) k = memAt s k := tabGet_setBytes_other _ _ _ h

end Sys2Proof.Machine
end

