-- ==== Sys2Proof/Laws/Shapes.lean ====
section
/-! SUPPORT. The operand formats one by one: the decoder's shape of a format, on the fields that the encoder writes for it, gives
the operands back. -/

set_option linter.unusedSimpArgs false

namespace Sys2Proof

theorem split14 (v : BitVec 14) : v.extractLsb' 6 8 ++ v.extractLsb' 0 6 = v := by
  apply BitVec.eq_of_getLsbD_eq
  intro i hi
  rw [BitVec.getLsbD_append]
  split <;> simp <;> grind
theorem split20 (v : BitVec 20) : v.extractLsb' 12 8 ++ v.extractLsb' 6 6 ++ v.extractLsb' 0 6 = v := by
  apply BitVec.eq_of_getLsbD_eq
  intro i hi
  simp only [BitVec.getLsbD_append]
  split <;> (try split) <;> simp <;> grind
@[simp] theorem split8 (v : BitVec 8) : v.extractLsb' 6 2 ++ v.extractLsb' 0 6 = v := by decide +revert
@[simp] theorem split12 (v : BitVec 12) : v.extractLsb' 6 6 ++ v.extractLsb' 0 6 = v := by
  apply BitVec.eq_of_getLsbD_eq
  intro i hi
  rw [BitVec.getLsbD_append]
  split <;> simp <;> grind

@[simp] theorem lo3_q3 (x : BitVec 3) : Fields.lo3 (q3 x) = x := by decide +revert
@[simp] theorem hi3_q3 (x : BitVec 3) : Fields.hi3 (q3 x) = true := by decide +revert
@[simp] theorem lo2_b2 (x : BitVec 2) : Fields.lo2 (b2 x) = x := by decide +revert
@[simp] theorem hi4_b2 (x : BitVec 2) : Fields.hi4 (b2 x) = true := by decide +revert
@[simp] theorem lo4_pad (x : BitVec 4) : Fields.lo4 (0#2 ++ x) = x := by decide +revert
@[simp] theorem hi2_pad (x : BitVec 4) : Fields.hi2 (0#2 ++ x) = true := by decide +revert
@[simp] theorem lo5_pad (x : BitVec 5) : Fields.lo5 (0#1 ++ x) = x := by decide +revert
@[simp] theorem hi1_pad (x : BitVec 5) : Fields.hi1 (0#1 ++ x) = true := by decide +revert
@[simp] theorem lo3_append (x y : BitVec 3) : Fields.lo3 (x ++ y) = y := by decide +revert
@[simp] theorem up3_append (x y : BitVec 3) : (x ++ y).extractLsb' 3 3 = x := by decide +revert
@[simp] theorem hi5_bit6 (x : Bool) : (bit6 x).extractLsb' 1 5 = 0#5 := by decide +revert
@[simp] theorem get_bit6 (x : Bool) : (bit6 x).getLsbD 0 = x := by decide +revert
@[simp] theorem lo2_fus (f u s : BitVec 2) : Fields.lo2 (f ++ u ++ s) = s := by decide +revert
@[simp] theorem mid_fus (f u s : BitVec 2) : (f ++ u ++ s).extractLsb' 2 2 = u := by decide +revert
@[simp] theorem up_fus (f u s : BitVec 2) : (f ++ u ++ s).extractLsb' 4 2 = f := by decide +revert
@[simp] theorem lo4_append (j : BitVec 2) (e : BitVec 4) : Fields.lo4 (j ++ e) = e := by decide +revert
@[simp] theorem up2_append (j : BitVec 2) (e : BitVec 4) : (j ++ e).extractLsb' 4 2 = j := by decide +revert
@[simp] theorem cp_hi (r : Bool) (u : BitVec 3) : Fields.hi2 (0#2 ++ b1 r ++ u) = true := by decide +revert
@[simp] theorem cp_get (r : Bool) (u : BitVec 3) : (0#2 ++ b1 r ++ u).getLsbD 3 = r := by decide +revert
@[simp] theorem cp_lo (r : Bool) (u : BitVec 3) : Fields.lo3 (0#2 ++ b1 r ++ u) = u := by decide +revert
@[simp] theorem sh_hi (v : Bool) (n : BitVec 2) : Fields.hi3 (0#3 ++ b1 v ++ n) = true := by decide +revert
@[simp] theorem sh_get (v : Bool) (n : BitVec 2) : (0#3 ++ b1 v ++ n).getLsbD 2 = v := by decide +revert
@[simp] theorem sh_lo (v : Bool) (n : BitVec 2) : Fields.lo2 (0#3 ++ b1 v ++ n) = n := by decide +revert
@[simp] theorem loop_hi (t : BitVec 2) (l : BitVec 3) : Fields.hi1 (0#1 ++ t ++ l) = true := by decide +revert
@[simp] theorem loop_lo (t : BitVec 2) (l : BitVec 3) : Fields.lo3 (0#1 ++ t ++ l) = l := by decide +revert
@[simp] theorem loop_mid (t : BitVec 2) (l : BitVec 3) : (0#1 ++ t ++ l).extractLsb' 3 2 = t := by decide +revert
@[simp] theorem pk_lo (x : Bool) (y : BitVec 2) (f : BitVec 3) : Fields.lo3 (b1 x ++ y ++ f) = f := by decide +revert
@[simp] theorem pk_mid (x : Bool) (y : BitVec 2) (f : BitVec 3) : (b1 x ++ y ++ f).extractLsb' 3 2 = y := by decide +revert
@[simp] theorem pk_get (x : Bool) (y : BitVec 2) (f : BitVec 3) : (b1 x ++ y ++ f).getLsbD 5 = x := by decide +revert
@[simp] theorem cr_hi (x : BitVec 8) : Fields.hi4 (0#4 ++ x.extractLsb' 6 2) = true := by decide +revert
@[simp] theorem cr_lo (x : BitVec 8) : Fields.lo2 (0#4 ++ x.extractLsb' 6 2) = x.extractLsb' 6 2 := by decide +revert
@[simp] theorem vtr_lo (r : BitVec 8) (t : BitVec 3) : Fields.lo3 (r.extractLsb' 0 3 ++ t) = t := by decide +revert

/-- The extension byte of window rows, and what a decoder reads of it. -/
@[simp] theorem rowExt_e (d a b : BitVec 2) (ha hb : Bool) : (rowExt d a b ha hb).getD 0#8 = d ++ a ++ b ++ b1 ha ++ b1 hb := by
  decide +revert
@[simp] theorem row_d (d a b : BitVec 2) (ha hb : Bool) : (d ++ a ++ b ++ b1 ha ++ b1 hb).extractLsb' 6 2 = d := by decide +revert
@[simp] theorem row_a (d a b : BitVec 2) (ha hb : Bool) : (d ++ a ++ b ++ b1 ha ++ b1 hb).extractLsb' 4 2 = a := by decide +revert
@[simp] theorem row_b (d a b : BitVec 2) (ha hb : Bool) : (d ++ a ++ b ++ b1 ha ++ b1 hb).extractLsb' 2 2 = b := by decide +revert
@[simp] theorem row_ha (d a b : BitVec 2) (ha hb : Bool) : (d ++ a ++ b ++ b1 ha ++ b1 hb).getLsbD 1 = ha := by decide +revert
@[simp] theorem row_hb (d a b : BitVec 2) (ha hb : Bool) : (d ++ a ++ b ++ b1 ha ++ b1 hb).getLsbD 0 = hb := by decide +revert

/-- An immediate with its header flag comes back. -/
@[simp] theorem imm14_enc (g : Guard) (c : BitVec 3) (o d a : BitVec 6) (i : Imm14) (h : i.ok = true) :
    Fields.imm14 ⟨g, c, o, d, a, i.lo, i.ext⟩ = i := by
  obtain ⟨hd, v⟩ := i
  cases hd
  · have hv : v.extractLsb' 6 8 = 0#8 := by simpa [Imm14.ok] using h
    have := split14 v
    rw [hv] at this
    simp only [Fields.imm14, Imm14.ext, Imm14.lo, Bool.false_eq_true, if_false]
    rw [this]
  · simp only [Fields.imm14, Imm14.ext, Imm14.lo, if_true]
    rw [split14]
@[simp] theorem imm20_enc (g : Guard) (c : BitVec 3) (o d : BitVec 6) (i : Imm20) (h : i.ok = true) :
    Fields.imm20 ⟨g, c, o, d, i.mid, i.lo, i.ext⟩ = i := by
  obtain ⟨hd, v⟩ := i
  cases hd
  · have hv : v.extractLsb' 12 8 = 0#8 := by simpa [Imm20.ok] using h
    have := split20 v
    rw [hv] at this
    simp only [Fields.imm20, Imm20.ext, Imm20.lo, Imm20.mid, Bool.false_eq_true, if_false]
    rw [this]
  · simp only [Fields.imm20, Imm20.ext, Imm20.lo, Imm20.mid, if_true]
    rw [split20]
/-- A zero-extended immediate comes back, whether or not it needs the extension byte. -/
@[simp] theorem imm14_wide (g : Guard) (c : BitVec 3) (o d a : BitVec 6) (v : BitVec 14) :
    (Fields.imm14 ⟨g, c, o, d, a, v.extractLsb' 0 6, wideExt14 v⟩).v = v := by
  by_cases hv : v.extractLsb' 6 8 = 0#8
  · have := split14 v
    rw [hv] at this
    simp only [Fields.imm14, wideExt14, hv, if_true]
    exact this
  · simp only [Fields.imm14, wideExt14, hv, if_false]
    exact split14 v
@[simp] theorem imm20_wide (g : Guard) (c : BitVec 3) (o d : BitVec 6) (v : BitVec 20) :
    (Fields.imm20 ⟨g, c, o, d, v.extractLsb' 6 6, v.extractLsb' 0 6, wideExt20 v⟩).v = v := by
  by_cases hv : v.extractLsb' 12 8 = 0#8
  · have := split20 v
    rw [hv] at this
    simp only [Fields.imm20, wideExt20, hv, if_true]
    exact this
  · simp only [Fields.imm20, wideExt20, hv, if_false]
    exact split20 v
@[simp] theorem mid_wide (v : BitVec 20) : (Imm20.mk true v).mid = v.extractLsb' 6 6 := rfl
@[simp] theorem lo_wide (v : BitVec 20) : (Imm20.mk true v).lo = v.extractLsb' 0 6 := rfl
@[simp] theorem get0_bit6 (x : Bool) : (bit6 x)[0] = x := by decide +revert
@[simp] theorem sh_get2 (v : Bool) (n : BitVec 2) : (0#3 ++ b1 v ++ n)[2] = v := by decide +revert
@[simp] theorem cp_get3 (r : Bool) (u : BitVec 3) : (0#2 ++ b1 r ++ u)[3] = r := by decide +revert
@[simp] theorem pk_get5 (x : Bool) (y : BitVec 2) (f : BitVec 3) : (b1 x ++ y ++ f)[5] = x := by decide +revert
@[simp] theorem send_mask (a : BitVec 2) :
    (0#2 ++ a ++ 0#2 ++ b1 false ++ b1 false) &&& 0xCF#8 = 0#8 := by decide +revert
@[simp] theorem recv_mask (d : BitVec 2) :
    (d ++ 0#2 ++ 0#2 ++ b1 false ++ b1 false) &&& 0x3F#8 = 0#8 := by decide +revert
@[simp] theorem vv0_mask (d a : BitVec 2) (h : Bool) :
    (d ++ a ++ 0#2 ++ b1 h ++ b1 false) &&& 0x0D#8 = 0#8 := by decide +revert
@[simp] theorem vcmp_mask (a b : BitVec 2) (ha hb : Bool) :
    (0#2 ++ a ++ b ++ b1 ha ++ b1 hb) &&& 0xC0#8 = 0#8 := by decide +revert
@[simp] theorem vunpk_hi (y : BitVec 2) (f : BitVec 3) : Fields.hi1 (0#1 ++ y ++ f) = true := by decide +revert

@[simp] theorem row_ha1 (d a b : BitVec 2) (ha hb : Bool) : (d ++ a ++ b ++ b1 ha ++ b1 hb)[1] = ha := by decide +revert
@[simp] theorem row_hb0 (d a b : BitVec 2) (ha hb : Bool) : (d ++ a ++ b ++ b1 ha ++ b1 hb)[0] = hb := by decide +revert
@[simp] theorem mvcn_hi (i : BitVec 16) : (0#4 ++ i).extractLsb' 16 4 = 0#4 := by ext j hj; simp; grind
@[simp] theorem mvcn_lo (i : BitVec 16) : (0#4 ++ i).extractLsb' 0 16 = i := by ext j hj; simp; grind

theorem cvt_lo (s : Bool) (p : BitVec 2) (x d : BitVec 3) :
    (0#5 ++ b1 s ++ p ++ x ++ d : BitVec 14).extractLsb' 0 6 = x ++ d := by decide +revert
@[simp] theorem cvt_hi (s : Bool) (p : BitVec 2) (x d : BitVec 3) :
    (0#5 ++ b1 s ++ p ++ x ++ d : BitVec 14).extractLsb' 9 5 = 0#5 := by decide +revert
@[simp] theorem cvt_dst (s : Bool) (p : BitVec 2) (x d : BitVec 3) :
    (0#5 ++ b1 s ++ p ++ x ++ d : BitVec 14).extractLsb' 0 3 = d := by decide +revert
@[simp] theorem cvt_src (s : Bool) (p : BitVec 2) (x d : BitVec 3) :
    (0#5 ++ b1 s ++ p ++ x ++ d : BitVec 14).extractLsb' 3 3 = x := by decide +revert
@[simp] theorem cvt_part (s : Bool) (p : BitVec 2) (x d : BitVec 3) :
    (0#5 ++ b1 s ++ p ++ x ++ d : BitVec 14).extractLsb' 6 2 = p := by decide +revert
@[simp] theorem cvt_sat (s : Bool) (p : BitVec 2) (x d : BitVec 3) :
    (0#5 ++ b1 s ++ p ++ x ++ d : BitVec 14)[8] = s := by decide +revert
theorem trd_lo (r : BitVec 8) (t : BitVec 3) : (0#3 ++ r ++ t : BitVec 14).extractLsb' 0 6 = r.extractLsb' 0 3 ++ t := by
  decide +revert
@[simp] theorem trd_hi (r : BitVec 8) (t : BitVec 3) : (0#3 ++ r ++ t : BitVec 14).extractLsb' 11 3 = 0#3 := by
  decide +revert
@[simp] theorem trd_row (r : BitVec 8) (t : BitVec 3) : (0#3 ++ r ++ t : BitVec 14).extractLsb' 3 8 = r := by
  decide +revert
theorem split18 (v : BitVec 18) : v.extractLsb' 12 6 ++ v.extractLsb' 6 6 ++ v.extractLsb' 0 6 = v := by
  apply BitVec.eq_of_getLsbD_eq
  intro i hi
  simp only [BitVec.getLsbD_append]
  split <;> (try split) <;> simp <;> grind

/-- A slot word's fields come back from it (R272). -/
theorem cut_slotWord (e : Option Byte) (g : Guard) (c : BitVec 3) (o d a b : BitVec 6) :
    cut e (slotWord g c o d a b) = ⟨g, c, o, d, a, b, e⟩ := by
  obtain ⟨st, p, n⟩ := g
  simp only [cut, slotWord, Fields.mk.injEq, Guard.mk.injEq]
  refine ⟨⟨?_, ?_, ?_⟩, ?_, ?_, ?_, ?_, ?_, trivial⟩
  · simp only [b1, BitVec.getLsbD_append]; simp
  · ext i hi; simp [b1]; grind
  · simp only [b1, BitVec.getLsbD_append]; simp
  all_goals ext i hi; simp [b1]; grind


theorem shapeSss_enc (cl : BitVec 3) (op : BitVec 6) (g : Guard) (d : BitVec 6) (a : BitVec 6) (b : BitVec 6) (mk : Guard → BitVec 6 → BitVec 6 → BitVec 6 → Instr) :
    Fields.shapeSss ⟨g, cl, op, d, a, b, none⟩ mk = .ok (mk g d a b) := by
  simp [Fields.shapeSss, Fields.shapePbrr, Fields.shapeBt, Fields.shapeVlane, Fields.shapeSi6, Fields.accept, Fields.noExt, Fields.e, Fields.rowD, Fields.rowA, Fields.rowB, Fields.level, VOp.lo, VOp.hi]

theorem shapeSs0_enc (cl : BitVec 3) (op : BitVec 6) (g : Guard) (d : BitVec 6) (a : BitVec 6) (mk : Guard → BitVec 6 → BitVec 6 → Instr) :
    Fields.shapeSs0 ⟨g, cl, op, d, a, 0, none⟩ mk = .ok (mk g d a) := by
  simp [Fields.shapeSs0, Fields.shapePbrr, Fields.shapeBt, Fields.shapeVlane, Fields.shapeSi6, Fields.accept, Fields.noExt, Fields.e, Fields.rowD, Fields.rowA, Fields.rowB, Fields.level, VOp.lo, VOp.hi]

theorem shapeSi6_enc (cl : BitVec 3) (op : BitVec 6) (g : Guard) (d : BitVec 6) (a : BitVec 6) (i : Imm14) (mk : Guard → BitVec 6 → BitVec 6 → Imm14 → Instr) (h : (i.ok) = true) :
    Fields.shapeSi6 ⟨g, cl, op, d, a, i.lo, i.ext⟩ mk = .ok (mk g d a i) := by
  try simp at h
  simp [Fields.shapeSi6, Fields.shapePbrr, Fields.shapeBt, Fields.shapeVlane, Fields.shapeSi6, Fields.accept, Fields.noExt, Fields.e, Fields.rowD, Fields.rowA, Fields.rowB, Fields.level, VOp.lo, VOp.hi, h]

theorem shapeSh6_enc (cl : BitVec 3) (op : BitVec 6) (g : Guard) (d : BitVec 6) (a : BitVec 6) (i : BitVec 6) (mk : Guard → BitVec 6 → BitVec 6 → BitVec 6 → Instr) :
    Fields.shapeSh6 ⟨g, cl, op, d, a, i, none⟩ mk = .ok (mk g d a i) := by
  simp [Fields.shapeSh6, Fields.shapePbrr, Fields.shapeBt, Fields.shapeVlane, Fields.shapeSi6, Fields.accept, Fields.noExt, Fields.e, Fields.rowD, Fields.rowA, Fields.rowB, Fields.level, VOp.lo, VOp.hi]

theorem shapeSi12_enc (cl : BitVec 3) (op : BitVec 6) (g : Guard) (d : BitVec 6) (i : Imm20) (mk : Guard → BitVec 6 → Imm20 → Instr) (h : (i.ok) = true) :
    Fields.shapeSi12 ⟨g, cl, op, d, i.mid, i.lo, i.ext⟩ mk = .ok (mk g d i) := by
  try simp at h
  simp [Fields.shapeSi12, Fields.shapePbrr, Fields.shapeBt, Fields.shapeVlane, Fields.shapeSi6, Fields.accept, Fields.noExt, Fields.e, Fields.rowD, Fields.rowA, Fields.rowB, Fields.level, VOp.lo, VOp.hi, h]

theorem shapeQss_enc (cl : BitVec 3) (op : BitVec 6) (g : Guard) (q : BitVec 3) (a : BitVec 6) (b : BitVec 6) (mk : Guard → BitVec 3 → BitVec 6 → BitVec 6 → Instr) :
    Fields.shapeQss ⟨g, cl, op, q3 q, a, b, none⟩ mk = .ok (mk g q a b) := by
  simp [Fields.shapeQss, Fields.shapePbrr, Fields.shapeBt, Fields.shapeVlane, Fields.shapeSi6, Fields.accept, Fields.noExt, Fields.e, Fields.rowD, Fields.rowA, Fields.rowB, Fields.level, VOp.lo, VOp.hi]

theorem shapeQsi6_enc (cl : BitVec 3) (op : BitVec 6) (g : Guard) (q : BitVec 3) (a : BitVec 6) (i : Imm14) (mk : Guard → BitVec 3 → BitVec 6 → Imm14 → Instr) (h : (i.ok) = true) :
    Fields.shapeQsi6 ⟨g, cl, op, q3 q, a, i.lo, i.ext⟩ mk = .ok (mk g q a i) := by
  try simp at h
  simp [Fields.shapeQsi6, Fields.shapePbrr, Fields.shapeBt, Fields.shapeVlane, Fields.shapeSi6, Fields.accept, Fields.noExt, Fields.e, Fields.rowD, Fields.rowA, Fields.rowB, Fields.level, VOp.lo, VOp.hi, h]

theorem shapeQs0_enc (cl : BitVec 3) (op : BitVec 6) (g : Guard) (q : BitVec 3) (a : BitVec 6) (mk : Guard → BitVec 3 → BitVec 6 → Instr) :
    Fields.shapeQs0 ⟨g, cl, op, q3 q, a, 0, none⟩ mk = .ok (mk g q a) := by
  simp [Fields.shapeQs0, Fields.shapePbrr, Fields.shapeBt, Fields.shapeVlane, Fields.shapeSi6, Fields.accept, Fields.noExt, Fields.e, Fields.rowD, Fields.rowA, Fields.rowB, Fields.level, VOp.lo, VOp.hi]

theorem shapeS00_enc (cl : BitVec 3) (op : BitVec 6) (g : Guard) (d : BitVec 6) (mk : Guard → BitVec 6 → Instr) :
    Fields.shapeS00 ⟨g, cl, op, d, 0, 0, none⟩ mk = .ok (mk g d) := by
  simp [Fields.shapeS00, Fields.shapePbrr, Fields.shapeBt, Fields.shapeVlane, Fields.shapeSi6, Fields.accept, Fields.noExt, Fields.e, Fields.rowD, Fields.rowA, Fields.rowB, Fields.level, VOp.lo, VOp.hi]

theorem shapeQlog_enc (cl : BitVec 3) (op : BitVec 6) (g : Guard) (q : BitVec 3) (qa : BitVec 3) (qb : BitVec 3) (o : BitVec 3) (mk : Guard → BitVec 3 → BitVec 3 → BitVec 3 → BitVec 3 → Instr) :
    Fields.shapeQlog ⟨g, cl, op, q3 q, q3 qa, qb ++ o, none⟩ mk = .ok (mk g q qa qb o) := by
  simp [Fields.shapeQlog, Fields.shapePbrr, Fields.shapeBt, Fields.shapeVlane, Fields.shapeSi6, Fields.accept, Fields.noExt, Fields.e, Fields.rowD, Fields.rowA, Fields.rowB, Fields.level, VOp.lo, VOp.hi]

theorem shapePbr_enc (cl : BitVec 3) (op : BitVec 6) (g : Guard) (t : BitVec 2) (i : Imm20) (mk : Guard → BitVec 2 → Imm20 → Instr) (h : (i.ok) = true) :
    Fields.shapePbr ⟨g, cl, op, b2 t, i.mid, i.lo, i.ext⟩ mk = .ok (mk g t i) := by
  try simp at h
  simp [Fields.shapePbr, Fields.shapePbrr, Fields.shapeBt, Fields.shapeVlane, Fields.shapeSi6, Fields.accept, Fields.noExt, Fields.e, Fields.rowD, Fields.rowA, Fields.rowB, Fields.level, VOp.lo, VOp.hi, h]

theorem shapePbrr_enc (cl : BitVec 3) (op : BitVec 6) (g : Guard) (t : BitVec 2) (a : BitVec 6) (mk : Guard → BitVec 2 → BitVec 6 → Instr) :
    Fields.shapePbrr ⟨g, cl, op, b2 t, a, 0, none⟩ mk = .ok (mk g t a) := by
  simp [Fields.shapePbrr, Fields.shapePbrr, Fields.shapeBt, Fields.shapeVlane, Fields.shapeSi6, Fields.accept, Fields.noExt, Fields.e, Fields.rowD, Fields.rowA, Fields.rowB, Fields.level, VOp.lo, VOp.hi]

theorem shapeBt_enc (cl : BitVec 3) (op : BitVec 6) (g : Guard) (t : BitVec 2) (mk : Guard → BitVec 2 → Instr) :
    Fields.shapeBt ⟨g, cl, op, b2 t, 0, 0, none⟩ mk = .ok (mk g t) := by
  simp [Fields.shapeBt, Fields.shapePbrr, Fields.shapeBt, Fields.shapeVlane, Fields.shapeSi6, Fields.accept, Fields.noExt, Fields.e, Fields.rowD, Fields.rowA, Fields.rowB, Fields.level, VOp.lo, VOp.hi]

theorem shapeBts_enc (cl : BitVec 3) (op : BitVec 6) (g : Guard) (t : BitVec 2) (a : BitVec 6) (mk : Guard → BitVec 2 → BitVec 6 → Instr) :
    Fields.shapeBts ⟨g, cl, op, b2 t, a, 0, none⟩ mk = .ok (mk g t a) := by
  simp [Fields.shapeBts, Fields.shapePbrr, Fields.shapeBt, Fields.shapeVlane, Fields.shapeSi6, Fields.accept, Fields.noExt, Fields.e, Fields.rowD, Fields.rowA, Fields.rowB, Fields.level, VOp.lo, VOp.hi]

theorem shapeZ_enc (cl : BitVec 3) (op : BitVec 6) (g : Guard) (mk : Guard → Instr) :
    Fields.shapeZ ⟨g, cl, op, 0, 0, 0, none⟩ mk = .ok (mk g) := by
  simp [Fields.shapeZ, Fields.shapePbrr, Fields.shapeBt, Fields.shapeVlane, Fields.shapeSi6, Fields.accept, Fields.noExt, Fields.e, Fields.rowD, Fields.rowA, Fields.rowB, Fields.level, VOp.lo, VOp.hi]

theorem shapeLoop_enc (cl : BitVec 3) (op : BitVec 6) (g : Guard) (l : BitVec 3) (a : BitVec 6) (t : BitVec 2) (mk : Guard → BitVec 3 → BitVec 6 → BitVec 2 → Instr) (h : (l.toNat ≤ 5) = true) :
    Fields.shapeLoop ⟨g, cl, op, q3 l, a, b2 t, none⟩ mk = .ok (mk g l a t) := by
  try simp at h
  simp [Fields.shapeLoop, Fields.shapePbrr, Fields.shapeBt, Fields.shapeVlane, Fields.shapeSi6, Fields.accept, Fields.noExt, Fields.e, Fields.rowD, Fields.rowA, Fields.rowB, Fields.level, VOp.lo, VOp.hi, h]

theorem shapeLoopi_enc (cl : BitVec 3) (op : BitVec 6) (g : Guard) (l : BitVec 3) (t : BitVec 2) (i : BitVec 20) (mk : Guard → BitVec 3 → BitVec 2 → BitVec 20 → Instr) (h : (l.toNat ≤ 5) = true) :
    Fields.shapeLoopi ⟨g, cl, op, 0#1 ++ t ++ l, (Imm20.mk true i).mid, (Imm20.mk true i).lo, wideExt20 i⟩ mk = .ok (mk g l t i) := by
  try simp at h
  simp [Fields.shapeLoopi, Fields.shapePbrr, Fields.shapeBt, Fields.shapeVlane, Fields.shapeSi6, Fields.accept, Fields.noExt, Fields.e, Fields.rowD, Fields.rowA, Fields.rowB, Fields.level, VOp.lo, VOp.hi, h]

theorem shapeLstr_enc (cl : BitVec 3) (op : BitVec 6) (g : Guard) (l : BitVec 3) (a : BitVec 6) (i : Imm14) (mk : Guard → BitVec 3 → BitVec 6 → Imm14 → Instr) (h : (i.ok && l.toNat ≤ 5) = true) :
    Fields.shapeLstr ⟨g, cl, op, q3 l, a, i.lo, i.ext⟩ mk = .ok (mk g l a i) := by
  try simp at h
  simp [Fields.shapeLstr, Fields.shapePbrr, Fields.shapeBt, Fields.shapeVlane, Fields.shapeSi6, Fields.accept, Fields.noExt, Fields.e, Fields.rowD, Fields.rowA, Fields.rowB, Fields.level, VOp.lo, VOp.hi, h]

theorem shapeLidx_enc (cl : BitVec 3) (op : BitVec 6) (g : Guard) (d : BitVec 6) (l : BitVec 3) (mk : Guard → BitVec 6 → BitVec 3 → Instr) (h : (l.toNat ≤ 5) = true) :
    Fields.shapeLidx ⟨g, cl, op, d, q3 l, 0, none⟩ mk = .ok (mk g d l) := by
  try simp at h
  simp [Fields.shapeLidx, Fields.shapePbrr, Fields.shapeBt, Fields.shapeVlane, Fields.shapeSi6, Fields.accept, Fields.noExt, Fields.e, Fields.rowD, Fields.rowA, Fields.rowB, Fields.level, VOp.lo, VOp.hi, h]

theorem shapeLbrk_enc (cl : BitVec 3) (op : BitVec 6) (g : Guard) (l : BitVec 3) (mk : Guard → BitVec 3 → Instr) (h : (l.toNat ≤ 5) = true) :
    Fields.shapeLbrk ⟨g, cl, op, q3 l, 0, 0, none⟩ mk = .ok (mk g l) := by
  try simp at h
  simp [Fields.shapeLbrk, Fields.shapePbrr, Fields.shapeBt, Fields.shapeVlane, Fields.shapeSi6, Fields.accept, Fields.noExt, Fields.e, Fields.rowD, Fields.rowA, Fields.rowB, Fields.level, VOp.lo, VOp.hi, h]

theorem shapeSpawn_enc (cl : BitVec 3) (op : BitVec 6) (g : Guard) (k : BitVec 2) (a : BitVec 6) (t : BitVec 2) (mk : Guard → BitVec 2 → BitVec 6 → BitVec 2 → Instr) :
    Fields.shapeSpawn ⟨g, cl, op, b2 k, a, b2 t, none⟩ mk = .ok (mk g k a t) := by
  simp [Fields.shapeSpawn, Fields.shapePbrr, Fields.shapeBt, Fields.shapeVlane, Fields.shapeSi6, Fields.accept, Fields.noExt, Fields.e, Fields.rowD, Fields.rowA, Fields.rowB, Fields.level, VOp.lo, VOp.hi]

theorem shapeJoin_enc (cl : BitVec 3) (op : BitVec 6) (g : Guard) (k : BitVec 2) (mk : Guard → BitVec 2 → Instr) :
    Fields.shapeJoin ⟨g, cl, op, b2 k, 0, 0, none⟩ mk = .ok (mk g k) := by
  simp [Fields.shapeJoin, Fields.shapePbrr, Fields.shapeBt, Fields.shapeVlane, Fields.shapeSi6, Fields.accept, Fields.noExt, Fields.e, Fields.rowD, Fields.rowA, Fields.rowB, Fields.level, VOp.lo, VOp.hi]

theorem shapeSafe_enc (cl : BitVec 3) (op : BitVec 6) (g : Guard) (i : BitVec 12) (mk : Guard → BitVec 12 → Instr) :
    Fields.shapeSafe ⟨g, cl, op, 0, i.extractLsb' 6 6, i.extractLsb' 0 6, none⟩ mk = .ok (mk g i) := by
  simp [Fields.shapeSafe, Fields.shapePbrr, Fields.shapeBt, Fields.shapeVlane, Fields.shapeSi6, Fields.accept, Fields.noExt, Fields.e, Fields.rowD, Fields.rowA, Fields.rowB, Fields.level, VOp.lo, VOp.hi]

theorem shapeI20_enc (cl : BitVec 3) (op : BitVec 6) (g : Guard) (i : BitVec 20) (mk : Guard → BitVec 20 → Instr) :
    Fields.shapeI20 ⟨g, cl, op, 0, (Imm20.mk true i).mid, (Imm20.mk true i).lo, wideExt20 i⟩ mk = .ok (mk g i) := by
  simp [Fields.shapeI20, Fields.shapePbrr, Fields.shapeBt, Fields.shapeVlane, Fields.shapeSi6, Fields.accept, Fields.noExt, Fields.e, Fields.rowD, Fields.rowA, Fields.rowB, Fields.level, VOp.lo, VOp.hi]

theorem shapeTret_enc (cl : BitVec 3) (op : BitVec 6) (g : Guard) (i : Bool) (mk : Guard → Bool → Instr) :
    Fields.shapeTret ⟨g, cl, op, 0, 0, bit6 i, none⟩ mk = .ok (mk g i) := by
  simp [Fields.shapeTret, Fields.shapePbrr, Fields.shapeBt, Fields.shapeVlane, Fields.shapeSi6, Fields.accept, Fields.noExt, Fields.e, Fields.rowD, Fields.rowA, Fields.rowB, Fields.level, VOp.lo, VOp.hi]

theorem shapeVote_enc (cl : BitVec 3) (op : BitVec 6) (g : Guard) (q : BitVec 3) (ma : BitVec 3) (mk : Guard → BitVec 3 → BitVec 3 → Instr) :
    Fields.shapeVote ⟨g, cl, op, q3 q, q3 ma, 0, none⟩ mk = .ok (mk g q ma) := by
  simp [Fields.shapeVote, Fields.shapePbrr, Fields.shapeBt, Fields.shapeVlane, Fields.shapeSi6, Fields.accept, Fields.noExt, Fields.e, Fields.rowD, Fields.rowA, Fields.rowB, Fields.level, VOp.lo, VOp.hi]

theorem shapeA_enc (cl : BitVec 3) (op : BitVec 6) (g : Guard) (a : BitVec 6) (mk : Guard → BitVec 6 → Instr) :
    Fields.shapeA ⟨g, cl, op, 0, a, 0, none⟩ mk = .ok (mk g a) := by
  simp [Fields.shapeA, Fields.shapePbrr, Fields.shapeBt, Fields.shapeVlane, Fields.shapeSi6, Fields.accept, Fields.noExt, Fields.e, Fields.rowD, Fields.rowA, Fields.rowB, Fields.level, VOp.lo, VOp.hi]

theorem shapePsel_enc (cl : BitVec 3) (op : BitVec 6) (g : Guard) (t : BitVec 8) (a : BitVec 6) (mk : Guard → BitVec 8 → BitVec 6 → Instr) :
    Fields.shapePsel ⟨g, cl, op, b2 (t.extractLsb' 6 2), a, t.extractLsb' 0 6, none⟩ mk = .ok (mk g t a) := by
  simp [Fields.shapePsel, Fields.shapePbrr, Fields.shapeBt, Fields.shapeVlane, Fields.shapeSi6, Fields.accept, Fields.noExt, Fields.e, Fields.rowD, Fields.rowA, Fields.rowB, Fields.level, VOp.lo, VOp.hi]

theorem shapeSend_enc (cl : BitVec 3) (op : BitVec 6) (g : Guard) (ch : BitVec 5) (va : BitVec 8) (j : BitVec 2) (mk : Guard → BitVec 5 → BitVec 8 → BitVec 2 → Instr) :
    Fields.shapeSend ⟨g, cl, op, 0#1 ++ ch, va.extractLsb' 0 6, b2 j, rowExt 0 (va.extractLsb' 6 2) 0 false false⟩ mk = .ok (mk g ch va j) := by
  simp [Fields.shapeSend, Fields.shapePbrr, Fields.shapeBt, Fields.shapeVlane, Fields.shapeSi6, Fields.accept, Fields.noExt, Fields.e, Fields.rowD, Fields.rowA, Fields.rowB, Fields.level, VOp.lo, VOp.hi]

theorem shapeRecv_enc (cl : BitVec 3) (op : BitVec 6) (g : Guard) (vd : BitVec 8) (ch : BitVec 5) (j : BitVec 2) (mk : Guard → BitVec 8 → BitVec 5 → BitVec 2 → Instr) :
    Fields.shapeRecv ⟨g, cl, op, vd.extractLsb' 0 6, 0#1 ++ ch, b2 j, rowExt (vd.extractLsb' 6 2) 0 0 false false⟩ mk = .ok (mk g vd ch j) := by
  simp [Fields.shapeRecv, Fields.shapePbrr, Fields.shapeBt, Fields.shapeVlane, Fields.shapeSi6, Fields.accept, Fields.noExt, Fields.e, Fields.rowD, Fields.rowA, Fields.rowB, Fields.level, VOp.lo, VOp.hi]

theorem shapeSends_enc (cl : BitVec 3) (op : BitVec 6) (g : Guard) (ch : BitVec 5) (a : BitVec 6) (mk : Guard → BitVec 5 → BitVec 6 → Instr) :
    Fields.shapeSends ⟨g, cl, op, 0#1 ++ ch, a, 0, none⟩ mk = .ok (mk g ch a) := by
  simp [Fields.shapeSends, Fields.shapePbrr, Fields.shapeBt, Fields.shapeVlane, Fields.shapeSi6, Fields.accept, Fields.noExt, Fields.e, Fields.rowD, Fields.rowA, Fields.rowB, Fields.level, VOp.lo, VOp.hi]

theorem shapeRecvs_enc (cl : BitVec 3) (op : BitVec 6) (g : Guard) (d : BitVec 6) (ch : BitVec 5) (mk : Guard → BitVec 6 → BitVec 5 → Instr) :
    Fields.shapeRecvs ⟨g, cl, op, d, 0#1 ++ ch, 0, none⟩ mk = .ok (mk g d ch) := by
  simp [Fields.shapeRecvs, Fields.shapePbrr, Fields.shapeBt, Fields.shapeVlane, Fields.shapeSi6, Fields.accept, Fields.noExt, Fields.e, Fields.rowD, Fields.rowA, Fields.rowB, Fields.level, VOp.lo, VOp.hi]

theorem shapeMask6_enc (cl : BitVec 3) (op : BitVec 6) (g : Guard) (m : BitVec 6) (mk : Guard → BitVec 6 → Instr) :
    Fields.shapeMask6 ⟨g, cl, op, 0, 0, m, none⟩ mk = .ok (mk g m) := by
  simp [Fields.shapeMask6, Fields.shapePbrr, Fields.shapeBt, Fields.shapeVlane, Fields.shapeSi6, Fields.accept, Fields.noExt, Fields.e, Fields.rowD, Fields.rowA, Fields.rowB, Fields.level, VOp.lo, VOp.hi]

theorem shapePreci_enc (cl : BitVec 3) (op : BitVec 6) (g : Guard) (fs : PreciSel) (i : BitVec 20) (mk : Guard → PreciSel → BitVec 20 → Instr) (h : (fs.fits i) = true) :
    Fields.shapePreci ⟨g, cl, op, fs.code, (Imm20.mk true i).mid, (Imm20.mk true i).lo, wideExt20 i⟩ mk = .ok (mk g fs i) := by
  cases fs <;> simp [Fields.shapePreci, Fields.accept, PreciSel.code, h]

theorem shapeShape_enc (cl : BitVec 3) (op : BitVec 6) (g : Guard) (n : BitVec 2) (vec : Bool) (a : BitVec 6) (b : BitVec 6) (mk : Guard → BitVec 2 → Bool → BitVec 6 → BitVec 6 → Instr) (h : (!vec || b == 0#6) = true) :
    Fields.shapeShape ⟨g, cl, op, 0#3 ++ b1 vec ++ n, a, b, none⟩ mk = .ok (mk g n vec a b) := by
  cases vec <;> simp_all [Fields.shapeShape, Fields.accept, Fields.noExt, Fields.e]

theorem shapeView_enc (cl : BitVec 3) (op : BitVec 6) (g : Guard) (w : BitVec 5) (a : BitVec 6) (b : BitVec 6) (mk : Guard → BitVec 5 → BitVec 6 → BitVec 6 → Instr) (h : (w.toNat ≤ 12) = true) :
    Fields.shapeView ⟨g, cl, op, 0#1 ++ w, a, b, none⟩ mk = .ok (mk g w a b) := by
  try simp at h
  simp [Fields.shapeView, Fields.shapePbrr, Fields.shapeBt, Fields.shapeVlane, Fields.shapeSi6, Fields.accept, Fields.noExt, Fields.e, Fields.rowD, Fields.rowA, Fields.rowB, Fields.level, VOp.lo, VOp.hi, h]

theorem shapeViewq_enc (cl : BitVec 3) (op : BitVec 6) (g : Guard) (d : BitVec 6) (w : BitVec 4) (mk : Guard → BitVec 6 → BitVec 4 → Instr) (h : (w.toNat ≤ 11) = true) :
    Fields.shapeViewq ⟨g, cl, op, d, 0#2 ++ w, 0, none⟩ mk = .ok (mk g d w) := by
  try simp at h
  simp [Fields.shapeViewq, Fields.shapePbrr, Fields.shapeBt, Fields.shapeVlane, Fields.shapeSi6, Fields.accept, Fields.noExt, Fields.e, Fields.rowD, Fields.rowA, Fields.rowB, Fields.level, VOp.lo, VOp.hi, h]

theorem shapeCr_enc (cl : BitVec 3) (op : BitVec 6) (g : Guard) (d : BitVec 6) (x : BitVec 8) (mk : Guard → BitVec 6 → BitVec 8 → Instr) :
    Fields.shapeCr ⟨g, cl, op, d, 0#4 ++ x.extractLsb' 6 2, x.extractLsb' 0 6, none⟩ mk = .ok (mk g d x) := by
  simp [Fields.shapeCr, Fields.shapePbrr, Fields.shapeBt, Fields.shapeVlane, Fields.shapeSi6, Fields.accept, Fields.noExt, Fields.e, Fields.rowD, Fields.rowA, Fields.rowB, Fields.level, VOp.lo, VOp.hi]

theorem shapeStat_enc (cl : BitVec 3) (op : BitVec 6) (g : Guard) (d : BitVec 6) (j : BitVec 2) (e : BitVec 4) (mk : Guard → BitVec 6 → BitVec 2 → BitVec 4 → Instr) :
    Fields.shapeStat ⟨g, cl, op, d, 0, j ++ e, none⟩ mk = .ok (mk g d j e) := by
  simp [Fields.shapeStat, Fields.shapePbrr, Fields.shapeBt, Fields.shapeVlane, Fields.shapeSi6, Fields.accept, Fields.noExt, Fields.e, Fields.rowD, Fields.rowA, Fields.rowB, Fields.level, VOp.lo, VOp.hi]

theorem shapeCdsc_enc (cl : BitVec 3) (op : BitVec 6) (g : Guard) (c : BitVec 4) (a : BitVec 6) (b : BitVec 6) (mk : Guard → BitVec 4 → BitVec 6 → BitVec 6 → Instr) :
    Fields.shapeCdsc ⟨g, cl, op, 0#2 ++ c, a, b, none⟩ mk = .ok (mk g c a b) := by
  simp [Fields.shapeCdsc, Fields.shapePbrr, Fields.shapeBt, Fields.shapeVlane, Fields.shapeSi6, Fields.accept, Fields.noExt, Fields.e, Fields.rowD, Fields.rowA, Fields.rowB, Fields.level, VOp.lo, VOp.hi]

theorem shapeMma_enc (cl : BitVec 3) (op : BitVec 6) (g : Guard) (sh : BitVec 2) (x : BitVec 3) (y : BitVec 3) (mk : Guard → BitVec 2 → BitVec 3 → BitVec 3 → Instr) (h : (sh != 3#2) = true) :
    Fields.shapeMma ⟨g, cl, op, b2 sh, q3 x, q3 y, none⟩ mk = .ok (mk g sh x y) := by
  try simp at h
  simp [Fields.shapeMma, Fields.shapePbrr, Fields.shapeBt, Fields.shapeVlane, Fields.shapeSi6, Fields.accept, Fields.noExt, Fields.e, Fields.rowD, Fields.rowA, Fields.rowB, Fields.level, VOp.lo, VOp.hi, h]

theorem shapeMdrn_enc (cl : BitVec 3) (op : BitVec 6) (g : Guard) (f : BitVec 2) (u : BitVec 2) (sh : BitVec 2) (add : Bool) (mk : Guard → BitVec 2 → BitVec 2 → BitVec 2 → Bool → Instr) (h : (sh != 3#2 && f != 3#2) = true) :
    Fields.shapeMdrn ⟨g, cl, op, f ++ u ++ sh, bit6 add, 0, none⟩ mk = .ok (mk g f u sh add) := by
  try simp at h
  simp [Fields.shapeMdrn, Fields.shapePbrr, Fields.shapeBt, Fields.shapeVlane, Fields.shapeSi6, Fields.accept, Fields.noExt, Fields.e, Fields.rowD, Fields.rowA, Fields.rowB, Fields.level, VOp.lo, VOp.hi, h]

theorem shapeMscl_enc (cl : BitVec 3) (op : BitVec 6) (g : Guard) (o : Bool) (x : BitVec 3) (mk : Guard → Bool → BitVec 3 → Instr) :
    Fields.shapeMscl ⟨g, cl, op, bit6 o, q3 x, 0, none⟩ mk = .ok (mk g o x) := by
  simp [Fields.shapeMscl, Fields.shapePbrr, Fields.shapeBt, Fields.shapeVlane, Fields.shapeSi6, Fields.accept, Fields.noExt, Fields.e, Fields.rowD, Fields.rowA, Fields.rowB, Fields.level, VOp.lo, VOp.hi]

theorem shapeMvcn_enc (cl : BitVec 3) (op : BitVec 6) (g : Guard) (en : Bool) (i : BitVec 16) (mk : Guard → Bool → BitVec 16 → Instr) :
    Fields.shapeMvcn ⟨g, cl, op, bit6 en, (Imm20.mk true (0#4 ++ i)).mid, (Imm20.mk true (0#4 ++ i)).lo, wideExt20 (0#4 ++ i)⟩ mk = .ok (mk g en i) := by
  simp [Fields.shapeMvcn, Fields.shapePbrr, Fields.shapeBt, Fields.shapeVlane, Fields.shapeSi6, Fields.accept, Fields.noExt, Fields.e, Fields.rowD, Fields.rowA, Fields.rowB, Fields.level, VOp.lo, VOp.hi]

theorem shapeMmat_enc (cl : BitVec 3) (op : BitVec 6) (g : Guard) (f : BitVec 2) (u : BitVec 2) (sh : BitVec 2) (x : BitVec 3) (y : BitVec 3) (mk : Guard → BitVec 2 → BitVec 2 → BitVec 2 → BitVec 3 → BitVec 3 → Instr) (h : (sh != 3#2 && f != 3#2) = true) :
    Fields.shapeMmat ⟨g, cl, op, f ++ u ++ sh, q3 x, q3 y, none⟩ mk = .ok (mk g f u sh x y) := by
  try simp at h
  simp [Fields.shapeMmat, Fields.shapePbrr, Fields.shapeBt, Fields.shapeVlane, Fields.shapeSi6, Fields.accept, Fields.noExt, Fields.e, Fields.rowD, Fields.rowA, Fields.rowB, Fields.level, VOp.lo, VOp.hi, h]

theorem shapeCpy_enc (cl : BitVec 3) (op : BitVec 6) (g : Guard) (rel : Bool) (u : BitVec 3) (c : BitVec 4) (b : BitVec 6) (mk : Guard → Bool → BitVec 3 → BitVec 4 → BitVec 6 → Instr) :
    Fields.shapeCpy ⟨g, cl, op, 0#2 ++ b1 rel ++ u, 0#2 ++ c, b, none⟩ mk = .ok (mk g rel u c b) := by
  simp [Fields.shapeCpy, Fields.shapePbrr, Fields.shapeBt, Fields.shapeVlane, Fields.shapeSi6, Fields.accept, Fields.noExt, Fields.e, Fields.rowD, Fields.rowA, Fields.rowB, Fields.level, VOp.lo, VOp.hi]

theorem shapeCpl_enc (cl : BitVec 3) (op : BitVec 6) (g : Guard) (rel : Bool) (u : BitVec 3) (c : BitVec 4) (mk : Guard → Bool → BitVec 3 → BitVec 4 → Instr) :
    Fields.shapeCpl ⟨g, cl, op, 0#2 ++ b1 rel ++ u, 0#2 ++ c, 0, none⟩ mk = .ok (mk g rel u c) := by
  simp [Fields.shapeCpl, Fields.shapePbrr, Fields.shapeBt, Fields.shapeVlane, Fields.shapeSi6, Fields.accept, Fields.noExt, Fields.e, Fields.rowD, Fields.rowA, Fields.rowB, Fields.level, VOp.lo, VOp.hi]

theorem shapeVvv_enc (cl : BitVec 3) (op : BitVec 6) (g : Guard) (d : BitVec 8) (a : VOp) (b : VOp) (mk : Guard → BitVec 8 → VOp → VOp → Instr) :
    Fields.shapeVvv ⟨g, cl, op, d.extractLsb' 0 6, a.lo, b.lo, rowExt (d.extractLsb' 6 2) a.hi b.hi a.hold b.hold⟩ mk = .ok (mk g d a b) := by
  simp [Fields.shapeVvv, Fields.shapePbrr, Fields.shapeBt, Fields.shapeVlane, Fields.shapeSi6, Fields.accept, Fields.noExt, Fields.e, Fields.rowD, Fields.rowA, Fields.rowB, Fields.level, VOp.lo, VOp.hi]

theorem shapeVv0_enc (cl : BitVec 3) (op : BitVec 6) (g : Guard) (d : BitVec 8) (a : VOp) (mk : Guard → BitVec 8 → VOp → Instr) :
    Fields.shapeVv0 ⟨g, cl, op, d.extractLsb' 0 6, a.lo, 0, rowExt (d.extractLsb' 6 2) a.hi 0 a.hold false⟩ mk = .ok (mk g d a) := by
  simp [Fields.shapeVv0, Fields.shapePbrr, Fields.shapeBt, Fields.shapeVlane, Fields.shapeSi6, Fields.accept, Fields.noExt, Fields.e, Fields.rowD, Fields.rowA, Fields.rowB, Fields.level, VOp.lo, VOp.hi]

theorem shapeVcmp_enc (cl : BitVec 3) (op : BitVec 6) (g : Guard) (m : BitVec 3) (a : VOp) (b : VOp) (mk : Guard → BitVec 3 → VOp → VOp → Instr) :
    Fields.shapeVcmp ⟨g, cl, op, q3 m, a.lo, b.lo, rowExt 0 a.hi b.hi a.hold b.hold⟩ mk = .ok (mk g m a b) := by
  simp [Fields.shapeVcmp, Fields.shapePbrr, Fields.shapeBt, Fields.shapeVlane, Fields.shapeSi6, Fields.accept, Fields.noExt, Fields.e, Fields.rowD, Fields.rowA, Fields.rowB, Fields.level, VOp.lo, VOp.hi]

theorem shapeVmsk_enc (cl : BitVec 3) (op : BitVec 6) (g : Guard) (m : BitVec 3) (ma : BitVec 3) (mb : BitVec 3) (o : BitVec 3) (mk : Guard → BitVec 3 → BitVec 3 → BitVec 3 → BitVec 3 → Instr) :
    Fields.shapeVmsk ⟨g, cl, op, q3 m, q3 ma, o ++ mb, none⟩ mk = .ok (mk g m ma mb o) := by
  simp [Fields.shapeVmsk, Fields.shapePbrr, Fields.shapeBt, Fields.shapeVlane, Fields.shapeSi6, Fields.accept, Fields.noExt, Fields.e, Fields.rowD, Fields.rowA, Fields.rowB, Fields.level, VOp.lo, VOp.hi]

theorem shapeViota_enc (cl : BitVec 3) (op : BitVec 6) (g : Guard) (d : BitVec 8) (a : BitVec 6) (b : BitVec 6) (mk : Guard → BitVec 8 → BitVec 6 → BitVec 6 → Instr) :
    Fields.shapeViota ⟨g, cl, op, d.extractLsb' 0 6, a, b, rowExt (d.extractLsb' 6 2) 0 0 false false⟩ mk = .ok (mk g d a b) := by
  simp [Fields.shapeViota, Fields.shapePbrr, Fields.shapeBt, Fields.shapeVlane, Fields.shapeSi6, Fields.accept, Fields.noExt, Fields.e, Fields.rowD, Fields.rowA, Fields.rowB, Fields.level, VOp.lo, VOp.hi]

theorem shapeVbcst_enc (cl : BitVec 3) (op : BitVec 6) (g : Guard) (d : BitVec 8) (a : BitVec 6) (mk : Guard → BitVec 8 → BitVec 6 → Instr) :
    Fields.shapeVbcst ⟨g, cl, op, d.extractLsb' 0 6, a, 0, rowExt (d.extractLsb' 6 2) 0 0 false false⟩ mk = .ok (mk g d a) := by
  simp [Fields.shapeVbcst, Fields.shapePbrr, Fields.shapeBt, Fields.shapeVlane, Fields.shapeSi6, Fields.accept, Fields.noExt, Fields.e, Fields.rowD, Fields.rowA, Fields.rowB, Fields.level, VOp.lo, VOp.hi]

theorem shapeVlane_enc (cl : BitVec 3) (op : BitVec 6) (g : Guard) (d : BitVec 6) (a : BitVec 6) (i : BitVec 14) (mk : Guard → BitVec 6 → BitVec 6 → BitVec 14 → Instr) :
    Fields.shapeVlane ⟨g, cl, op, d, a, i.extractLsb' 0 6, wideExt14 i⟩ mk = .ok (mk g d a i) := by
  simp [Fields.shapeVlane, Fields.shapePbrr, Fields.shapeBt, Fields.shapeVlane, Fields.shapeSi6, Fields.accept, Fields.noExt, Fields.e, Fields.rowD, Fields.rowA, Fields.rowB, Fields.level, VOp.lo, VOp.hi]

theorem shapeVext_enc (cl : BitVec 3) (op : BitVec 6) (g : Guard) (d : BitVec 6) (a : BitVec 6) (i : BitVec 14) (mk : Guard → BitVec 6 → BitVec 6 → BitVec 14 → Instr) :
    Fields.shapeVext ⟨g, cl, op, d, a, i.extractLsb' 0 6, wideExt14 i⟩ mk = .ok (mk g d a i) := by
  simp [Fields.shapeVext, Fields.shapePbrr, Fields.shapeBt, Fields.shapeVlane, Fields.shapeSi6, Fields.accept, Fields.noExt, Fields.e, Fields.rowD, Fields.rowA, Fields.rowB, Fields.level, VOp.lo, VOp.hi]

theorem shapeVcvt_enc (cl : BitVec 3) (op : BitVec 6) (g : Guard) (d : BitVec 6) (a : BitVec 6) (dst : BitVec 3) (src : BitVec 3) (part : BitVec 2) (sat : Bool) (mk : Guard → BitVec 6 → BitVec 6 → BitVec 3 → BitVec 3 → BitVec 2 → Bool → Instr) (h : (cvtOk dst src part sat) = true) :
    Fields.shapeVcvt ⟨g, cl, op, d, a, src ++ dst, wideExt14 (0#5 ++ b1 sat ++ part ++ src ++ dst)⟩ mk = .ok (mk g d a dst src part sat) := by
  rw [← cvt_lo sat part src dst]
  try simp at h
  simp [Fields.shapeVcvt, Fields.shapePbrr, Fields.shapeBt, Fields.shapeVlane, Fields.shapeSi6, Fields.accept, Fields.noExt, Fields.e, Fields.rowD, Fields.rowA, Fields.rowB, Fields.level, VOp.lo, VOp.hi, h]

theorem shapeVpack_enc (cl : BitVec 3) (op : BitVec 6) (g : Guard) (d : BitVec 6) (a : BitVec 6) (f : BitVec 3) (y : BitVec 2) (x : Bool) (mk : Guard → BitVec 6 → BitVec 6 → BitVec 3 → BitVec 2 → Bool → Instr) (h : (packFmt f) = true) :
    Fields.shapeVpack ⟨g, cl, op, d, a, b1 x ++ y ++ f, none⟩ mk = .ok (mk g d a f y x) := by
  try simp at h
  simp [Fields.shapeVpack, Fields.shapePbrr, Fields.shapeBt, Fields.shapeVlane, Fields.shapeSi6, Fields.accept, Fields.noExt, Fields.e, Fields.rowD, Fields.rowA, Fields.rowB, Fields.level, VOp.lo, VOp.hi, h]

theorem shapeVunpk_enc (cl : BitVec 3) (op : BitVec 6) (g : Guard) (d : BitVec 6) (a : BitVec 6) (f : BitVec 3) (y : BitVec 2) (mk : Guard → BitVec 6 → BitVec 6 → BitVec 3 → BitVec 2 → Instr) (h : (packFmt f) = true) :
    Fields.shapeVunpk ⟨g, cl, op, d, a, 0#1 ++ y ++ f, none⟩ mk = .ok (mk g d a f y) := by
  try simp at h
  simp [Fields.shapeVunpk, Fields.shapePbrr, Fields.shapeBt, Fields.shapeVlane, Fields.shapeSi6, Fields.accept, Fields.noExt, Fields.e, Fields.rowD, Fields.rowA, Fields.rowB, Fields.level, VOp.lo, VOp.hi, h]

theorem shapeVrotl_enc (cl : BitVec 3) (op : BitVec 6) (g : Guard) (d : BitVec 6) (a : BitVec 6) (i : BitVec 14) (mk : Guard → BitVec 6 → BitVec 6 → BitVec 14 → Instr) :
    Fields.shapeVrotl ⟨g, cl, op, d, a, i.extractLsb' 0 6, wideExt14 i⟩ mk = .ok (mk g d a i) := by
  simp [Fields.shapeVrotl, Fields.shapePbrr, Fields.shapeBt, Fields.shapeVlane, Fields.shapeSi6, Fields.accept, Fields.noExt, Fields.e, Fields.rowD, Fields.rowA, Fields.rowB, Fields.level, VOp.lo, VOp.hi]

theorem shapeVldx_enc (cl : BitVec 3) (op : BitVec 6) (g : Guard) (d : BitVec 6) (a : BitVec 6) (i : Imm14) (mk : Guard → BitVec 6 → BitVec 6 → Imm14 → Instr) (h : (i.ok) = true) :
    Fields.shapeVldx ⟨g, cl, op, d, a, i.lo, i.ext⟩ mk = .ok (mk g d a i) := by
  try simp at h
  simp [Fields.shapeVldx, Fields.shapePbrr, Fields.shapeBt, Fields.shapeVlane, Fields.shapeSi6, Fields.accept, Fields.noExt, Fields.e, Fields.rowD, Fields.rowA, Fields.rowB, Fields.level, VOp.lo, VOp.hi, h]

theorem shapeVtrd_enc (cl : BitVec 3) (op : BitVec 6) (g : Guard) (d : BitVec 6) (t : BitVec 3) (a : BitVec 6) (r : BitVec 8) (mk : Guard → BitVec 6 → BitVec 3 → BitVec 6 → BitVec 8 → Instr) :
    Fields.shapeVtrd ⟨g, cl, op, d, a, r.extractLsb' 0 3 ++ t, wideExt14 (0#3 ++ r ++ t)⟩ mk = .ok (mk g d t a r) := by
  rw [← trd_lo r t]
  simp [Fields.shapeVtrd, Fields.shapePbrr, Fields.shapeBt, Fields.shapeVlane, Fields.shapeSi6, Fields.accept, Fields.noExt, Fields.e, Fields.rowD, Fields.rowA, Fields.rowB, Fields.level, VOp.lo, VOp.hi]
  simp [trd_lo]

theorem shapeVtcd_enc (cl : BitVec 3) (op : BitVec 6) (g : Guard) (d : BitVec 6) (t : BitVec 3) (a : BitVec 6) (mk : Guard → BitVec 6 → BitVec 3 → BitVec 6 → Instr) :
    Fields.shapeVtcd ⟨g, cl, op, d, a, q3 t, none⟩ mk = .ok (mk g d t a) := by
  simp [Fields.shapeVtcd, Fields.shapePbrr, Fields.shapeBt, Fields.shapeVlane, Fields.shapeSi6, Fields.accept, Fields.noExt, Fields.e, Fields.rowD, Fields.rowA, Fields.rowB, Fields.level, VOp.lo, VOp.hi]

/-- CPDI's descriptor number is even (R371). -/
theorem shapeCpdi_enc (g : Guard) (cl : BitVec 3) (op : BitVec 6) (rel : Bool) (u : BitVec 3) (c : BitVec 4) (b : BitVec 6)
    (h : (c.getLsbD 0 == false) = true) :
    Fields.shapeCpdi ⟨g, cl, op, 0#2 ++ b1 rel ++ u, 0#2 ++ c, b, none⟩ = .ok (.cpdi g rel u c b) := by
  have hc : (0#2 ++ c).getLsbD 0 = c.getLsbD 0 := by decide +revert
  have h0 : c.getLsbD 0 = false := by simpa using h
  unfold Fields.shapeCpdi
  rw [hc, h0]
  exact shapeCpy_enc cl op g rel u c b .cpdi

end Sys2Proof
end

