-- ==== Sys2Proof/Laws/PerInstr.lean ====
section
/-! SUPPORT. The family RoundTrip of statements about every instruction: what the encoder writes of a well-formed instruction, the
decoder reads back as that instruction (R272 to R278, R285). -/

namespace Sys2Proof.Laws.RoundTrip

/-- The encoder's word and extension byte of a well-formed instruction decode to it.  An event row has no encoding. -/
def Statement (i : Instr) : Prop := i.wf = true → ∀ x, encode i = some x → decode x.2 x.1 = .ok i

theorem nop (stop : Bool) : Statement (.nop stop) := by
  intro _ x hx; cases hx
  rw [decode, cut_slotWord]; rfl

theorem illegal (stop : Bool) (p : BitVec 3) (n : Bool) (o : BitVec 18) : Statement (.illegal stop p n o) := by
  intro _ x hx; cases hx
  rw [decode, cut_slotWord]; exact congrArg Except.ok (by rw [split18])

theorem add (g : Guard) (d : BitVec 6) (a : BitVec 6) (b : BitVec 6) : Statement (.add g d a b) := by
  intro _ x hx; cases hx
  rw [decode, cut_slotWord]; exact shapeSss_enc 0 2 g d a b _

theorem sub (g : Guard) (d : BitVec 6) (a : BitVec 6) (b : BitVec 6) : Statement (.sub g d a b) := by
  intro _ x hx; cases hx
  rw [decode, cut_slotWord]; exact shapeSss_enc 0 3 g d a b _

theorem addi (g : Guard) (d : BitVec 6) (a : BitVec 6) (i : Imm14) : Statement (.addi g d a i) := by
  intro h x hx; cases hx
  rw [decode, cut_slotWord]; exact shapeSi6_enc 0 4 g d a i _ h

theorem lih (g : Guard) (d : BitVec 6) (i : Imm20) : Statement (.lih g d i) := by
  intro h x hx; cases hx
  rw [decode, cut_slotWord]; exact shapeSi12_enc 0 5 g d i _ h

theorem mul (g : Guard) (d : BitVec 6) (a : BitVec 6) (b : BitVec 6) : Statement (.mul g d a b) := by
  intro _ x hx; cases hx
  rw [decode, cut_slotWord]; exact shapeSss_enc 0 6 g d a b _

theorem mulh (g : Guard) (d : BitVec 6) (a : BitVec 6) (b : BitVec 6) : Statement (.mulh g d a b) := by
  intro _ x hx; cases hx
  rw [decode, cut_slotWord]; exact shapeSss_enc 0 7 g d a b _

theorem mulhn (g : Guard) (d : BitVec 6) (a : BitVec 6) (b : BitVec 6) : Statement (.mulhn g d a b) := by
  intro _ x hx; cases hx
  rw [decode, cut_slotWord]; exact shapeSss_enc 0 8 g d a b _

theorem div (g : Guard) (d : BitVec 6) (a : BitVec 6) (b : BitVec 6) : Statement (.div g d a b) := by
  intro _ x hx; cases hx
  rw [decode, cut_slotWord]; exact shapeSss_enc 0 9 g d a b _

theorem divn (g : Guard) (d : BitVec 6) (a : BitVec 6) (b : BitVec 6) : Statement (.divn g d a b) := by
  intro _ x hx; cases hx
  rw [decode, cut_slotWord]; exact shapeSss_enc 0 10 g d a b _

theorem rem (g : Guard) (d : BitVec 6) (a : BitVec 6) (b : BitVec 6) : Statement (.rem g d a b) := by
  intro _ x hx; cases hx
  rw [decode, cut_slotWord]; exact shapeSss_enc 0 11 g d a b _

theorem remn (g : Guard) (d : BitVec 6) (a : BitVec 6) (b : BitVec 6) : Statement (.remn g d a b) := by
  intro _ x hx; cases hx
  rw [decode, cut_slotWord]; exact shapeSss_enc 0 12 g d a b _

theorem andS (g : Guard) (d : BitVec 6) (a : BitVec 6) (b : BitVec 6) : Statement (.andS g d a b) := by
  intro _ x hx; cases hx
  rw [decode, cut_slotWord]; exact shapeSss_enc 0 13 g d a b _

theorem orS (g : Guard) (d : BitVec 6) (a : BitVec 6) (b : BitVec 6) : Statement (.orS g d a b) := by
  intro _ x hx; cases hx
  rw [decode, cut_slotWord]; exact shapeSss_enc 0 14 g d a b _

theorem xorS (g : Guard) (d : BitVec 6) (a : BitVec 6) (b : BitVec 6) : Statement (.xorS g d a b) := by
  intro _ x hx; cases hx
  rw [decode, cut_slotWord]; exact shapeSss_enc 0 15 g d a b _

theorem andi (g : Guard) (d : BitVec 6) (a : BitVec 6) (i : Imm14) : Statement (.andi g d a i) := by
  intro h x hx; cases hx
  rw [decode, cut_slotWord]; exact shapeSi6_enc 0 16 g d a i _ h

theorem ori (g : Guard) (d : BitVec 6) (a : BitVec 6) (i : Imm14) : Statement (.ori g d a i) := by
  intro h x hx; cases hx
  rw [decode, cut_slotWord]; exact shapeSi6_enc 0 17 g d a i _ h

theorem xori (g : Guard) (d : BitVec 6) (a : BitVec 6) (i : Imm14) : Statement (.xori g d a i) := by
  intro h x hx; cases hx
  rw [decode, cut_slotWord]; exact shapeSi6_enc 0 18 g d a i _ h

theorem shl (g : Guard) (d : BitVec 6) (a : BitVec 6) (b : BitVec 6) : Statement (.shl g d a b) := by
  intro _ x hx; cases hx
  rw [decode, cut_slotWord]; exact shapeSss_enc 0 19 g d a b _

theorem shr (g : Guard) (d : BitVec 6) (a : BitVec 6) (b : BitVec 6) : Statement (.shr g d a b) := by
  intro _ x hx; cases hx
  rw [decode, cut_slotWord]; exact shapeSss_enc 0 20 g d a b _

theorem shra (g : Guard) (d : BitVec 6) (a : BitVec 6) (b : BitVec 6) : Statement (.shra g d a b) := by
  intro _ x hx; cases hx
  rw [decode, cut_slotWord]; exact shapeSss_enc 0 21 g d a b _

theorem shli (g : Guard) (d : BitVec 6) (a : BitVec 6) (i : BitVec 6) : Statement (.shli g d a i) := by
  intro _ x hx; cases hx
  rw [decode, cut_slotWord]; exact shapeSh6_enc 0 22 g d a i _

theorem shri (g : Guard) (d : BitVec 6) (a : BitVec 6) (i : BitVec 6) : Statement (.shri g d a i) := by
  intro _ x hx; cases hx
  rw [decode, cut_slotWord]; exact shapeSh6_enc 0 23 g d a i _

theorem shrai (g : Guard) (d : BitVec 6) (a : BitVec 6) (i : BitVec 6) : Statement (.shrai g d a i) := by
  intro _ x hx; cases hx
  rw [decode, cut_slotWord]; exact shapeSh6_enc 0 24 g d a i _

theorem rotr (g : Guard) (d : BitVec 6) (a : BitVec 6) (b : BitVec 6) : Statement (.rotr g d a b) := by
  intro _ x hx; cases hx
  rw [decode, cut_slotWord]; exact shapeSss_enc 0 25 g d a b _

theorem clz (g : Guard) (d : BitVec 6) (a : BitVec 6) : Statement (.clz g d a) := by
  intro _ x hx; cases hx
  rw [decode, cut_slotWord]; exact shapeSs0_enc 0 26 g d a _

theorem popc (g : Guard) (d : BitVec 6) (a : BitVec 6) : Statement (.popc g d a) := by
  intro _ x hx; cases hx
  rw [decode, cut_slotWord]; exact shapeSs0_enc 0 27 g d a _

theorem minS (g : Guard) (d : BitVec 6) (a : BitVec 6) (b : BitVec 6) : Statement (.minS g d a b) := by
  intro _ x hx; cases hx
  rw [decode, cut_slotWord]; exact shapeSss_enc 0 28 g d a b _

theorem maxS (g : Guard) (d : BitVec 6) (a : BitVec 6) (b : BitVec 6) : Statement (.maxS g d a b) := by
  intro _ x hx; cases hx
  rw [decode, cut_slotWord]; exact shapeSss_enc 0 29 g d a b _

theorem minn (g : Guard) (d : BitVec 6) (a : BitVec 6) (b : BitVec 6) : Statement (.minn g d a b) := by
  intro _ x hx; cases hx
  rw [decode, cut_slotWord]; exact shapeSss_enc 0 30 g d a b _

theorem maxn (g : Guard) (d : BitVec 6) (a : BitVec 6) (b : BitVec 6) : Statement (.maxn g d a b) := by
  intro _ x hx; cases hx
  rw [decode, cut_slotWord]; exact shapeSss_enc 0 31 g d a b _

theorem sel (g : Guard) (d : BitVec 6) (a : BitVec 6) (b : BitVec 6) : Statement (.sel g d a b) := by
  intro _ x hx; cases hx
  rw [decode, cut_slotWord]; exact shapeSss_enc 0 32 g d a b _

theorem ceq (g : Guard) (q : BitVec 3) (a : BitVec 6) (b : BitVec 6) : Statement (.ceq g q a b) := by
  intro _ x hx; cases hx
  rw [decode, cut_slotWord]; exact shapeQss_enc 0 33 g q a b _

theorem cne (g : Guard) (q : BitVec 3) (a : BitVec 6) (b : BitVec 6) : Statement (.cne g q a b) := by
  intro _ x hx; cases hx
  rw [decode, cut_slotWord]; exact shapeQss_enc 0 34 g q a b _

theorem clt (g : Guard) (q : BitVec 3) (a : BitVec 6) (b : BitVec 6) : Statement (.clt g q a b) := by
  intro _ x hx; cases hx
  rw [decode, cut_slotWord]; exact shapeQss_enc 0 35 g q a b _

theorem cle (g : Guard) (q : BitVec 3) (a : BitVec 6) (b : BitVec 6) : Statement (.cle g q a b) := by
  intro _ x hx; cases hx
  rw [decode, cut_slotWord]; exact shapeQss_enc 0 36 g q a b _

theorem cltn (g : Guard) (q : BitVec 3) (a : BitVec 6) (b : BitVec 6) : Statement (.cltn g q a b) := by
  intro _ x hx; cases hx
  rw [decode, cut_slotWord]; exact shapeQss_enc 0 37 g q a b _

theorem clen (g : Guard) (q : BitVec 3) (a : BitVec 6) (b : BitVec 6) : Statement (.clen g q a b) := by
  intro _ x hx; cases hx
  rw [decode, cut_slotWord]; exact shapeQss_enc 0 38 g q a b _

theorem ceqi (g : Guard) (q : BitVec 3) (a : BitVec 6) (i : Imm14) : Statement (.ceqi g q a i) := by
  intro h x hx; cases hx
  rw [decode, cut_slotWord]; exact shapeQsi6_enc 0 39 g q a i _ h

theorem clti (g : Guard) (q : BitVec 3) (a : BitVec 6) (i : Imm14) : Statement (.clti g q a i) := by
  intro h x hx; cases hx
  rw [decode, cut_slotWord]; exact shapeQsi6_enc 0 40 g q a i _ h

theorem badr (g : Guard) (d : BitVec 6) (a : BitVec 6) (b : BitVec 6) : Statement (.badr g d a b) := by
  intro _ x hx; cases hx
  rw [decode, cut_slotWord]; exact shapeSss_enc 0 41 g d a b _

theorem boff (g : Guard) (d : BitVec 6) (a : BitVec 6) (i : Imm14) : Statement (.boff g d a i) := by
  intro h x hx; cases hx
  rw [decode, cut_slotWord]; exact shapeSi6_enc 0 42 g d a i _ h

theorem ldb (g : Guard) (d : BitVec 6) (a : BitVec 6) (i : Imm14) : Statement (.ldb g d a i) := by
  intro h x hx; cases hx
  rw [decode, cut_slotWord]; exact shapeSi6_enc 0 43 g d a i _ h

theorem ldh (g : Guard) (d : BitVec 6) (a : BitVec 6) (i : Imm14) : Statement (.ldh g d a i) := by
  intro h x hx; cases hx
  rw [decode, cut_slotWord]; exact shapeSi6_enc 0 44 g d a i _ h

theorem ldw (g : Guard) (d : BitVec 6) (a : BitVec 6) (i : Imm14) : Statement (.ldw g d a i) := by
  intro h x hx; cases hx
  rw [decode, cut_slotWord]; exact shapeSi6_enc 0 45 g d a i _ h

theorem ldd (g : Guard) (d : BitVec 6) (a : BitVec 6) (i : Imm14) : Statement (.ldd g d a i) := by
  intro h x hx; cases hx
  rw [decode, cut_slotWord]; exact shapeSi6_enc 0 46 g d a i _ h

theorem stb (g : Guard) (d : BitVec 6) (a : BitVec 6) (i : Imm14) : Statement (.stb g d a i) := by
  intro h x hx; cases hx
  rw [decode, cut_slotWord]; exact shapeSi6_enc 0 47 g d a i _ h

theorem sth (g : Guard) (d : BitVec 6) (a : BitVec 6) (i : Imm14) : Statement (.sth g d a i) := by
  intro h x hx; cases hx
  rw [decode, cut_slotWord]; exact shapeSi6_enc 0 48 g d a i _ h

theorem stw (g : Guard) (d : BitVec 6) (a : BitVec 6) (i : Imm14) : Statement (.stw g d a i) := by
  intro h x hx; cases hx
  rw [decode, cut_slotWord]; exact shapeSi6_enc 0 49 g d a i _ h

theorem std (g : Guard) (d : BitVec 6) (a : BitVec 6) (i : Imm14) : Statement (.std g d a i) := by
  intro h x hx; cases hx
  rw [decode, cut_slotWord]; exact shapeSi6_enc 0 50 g d a i _ h

theorem ldl (g : Guard) (d : BitVec 6) (a : BitVec 6) (i : Imm14) : Statement (.ldl g d a i) := by
  intro h x hx; cases hx
  rw [decode, cut_slotWord]; exact shapeSi6_enc 0 51 g d a i _ h

theorem stl (g : Guard) (d : BitVec 6) (a : BitVec 6) (i : Imm14) : Statement (.stl g d a i) := by
  intro h x hx; cases hx
  rw [decode, cut_slotWord]; exact shapeSi6_enc 0 52 g d a i _ h

theorem aadd (g : Guard) (d : BitVec 6) (a : BitVec 6) (b : BitVec 6) : Statement (.aadd g d a b) := by
  intro _ x hx; cases hx
  rw [decode, cut_slotWord]; exact shapeSss_enc 0 53 g d a b _

theorem amin (g : Guard) (d : BitVec 6) (a : BitVec 6) (b : BitVec 6) : Statement (.amin g d a b) := by
  intro _ x hx; cases hx
  rw [decode, cut_slotWord]; exact shapeSss_enc 0 54 g d a b _

theorem amax (g : Guard) (d : BitVec 6) (a : BitVec 6) (b : BitVec 6) : Statement (.amax g d a b) := by
  intro _ x hx; cases hx
  rw [decode, cut_slotWord]; exact shapeSss_enc 0 55 g d a b _

theorem aor (g : Guard) (d : BitVec 6) (a : BitVec 6) (b : BitVec 6) : Statement (.aor g d a b) := by
  intro _ x hx; cases hx
  rw [decode, cut_slotWord]; exact shapeSss_enc 0 56 g d a b _

theorem axch (g : Guard) (d : BitVec 6) (a : BitVec 6) (b : BitVec 6) : Statement (.axch g d a b) := by
  intro _ x hx; cases hx
  rw [decode, cut_slotWord]; exact shapeSss_enc 0 57 g d a b _

theorem acas (g : Guard) (d : BitVec 6) (a : BitVec 6) (b : BitVec 6) : Statement (.acas g d a b) := by
  intro _ x hx; cases hx
  rw [decode, cut_slotWord]; exact shapeSss_enc 0 58 g d a b _

theorem qmov (g : Guard) (q : BitVec 3) (a : BitVec 6) : Statement (.qmov g q a) := by
  intro _ x hx; cases hx
  rw [decode, cut_slotWord]; exact shapeQs0_enc 0 59 g q a _

theorem movq (g : Guard) (d : BitVec 6) : Statement (.movq g d) := by
  intro _ x hx; cases hx
  rw [decode, cut_slotWord]; exact shapeS00_enc 0 60 g d _

theorem qlog (g : Guard) (q : BitVec 3) (qa : BitVec 3) (qb : BitVec 3) (o : BitVec 3) : Statement (.qlog g q qa qb o) := by
  intro _ x hx; cases hx
  rw [decode, cut_slotWord]; exact shapeQlog_enc 0 61 g q qa qb o _

theorem pbr (g : Guard) (t : BitVec 2) (i : Imm20) : Statement (.pbr g t i) := by
  intro h x hx; cases hx
  rw [decode, cut_slotWord]; exact shapePbr_enc 5 1 g t i _ h

theorem pbrr (g : Guard) (t : BitVec 2) (a : BitVec 6) : Statement (.pbrr g t a) := by
  intro _ x hx; cases hx
  rw [decode, cut_slotWord]; exact shapePbrr_enc 5 2 g t a _

theorem br (g : Guard) (t : BitVec 2) : Statement (.br g t) := by
  intro _ x hx; cases hx
  rw [decode, cut_slotWord]; exact shapeBt_enc 5 3 g t _

theorem brc (g : Guard) (t : BitVec 2) (a : BitVec 6) : Statement (.brc g t a) := by
  intro _ x hx; cases hx
  rw [decode, cut_slotWord]; exact shapeBts_enc 5 4 g t a _

theorem call (g : Guard) (t : BitVec 2) : Statement (.call g t) := by
  intro _ x hx; cases hx
  rw [decode, cut_slotWord]; exact shapeBt_enc 5 5 g t _

theorem ret (g : Guard) : Statement (.ret g) := by
  intro _ x hx; cases hx
  rw [decode, cut_slotWord]; exact shapeZ_enc 5 6 g _

theorem loop (g : Guard) (l : BitVec 3) (a : BitVec 6) (t : BitVec 2) : Statement (.loop g l a t) := by
  intro h x hx; cases hx
  rw [decode, cut_slotWord]; exact shapeLoop_enc 5 7 g l a t _ (by simpa [Instr.wf] using h)

theorem loopi (g : Guard) (l : BitVec 3) (t : BitVec 2) (i : BitVec 20) : Statement (.loopi g l t i) := by
  intro h x hx; cases hx
  rw [decode, cut_slotWord]; exact shapeLoopi_enc 5 8 g l t i _ (by simpa [Instr.wf] using h)

theorem lstr (g : Guard) (l : BitVec 3) (a : BitVec 6) (i : Imm14) : Statement (.lstr g l a i) := by
  intro h x hx; cases hx
  rw [decode, cut_slotWord]; exact shapeLstr_enc 5 9 g l a i _ h

theorem lidx (g : Guard) (d : BitVec 6) (l : BitVec 3) : Statement (.lidx g d l) := by
  intro h x hx; cases hx
  rw [decode, cut_slotWord]; exact shapeLidx_enc 5 10 g d l _ (by simpa [Instr.wf] using h)

theorem lbrk (g : Guard) (l : BitVec 3) : Statement (.lbrk g l) := by
  intro h x hx; cases hx
  rw [decode, cut_slotWord]; exact shapeLbrk_enc 5 11 g l _ (by simpa [Instr.wf] using h)

theorem spawn (g : Guard) (k : BitVec 2) (a : BitVec 6) (t : BitVec 2) : Statement (.spawn g k a t) := by
  intro _ x hx; cases hx
  rw [decode, cut_slotWord]; exact shapeSpawn_enc 5 12 g k a t _

theorem joinK (g : Guard) (k : BitVec 2) : Statement (.joinK g k) := by
  intro _ x hx; cases hx
  rw [decode, cut_slotWord]; exact shapeJoin_enc 5 13 g k _

theorem safe (g : Guard) (i : BitVec 12) : Statement (.safe g i) := by
  intro _ x hx; cases hx
  rw [decode, cut_slotWord]; exact shapeSafe_enc 5 14 g i _

theorem halt (g : Guard) : Statement (.halt g) := by
  intro _ x hx; cases hx
  rw [decode, cut_slotWord]; exact shapeZ_enc 5 15 g _

theorem trap (g : Guard) (i : BitVec 20) : Statement (.trap g i) := by
  intro _ x hx; cases hx
  rw [decode, cut_slotWord]; exact shapeI20_enc 5 16 g i _

theorem vany (g : Guard) (q : BitVec 3) (ma : BitVec 3) : Statement (.vany g q ma) := by
  intro _ x hx; cases hx
  rw [decode, cut_slotWord]; exact shapeVote_enc 5 17 g q ma _

theorem vall (g : Guard) (q : BitVec 3) (ma : BitVec 3) : Statement (.vall g q ma) := by
  intro _ x hx; cases hx
  rw [decode, cut_slotWord]; exact shapeVote_enc 5 18 g q ma _

theorem waitt (g : Guard) (a : BitVec 6) : Statement (.waitt g a) := by
  intro _ x hx; cases hx
  rw [decode, cut_slotWord]; exact shapeA_enc 5 19 g a _

theorem waitl (g : Guard) (a : BitVec 6) : Statement (.waitl g a) := by
  intro _ x hx; cases hx
  rw [decode, cut_slotWord]; exact shapeA_enc 5 20 g a _

theorem psel (g : Guard) (t : BitVec 8) (a : BitVec 6) : Statement (.psel g t a) := by
  intro _ x hx; cases hx
  rw [decode, cut_slotWord]; exact shapePsel_enc 5 21 g t a _

theorem brk (g : Guard) (i : BitVec 20) : Statement (.brk g i) := by
  intro _ x hx; cases hx
  rw [decode, cut_slotWord]; exact shapeI20_enc 5 22 g i _

theorem tret (g : Guard) (i : Bool) : Statement (.tret g i) := by
  intro _ x hx; cases hx
  rw [decode, cut_slotWord]; exact shapeTret_enc 5 23 g i _

theorem phase (g : Guard) : Statement (.phase g) := by
  intro _ x hx; cases hx
  rw [decode, cut_slotWord]; exact shapeZ_enc 6 1 g _

theorem bar (g : Guard) : Statement (.bar g) := by
  intro _ x hx; cases hx
  rw [decode, cut_slotWord]; exact shapeZ_enc 6 2 g _

theorem send (g : Guard) (ch : BitVec 5) (va : BitVec 8) (j : BitVec 2) : Statement (.send g ch va j) := by
  intro _ x hx; cases hx
  rw [decode, cut_slotWord]; exact shapeSend_enc 6 3 g ch va j _

theorem recv (g : Guard) (vd : BitVec 8) (ch : BitVec 5) (j : BitVec 2) : Statement (.recv g vd ch j) := by
  intro _ x hx; cases hx
  rw [decode, cut_slotWord]; exact shapeRecv_enc 6 4 g vd ch j _

theorem sends (g : Guard) (ch : BitVec 5) (a : BitVec 6) : Statement (.sends g ch a) := by
  intro _ x hx; cases hx
  rw [decode, cut_slotWord]; exact shapeSends_enc 6 5 g ch a _

theorem recvs (g : Guard) (d : BitVec 6) (ch : BitVec 5) : Statement (.recvs g d ch) := by
  intro _ x hx; cases hx
  rw [decode, cut_slotWord]; exact shapeRecvs_enc 6 6 g d ch _

theorem bacq (g : Guard) (m : BitVec 6) : Statement (.bacq g m) := by
  intro _ x hx; cases hx
  rw [decode, cut_slotWord]; exact shapeMask6_enc 6 7 g m _

theorem brel (g : Guard) (m : BitVec 6) : Statement (.brel g m) := by
  intro _ x hx; cases hx
  rw [decode, cut_slotWord]; exact shapeMask6_enc 6 8 g m _

theorem precW (g : Guard) (d : BitVec 6) (a : BitVec 6) (b : BitVec 6) : Statement (.precW g d a b) := by
  intro _ x hx; cases hx
  rw [decode, cut_slotWord]; exact shapeSss_enc 6 9 g d a b _

theorem preci (g : Guard) (fs : PreciSel) (i : BitVec 20) : Statement (.preci g fs i) := by
  intro h x hx; cases hx
  rw [decode, cut_slotWord]; exact shapePreci_enc 6 10 g fs i _ h

theorem shape (g : Guard) (n : BitVec 2) (vec : Bool) (a : BitVec 6) (b : BitVec 6) : Statement (.shape g n vec a b) := by
  intro h x hx; cases hx
  rw [decode, cut_slotWord]; exact shapeShape_enc 6 11 g n vec a b _ h

theorem shapq (g : Guard) (d : BitVec 6) (a : BitVec 6) (b : BitVec 6) : Statement (.shapq g d a b) := by
  intro _ x hx; cases hx
  rw [decode, cut_slotWord]; exact shapeSss_enc 6 12 g d a b _

theorem view (g : Guard) (w : BitVec 5) (a : BitVec 6) (b : BitVec 6) : Statement (.view g w a b) := by
  intro h x hx; cases hx
  rw [decode, cut_slotWord]; exact shapeView_enc 6 13 g w a b _ (by simpa [Instr.wf] using h)

theorem viewq (g : Guard) (d : BitVec 6) (w : BitVec 4) : Statement (.viewq g d w) := by
  intro h x hx; cases hx
  rw [decode, cut_slotWord]; exact shapeViewq_enc 6 14 g d w _ (by simpa [Instr.wf] using h)

theorem getc (g : Guard) (d : BitVec 6) (x : BitVec 8) : Statement (.getc g d x) := by
  intro _ x hx; cases hx
  rw [decode, cut_slotWord]; exact shapeCr_enc 6 15 g d x _

theorem setc (g : Guard) (d : BitVec 6) (x : BitVec 8) : Statement (.setc g d x) := by
  intro _ x hx; cases hx
  rw [decode, cut_slotWord]; exact shapeCr_enc 6 16 g d x _

theorem stat (g : Guard) (d : BitVec 6) (j : BitVec 2) (e : BitVec 4) : Statement (.stat g d j e) := by
  intro _ x hx; cases hx
  rw [decode, cut_slotWord]; exact shapeStat_enc 6 17 g d j e _

theorem engy (g : Guard) (d : BitVec 6) : Statement (.engy g d) := by
  intro _ x hx; cases hx
  rw [decode, cut_slotWord]; exact shapeS00_enc 6 18 g d _

theorem gtc (g : Guard) (d : BitVec 6) : Statement (.gtc g d) := by
  intro _ x hx; cases hx
  rw [decode, cut_slotWord]; exact shapeS00_enc 6 19 g d _

theorem lcr (g : Guard) (d : BitVec 6) (a : BitVec 6) : Statement (.lcr g d a) := by
  intro _ x hx; cases hx
  rw [decode, cut_slotWord]; exact shapeSs0_enc 6 20 g d a _

theorem fence (g : Guard) : Statement (.fence g) := by
  intro _ x hx; cases hx
  rw [decode, cut_slotWord]; exact shapeZ_enc 6 21 g _

theorem invq (g : Guard) : Statement (.invq g) := by
  intro _ x hx; cases hx
  rw [decode, cut_slotWord]; exact shapeZ_enc 6 22 g _

theorem svcYield (g : Guard) : Statement (.svcYield g) := by
  intro _ x hx; cases hx
  rw [decode, cut_slotWord]; rfl

theorem svcFlush (g : Guard) : Statement (.svcFlush g) := by
  intro _ x hx; cases hx
  rw [decode, cut_slotWord]; rfl

theorem cdsc (g : Guard) (c : BitVec 4) (a : BitVec 6) (b : BitVec 6) : Statement (.cdsc g c a b) := by
  intro _ x hx; cases hx
  rw [decode, cut_slotWord]; exact shapeCdsc_enc 6 24 g c a b _

theorem kzero (g : Guard) (d : BitVec 6) (a : BitVec 6) : Statement (.kzero g d a) := by
  intro _ x hx; cases hx
  rw [decode, cut_slotWord]; exact shapeSs0_enc 6 25 g d a _

theorem scrb (g : Guard) (d : BitVec 6) (a : BitVec 6) (b : BitVec 6) : Statement (.scrb g d a b) := by
  intro _ x hx; cases hx
  rw [decode, cut_slotWord]; exact shapeSss_enc 6 26 g d a b _

theorem scrq (g : Guard) (d : BitVec 6) (a : BitVec 6) (b : BitVec 6) : Statement (.scrq g d a b) := by
  intro _ x hx; cases hx
  rw [decode, cut_slotWord]; exact shapeSss_enc 6 27 g d a b _

theorem frel (g : Guard) (d : BitVec 6) (a : BitVec 6) (b : BitVec 6) : Statement (.frel g d a b) := by
  intro _ x hx; cases hx
  rw [decode, cut_slotWord]; exact shapeSss_enc 6 28 g d a b _

theorem plwr (g : Guard) (d : BitVec 6) (a : BitVec 6) (b : BitVec 6) : Statement (.plwr g d a b) := by
  intro _ x hx; cases hx
  rw [decode, cut_slotWord]; exact shapeSss_enc 6 29 g d a b _

theorem btwr (g : Guard) (d : BitVec 6) (a : BitVec 6) (b : BitVec 6) : Statement (.btwr g d a b) := by
  intro _ x hx; cases hx
  rw [decode, cut_slotWord]; exact shapeSss_enc 6 30 g d a b _

theorem qwrt (g : Guard) (d : BitVec 6) (a : BitVec 6) (b : BitVec 6) : Statement (.qwrt g d a b) := by
  intro _ x hx; cases hx
  rw [decode, cut_slotWord]; exact shapeSss_enc 6 31 g d a b _

theorem custodianResult (id : Nat) : Statement (.custodianResult id) := by
  intro _ x hx; cases hx

theorem mma (g : Guard) (sh : BitVec 2) (x : BitVec 3) (y : BitVec 3) : Statement (.mma g sh x y) := by
  intro h x hx; cases hx
  rw [decode, cut_slotWord]; exact shapeMma_enc 3 1 g sh x y _ h

theorem mmaz (g : Guard) (sh : BitVec 2) (x : BitVec 3) (y : BitVec 3) : Statement (.mmaz g sh x y) := by
  intro h x hx; cases hx
  rw [decode, cut_slotWord]; exact shapeMma_enc 3 2 g sh x y _ h

theorem mdrn (g : Guard) (f : BitVec 2) (u : BitVec 2) (sh : BitVec 2) (add : Bool) : Statement (.mdrn g f u sh add) := by
  intro h x hx; cases hx
  rw [decode, cut_slotWord]; exact shapeMdrn_enc 3 3 g f u sh add _ h

theorem mclr (g : Guard) : Statement (.mclr g) := by
  intro _ x hx; cases hx
  rw [decode, cut_slotWord]; exact shapeZ_enc 3 4 g _

theorem mscl (g : Guard) (o : Bool) (x : BitVec 3) : Statement (.mscl g o x) := by
  intro _ x hx; cases hx
  rw [decode, cut_slotWord]; exact shapeMscl_enc 3 5 g o x _

theorem mvcn (g : Guard) (en : Bool) (i : BitVec 16) : Statement (.mvcn g en i) := by
  intro _ x hx; cases hx
  rw [decode, cut_slotWord]; exact shapeMvcn_enc 3 6 g en i _

theorem msta (g : Guard) (d : BitVec 6) (a : BitVec 6) : Statement (.msta g d a) := by
  intro _ x hx; cases hx
  rw [decode, cut_slotWord]; exact shapeSs0_enc 3 7 g d a _

theorem mmat (g : Guard) (f : BitVec 2) (u : BitVec 2) (sh : BitVec 2) (x : BitVec 3) (y : BitVec 3) : Statement (.mmat g f u sh x y) := by
  intro h x hx; cases hx
  rw [decode, cut_slotWord]; exact shapeMmat_enc 3 8 g f u sh x y _ h

theorem matrixCheck (t k : Nat) (block main check row col : Nat) : Statement (.matrixCheck t k block main check row col) := by
  intro _ x hx; cases hx

theorem cpl (g : Guard) (rel : Bool) (u : BitVec 3) (c : BitVec 4) : Statement (.cpl g rel u c) := by
  intro _ x hx; cases hx
  rw [decode, cut_slotWord]; exact shapeCpl_enc 4 1 g rel u c _

theorem cpi (g : Guard) (rel : Bool) (u : BitVec 3) (c : BitVec 4) (b : BitVec 6) : Statement (.cpi g rel u c b) := by
  intro _ x hx; cases hx
  rw [decode, cut_slotWord]; exact shapeCpy_enc 4 2 g rel u c b _

theorem cpo (g : Guard) (rel : Bool) (u : BitVec 3) (c : BitVec 4) (b : BitVec 6) : Statement (.cpo g rel u c b) := by
  intro _ x hx; cases hx
  rw [decode, cut_slotWord]; exact shapeCpy_enc 4 3 g rel u c b _

theorem cpdi (g : Guard) (rel : Bool) (u : BitVec 3) (c : BitVec 4) (b : BitVec 6) : Statement (.cpdi g rel u c b) := by
  intro h x hx; cases hx
  rw [decode, cut_slotWord]; exact shapeCpdi_enc g 4 4 rel u c b h

theorem cpdo (g : Guard) (rel : Bool) (u : BitVec 3) (c : BitVec 4) (b : BitVec 6) : Statement (.cpdo g rel u c b) := by
  intro _ x hx; cases hx
  rw [decode, cut_slotWord]; exact shapeCpy_enc 4 5 g rel u c b _

theorem cps (g : Guard) (rel : Bool) (u : BitVec 3) (c : BitVec 4) (b : BitVec 6) : Statement (.cps g rel u c b) := by
  intro _ x hx; cases hx
  rw [decode, cut_slotWord]; exact shapeCpy_enc 4 6 g rel u c b _

theorem cpg (g : Guard) (rel : Bool) (u : BitVec 3) (c : BitVec 4) (b : BitVec 6) : Statement (.cpg g rel u c b) := by
  intro _ x hx; cases hx
  rw [decode, cut_slotWord]; exact shapeCpy_enc 4 7 g rel u c b _

theorem cpst (g : Guard) (rel : Bool) (u : BitVec 3) (c : BitVec 4) (b : BitVec 6) : Statement (.cpst g rel u c b) := by
  intro _ x hx; cases hx
  rw [decode, cut_slotWord]; exact shapeCpy_enc 4 8 g rel u c b _

theorem cpb (g : Guard) (rel : Bool) (u : BitVec 3) (c : BitVec 4) (b : BitVec 6) : Statement (.cpb g rel u c b) := by
  intro _ x hx; cases hx
  rw [decode, cut_slotWord]; exact shapeCpy_enc 4 9 g rel u c b _

theorem cpr (g : Guard) (rel : Bool) (u : BitVec 3) (c : BitVec 4) (b : BitVec 6) : Statement (.cpr g rel u c b) := by
  intro _ x hx; cases hx
  rw [decode, cut_slotWord]; exact shapeCpy_enc 4 10 g rel u c b _

theorem copyComplete (id : Nat) : Statement (.copyComplete id) := by
  intro _ x hx; cases hx

theorem vaddVa (g : Guard) (d : BitVec 8) (a : VOp) (b : VOp) : Statement (.vaddVa g d a b) := by
  intro _ x hx; cases hx
  rw [decode, cut_slotWord]; exact shapeVvv_enc 1 1 g d a b _

theorem vaddVb (g : Guard) (d : BitVec 8) (a : VOp) (b : VOp) : Statement (.vaddVb g d a b) := by
  intro _ x hx; cases hx
  rw [decode, cut_slotWord]; exact shapeVvv_enc 2 1 g d a b _

theorem vsubVa (g : Guard) (d : BitVec 8) (a : VOp) (b : VOp) : Statement (.vsubVa g d a b) := by
  intro _ x hx; cases hx
  rw [decode, cut_slotWord]; exact shapeVvv_enc 1 2 g d a b _

theorem vsubVb (g : Guard) (d : BitVec 8) (a : VOp) (b : VOp) : Statement (.vsubVb g d a b) := by
  intro _ x hx; cases hx
  rw [decode, cut_slotWord]; exact shapeVvv_enc 2 2 g d a b _

theorem vmulVa (g : Guard) (d : BitVec 8) (a : VOp) (b : VOp) : Statement (.vmulVa g d a b) := by
  intro _ x hx; cases hx
  rw [decode, cut_slotWord]; exact shapeVvv_enc 1 3 g d a b _

theorem vmulVb (g : Guard) (d : BitVec 8) (a : VOp) (b : VOp) : Statement (.vmulVb g d a b) := by
  intro _ x hx; cases hx
  rw [decode, cut_slotWord]; exact shapeVvv_enc 2 3 g d a b _

theorem vfmaVa (g : Guard) (d : BitVec 8) (a : VOp) (b : VOp) : Statement (.vfmaVa g d a b) := by
  intro _ x hx; cases hx
  rw [decode, cut_slotWord]; exact shapeVvv_enc 1 4 g d a b _

theorem vfmaVb (g : Guard) (d : BitVec 8) (a : VOp) (b : VOp) : Statement (.vfmaVb g d a b) := by
  intro _ x hx; cases hx
  rw [decode, cut_slotWord]; exact shapeVvv_enc 2 4 g d a b _

theorem vfmsVa (g : Guard) (d : BitVec 8) (a : VOp) (b : VOp) : Statement (.vfmsVa g d a b) := by
  intro _ x hx; cases hx
  rw [decode, cut_slotWord]; exact shapeVvv_enc 1 5 g d a b _

theorem vfmsVb (g : Guard) (d : BitVec 8) (a : VOp) (b : VOp) : Statement (.vfmsVb g d a b) := by
  intro _ x hx; cases hx
  rw [decode, cut_slotWord]; exact shapeVvv_enc 2 5 g d a b _

theorem vfnmaVa (g : Guard) (d : BitVec 8) (a : VOp) (b : VOp) : Statement (.vfnmaVa g d a b) := by
  intro _ x hx; cases hx
  rw [decode, cut_slotWord]; exact shapeVvv_enc 1 6 g d a b _

theorem vfnmaVb (g : Guard) (d : BitVec 8) (a : VOp) (b : VOp) : Statement (.vfnmaVb g d a b) := by
  intro _ x hx; cases hx
  rw [decode, cut_slotWord]; exact shapeVvv_enc 2 6 g d a b _

theorem vminVa (g : Guard) (d : BitVec 8) (a : VOp) (b : VOp) : Statement (.vminVa g d a b) := by
  intro _ x hx; cases hx
  rw [decode, cut_slotWord]; exact shapeVvv_enc 1 7 g d a b _

theorem vminVb (g : Guard) (d : BitVec 8) (a : VOp) (b : VOp) : Statement (.vminVb g d a b) := by
  intro _ x hx; cases hx
  rw [decode, cut_slotWord]; exact shapeVvv_enc 2 7 g d a b _

theorem vmaxVa (g : Guard) (d : BitVec 8) (a : VOp) (b : VOp) : Statement (.vmaxVa g d a b) := by
  intro _ x hx; cases hx
  rw [decode, cut_slotWord]; exact shapeVvv_enc 1 8 g d a b _

theorem vmaxVb (g : Guard) (d : BitVec 8) (a : VOp) (b : VOp) : Statement (.vmaxVb g d a b) := by
  intro _ x hx; cases hx
  rw [decode, cut_slotWord]; exact shapeVvv_enc 2 8 g d a b _

theorem vabsVa (g : Guard) (d : BitVec 8) (a : VOp) : Statement (.vabsVa g d a) := by
  intro _ x hx; cases hx
  rw [decode, cut_slotWord]; exact shapeVv0_enc 1 9 g d a _

theorem vabsVb (g : Guard) (d : BitVec 8) (a : VOp) : Statement (.vabsVb g d a) := by
  intro _ x hx; cases hx
  rw [decode, cut_slotWord]; exact shapeVv0_enc 2 9 g d a _

theorem vnegVa (g : Guard) (d : BitVec 8) (a : VOp) : Statement (.vnegVa g d a) := by
  intro _ x hx; cases hx
  rw [decode, cut_slotWord]; exact shapeVv0_enc 1 10 g d a _

theorem vnegVb (g : Guard) (d : BitVec 8) (a : VOp) : Statement (.vnegVb g d a) := by
  intro _ x hx; cases hx
  rw [decode, cut_slotWord]; exact shapeVv0_enc 2 10 g d a _

theorem vrcpeVa (g : Guard) (d : BitVec 8) (a : VOp) : Statement (.vrcpeVa g d a) := by
  intro _ x hx; cases hx
  rw [decode, cut_slotWord]; exact shapeVv0_enc 1 11 g d a _

theorem vrcpeVb (g : Guard) (d : BitVec 8) (a : VOp) : Statement (.vrcpeVb g d a) := by
  intro _ x hx; cases hx
  rw [decode, cut_slotWord]; exact shapeVv0_enc 2 11 g d a _

theorem vrsqeVa (g : Guard) (d : BitVec 8) (a : VOp) : Statement (.vrsqeVa g d a) := by
  intro _ x hx; cases hx
  rw [decode, cut_slotWord]; exact shapeVv0_enc 1 12 g d a _

theorem vrsqeVb (g : Guard) (d : BitVec 8) (a : VOp) : Statement (.vrsqeVb g d a) := by
  intro _ x hx; cases hx
  rw [decode, cut_slotWord]; exact shapeVv0_enc 2 12 g d a _

theorem vdiv (g : Guard) (d : BitVec 8) (a : VOp) (b : VOp) : Statement (.vdiv g d a b) := by
  intro _ x hx; cases hx
  rw [decode, cut_slotWord]; exact shapeVvv_enc 1 13 g d a b _

theorem vsqrt (g : Guard) (d : BitVec 8) (a : VOp) : Statement (.vsqrt g d a) := by
  intro _ x hx; cases hx
  rw [decode, cut_slotWord]; exact shapeVv0_enc 1 14 g d a _

theorem vexp2 (g : Guard) (d : BitVec 8) (a : VOp) : Statement (.vexp2 g d a) := by
  intro _ x hx; cases hx
  rw [decode, cut_slotWord]; exact shapeVv0_enc 1 15 g d a _

theorem vlog2 (g : Guard) (d : BitVec 8) (a : VOp) : Statement (.vlog2 g d a) := by
  intro _ x hx; cases hx
  rw [decode, cut_slotWord]; exact shapeVv0_enc 1 16 g d a _

theorem viaddVa (g : Guard) (d : BitVec 8) (a : VOp) (b : VOp) : Statement (.viaddVa g d a b) := by
  intro _ x hx; cases hx
  rw [decode, cut_slotWord]; exact shapeVvv_enc 1 17 g d a b _

theorem viaddVb (g : Guard) (d : BitVec 8) (a : VOp) (b : VOp) : Statement (.viaddVb g d a b) := by
  intro _ x hx; cases hx
  rw [decode, cut_slotWord]; exact shapeVvv_enc 2 17 g d a b _

theorem visubVa (g : Guard) (d : BitVec 8) (a : VOp) (b : VOp) : Statement (.visubVa g d a b) := by
  intro _ x hx; cases hx
  rw [decode, cut_slotWord]; exact shapeVvv_enc 1 18 g d a b _

theorem visubVb (g : Guard) (d : BitVec 8) (a : VOp) (b : VOp) : Statement (.visubVb g d a b) := by
  intro _ x hx; cases hx
  rw [decode, cut_slotWord]; exact shapeVvv_enc 2 18 g d a b _

theorem vimulVa (g : Guard) (d : BitVec 8) (a : VOp) (b : VOp) : Statement (.vimulVa g d a b) := by
  intro _ x hx; cases hx
  rw [decode, cut_slotWord]; exact shapeVvv_enc 1 19 g d a b _

theorem vimulVb (g : Guard) (d : BitVec 8) (a : VOp) (b : VOp) : Statement (.vimulVb g d a b) := by
  intro _ x hx; cases hx
  rw [decode, cut_slotWord]; exact shapeVvv_enc 2 19 g d a b _

theorem vimacVa (g : Guard) (d : BitVec 8) (a : VOp) (b : VOp) : Statement (.vimacVa g d a b) := by
  intro _ x hx; cases hx
  rw [decode, cut_slotWord]; exact shapeVvv_enc 1 20 g d a b _

theorem vimacVb (g : Guard) (d : BitVec 8) (a : VOp) (b : VOp) : Statement (.vimacVb g d a b) := by
  intro _ x hx; cases hx
  rw [decode, cut_slotWord]; exact shapeVvv_enc 2 20 g d a b _

theorem vandVa (g : Guard) (d : BitVec 8) (a : VOp) (b : VOp) : Statement (.vandVa g d a b) := by
  intro _ x hx; cases hx
  rw [decode, cut_slotWord]; exact shapeVvv_enc 1 21 g d a b _

theorem vandVb (g : Guard) (d : BitVec 8) (a : VOp) (b : VOp) : Statement (.vandVb g d a b) := by
  intro _ x hx; cases hx
  rw [decode, cut_slotWord]; exact shapeVvv_enc 2 21 g d a b _

theorem vorVa (g : Guard) (d : BitVec 8) (a : VOp) (b : VOp) : Statement (.vorVa g d a b) := by
  intro _ x hx; cases hx
  rw [decode, cut_slotWord]; exact shapeVvv_enc 1 22 g d a b _

theorem vorVb (g : Guard) (d : BitVec 8) (a : VOp) (b : VOp) : Statement (.vorVb g d a b) := by
  intro _ x hx; cases hx
  rw [decode, cut_slotWord]; exact shapeVvv_enc 2 22 g d a b _

theorem vxorVa (g : Guard) (d : BitVec 8) (a : VOp) (b : VOp) : Statement (.vxorVa g d a b) := by
  intro _ x hx; cases hx
  rw [decode, cut_slotWord]; exact shapeVvv_enc 1 23 g d a b _

theorem vxorVb (g : Guard) (d : BitVec 8) (a : VOp) (b : VOp) : Statement (.vxorVb g d a b) := by
  intro _ x hx; cases hx
  rw [decode, cut_slotWord]; exact shapeVvv_enc 2 23 g d a b _

theorem vshlVa (g : Guard) (d : BitVec 8) (a : VOp) (b : VOp) : Statement (.vshlVa g d a b) := by
  intro _ x hx; cases hx
  rw [decode, cut_slotWord]; exact shapeVvv_enc 1 24 g d a b _

theorem vshlVb (g : Guard) (d : BitVec 8) (a : VOp) (b : VOp) : Statement (.vshlVb g d a b) := by
  intro _ x hx; cases hx
  rw [decode, cut_slotWord]; exact shapeVvv_enc 2 24 g d a b _

theorem vshrVa (g : Guard) (d : BitVec 8) (a : VOp) (b : VOp) : Statement (.vshrVa g d a b) := by
  intro _ x hx; cases hx
  rw [decode, cut_slotWord]; exact shapeVvv_enc 1 25 g d a b _

theorem vshrVb (g : Guard) (d : BitVec 8) (a : VOp) (b : VOp) : Statement (.vshrVb g d a b) := by
  intro _ x hx; cases hx
  rw [decode, cut_slotWord]; exact shapeVvv_enc 2 25 g d a b _

theorem vshraVa (g : Guard) (d : BitVec 8) (a : VOp) (b : VOp) : Statement (.vshraVa g d a b) := by
  intro _ x hx; cases hx
  rw [decode, cut_slotWord]; exact shapeVvv_enc 1 26 g d a b _

theorem vshraVb (g : Guard) (d : BitVec 8) (a : VOp) (b : VOp) : Statement (.vshraVb g d a b) := by
  intro _ x hx; cases hx
  rw [decode, cut_slotWord]; exact shapeVvv_enc 2 26 g d a b _

theorem vfceqVa (g : Guard) (m : BitVec 3) (a : VOp) (b : VOp) : Statement (.vfceqVa g m a b) := by
  intro _ x hx; cases hx
  rw [decode, cut_slotWord]; exact shapeVcmp_enc 1 27 g m a b _

theorem vfceqVb (g : Guard) (m : BitVec 3) (a : VOp) (b : VOp) : Statement (.vfceqVb g m a b) := by
  intro _ x hx; cases hx
  rw [decode, cut_slotWord]; exact shapeVcmp_enc 2 27 g m a b _

theorem vfcltVa (g : Guard) (m : BitVec 3) (a : VOp) (b : VOp) : Statement (.vfcltVa g m a b) := by
  intro _ x hx; cases hx
  rw [decode, cut_slotWord]; exact shapeVcmp_enc 1 28 g m a b _

theorem vfcltVb (g : Guard) (m : BitVec 3) (a : VOp) (b : VOp) : Statement (.vfcltVb g m a b) := by
  intro _ x hx; cases hx
  rw [decode, cut_slotWord]; exact shapeVcmp_enc 2 28 g m a b _

theorem vfcleVa (g : Guard) (m : BitVec 3) (a : VOp) (b : VOp) : Statement (.vfcleVa g m a b) := by
  intro _ x hx; cases hx
  rw [decode, cut_slotWord]; exact shapeVcmp_enc 1 29 g m a b _

theorem vfcleVb (g : Guard) (m : BitVec 3) (a : VOp) (b : VOp) : Statement (.vfcleVb g m a b) := by
  intro _ x hx; cases hx
  rw [decode, cut_slotWord]; exact shapeVcmp_enc 2 29 g m a b _

theorem viceqVa (g : Guard) (m : BitVec 3) (a : VOp) (b : VOp) : Statement (.viceqVa g m a b) := by
  intro _ x hx; cases hx
  rw [decode, cut_slotWord]; exact shapeVcmp_enc 1 30 g m a b _

theorem viceqVb (g : Guard) (m : BitVec 3) (a : VOp) (b : VOp) : Statement (.viceqVb g m a b) := by
  intro _ x hx; cases hx
  rw [decode, cut_slotWord]; exact shapeVcmp_enc 2 30 g m a b _

theorem vicltVa (g : Guard) (m : BitVec 3) (a : VOp) (b : VOp) : Statement (.vicltVa g m a b) := by
  intro _ x hx; cases hx
  rw [decode, cut_slotWord]; exact shapeVcmp_enc 1 31 g m a b _

theorem vicltVb (g : Guard) (m : BitVec 3) (a : VOp) (b : VOp) : Statement (.vicltVb g m a b) := by
  intro _ x hx; cases hx
  rw [decode, cut_slotWord]; exact shapeVcmp_enc 2 31 g m a b _

theorem vicleVa (g : Guard) (m : BitVec 3) (a : VOp) (b : VOp) : Statement (.vicleVa g m a b) := by
  intro _ x hx; cases hx
  rw [decode, cut_slotWord]; exact shapeVcmp_enc 1 32 g m a b _

theorem vicleVb (g : Guard) (m : BitVec 3) (a : VOp) (b : VOp) : Statement (.vicleVb g m a b) := by
  intro _ x hx; cases hx
  rw [decode, cut_slotWord]; exact shapeVcmp_enc 2 32 g m a b _

theorem vselVa (g : Guard) (d : BitVec 8) (a : VOp) (b : VOp) : Statement (.vselVa g d a b) := by
  intro _ x hx; cases hx
  rw [decode, cut_slotWord]; exact shapeVvv_enc 1 33 g d a b _

theorem vselVb (g : Guard) (d : BitVec 8) (a : VOp) (b : VOp) : Statement (.vselVb g d a b) := by
  intro _ x hx; cases hx
  rw [decode, cut_slotWord]; exact shapeVvv_enc 2 33 g d a b _

theorem vmovVa (g : Guard) (d : BitVec 8) (a : VOp) : Statement (.vmovVa g d a) := by
  intro _ x hx; cases hx
  rw [decode, cut_slotWord]; exact shapeVv0_enc 1 34 g d a _

theorem vmovVb (g : Guard) (d : BitVec 8) (a : VOp) : Statement (.vmovVb g d a) := by
  intro _ x hx; cases hx
  rw [decode, cut_slotWord]; exact shapeVv0_enc 2 34 g d a _

theorem vbcstVa (g : Guard) (d : BitVec 8) (a : BitVec 6) : Statement (.vbcstVa g d a) := by
  intro _ x hx; cases hx
  rw [decode, cut_slotWord]; exact shapeVbcst_enc 1 35 g d a _

theorem vbcstVb (g : Guard) (d : BitVec 8) (a : BitVec 6) : Statement (.vbcstVb g d a) := by
  intro _ x hx; cases hx
  rw [decode, cut_slotWord]; exact shapeVbcst_enc 2 35 g d a _

theorem vlaneVa (g : Guard) (d : BitVec 6) (a : BitVec 6) (i : BitVec 14) : Statement (.vlaneVa g d a i) := by
  intro _ x hx; cases hx
  rw [decode, cut_slotWord]; exact shapeVlane_enc 1 36 g d a i _

theorem vlaneVb (g : Guard) (d : BitVec 6) (a : BitVec 6) (i : BitVec 14) : Statement (.vlaneVb g d a i) := by
  intro _ x hx; cases hx
  rw [decode, cut_slotWord]; exact shapeVlane_enc 2 36 g d a i _

theorem vextVa (g : Guard) (d : BitVec 6) (a : BitVec 6) (i : BitVec 14) : Statement (.vextVa g d a i) := by
  intro _ x hx; cases hx
  rw [decode, cut_slotWord]; exact shapeVext_enc 1 37 g d a i _

theorem vextVb (g : Guard) (d : BitVec 6) (a : BitVec 6) (i : BitVec 14) : Statement (.vextVb g d a i) := by
  intro _ x hx; cases hx
  rw [decode, cut_slotWord]; exact shapeVext_enc 2 37 g d a i _

theorem vcvtVa (g : Guard) (d : BitVec 6) (a : BitVec 6) (dst : BitVec 3) (src : BitVec 3) (part : BitVec 2) (sat : Bool) : Statement (.vcvtVa g d a dst src part sat) := by
  intro h x hx; cases hx
  rw [decode, cut_slotWord]; exact shapeVcvt_enc 1 38 g d a dst src part sat _ h

theorem vcvtVb (g : Guard) (d : BitVec 6) (a : BitVec 6) (dst : BitVec 3) (src : BitVec 3) (part : BitVec 2) (sat : Bool) : Statement (.vcvtVb g d a dst src part sat) := by
  intro h x hx; cases hx
  rw [decode, cut_slotWord]; exact shapeVcvt_enc 2 38 g d a dst src part sat _ h

theorem vpackVa (g : Guard) (d : BitVec 6) (a : BitVec 6) (f : BitVec 3) (y : BitVec 2) (x : Bool) : Statement (.vpackVa g d a f y x) := by
  intro h x hx; cases hx
  rw [decode, cut_slotWord]; exact shapeVpack_enc 1 39 g d a f y x _ h

theorem vpackVb (g : Guard) (d : BitVec 6) (a : BitVec 6) (f : BitVec 3) (y : BitVec 2) (x : Bool) : Statement (.vpackVb g d a f y x) := by
  intro h x hx; cases hx
  rw [decode, cut_slotWord]; exact shapeVpack_enc 2 39 g d a f y x _ h

theorem vunpkVa (g : Guard) (d : BitVec 6) (a : BitVec 6) (f : BitVec 3) (y : BitVec 2) : Statement (.vunpkVa g d a f y) := by
  intro h x hx; cases hx
  rw [decode, cut_slotWord]; exact shapeVunpk_enc 1 40 g d a f y _ h

theorem vunpkVb (g : Guard) (d : BitVec 6) (a : BitVec 6) (f : BitVec 3) (y : BitVec 2) : Statement (.vunpkVb g d a f y) := by
  intro h x hx; cases hx
  rw [decode, cut_slotWord]; exact shapeVunpk_enc 2 40 g d a f y _ h

theorem vperm (g : Guard) (d : BitVec 8) (a : VOp) (b : VOp) : Statement (.vperm g d a b) := by
  intro _ x hx; cases hx
  rw [decode, cut_slotWord]; exact shapeVvv_enc 1 41 g d a b _

theorem vrotlVa (g : Guard) (d : BitVec 6) (a : BitVec 6) (i : BitVec 14) : Statement (.vrotlVa g d a i) := by
  intro _ x hx; cases hx
  rw [decode, cut_slotWord]; exact shapeVrotl_enc 1 42 g d a i _

theorem vrotlVb (g : Guard) (d : BitVec 6) (a : BitVec 6) (i : BitVec 14) : Statement (.vrotlVb g d a i) := by
  intro _ x hx; cases hx
  rw [decode, cut_slotWord]; exact shapeVrotl_enc 2 42 g d a i _

theorem vrsum (g : Guard) (d : BitVec 8) (a : VOp) : Statement (.vrsum g d a) := by
  intro _ x hx; cases hx
  rw [decode, cut_slotWord]; exact shapeVv0_enc 1 43 g d a _

theorem vrmax (g : Guard) (d : BitVec 8) (a : VOp) : Statement (.vrmax g d a) := by
  intro _ x hx; cases hx
  rw [decode, cut_slotWord]; exact shapeVv0_enc 1 44 g d a _

theorem vldxVa (g : Guard) (d : BitVec 6) (a : BitVec 6) (i : Imm14) : Statement (.vldxVa g d a i) := by
  intro h x hx; cases hx
  rw [decode, cut_slotWord]; exact shapeVldx_enc 1 45 g d a i _ h

theorem vldxVb (g : Guard) (d : BitVec 6) (a : BitVec 6) (i : Imm14) : Statement (.vldxVb g d a i) := by
  intro h x hx; cases hx
  rw [decode, cut_slotWord]; exact shapeVldx_enc 2 45 g d a i _ h

theorem vstxVa (g : Guard) (d : BitVec 6) (a : BitVec 6) (i : Imm14) : Statement (.vstxVa g d a i) := by
  intro h x hx; cases hx
  rw [decode, cut_slotWord]; exact shapeVldx_enc 1 46 g d a i _ h

theorem vstxVb (g : Guard) (d : BitVec 6) (a : BitVec 6) (i : Imm14) : Statement (.vstxVb g d a i) := by
  intro h x hx; cases hx
  rw [decode, cut_slotWord]; exact shapeVldx_enc 2 46 g d a i _ h

theorem vtrdVa (g : Guard) (d : BitVec 6) (t : BitVec 3) (a : BitVec 6) (r : BitVec 8) : Statement (.vtrdVa g d t a r) := by
  intro _ x hx; cases hx
  rw [decode, cut_slotWord]; exact shapeVtrd_enc 1 47 g d t a r _

theorem vtrdVb (g : Guard) (d : BitVec 6) (t : BitVec 3) (a : BitVec 6) (r : BitVec 8) : Statement (.vtrdVb g d t a r) := by
  intro _ x hx; cases hx
  rw [decode, cut_slotWord]; exact shapeVtrd_enc 2 47 g d t a r _

theorem vtcd (g : Guard) (d : BitVec 6) (t : BitVec 3) (a : BitVec 6) : Statement (.vtcd g d t a) := by
  intro _ x hx; cases hx
  rw [decode, cut_slotWord]; exact shapeVtcd_enc 1 48 g d t a _

theorem vtrwVa (g : Guard) (d : BitVec 6) (t : BitVec 3) (a : BitVec 6) (r : BitVec 8) : Statement (.vtrwVa g d t a r) := by
  intro _ x hx; cases hx
  rw [decode, cut_slotWord]; exact shapeVtrd_enc 1 49 g d t a r _

theorem vtrwVb (g : Guard) (d : BitVec 6) (t : BitVec 3) (a : BitVec 6) (r : BitVec 8) : Statement (.vtrwVb g d t a r) := by
  intro _ x hx; cases hx
  rw [decode, cut_slotWord]; exact shapeVtrd_enc 2 49 g d t a r _

theorem vtcw (g : Guard) (d : BitVec 6) (t : BitVec 3) (a : BitVec 6) : Statement (.vtcw g d t a) := by
  intro _ x hx; cases hx
  rw [decode, cut_slotWord]; exact shapeVtcd_enc 1 50 g d t a _

theorem vmskVa (g : Guard) (m : BitVec 3) (ma : BitVec 3) (mb : BitVec 3) (o : BitVec 3) : Statement (.vmskVa g m ma mb o) := by
  intro _ x hx; cases hx
  rw [decode, cut_slotWord]; exact shapeVmsk_enc 1 51 g m ma mb o _

theorem vmskVb (g : Guard) (m : BitVec 3) (ma : BitVec 3) (mb : BitVec 3) (o : BitVec 3) : Statement (.vmskVb g m ma mb o) := by
  intro _ x hx; cases hx
  rw [decode, cut_slotWord]; exact shapeVmsk_enc 2 51 g m ma mb o _

theorem viotaVa (g : Guard) (d : BitVec 8) (a : BitVec 6) (b : BitVec 6) : Statement (.viotaVa g d a b) := by
  intro _ x hx; cases hx
  rw [decode, cut_slotWord]; exact shapeViota_enc 1 52 g d a b _

theorem viotaVb (g : Guard) (d : BitVec 8) (a : BitVec 6) (b : BitVec 6) : Statement (.viotaVb g d a b) := by
  intro _ x hx; cases hx
  rw [decode, cut_slotWord]; exact shapeViota_enc 2 52 g d a b _

theorem resultLanding (t : Nat) : Statement (.resultLanding t) := by
  intro _ x hx; cases hx

theorem endpointReply (id : Nat) : Statement (.endpointReply id) := by
  intro _ x hx; cases hx

theorem phaseComplete (t : Nat) : Statement (.phaseComplete t) := by
  intro _ x hx; cases hx

theorem barComplete (t : Nat) : Statement (.barComplete t) := by
  intro _ x hx; cases hx

theorem waittRelease (t k : Nat) : Statement (.waittRelease t k) := by
  intro _ x hx; cases hx

theorem bankCleared (t k bank : Nat) : Statement (.bankCleared t k bank) := by
  intro _ x hx; cases hx

theorem stallTimeout (t : Nat) : Statement (.stallTimeout t) := by
  intro _ x hx; cases hx

theorem safeBoundOverrun (t : Nat) : Statement (.safeBoundOverrun t) := by
  intro _ x hx; cases hx

theorem hlpRrd (x : Hlp) : Statement (.hlpRrd x) := by
  intro _ x hx; cases hx

theorem registerWrite (x : Hlp) : Statement (.registerWrite x) := by
  intro _ x hx; cases hx

theorem hlpMrd (x : Hlp) : Statement (.hlpMrd x) := by
  intro _ x hx; cases hx

theorem hlpMwr (x : Hlp) : Statement (.hlpMwr x) := by
  intro _ x hx; cases hx

theorem hlpCpld (x : Hlp) : Statement (.hlpCpld x) := by
  intro _ x hx; cases hx

theorem hlpCpl (x : Hlp) : Statement (.hlpCpl x) := by
  intro _ x hx; cases hx

theorem hostReadTimeout (tag : Nat) : Statement (.hostReadTimeout tag) := by
  intro _ x hx; cases hx

theorem moduleDisabled (m : Nat) : Statement (.moduleDisabled m) := by
  intro _ x hx; cases hx

theorem pcreate : Statement (.pcreate) := by
  intro _ x hx; cases hx

theorem pdestroy : Statement (.pdestroy) := by
  intro _ x hx; cases hx

theorem colassign : Statement (.colassign) := by
  intro _ x hx; cases hx

theorem dsmassign : Statement (.dsmassign) := by
  intro _ x hx; cases hx

theorem dsmBankClearDone : Statement (.dsmBankClearDone) := by
  intro _ x hx; cases hx

theorem pooladd : Statement (.pooladd) := by
  intro _ x hx; cases hx

theorem poolrem : Statement (.poolrem) := by
  intro _ x hx; cases hx

theorem uashare : Statement (.uashare) := by
  intro _ x hx; cases hx

theorem vcreate : Statement (.vcreate) := by
  intro _ x hx; cases hx

theorem vreset : Statement (.vreset) := by
  intro _ x hx; cases hx

theorem vresetComplete (v : Nat) : Statement (.vresetComplete v) := by
  intro _ x hx; cases hx

theorem vdestroy : Statement (.vdestroy) := by
  intro _ x hx; cases hx

theorem credit : Statement (.credit) := by
  intro _ x hx; cases hx

theorem keyload : Statement (.keyload) := by
  intro _ x hx; cases hx

theorem attest : Statement (.attest) := by
  intro _ x hx; cases hx

theorem idcert : Statement (.idcert) := by
  intro _ x hx; cases hx

theorem deviceReset : Statement (.deviceReset) := by
  intro _ x hx; cases hx

theorem sidebandReset : Statement (.sidebandReset) := by
  intro _ x hx; cases hx

theorem firmwareVerify (image : List (BitVec 8)) : Statement (.firmwareVerify image) := by
  intro _ x hx; cases hx

theorem packagePowerOn (stk : BitVec 32) (mods : BitVec 4) : Statement (.packagePowerOn stk mods) := by
  intro _ x hx; cases hx

theorem binningComplete (rows : List BinnedRow) : Statement (.binningComplete rows) := by
  intro _ x hx; cases hx

theorem plimWrite (w : BitVec 64) : Statement (.plimWrite w) := by
  intro _ x hx; cases hx

theorem ltolWrite (p : Nat) (w : BitVec 64) : Statement (.ltolWrite p w) := by
  intro _ x hx; cases hx

theorem scrubctlWrite (n : Nat) (w : BitVec 64) : Statement (.scrubctlWrite n w) := by
  intro _ x hx; cases hx

theorem uarctxWrite (port j : Nat) (w : BitVec 64) : Statement (.uarctxWrite port j w) := by
  intro _ x hx; cases hx

theorem gtcincWrite (w : BitVec 64) : Statement (.gtcincWrite w) := by
  intro _ x hx; cases hx

theorem gtcadjWrite (w : BitVec 64) : Statement (.gtcadjWrite w) := by
  intro _ x hx; cases hx

theorem gtcsetWrite (w : BitVec 64) : Statement (.gtcsetWrite w) := by
  intro _ x hx; cases hx

theorem gtcSlewDone : Statement (.gtcSlewDone) := by
  intro _ x hx; cases hx

theorem gtcHoldover : Statement (.gtcHoldover) := by
  intro _ x hx; cases hx

theorem loupeArm (w : BitVec 64) : Statement (.loupeArm w) := by
  intro _ x hx; cases hx

theorem tampctlWrite (w : BitVec 64) : Statement (.tampctlWrite w) := by
  intro _ x hx; cases hx

theorem vfstatDegWrite (v : Nat) (w : BitVec 64) : Statement (.vfstatDegWrite v w) := by
  intro _ x hx; cases hx

theorem gsub (v : Nat) (w : BitVec 64) : Statement (.gsub v w) := by
  intro _ x hx; cases hx

theorem gcan (v : Nat) (w : BitVec 64) : Statement (.gcan v w) := by
  intro _ x hx; cases hx

theorem eqctlWrite (v : Nat) (w : BitVec 64) : Statement (.eqctlWrite v w) := by
  intro _ x hx; cases hx

theorem eqheadWrite (v : Nat) (w : BitVec 64) : Statement (.eqheadWrite v w) := by
  intro _ x hx; cases hx

theorem eventRecordWrite (v : Nat) : Statement (.eventRecordWrite v) := by
  intro _ x hx; cases hx

theorem eqInterruptTimer (v : Nat) : Statement (.eqInterruptTimer v) := by
  intro _ x hx; cases hx

theorem arbiterEpoch : Statement (.arbiterEpoch) := by
  intro _ x hx; cases hx

theorem fastLimiter (die : Nat) : Statement (.fastLimiter die) := by
  intro _ x hx; cases hx

theorem sensorUpdate (dieT stkT : List (BitVec 16)) : Statement (.sensorUpdate dieT stkT) := by
  intro _ x hx; cases hx

theorem supplyExcursion : Statement (.supplyExcursion) := by
  intro _ x hx; cases hx

theorem meshBreak : Statement (.meshBreak) := by
  intro _ x hx; cases hx

theorem powerStateEntry (e : Element) : Statement (.powerStateEntry e) := by
  intro _ x hx; cases hx

theorem wakeComplete (e : Element) : Statement (.wakeComplete e) := by
  intro _ x hx; cases hx

theorem portAdmit (n : Nat) : Statement (.portAdmit n) := by
  intro _ x hx; cases hx

theorem rowRefresh (n bank row : Nat) : Statement (.rowRefresh n bank row) := by
  intro _ x hx; cases hx

theorem activationWindow : Statement (.activationWindow) := by
  intro _ x hx; cases hx

theorem patrolScrubStep (n : Nat) : Statement (.patrolScrubStep n) := by
  intro _ x hx; cases hx

theorem hotScrubStep (n : Nat) (row : Nat) : Statement (.hotScrubStep n row) := by
  intro _ x hx; cases hx

theorem patrolPeriodEnd (n : Nat) : Statement (.patrolPeriodEnd n) := by
  intro _ x hx; cases hx

theorem retirementCopyDone (n frame : Nat) : Statement (.retirementCopyDone n frame) := by
  intro _ x hx; cases hx

theorem leaseIncrement (node : Nat) (n : Nat) : Statement (.leaseIncrement node n) := by
  intro _ x hx; cases hx

theorem leaseReply (node : Nat) (n : Nat) : Statement (.leaseReply node n) := by
  intro _ x hx; cases hx

theorem leaseRelease (node : Nat) (n : Nat) : Statement (.leaseRelease node n) := by
  intro _ x hx; cases hx

theorem pullReadReply (id : Nat) (ok : Bool) (data : List (BitVec 8)) : Statement (.pullReadReply id ok data) := by
  intro _ x hx; cases hx

theorem pullTimeout (id : Nat) : Statement (.pullTimeout id) := by
  intro _ x hx; cases hx

theorem remoteRequest (x : RemoteReq) : Statement (.remoteRequest x) := by
  intro _ x hx; cases hx

theorem invalidationDone (id : Nat) : Statement (.invalidationDone id) := by
  intro _ x hx; cases hx

theorem invalidationTimeout (id : Nat) : Statement (.invalidationTimeout id) := by
  intro _ x hx; cases hx

theorem polisherClearBlock (n : Nat) : Statement (.polisherClearBlock n) := by
  intro _ x hx; cases hx

theorem linkTraining (port width rtt : Nat) : Statement (.linkTraining port width rtt) := by
  intro _ x hx; cases hx

theorem laneLoss (port width rtt : Nat) : Statement (.laneLoss port width rtt) := by
  intro _ x hx; cases hx

theorem linkReplay (port : Nat) (hold : Bool) : Statement (.linkReplay port hold) := by
  intro _ x hx; cases hx

theorem skidSend (port : Nat) : Statement (.skidSend port) := by
  intro _ x hx; cases hx

theorem messageLanding (x : Msg) : Statement (.messageLanding x) := by
  intro _ x hx; cases hx

theorem creditReturn (t ch : Nat) : Statement (.creditReturn t ch) := by
  intro _ x hx; cases hx

theorem collectiveStart (cid : Nat) : Statement (.collectiveStart cid) := by
  intro _ x hx; cases hx

theorem reductionContribution (w : TreePort) (member group : Nat) (elems : List (BitVec 64)) (residue : Nat) : Statement (.reductionContribution w member group elems residue) := by
  intro _ x hx; cases hx

theorem collectiveComplete (cid : Nat) : Statement (.collectiveComplete cid) := by
  intro _ x hx; cases hx

theorem graphParse (v : Nat) : Statement (.graphParse v) := by
  intro _ x hx; cases hx

theorem selectionRound (die : Nat) : Statement (.selectionRound die) := by
  intro _ x hx; cases hx

theorem gangToken : Statement (.gangToken) := by
  intro _ x hx; cases hx

theorem priorityPreemption (die : Nat) : Statement (.priorityPreemption die) := by
  intro _ x hx; cases hx

theorem dispatch (node : Nat) : Statement (.dispatch node) := by
  intro _ x hx; cases hx

theorem saveComplete (node : Nat) : Statement (.saveComplete node) := by
  intro _ x hx; cases hx

theorem contextRestore (node : Nat) : Statement (.contextRestore node) := by
  intro _ x hx; cases hx

theorem phaseRestart (node : Nat) : Statement (.phaseRestart node) := by
  intro _ x hx; cases hx

theorem nodeRetire (node : Nat) : Statement (.nodeRetire node) := by
  intro _ x hx; cases hx

theorem jobCardStart (node : Nat) : Statement (.jobCardStart node) := by
  intro _ x hx; cases hx

theorem jobCardComplete (node : Nat) : Statement (.jobCardComplete node) := by
  intro _ x hx; cases hx

theorem caratFlush : Statement (.caratFlush) := by
  intro _ x hx; cases hx

theorem preemptionRequestArrival (t : Nat) (kind : PreemptKind) : Statement (.preemptionRequestArrival t kind) := by
  intro _ x hx; cases hx

theorem dsmBankRequest (die bank : Nat) : Statement (.dsmBankRequest die bank) := by
  intro _ x hx; cases hx

theorem rangeRegisterFill (t k : Nat) : Statement (.rangeRegisterFill t k) := by
  intro _ x hx; cases hx

end Sys2Proof.Laws.RoundTrip
end

