-- ==== Sys2Proof/Laws/State.lean ====
section
/-! SUPPORT. One lemma per field and update: what each shared update of the state leaves alone and what it writes. -/

namespace Sys2Proof.Machine

/-! ### landAt -/

@[simp] theorem landAt_ix (s : State) (t : Nat) (d : Dst) : (landAt s t d).ix = s.ix := rfl
@[simp] theorem landAt_tid (s : State) (t : Nat) (d : Dst) : (landAt s t d).tid = s.tid := rfl
@[simp] theorem landAt_k (s : State) (t : Nat) (d : Dst) : (landAt s t d).k = s.k := rfl
@[simp] theorem landAt_tk (s : State) (t : Nat) (d : Dst) : (landAt s t d).tk = s.tk := rfl
@[simp] theorem landAt_tasks (s : State) (t : Nat) (d : Dst) : (landAt s t d).tasks = s.tasks := rfl
@[simp] theorem landAt_mem (s : State) (t : Nat) (d : Dst) : (landAt s t d).mem = s.mem := rfl
@[simp] theorem landAt_reqs (s : State) (t : Nat) (d : Dst) : (landAt s t d).reqs = s.reqs := rfl
@[simp] theorem landAt_replies (s : State) (t : Nat) (d : Dst) : (landAt s t d).replies = s.replies := rfl
@[simp] theorem landAt_nextId (s : State) (t : Nat) (d : Dst) : (landAt s t d).nextId = s.nextId := rfl
@[simp] theorem landAt_free (s : State) (t : Nat) (d : Dst) : (landAt s t d).free = s.free := rfl
@[simp] theorem landAt_cyc (s : State) (t : Nat) (d : Dst) : (landAt s t d).cyc = s.cyc := rfl
@[simp] theorem landAt_inputs (s : State) (t : Nat) (d : Dst) : (landAt s t d).inputs = s.inputs := rfl
@[simp] theorem landAt_agenda (s : State) (t : Nat) (d : Dst) : (landAt s t d).agenda = s.agenda := rfl
@[simp] theorem landAt_dev (s : State) (t : Nat) (d : Dst) : (landAt s t d).dev = s.dev := rfl
@[simp] theorem landAt_sq_opLc (s : State) (t : Nat) (d : Dst) : (landAt s t d).sq.opLc = s.sq.opLc := rfl
@[simp] theorem landAt_sq_code (s : State) (t : Nat) (d : Dst) : (landAt s t d).sq.code = s.sq.code := rfl
@[simp] theorem landAt_sq_st (s : State) (t : Nat) (d : Dst) : (landAt s t d).sq.st = s.sq.st := rfl
@[simp] theorem landAt_sq_startLC (s : State) (t : Nat) (d : Dst) : (landAt s t d).sq.startLC = s.sq.startLC := rfl
@[simp] theorem landAt_sq_haltLC (s : State) (t : Nat) (d : Dst) : (landAt s t d).sq.haltLC = s.sq.haltLC := rfl
@[simp] theorem landAt_sq_pos (s : State) (t : Nat) (d : Dst) : (landAt s t d).sq.pos = s.sq.pos := rfl
@[simp] theorem landAt_sq_via (s : State) (t : Nat) (d : Dst) : (landAt s t d).sq.via = s.sq.via := rfl
@[simp] theorem landAt_sq_nextLC (s : State) (t : Nat) (d : Dst) : (landAt s t d).sq.nextLC = s.sq.nextLC := rfl
@[simp] theorem landAt_sq_grp (s : State) (t : Nat) (d : Dst) : (landAt s t d).sq.grp = s.sq.grp := rfl
@[simp] theorem landAt_sq_s (s : State) (t : Nat) (d : Dst) : (landAt s t d).sq.s = s.sq.s := rfl
@[simp] theorem landAt_sq_q (s : State) (t : Nat) (d : Dst) : (landAt s t d).sq.q = s.sq.q := rfl
@[simp] theorem landAt_sq_m (s : State) (t : Nat) (d : Dst) : (landAt s t d).sq.m = s.sq.m := rfl
@[simp] theorem landAt_sq_bt (s : State) (t : Nat) (d : Dst) : (landAt s t d).sq.bt = s.sq.bt := rfl
@[simp] theorem landAt_sq_loops (s : State) (t : Nat) (d : Dst) : (landAt s t d).sq.loops = s.sq.loops := rfl
@[simp] theorem landAt_sq_pend (s : State) (t : Nat) (d : Dst) : (landAt s t d).sq.pend = s.sq.pend := rfl
@[simp] theorem landAt_sq_hret (s : State) (t : Nat) (d : Dst) : (landAt s t d).sq.hret = s.sq.hret := rfl
@[simp] theorem landAt_sq_trapv (s : State) (t : Nat) (d : Dst) : (landAt s t d).sq.trapv = s.sq.trapv := rfl
@[simp] theorem landAt_sq_tcause (s : State) (t : Nat) (d : Dst) : (landAt s t d).sq.tcause = s.sq.tcause := rfl
@[simp] theorem landAt_sq_tinfo (s : State) (t : Nat) (d : Dst) : (landAt s t d).sq.tinfo = s.sq.tinfo := rfl
@[simp] theorem landAt_sq_prec (s : State) (t : Nat) (d : Dst) : (landAt s t d).sq.prec = s.sq.prec := rfl
@[simp] theorem landAt_sq_vwin (s : State) (t : Nat) (d : Dst) : (landAt s t d).sq.vwin = s.sq.vwin := rfl
@[simp] theorem landAt_sq_fflags (s : State) (t : Nat) (d : Dst) : (landAt s t d).sq.fflags = s.sq.fflags := rfl
@[simp] theorem landAt_sq_mvalid (s : State) (t : Nat) (d : Dst) : (landAt s t d).sq.mvalid = s.sq.mvalid := rfl
@[simp] theorem landAt_sq_td (s : State) (t : Nat) (d : Dst) : (landAt s t d).sq.td = s.sq.td := rfl
@[simp] theorem landAt_sq_av (s : State) (t : Nat) (d : Dst) : (landAt s t d).sq.av = s.sq.av := rfl
@[simp] theorem landAt_sq_sh (s : State) (t : Nat) (d : Dst) : (landAt s t d).sq.sh = s.sq.sh := rfl
@[simp] theorem landAt_sq_lat (s : State) (t : Nat) (d : Dst) : (landAt s t d).sq.lat = s.sq.lat := rfl
@[simp] theorem landAt_sq_lrs (s : State) (t : Nat) (d : Dst) : (landAt s t d).sq.lrs = s.sq.lrs := rfl
@[simp] theorem landAt_sq_acc (s : State) (t : Nat) (d : Dst) : (landAt s t d).sq.acc = s.sq.acc := rfl
@[simp] theorem landAt_sq_scaleA (s : State) (t : Nat) (d : Dst) : (landAt s t d).sq.scaleA = s.sq.scaleA := rfl
@[simp] theorem landAt_sq_scaleB (s : State) (t : Nat) (d : Dst) : (landAt s t d).sq.scaleB = s.sq.scaleB := rfl
@[simp] theorem landAt_sq_cd (s : State) (t : Nat) (d : Dst) : (landAt s t d).sq.cd = s.sq.cd := rfl
@[simp] theorem landAt_sq_copies (s : State) (t : Nat) (d : Dst) : (landAt s t d).sq.copies = s.sq.copies := rfl
@[simp] theorem landAt_sq_units (s : State) (t : Nat) (d : Dst) : (landAt s t d).sq.units = s.sq.units := rfl
@[simp] theorem landAt_sq_engc (s : State) (t : Nat) (d : Dst) : (landAt s t d).sq.engc = s.sq.engc := rfl
@[simp] theorem landAt_sq_own (s : State) (t : Nat) (d : Dst) : (landAt s t d).sq.own = s.sq.own := rfl
@[simp] theorem landAt_sq_clearing (s : State) (t : Nat) (d : Dst) : (landAt s t d).sq.clearing = s.sq.clearing := rfl
@[simp] theorem landAt_sq_nan (s : State) (t : Nat) (d : Dst) : (landAt s t d).sq.nan = s.sq.nan := rfl
@[simp] theorem landAt_sq_ov (s : State) (t : Nat) (d : Dst) : (landAt s t d).sq.ov = s.sq.ov := rfl
@[simp] theorem landAt_sq_win (s : State) (t : Nat) (d : Dst) : (landAt s t d).sq.win = s.sq.win := rfl
@[simp] theorem landAt_sq_winExt (s : State) (t : Nat) (d : Dst) : (landAt s t d).sq.winExt = s.sq.winExt := rfl
@[simp] theorem landAt_sq_drn (s : State) (t : Nat) (d : Dst) : (landAt s t d).sq.drn = s.sq.drn := rfl
@[simp] theorem landAt_sq_rdHold (s : State) (t : Nat) (d : Dst) : (landAt s t d).sq.rdHold = s.sq.rdHold := rfl
@[simp] theorem landAt_sq_wrHold (s : State) (t : Nat) (d : Dst) : (landAt s t d).sq.wrHold = s.sq.wrHold := rfl
@[simp] theorem landAt_sq_rr (s : State) (t : Nat) (d : Dst) : (landAt s t d).sq.rr = s.sq.rr := rfl
@[simp] theorem landAt_sq_rcache (s : State) (t : Nat) (d : Dst) : (landAt s t d).sq.rcache = s.sq.rcache := rfl
@[simp] theorem landAt_sq_land (s : State) (t : Nat) (d : Dst) : (landAt s t d).sq.land = s.sq.land ++ [⟨s.ix.c, t, d⟩] := rfl

/-! ### landIn -/

@[simp] theorem landIn_ix (s : State) (l : Nat) (d : Dst) : (landIn s l d).ix = s.ix := rfl
@[simp] theorem landIn_tid (s : State) (l : Nat) (d : Dst) : (landIn s l d).tid = s.tid := rfl
@[simp] theorem landIn_k (s : State) (l : Nat) (d : Dst) : (landIn s l d).k = s.k := rfl
@[simp] theorem landIn_tk (s : State) (l : Nat) (d : Dst) : (landIn s l d).tk = s.tk := rfl
@[simp] theorem landIn_tasks (s : State) (l : Nat) (d : Dst) : (landIn s l d).tasks = s.tasks := rfl
@[simp] theorem landIn_mem (s : State) (l : Nat) (d : Dst) : (landIn s l d).mem = s.mem := rfl
@[simp] theorem landIn_reqs (s : State) (l : Nat) (d : Dst) : (landIn s l d).reqs = s.reqs := rfl
@[simp] theorem landIn_replies (s : State) (l : Nat) (d : Dst) : (landIn s l d).replies = s.replies := rfl
@[simp] theorem landIn_nextId (s : State) (l : Nat) (d : Dst) : (landIn s l d).nextId = s.nextId := rfl
@[simp] theorem landIn_free (s : State) (l : Nat) (d : Dst) : (landIn s l d).free = s.free := rfl
@[simp] theorem landIn_cyc (s : State) (l : Nat) (d : Dst) : (landIn s l d).cyc = s.cyc := rfl
@[simp] theorem landIn_inputs (s : State) (l : Nat) (d : Dst) : (landIn s l d).inputs = s.inputs := rfl
@[simp] theorem landIn_agenda (s : State) (l : Nat) (d : Dst) : (landIn s l d).agenda = s.agenda := rfl
@[simp] theorem landIn_dev (s : State) (l : Nat) (d : Dst) : (landIn s l d).dev = s.dev := rfl
@[simp] theorem landIn_sq_opLc (s : State) (l : Nat) (d : Dst) : (landIn s l d).sq.opLc = s.sq.opLc := rfl
@[simp] theorem landIn_sq_code (s : State) (l : Nat) (d : Dst) : (landIn s l d).sq.code = s.sq.code := rfl
@[simp] theorem landIn_sq_st (s : State) (l : Nat) (d : Dst) : (landIn s l d).sq.st = s.sq.st := rfl
@[simp] theorem landIn_sq_startLC (s : State) (l : Nat) (d : Dst) : (landIn s l d).sq.startLC = s.sq.startLC := rfl
@[simp] theorem landIn_sq_haltLC (s : State) (l : Nat) (d : Dst) : (landIn s l d).sq.haltLC = s.sq.haltLC := rfl
@[simp] theorem landIn_sq_pos (s : State) (l : Nat) (d : Dst) : (landIn s l d).sq.pos = s.sq.pos := rfl
@[simp] theorem landIn_sq_via (s : State) (l : Nat) (d : Dst) : (landIn s l d).sq.via = s.sq.via := rfl
@[simp] theorem landIn_sq_nextLC (s : State) (l : Nat) (d : Dst) : (landIn s l d).sq.nextLC = s.sq.nextLC := rfl
@[simp] theorem landIn_sq_grp (s : State) (l : Nat) (d : Dst) : (landIn s l d).sq.grp = s.sq.grp := rfl
@[simp] theorem landIn_sq_s (s : State) (l : Nat) (d : Dst) : (landIn s l d).sq.s = s.sq.s := rfl
@[simp] theorem landIn_sq_q (s : State) (l : Nat) (d : Dst) : (landIn s l d).sq.q = s.sq.q := rfl
@[simp] theorem landIn_sq_m (s : State) (l : Nat) (d : Dst) : (landIn s l d).sq.m = s.sq.m := rfl
@[simp] theorem landIn_sq_bt (s : State) (l : Nat) (d : Dst) : (landIn s l d).sq.bt = s.sq.bt := rfl
@[simp] theorem landIn_sq_loops (s : State) (l : Nat) (d : Dst) : (landIn s l d).sq.loops = s.sq.loops := rfl
@[simp] theorem landIn_sq_pend (s : State) (l : Nat) (d : Dst) : (landIn s l d).sq.pend = s.sq.pend := rfl
@[simp] theorem landIn_sq_hret (s : State) (l : Nat) (d : Dst) : (landIn s l d).sq.hret = s.sq.hret := rfl
@[simp] theorem landIn_sq_trapv (s : State) (l : Nat) (d : Dst) : (landIn s l d).sq.trapv = s.sq.trapv := rfl
@[simp] theorem landIn_sq_tcause (s : State) (l : Nat) (d : Dst) : (landIn s l d).sq.tcause = s.sq.tcause := rfl
@[simp] theorem landIn_sq_tinfo (s : State) (l : Nat) (d : Dst) : (landIn s l d).sq.tinfo = s.sq.tinfo := rfl
@[simp] theorem landIn_sq_prec (s : State) (l : Nat) (d : Dst) : (landIn s l d).sq.prec = s.sq.prec := rfl
@[simp] theorem landIn_sq_vwin (s : State) (l : Nat) (d : Dst) : (landIn s l d).sq.vwin = s.sq.vwin := rfl
@[simp] theorem landIn_sq_fflags (s : State) (l : Nat) (d : Dst) : (landIn s l d).sq.fflags = s.sq.fflags := rfl
@[simp] theorem landIn_sq_mvalid (s : State) (l : Nat) (d : Dst) : (landIn s l d).sq.mvalid = s.sq.mvalid := rfl
@[simp] theorem landIn_sq_td (s : State) (l : Nat) (d : Dst) : (landIn s l d).sq.td = s.sq.td := rfl
@[simp] theorem landIn_sq_av (s : State) (l : Nat) (d : Dst) : (landIn s l d).sq.av = s.sq.av := rfl
@[simp] theorem landIn_sq_sh (s : State) (l : Nat) (d : Dst) : (landIn s l d).sq.sh = s.sq.sh := rfl
@[simp] theorem landIn_sq_lat (s : State) (l : Nat) (d : Dst) : (landIn s l d).sq.lat = s.sq.lat := rfl
@[simp] theorem landIn_sq_lrs (s : State) (l : Nat) (d : Dst) : (landIn s l d).sq.lrs = s.sq.lrs := rfl
@[simp] theorem landIn_sq_acc (s : State) (l : Nat) (d : Dst) : (landIn s l d).sq.acc = s.sq.acc := rfl
@[simp] theorem landIn_sq_scaleA (s : State) (l : Nat) (d : Dst) : (landIn s l d).sq.scaleA = s.sq.scaleA := rfl
@[simp] theorem landIn_sq_scaleB (s : State) (l : Nat) (d : Dst) : (landIn s l d).sq.scaleB = s.sq.scaleB := rfl
@[simp] theorem landIn_sq_cd (s : State) (l : Nat) (d : Dst) : (landIn s l d).sq.cd = s.sq.cd := rfl
@[simp] theorem landIn_sq_copies (s : State) (l : Nat) (d : Dst) : (landIn s l d).sq.copies = s.sq.copies := rfl
@[simp] theorem landIn_sq_units (s : State) (l : Nat) (d : Dst) : (landIn s l d).sq.units = s.sq.units := rfl
@[simp] theorem landIn_sq_engc (s : State) (l : Nat) (d : Dst) : (landIn s l d).sq.engc = s.sq.engc := rfl
@[simp] theorem landIn_sq_own (s : State) (l : Nat) (d : Dst) : (landIn s l d).sq.own = s.sq.own := rfl
@[simp] theorem landIn_sq_clearing (s : State) (l : Nat) (d : Dst) : (landIn s l d).sq.clearing = s.sq.clearing := rfl
@[simp] theorem landIn_sq_nan (s : State) (l : Nat) (d : Dst) : (landIn s l d).sq.nan = s.sq.nan := rfl
@[simp] theorem landIn_sq_ov (s : State) (l : Nat) (d : Dst) : (landIn s l d).sq.ov = s.sq.ov := rfl
@[simp] theorem landIn_sq_win (s : State) (l : Nat) (d : Dst) : (landIn s l d).sq.win = s.sq.win := rfl
@[simp] theorem landIn_sq_winExt (s : State) (l : Nat) (d : Dst) : (landIn s l d).sq.winExt = s.sq.winExt := rfl
@[simp] theorem landIn_sq_drn (s : State) (l : Nat) (d : Dst) : (landIn s l d).sq.drn = s.sq.drn := rfl
@[simp] theorem landIn_sq_rdHold (s : State) (l : Nat) (d : Dst) : (landIn s l d).sq.rdHold = s.sq.rdHold := rfl
@[simp] theorem landIn_sq_wrHold (s : State) (l : Nat) (d : Dst) : (landIn s l d).sq.wrHold = s.sq.wrHold := rfl
@[simp] theorem landIn_sq_rr (s : State) (l : Nat) (d : Dst) : (landIn s l d).sq.rr = s.sq.rr := rfl
@[simp] theorem landIn_sq_rcache (s : State) (l : Nat) (d : Dst) : (landIn s l d).sq.rcache = s.sq.rcache := rfl
@[simp] theorem landIn_sq_land (s : State) (l : Nat) (d : Dst) : (landIn s l d).sq.land = s.sq.land ++ [⟨s.ix.c, s.ix.cl + l - 1, d⟩] := rfl

/-! ### landS -/

@[simp] theorem landS_ix (s : State) (l : Nat) (n : BitVec 6) (v : Word) : (landS s l n v).ix = s.ix := by unfold landS; split <;> rfl
@[simp] theorem landS_tid (s : State) (l : Nat) (n : BitVec 6) (v : Word) : (landS s l n v).tid = s.tid := by unfold landS; split <;> rfl
@[simp] theorem landS_k (s : State) (l : Nat) (n : BitVec 6) (v : Word) : (landS s l n v).k = s.k := by unfold landS; split <;> rfl
@[simp] theorem landS_tk (s : State) (l : Nat) (n : BitVec 6) (v : Word) : (landS s l n v).tk = s.tk := by unfold landS; split <;> rfl
@[simp] theorem landS_tasks (s : State) (l : Nat) (n : BitVec 6) (v : Word) : (landS s l n v).tasks = s.tasks := by unfold landS; split <;> rfl
@[simp] theorem landS_mem (s : State) (l : Nat) (n : BitVec 6) (v : Word) : (landS s l n v).mem = s.mem := by unfold landS; split <;> rfl
@[simp] theorem landS_reqs (s : State) (l : Nat) (n : BitVec 6) (v : Word) : (landS s l n v).reqs = s.reqs := by unfold landS; split <;> rfl
@[simp] theorem landS_replies (s : State) (l : Nat) (n : BitVec 6) (v : Word) : (landS s l n v).replies = s.replies := by unfold landS; split <;> rfl
@[simp] theorem landS_nextId (s : State) (l : Nat) (n : BitVec 6) (v : Word) : (landS s l n v).nextId = s.nextId := by unfold landS; split <;> rfl
@[simp] theorem landS_free (s : State) (l : Nat) (n : BitVec 6) (v : Word) : (landS s l n v).free = s.free := by unfold landS; split <;> rfl
@[simp] theorem landS_cyc (s : State) (l : Nat) (n : BitVec 6) (v : Word) : (landS s l n v).cyc = s.cyc := by unfold landS; split <;> rfl
@[simp] theorem landS_inputs (s : State) (l : Nat) (n : BitVec 6) (v : Word) : (landS s l n v).inputs = s.inputs := by unfold landS; split <;> rfl
@[simp] theorem landS_agenda (s : State) (l : Nat) (n : BitVec 6) (v : Word) : (landS s l n v).agenda = s.agenda := by unfold landS; split <;> rfl
@[simp] theorem landS_dev (s : State) (l : Nat) (n : BitVec 6) (v : Word) : (landS s l n v).dev = s.dev := by unfold landS; split <;> rfl
@[simp] theorem landS_sq_opLc (s : State) (l : Nat) (n : BitVec 6) (v : Word) : (landS s l n v).sq.opLc = s.sq.opLc := by unfold landS; split <;> rfl
@[simp] theorem landS_sq_code (s : State) (l : Nat) (n : BitVec 6) (v : Word) : (landS s l n v).sq.code = s.sq.code := by unfold landS; split <;> rfl
@[simp] theorem landS_sq_st (s : State) (l : Nat) (n : BitVec 6) (v : Word) : (landS s l n v).sq.st = s.sq.st := by unfold landS; split <;> rfl
@[simp] theorem landS_sq_startLC (s : State) (l : Nat) (n : BitVec 6) (v : Word) : (landS s l n v).sq.startLC = s.sq.startLC := by unfold landS; split <;> rfl
@[simp] theorem landS_sq_haltLC (s : State) (l : Nat) (n : BitVec 6) (v : Word) : (landS s l n v).sq.haltLC = s.sq.haltLC := by unfold landS; split <;> rfl
@[simp] theorem landS_sq_pos (s : State) (l : Nat) (n : BitVec 6) (v : Word) : (landS s l n v).sq.pos = s.sq.pos := by unfold landS; split <;> rfl
@[simp] theorem landS_sq_via (s : State) (l : Nat) (n : BitVec 6) (v : Word) : (landS s l n v).sq.via = s.sq.via := by unfold landS; split <;> rfl
@[simp] theorem landS_sq_nextLC (s : State) (l : Nat) (n : BitVec 6) (v : Word) : (landS s l n v).sq.nextLC = s.sq.nextLC := by unfold landS; split <;> rfl
@[simp] theorem landS_sq_grp (s : State) (l : Nat) (n : BitVec 6) (v : Word) : (landS s l n v).sq.grp = s.sq.grp := by unfold landS; split <;> rfl
@[simp] theorem landS_sq_s (s : State) (l : Nat) (n : BitVec 6) (v : Word) : (landS s l n v).sq.s = s.sq.s := by unfold landS; split <;> rfl
@[simp] theorem landS_sq_q (s : State) (l : Nat) (n : BitVec 6) (v : Word) : (landS s l n v).sq.q = s.sq.q := by unfold landS; split <;> rfl
@[simp] theorem landS_sq_m (s : State) (l : Nat) (n : BitVec 6) (v : Word) : (landS s l n v).sq.m = s.sq.m := by unfold landS; split <;> rfl
@[simp] theorem landS_sq_bt (s : State) (l : Nat) (n : BitVec 6) (v : Word) : (landS s l n v).sq.bt = s.sq.bt := by unfold landS; split <;> rfl
@[simp] theorem landS_sq_loops (s : State) (l : Nat) (n : BitVec 6) (v : Word) : (landS s l n v).sq.loops = s.sq.loops := by unfold landS; split <;> rfl
@[simp] theorem landS_sq_pend (s : State) (l : Nat) (n : BitVec 6) (v : Word) : (landS s l n v).sq.pend = s.sq.pend := by unfold landS; split <;> rfl
@[simp] theorem landS_sq_hret (s : State) (l : Nat) (n : BitVec 6) (v : Word) : (landS s l n v).sq.hret = s.sq.hret := by unfold landS; split <;> rfl
@[simp] theorem landS_sq_trapv (s : State) (l : Nat) (n : BitVec 6) (v : Word) : (landS s l n v).sq.trapv = s.sq.trapv := by unfold landS; split <;> rfl
@[simp] theorem landS_sq_tcause (s : State) (l : Nat) (n : BitVec 6) (v : Word) : (landS s l n v).sq.tcause = s.sq.tcause := by unfold landS; split <;> rfl
@[simp] theorem landS_sq_tinfo (s : State) (l : Nat) (n : BitVec 6) (v : Word) : (landS s l n v).sq.tinfo = s.sq.tinfo := by unfold landS; split <;> rfl
@[simp] theorem landS_sq_prec (s : State) (l : Nat) (n : BitVec 6) (v : Word) : (landS s l n v).sq.prec = s.sq.prec := by unfold landS; split <;> rfl
@[simp] theorem landS_sq_vwin (s : State) (l : Nat) (n : BitVec 6) (v : Word) : (landS s l n v).sq.vwin = s.sq.vwin := by unfold landS; split <;> rfl
@[simp] theorem landS_sq_fflags (s : State) (l : Nat) (n : BitVec 6) (v : Word) : (landS s l n v).sq.fflags = s.sq.fflags := by unfold landS; split <;> rfl
@[simp] theorem landS_sq_mvalid (s : State) (l : Nat) (n : BitVec 6) (v : Word) : (landS s l n v).sq.mvalid = s.sq.mvalid := by unfold landS; split <;> rfl
@[simp] theorem landS_sq_td (s : State) (l : Nat) (n : BitVec 6) (v : Word) : (landS s l n v).sq.td = s.sq.td := by unfold landS; split <;> rfl
@[simp] theorem landS_sq_av (s : State) (l : Nat) (n : BitVec 6) (v : Word) : (landS s l n v).sq.av = s.sq.av := by unfold landS; split <;> rfl
@[simp] theorem landS_sq_sh (s : State) (l : Nat) (n : BitVec 6) (v : Word) : (landS s l n v).sq.sh = s.sq.sh := by unfold landS; split <;> rfl
@[simp] theorem landS_sq_lat (s : State) (l : Nat) (n : BitVec 6) (v : Word) : (landS s l n v).sq.lat = s.sq.lat := by unfold landS; split <;> rfl
@[simp] theorem landS_sq_lrs (s : State) (l : Nat) (n : BitVec 6) (v : Word) : (landS s l n v).sq.lrs = s.sq.lrs := by unfold landS; split <;> rfl
@[simp] theorem landS_sq_acc (s : State) (l : Nat) (n : BitVec 6) (v : Word) : (landS s l n v).sq.acc = s.sq.acc := by unfold landS; split <;> rfl
@[simp] theorem landS_sq_scaleA (s : State) (l : Nat) (n : BitVec 6) (v : Word) : (landS s l n v).sq.scaleA = s.sq.scaleA := by unfold landS; split <;> rfl
@[simp] theorem landS_sq_scaleB (s : State) (l : Nat) (n : BitVec 6) (v : Word) : (landS s l n v).sq.scaleB = s.sq.scaleB := by unfold landS; split <;> rfl
@[simp] theorem landS_sq_cd (s : State) (l : Nat) (n : BitVec 6) (v : Word) : (landS s l n v).sq.cd = s.sq.cd := by unfold landS; split <;> rfl
@[simp] theorem landS_sq_copies (s : State) (l : Nat) (n : BitVec 6) (v : Word) : (landS s l n v).sq.copies = s.sq.copies := by unfold landS; split <;> rfl
@[simp] theorem landS_sq_units (s : State) (l : Nat) (n : BitVec 6) (v : Word) : (landS s l n v).sq.units = s.sq.units := by unfold landS; split <;> rfl
@[simp] theorem landS_sq_engc (s : State) (l : Nat) (n : BitVec 6) (v : Word) : (landS s l n v).sq.engc = s.sq.engc := by unfold landS; split <;> rfl
@[simp] theorem landS_sq_own (s : State) (l : Nat) (n : BitVec 6) (v : Word) : (landS s l n v).sq.own = s.sq.own := by unfold landS; split <;> rfl
@[simp] theorem landS_sq_clearing (s : State) (l : Nat) (n : BitVec 6) (v : Word) : (landS s l n v).sq.clearing = s.sq.clearing := by unfold landS; split <;> rfl
@[simp] theorem landS_sq_nan (s : State) (l : Nat) (n : BitVec 6) (v : Word) : (landS s l n v).sq.nan = s.sq.nan := by unfold landS; split <;> rfl
@[simp] theorem landS_sq_ov (s : State) (l : Nat) (n : BitVec 6) (v : Word) : (landS s l n v).sq.ov = s.sq.ov := by unfold landS; split <;> rfl
@[simp] theorem landS_sq_win (s : State) (l : Nat) (n : BitVec 6) (v : Word) : (landS s l n v).sq.win = s.sq.win := by unfold landS; split <;> rfl
@[simp] theorem landS_sq_winExt (s : State) (l : Nat) (n : BitVec 6) (v : Word) : (landS s l n v).sq.winExt = s.sq.winExt := by unfold landS; split <;> rfl
@[simp] theorem landS_sq_drn (s : State) (l : Nat) (n : BitVec 6) (v : Word) : (landS s l n v).sq.drn = s.sq.drn := by unfold landS; split <;> rfl
@[simp] theorem landS_sq_rdHold (s : State) (l : Nat) (n : BitVec 6) (v : Word) : (landS s l n v).sq.rdHold = s.sq.rdHold := by unfold landS; split <;> rfl
@[simp] theorem landS_sq_wrHold (s : State) (l : Nat) (n : BitVec 6) (v : Word) : (landS s l n v).sq.wrHold = s.sq.wrHold := by unfold landS; split <;> rfl
@[simp] theorem landS_sq_rr (s : State) (l : Nat) (n : BitVec 6) (v : Word) : (landS s l n v).sq.rr = s.sq.rr := by unfold landS; split <;> rfl
@[simp] theorem landS_sq_rcache (s : State) (l : Nat) (n : BitVec 6) (v : Word) : (landS s l n v).sq.rcache = s.sq.rcache := by unfold landS; split <;> rfl

/-! ### landQ -/

@[simp] theorem landQ_ix (s : State) (n : BitVec 3) (v : Bool) : (landQ s n v).ix = s.ix := by unfold landQ; split <;> rfl
@[simp] theorem landQ_tid (s : State) (n : BitVec 3) (v : Bool) : (landQ s n v).tid = s.tid := by unfold landQ; split <;> rfl
@[simp] theorem landQ_k (s : State) (n : BitVec 3) (v : Bool) : (landQ s n v).k = s.k := by unfold landQ; split <;> rfl
@[simp] theorem landQ_tk (s : State) (n : BitVec 3) (v : Bool) : (landQ s n v).tk = s.tk := by unfold landQ; split <;> rfl
@[simp] theorem landQ_tasks (s : State) (n : BitVec 3) (v : Bool) : (landQ s n v).tasks = s.tasks := by unfold landQ; split <;> rfl
@[simp] theorem landQ_mem (s : State) (n : BitVec 3) (v : Bool) : (landQ s n v).mem = s.mem := by unfold landQ; split <;> rfl
@[simp] theorem landQ_reqs (s : State) (n : BitVec 3) (v : Bool) : (landQ s n v).reqs = s.reqs := by unfold landQ; split <;> rfl
@[simp] theorem landQ_replies (s : State) (n : BitVec 3) (v : Bool) : (landQ s n v).replies = s.replies := by unfold landQ; split <;> rfl
@[simp] theorem landQ_nextId (s : State) (n : BitVec 3) (v : Bool) : (landQ s n v).nextId = s.nextId := by unfold landQ; split <;> rfl
@[simp] theorem landQ_free (s : State) (n : BitVec 3) (v : Bool) : (landQ s n v).free = s.free := by unfold landQ; split <;> rfl
@[simp] theorem landQ_cyc (s : State) (n : BitVec 3) (v : Bool) : (landQ s n v).cyc = s.cyc := by unfold landQ; split <;> rfl
@[simp] theorem landQ_inputs (s : State) (n : BitVec 3) (v : Bool) : (landQ s n v).inputs = s.inputs := by unfold landQ; split <;> rfl
@[simp] theorem landQ_agenda (s : State) (n : BitVec 3) (v : Bool) : (landQ s n v).agenda = s.agenda := by unfold landQ; split <;> rfl
@[simp] theorem landQ_dev (s : State) (n : BitVec 3) (v : Bool) : (landQ s n v).dev = s.dev := by unfold landQ; split <;> rfl
@[simp] theorem landQ_sq_opLc (s : State) (n : BitVec 3) (v : Bool) : (landQ s n v).sq.opLc = s.sq.opLc := by unfold landQ; split <;> rfl
@[simp] theorem landQ_sq_code (s : State) (n : BitVec 3) (v : Bool) : (landQ s n v).sq.code = s.sq.code := by unfold landQ; split <;> rfl
@[simp] theorem landQ_sq_st (s : State) (n : BitVec 3) (v : Bool) : (landQ s n v).sq.st = s.sq.st := by unfold landQ; split <;> rfl
@[simp] theorem landQ_sq_startLC (s : State) (n : BitVec 3) (v : Bool) : (landQ s n v).sq.startLC = s.sq.startLC := by unfold landQ; split <;> rfl
@[simp] theorem landQ_sq_haltLC (s : State) (n : BitVec 3) (v : Bool) : (landQ s n v).sq.haltLC = s.sq.haltLC := by unfold landQ; split <;> rfl
@[simp] theorem landQ_sq_pos (s : State) (n : BitVec 3) (v : Bool) : (landQ s n v).sq.pos = s.sq.pos := by unfold landQ; split <;> rfl
@[simp] theorem landQ_sq_via (s : State) (n : BitVec 3) (v : Bool) : (landQ s n v).sq.via = s.sq.via := by unfold landQ; split <;> rfl
@[simp] theorem landQ_sq_nextLC (s : State) (n : BitVec 3) (v : Bool) : (landQ s n v).sq.nextLC = s.sq.nextLC := by unfold landQ; split <;> rfl
@[simp] theorem landQ_sq_grp (s : State) (n : BitVec 3) (v : Bool) : (landQ s n v).sq.grp = s.sq.grp := by unfold landQ; split <;> rfl
@[simp] theorem landQ_sq_s (s : State) (n : BitVec 3) (v : Bool) : (landQ s n v).sq.s = s.sq.s := by unfold landQ; split <;> rfl
@[simp] theorem landQ_sq_q (s : State) (n : BitVec 3) (v : Bool) : (landQ s n v).sq.q = s.sq.q := by unfold landQ; split <;> rfl
@[simp] theorem landQ_sq_m (s : State) (n : BitVec 3) (v : Bool) : (landQ s n v).sq.m = s.sq.m := by unfold landQ; split <;> rfl
@[simp] theorem landQ_sq_bt (s : State) (n : BitVec 3) (v : Bool) : (landQ s n v).sq.bt = s.sq.bt := by unfold landQ; split <;> rfl
@[simp] theorem landQ_sq_loops (s : State) (n : BitVec 3) (v : Bool) : (landQ s n v).sq.loops = s.sq.loops := by unfold landQ; split <;> rfl
@[simp] theorem landQ_sq_pend (s : State) (n : BitVec 3) (v : Bool) : (landQ s n v).sq.pend = s.sq.pend := by unfold landQ; split <;> rfl
@[simp] theorem landQ_sq_hret (s : State) (n : BitVec 3) (v : Bool) : (landQ s n v).sq.hret = s.sq.hret := by unfold landQ; split <;> rfl
@[simp] theorem landQ_sq_trapv (s : State) (n : BitVec 3) (v : Bool) : (landQ s n v).sq.trapv = s.sq.trapv := by unfold landQ; split <;> rfl
@[simp] theorem landQ_sq_tcause (s : State) (n : BitVec 3) (v : Bool) : (landQ s n v).sq.tcause = s.sq.tcause := by unfold landQ; split <;> rfl
@[simp] theorem landQ_sq_tinfo (s : State) (n : BitVec 3) (v : Bool) : (landQ s n v).sq.tinfo = s.sq.tinfo := by unfold landQ; split <;> rfl
@[simp] theorem landQ_sq_prec (s : State) (n : BitVec 3) (v : Bool) : (landQ s n v).sq.prec = s.sq.prec := by unfold landQ; split <;> rfl
@[simp] theorem landQ_sq_vwin (s : State) (n : BitVec 3) (v : Bool) : (landQ s n v).sq.vwin = s.sq.vwin := by unfold landQ; split <;> rfl
@[simp] theorem landQ_sq_fflags (s : State) (n : BitVec 3) (v : Bool) : (landQ s n v).sq.fflags = s.sq.fflags := by unfold landQ; split <;> rfl
@[simp] theorem landQ_sq_mvalid (s : State) (n : BitVec 3) (v : Bool) : (landQ s n v).sq.mvalid = s.sq.mvalid := by unfold landQ; split <;> rfl
@[simp] theorem landQ_sq_td (s : State) (n : BitVec 3) (v : Bool) : (landQ s n v).sq.td = s.sq.td := by unfold landQ; split <;> rfl
@[simp] theorem landQ_sq_av (s : State) (n : BitVec 3) (v : Bool) : (landQ s n v).sq.av = s.sq.av := by unfold landQ; split <;> rfl
@[simp] theorem landQ_sq_sh (s : State) (n : BitVec 3) (v : Bool) : (landQ s n v).sq.sh = s.sq.sh := by unfold landQ; split <;> rfl
@[simp] theorem landQ_sq_lat (s : State) (n : BitVec 3) (v : Bool) : (landQ s n v).sq.lat = s.sq.lat := by unfold landQ; split <;> rfl
@[simp] theorem landQ_sq_lrs (s : State) (n : BitVec 3) (v : Bool) : (landQ s n v).sq.lrs = s.sq.lrs := by unfold landQ; split <;> rfl
@[simp] theorem landQ_sq_acc (s : State) (n : BitVec 3) (v : Bool) : (landQ s n v).sq.acc = s.sq.acc := by unfold landQ; split <;> rfl
@[simp] theorem landQ_sq_scaleA (s : State) (n : BitVec 3) (v : Bool) : (landQ s n v).sq.scaleA = s.sq.scaleA := by unfold landQ; split <;> rfl
@[simp] theorem landQ_sq_scaleB (s : State) (n : BitVec 3) (v : Bool) : (landQ s n v).sq.scaleB = s.sq.scaleB := by unfold landQ; split <;> rfl
@[simp] theorem landQ_sq_cd (s : State) (n : BitVec 3) (v : Bool) : (landQ s n v).sq.cd = s.sq.cd := by unfold landQ; split <;> rfl
@[simp] theorem landQ_sq_copies (s : State) (n : BitVec 3) (v : Bool) : (landQ s n v).sq.copies = s.sq.copies := by unfold landQ; split <;> rfl
@[simp] theorem landQ_sq_units (s : State) (n : BitVec 3) (v : Bool) : (landQ s n v).sq.units = s.sq.units := by unfold landQ; split <;> rfl
@[simp] theorem landQ_sq_engc (s : State) (n : BitVec 3) (v : Bool) : (landQ s n v).sq.engc = s.sq.engc := by unfold landQ; split <;> rfl
@[simp] theorem landQ_sq_own (s : State) (n : BitVec 3) (v : Bool) : (landQ s n v).sq.own = s.sq.own := by unfold landQ; split <;> rfl
@[simp] theorem landQ_sq_clearing (s : State) (n : BitVec 3) (v : Bool) : (landQ s n v).sq.clearing = s.sq.clearing := by unfold landQ; split <;> rfl
@[simp] theorem landQ_sq_nan (s : State) (n : BitVec 3) (v : Bool) : (landQ s n v).sq.nan = s.sq.nan := by unfold landQ; split <;> rfl
@[simp] theorem landQ_sq_ov (s : State) (n : BitVec 3) (v : Bool) : (landQ s n v).sq.ov = s.sq.ov := by unfold landQ; split <;> rfl
@[simp] theorem landQ_sq_win (s : State) (n : BitVec 3) (v : Bool) : (landQ s n v).sq.win = s.sq.win := by unfold landQ; split <;> rfl
@[simp] theorem landQ_sq_winExt (s : State) (n : BitVec 3) (v : Bool) : (landQ s n v).sq.winExt = s.sq.winExt := by unfold landQ; split <;> rfl
@[simp] theorem landQ_sq_drn (s : State) (n : BitVec 3) (v : Bool) : (landQ s n v).sq.drn = s.sq.drn := by unfold landQ; split <;> rfl
@[simp] theorem landQ_sq_rdHold (s : State) (n : BitVec 3) (v : Bool) : (landQ s n v).sq.rdHold = s.sq.rdHold := by unfold landQ; split <;> rfl
@[simp] theorem landQ_sq_wrHold (s : State) (n : BitVec 3) (v : Bool) : (landQ s n v).sq.wrHold = s.sq.wrHold := by unfold landQ; split <;> rfl
@[simp] theorem landQ_sq_rr (s : State) (n : BitVec 3) (v : Bool) : (landQ s n v).sq.rr = s.sq.rr := by unfold landQ; split <;> rfl
@[simp] theorem landQ_sq_rcache (s : State) (n : BitVec 3) (v : Bool) : (landQ s n v).sq.rcache = s.sq.rcache := by unfold landQ; split <;> rfl

/-! ### charge -/

@[simp] theorem charge_ix (kind n : Nat) (s : State) : (charge kind n s).ix = s.ix := rfl
@[simp] theorem charge_tid (kind n : Nat) (s : State) : (charge kind n s).tid = s.tid := rfl
@[simp] theorem charge_k (kind n : Nat) (s : State) : (charge kind n s).k = s.k := rfl
@[simp] theorem charge_sq (kind n : Nat) (s : State) : (charge kind n s).sq = s.sq := rfl
@[simp] theorem charge_tasks (kind n : Nat) (s : State) : (charge kind n s).tasks = s.tasks := rfl
@[simp] theorem charge_mem (kind n : Nat) (s : State) : (charge kind n s).mem = s.mem := rfl
@[simp] theorem charge_reqs (kind n : Nat) (s : State) : (charge kind n s).reqs = s.reqs := rfl
@[simp] theorem charge_replies (kind n : Nat) (s : State) : (charge kind n s).replies = s.replies := rfl
@[simp] theorem charge_nextId (kind n : Nat) (s : State) : (charge kind n s).nextId = s.nextId := rfl
@[simp] theorem charge_free (kind n : Nat) (s : State) : (charge kind n s).free = s.free := rfl
@[simp] theorem charge_cyc (kind n : Nat) (s : State) : (charge kind n s).cyc = s.cyc := rfl
@[simp] theorem charge_inputs (kind n : Nat) (s : State) : (charge kind n s).inputs = s.inputs := rfl
@[simp] theorem charge_agenda (kind n : Nat) (s : State) : (charge kind n s).agenda = s.agenda := rfl
@[simp] theorem charge_dev (kind n : Nat) (s : State) : (charge kind n s).dev = s.dev := rfl
@[simp] theorem charge_tk_serr (kind n : Nat) (s : State) : (charge kind n s).tk.serr = s.tk.serr := rfl
@[simp] theorem charge_tk_alive (kind n : Nat) (s : State) : (charge kind n s).tk.alive = s.tk.alive := rfl
@[simp] theorem charge_tk_vf (kind n : Nat) (s : State) : (charge kind n s).tk.vf = s.tk.vf := rfl
@[simp] theorem charge_tk_node (kind n : Nat) (s : State) : (charge kind n s).tk.node = s.tk.node := rfl
@[simp] theorem charge_tk_member (kind n : Nat) (s : State) : (charge kind n s).tk.member = s.tk.member := rfl
@[simp] theorem charge_tk_die (kind n : Nat) (s : State) : (charge kind n s).tk.die = s.tk.die := rfl
@[simp] theorem charge_tk_tile (kind n : Nat) (s : State) : (charge kind n s).tk.tile = s.tk.tile := rfl
@[simp] theorem charge_tk_col (kind n : Nat) (s : State) : (charge kind n s).tk.col = s.tk.col := rfl
@[simp] theorem charge_tk_g (kind n : Nat) (s : State) : (charge kind n s).tk.g = s.tk.g := rfl
@[simp] theorem charge_tk_nsib (kind n : Nat) (s : State) : (charge kind n s).tk.nsib = s.tk.nsib := rfl
@[simp] theorem charge_tk_gmode (kind n : Nat) (s : State) : (charge kind n s).tk.gmode = s.tk.gmode := rfl
@[simp] theorem charge_tk_cls (kind n : Nat) (s : State) : (charge kind n s).tk.cls = s.tk.cls := rfl
@[simp] theorem charge_tk_cust (kind n : Nat) (s : State) : (charge kind n s).tk.cust = s.tk.cust := rfl
@[simp] theorem charge_tk_place (kind n : Nat) (s : State) : (charge kind n s).tk.place = s.tk.place := rfl
@[simp] theorem charge_tk_safeb (kind n : Nat) (s : State) : (charge kind n s).tk.safeb = s.tk.safeb := rfl
@[simp] theorem charge_tk_hop (kind n : Nat) (s : State) : (charge kind n s).tk.hop = s.tk.hop := rfl
@[simp] theorem charge_tk_code (kind n : Nat) (s : State) : (charge kind n s).tk.code = s.tk.code := rfl
@[simp] theorem charge_tk_obj (kind n : Nat) (s : State) : (charge kind n s).tk.obj = s.tk.obj := rfl
@[simp] theorem charge_tk_vidx (kind n : Nat) (s : State) : (charge kind n s).tk.vidx = s.tk.vidx := rfl
@[simp] theorem charge_tk_gang (kind n : Nat) (s : State) : (charge kind n s).tk.gang = s.tk.gang := rfl
@[simp] theorem charge_tk_slots (kind n : Nat) (s : State) : (charge kind n s).tk.slots = s.tk.slots := rfl
@[simp] theorem charge_tk_lease (kind n : Nat) (s : State) : (charge kind n s).tk.lease = s.tk.lease := rfl
@[simp] theorem charge_tk_lc (kind n : Nat) (s : State) : (charge kind n s).tk.lc = s.tk.lc := rfl
@[simp] theorem charge_tk_phn (kind n : Nat) (s : State) : (charge kind n s).tk.phn = s.tk.phn := rfl
@[simp] theorem charge_tk_sref (kind n : Nat) (s : State) : (charge kind n s).tk.sref = s.tk.sref := rfl
@[simp] theorem charge_tk_holdAt (kind n : Nat) (s : State) : (charge kind n s).tk.holdAt = s.tk.holdAt := rfl
@[simp] theorem charge_tk_hands (kind n : Nat) (s : State) : (charge kind n s).tk.hands = s.tk.hands := rfl
@[simp] theorem charge_tk_handsPrev (kind n : Nat) (s : State) : (charge kind n s).tk.handsPrev = s.tk.handsPrev := rfl
@[simp] theorem charge_tk_kept (kind n : Nat) (s : State) : (charge kind n s).tk.kept = s.tk.kept := rfl
@[simp] theorem charge_tk_meterPrev (kind n : Nat) (s : State) : (charge kind n s).tk.meterPrev = s.tk.meterPrev := rfl
@[simp] theorem charge_tk_hold (kind n : Nat) (s : State) : (charge kind n s).tk.hold = s.tk.hold := rfl
@[simp] theorem charge_tk_was (kind n : Nat) (s : State) : (charge kind n s).tk.was = s.tk.was := rfl
@[simp] theorem charge_tk_meterWas (kind n : Nat) (s : State) : (charge kind n s).tk.meterWas = s.tk.meterWas := rfl
@[simp] theorem charge_tk_cond (kind n : Nat) (s : State) : (charge kind n s).tk.cond = s.tk.cond := rfl
@[simp] theorem charge_tk_ending (kind n : Nat) (s : State) : (charge kind n s).tk.ending = s.tk.ending := rfl
@[simp] theorem charge_tk_preempt (kind n : Nat) (s : State) : (charge kind n s).tk.preempt = s.tk.preempt := rfl
@[simp] theorem charge_tk_preAt (kind n : Nat) (s : State) : (charge kind n s).tk.preAt = s.tk.preAt := rfl
@[simp] theorem charge_tk_taken (kind n : Nat) (s : State) : (charge kind n s).tk.taken = s.tk.taken := rfl
@[simp] theorem charge_tk_waits (kind n : Nat) (s : State) : (charge kind n s).tk.waits = s.tk.waits := rfl
@[simp] theorem charge_tk_chans (kind n : Nat) (s : State) : (charge kind n s).tk.chans = s.tk.chans := rfl
@[simp] theorem charge_tk_out (kind n : Nat) (s : State) : (charge kind n s).tk.out = s.tk.out := rfl
@[simp] theorem charge_tk_seqs (kind n : Nat) (s : State) : (charge kind n s).tk.seqs = s.tk.seqs := rfl

/-! ### onDev -/

@[simp] theorem onDev_ix (f : Dev → Dev) (s : State) : (onDev f s).ix = s.ix := rfl
@[simp] theorem onDev_tid (f : Dev → Dev) (s : State) : (onDev f s).tid = s.tid := rfl
@[simp] theorem onDev_k (f : Dev → Dev) (s : State) : (onDev f s).k = s.k := rfl
@[simp] theorem onDev_tk (f : Dev → Dev) (s : State) : (onDev f s).tk = s.tk := rfl
@[simp] theorem onDev_sq (f : Dev → Dev) (s : State) : (onDev f s).sq = s.sq := rfl
@[simp] theorem onDev_tasks (f : Dev → Dev) (s : State) : (onDev f s).tasks = s.tasks := rfl
@[simp] theorem onDev_mem (f : Dev → Dev) (s : State) : (onDev f s).mem = s.mem := rfl
@[simp] theorem onDev_reqs (f : Dev → Dev) (s : State) : (onDev f s).reqs = s.reqs := rfl
@[simp] theorem onDev_replies (f : Dev → Dev) (s : State) : (onDev f s).replies = s.replies := rfl
@[simp] theorem onDev_nextId (f : Dev → Dev) (s : State) : (onDev f s).nextId = s.nextId := rfl
@[simp] theorem onDev_free (f : Dev → Dev) (s : State) : (onDev f s).free = s.free := rfl
@[simp] theorem onDev_cyc (f : Dev → Dev) (s : State) : (onDev f s).cyc = s.cyc := rfl
@[simp] theorem onDev_inputs (f : Dev → Dev) (s : State) : (onDev f s).inputs = s.inputs := rfl
@[simp] theorem onDev_agenda (f : Dev → Dev) (s : State) : (onDev f s).agenda = s.agenda := rfl
@[simp] theorem onDev_dev (f : Dev → Dev) (s : State) : (onDev f s).dev = f s.dev := rfl

/-! ### physWrite -/

@[simp] theorem physWrite_ix (s : State) (n p : Nat) (bs : List Byte) : (physWrite s n p bs).ix = s.ix := rfl
@[simp] theorem physWrite_tid (s : State) (n p : Nat) (bs : List Byte) : (physWrite s n p bs).tid = s.tid := rfl
@[simp] theorem physWrite_k (s : State) (n p : Nat) (bs : List Byte) : (physWrite s n p bs).k = s.k := rfl
@[simp] theorem physWrite_tk (s : State) (n p : Nat) (bs : List Byte) : (physWrite s n p bs).tk = s.tk := rfl
@[simp] theorem physWrite_sq (s : State) (n p : Nat) (bs : List Byte) : (physWrite s n p bs).sq = s.sq := rfl
@[simp] theorem physWrite_tasks (s : State) (n p : Nat) (bs : List Byte) : (physWrite s n p bs).tasks = s.tasks := rfl
@[simp] theorem physWrite_reqs (s : State) (n p : Nat) (bs : List Byte) : (physWrite s n p bs).reqs = s.reqs := rfl
@[simp] theorem physWrite_replies (s : State) (n p : Nat) (bs : List Byte) : (physWrite s n p bs).replies = s.replies := rfl
@[simp] theorem physWrite_nextId (s : State) (n p : Nat) (bs : List Byte) : (physWrite s n p bs).nextId = s.nextId := rfl
@[simp] theorem physWrite_free (s : State) (n p : Nat) (bs : List Byte) : (physWrite s n p bs).free = s.free := rfl
@[simp] theorem physWrite_cyc (s : State) (n p : Nat) (bs : List Byte) : (physWrite s n p bs).cyc = s.cyc := rfl
@[simp] theorem physWrite_inputs (s : State) (n p : Nat) (bs : List Byte) : (physWrite s n p bs).inputs = s.inputs := rfl
@[simp] theorem physWrite_agenda (s : State) (n p : Nat) (bs : List Byte) : (physWrite s n p bs).agenda = s.agenda := rfl
@[simp] theorem physWrite_dev (s : State) (n p : Nat) (bs : List Byte) : (physWrite s n p bs).dev = s.dev := rfl

end Sys2Proof.Machine
end

