-- ==== Sys2Proof/Tests/Slice0.lean ====
section
/-!
SUPPORT. Tests: the word of every slot operation against the decoder, terms that well-formedness refuses, words that the decoder
refuses, single steps, and a witness for the hypotheses of every statement.
-/

namespace Sys2Proof.Tests

open Sys2Proof.Machine

set_option Elab.async false

/-! ### Decoding

Each word is the row's `match` of spec/opcode_table.json with its fields filled in: stop 1, P 5, N 1, and operands by field. -/

/-- The guard of the words below. -/
def gT : Guard := ⟨true, 5#3, true⟩

/-- Every word decodes to the instruction beside it. -/
def decodesTo (l : List (Nat × Instr)) : Bool := l.all (fun e => decodeTableWord 32 e.1 == some e.2)

theorem test_decode_scalar_1 : decodesTo [
  (0x80400000, .nop true),
  (0x802EA5A5, .illegal true 5#3 true 173477#18),
  (0x80AC989B, .add gT 9#6 34#6 27#6),
  (0x80EC989B, .sub gT 9#6 34#6 27#6),
  (0x812C98AD, .addi gT 9#6 34#6 ⟨false, 45#14⟩),
  (0x816C95A3, .lih gT 9#6 ⟨false, 1443#20⟩),
  (0x81AC989B, .mul gT 9#6 34#6 27#6),
  (0x81EC989B, .mulh gT 9#6 34#6 27#6),
  (0x822C989B, .mulhn gT 9#6 34#6 27#6),
  (0x826C989B, .div gT 9#6 34#6 27#6),
  (0x82AC989B, .divn gT 9#6 34#6 27#6),
  (0x82EC989B, .rem gT 9#6 34#6 27#6),
  (0x832C989B, .remn gT 9#6 34#6 27#6),
  (0x836C989B, .andS gT 9#6 34#6 27#6),
  (0x83AC989B, .orS gT 9#6 34#6 27#6),
  (0x83EC989B, .xorS gT 9#6 34#6 27#6)] = true := by decide

theorem test_decode_scalar_2 : decodesTo [
  (0x842C98AD, .andi gT 9#6 34#6 ⟨false, 45#14⟩),
  (0x846C98AD, .ori gT 9#6 34#6 ⟨false, 45#14⟩),
  (0x84AC98AD, .xori gT 9#6 34#6 ⟨false, 45#14⟩),
  (0x84EC989B, .shl gT 9#6 34#6 27#6),
  (0x852C989B, .shr gT 9#6 34#6 27#6),
  (0x856C989B, .shra gT 9#6 34#6 27#6),
  (0x85AC98AD, .shli gT 9#6 34#6 45#6),
  (0x85EC98AD, .shri gT 9#6 34#6 45#6),
  (0x862C98AD, .shrai gT 9#6 34#6 45#6),
  (0x866C989B, .rotr gT 9#6 34#6 27#6),
  (0x86AC9880, .clz gT 9#6 34#6),
  (0x86EC9880, .popc gT 9#6 34#6),
  (0x872C989B, .minS gT 9#6 34#6 27#6),
  (0x876C989B, .maxS gT 9#6 34#6 27#6),
  (0x87AC989B, .minn gT 9#6 34#6 27#6),
  (0x87EC989B, .maxn gT 9#6 34#6 27#6)] = true := by decide

theorem test_decode_scalar_3 : decodesTo [
  (0x882C989B, .sel gT 9#6 34#6 27#6),
  (0x886C689B, .ceq gT 6#3 34#6 27#6),
  (0x88AC689B, .cne gT 6#3 34#6 27#6),
  (0x88EC689B, .clt gT 6#3 34#6 27#6),
  (0x892C689B, .cle gT 6#3 34#6 27#6),
  (0x896C689B, .cltn gT 6#3 34#6 27#6),
  (0x89AC689B, .clen gT 6#3 34#6 27#6),
  (0x89EC68AD, .ceqi gT 6#3 34#6 ⟨false, 45#14⟩),
  (0x8A2C68AD, .clti gT 6#3 34#6 ⟨false, 45#14⟩),
  (0x8A6C989B, .badr gT 9#6 34#6 27#6),
  (0x8AAC98AD, .boff gT 9#6 34#6 ⟨false, 45#14⟩),
  (0x8AEC98AD, .ldb gT 9#6 34#6 ⟨false, 45#14⟩),
  (0x8B2C98AD, .ldh gT 9#6 34#6 ⟨false, 45#14⟩),
  (0x8B6C98AD, .ldw gT 9#6 34#6 ⟨false, 45#14⟩),
  (0x8BAC98AD, .ldd gT 9#6 34#6 ⟨false, 45#14⟩),
  (0x8BEC98AD, .stb gT 9#6 34#6 ⟨false, 45#14⟩)] = true := by decide

theorem test_decode_scalar_4 : decodesTo [
  (0x8C2C98AD, .sth gT 9#6 34#6 ⟨false, 45#14⟩),
  (0x8C6C98AD, .stw gT 9#6 34#6 ⟨false, 45#14⟩),
  (0x8CAC98AD, .std gT 9#6 34#6 ⟨false, 45#14⟩),
  (0x8CEC98AD, .ldl gT 9#6 34#6 ⟨false, 45#14⟩),
  (0x8D2C98AD, .stl gT 9#6 34#6 ⟨false, 45#14⟩),
  (0x8D6C989B, .aadd gT 9#6 34#6 27#6),
  (0x8DAC989B, .amin gT 9#6 34#6 27#6),
  (0x8DEC989B, .amax gT 9#6 34#6 27#6),
  (0x8E2C989B, .aor gT 9#6 34#6 27#6),
  (0x8E6C989B, .axch gT 9#6 34#6 27#6),
  (0x8EAC989B, .acas gT 9#6 34#6 27#6),
  (0x8EEC6880, .qmov gT 6#3 34#6),
  (0x8F2C9000, .movq gT 9#6),
  (0x8F6C616D, .qlog gT 6#3 5#3 5#3 5#3)] = true := by decide

theorem test_decode_vectorA_1 : decodesTo [
  (0x906C989B, .vaddVa gT 9#8 ⟨34#8, false⟩ ⟨27#8, false⟩),
  (0x90AC989B, .vsubVa gT 9#8 ⟨34#8, false⟩ ⟨27#8, false⟩),
  (0x90EC989B, .vmulVa gT 9#8 ⟨34#8, false⟩ ⟨27#8, false⟩),
  (0x912C989B, .vfmaVa gT 9#8 ⟨34#8, false⟩ ⟨27#8, false⟩),
  (0x916C989B, .vfmsVa gT 9#8 ⟨34#8, false⟩ ⟨27#8, false⟩),
  (0x91AC989B, .vfnmaVa gT 9#8 ⟨34#8, false⟩ ⟨27#8, false⟩),
  (0x91EC989B, .vminVa gT 9#8 ⟨34#8, false⟩ ⟨27#8, false⟩),
  (0x922C989B, .vmaxVa gT 9#8 ⟨34#8, false⟩ ⟨27#8, false⟩),
  (0x926C9880, .vabsVa gT 9#8 ⟨34#8, false⟩),
  (0x92AC9880, .vnegVa gT 9#8 ⟨34#8, false⟩),
  (0x92EC9880, .vrcpeVa gT 9#8 ⟨34#8, false⟩),
  (0x932C9880, .vrsqeVa gT 9#8 ⟨34#8, false⟩),
  (0x936C989B, .vdiv gT 9#8 ⟨34#8, false⟩ ⟨27#8, false⟩),
  (0x93AC9880, .vsqrt gT 9#8 ⟨34#8, false⟩),
  (0x93EC9880, .vexp2 gT 9#8 ⟨34#8, false⟩),
  (0x942C9880, .vlog2 gT 9#8 ⟨34#8, false⟩)] = true := by decide

theorem test_decode_vectorA_2 : decodesTo [
  (0x946C989B, .viaddVa gT 9#8 ⟨34#8, false⟩ ⟨27#8, false⟩),
  (0x94AC989B, .visubVa gT 9#8 ⟨34#8, false⟩ ⟨27#8, false⟩),
  (0x94EC989B, .vimulVa gT 9#8 ⟨34#8, false⟩ ⟨27#8, false⟩),
  (0x952C989B, .vimacVa gT 9#8 ⟨34#8, false⟩ ⟨27#8, false⟩),
  (0x956C989B, .vandVa gT 9#8 ⟨34#8, false⟩ ⟨27#8, false⟩),
  (0x95AC989B, .vorVa gT 9#8 ⟨34#8, false⟩ ⟨27#8, false⟩),
  (0x95EC989B, .vxorVa gT 9#8 ⟨34#8, false⟩ ⟨27#8, false⟩),
  (0x962C989B, .vshlVa gT 9#8 ⟨34#8, false⟩ ⟨27#8, false⟩),
  (0x966C989B, .vshrVa gT 9#8 ⟨34#8, false⟩ ⟨27#8, false⟩),
  (0x96AC989B, .vshraVa gT 9#8 ⟨34#8, false⟩ ⟨27#8, false⟩),
  (0x96EC689B, .vfceqVa gT 6#3 ⟨34#8, false⟩ ⟨27#8, false⟩),
  (0x972C689B, .vfcltVa gT 6#3 ⟨34#8, false⟩ ⟨27#8, false⟩),
  (0x976C689B, .vfcleVa gT 6#3 ⟨34#8, false⟩ ⟨27#8, false⟩),
  (0x97AC689B, .viceqVa gT 6#3 ⟨34#8, false⟩ ⟨27#8, false⟩),
  (0x97EC689B, .vicltVa gT 6#3 ⟨34#8, false⟩ ⟨27#8, false⟩),
  (0x982C689B, .vicleVa gT 6#3 ⟨34#8, false⟩ ⟨27#8, false⟩)] = true := by decide

theorem test_decode_vectorA_3 : decodesTo [
  (0x986C989B, .vselVa gT 9#8 ⟨34#8, false⟩ ⟨27#8, false⟩),
  (0x98AC9880, .vmovVa gT 9#8 ⟨34#8, false⟩),
  (0x98EC9880, .vbcstVa gT 9#8 34#6),
  (0x992C98AD, .vlaneVa gT 9#6 34#6 45#14),
  (0x996C98AD, .vextVa gT 9#6 34#6 45#14),
  (0x99AC9883, .vcvtVa gT 9#6 34#6 3#3 0#3 0#2 false),
  (0x99EC98B3, .vpackVa gT 9#6 34#6 3#3 2#2 true),
  (0x9A2C9893, .vunpkVa gT 9#6 34#6 3#3 2#2),
  (0x9A6C989B, .vperm gT 9#8 ⟨34#8, false⟩ ⟨27#8, false⟩),
  (0x9AAC98AD, .vrotlVa gT 9#6 34#6 45#14),
  (0x9AEC9880, .vrsum gT 9#8 ⟨34#8, false⟩),
  (0x9B2C9880, .vrmax gT 9#8 ⟨34#8, false⟩),
  (0x9B6C98AD, .vldxVa gT 9#6 34#6 ⟨false, 45#14⟩),
  (0x9BAC98AD, .vstxVa gT 9#6 34#6 ⟨false, 45#14⟩),
  (0x9BEC98A5, .vtrdVa gT 9#6 5#3 34#6 4#8),
  (0x9C2C9885, .vtcd gT 9#6 5#3 34#6)] = true := by decide

theorem test_decode_vectorA_4 : decodesTo [
  (0x9C6C98A5, .vtrwVa gT 9#6 5#3 34#6 4#8),
  (0x9CAC9885, .vtcw gT 9#6 5#3 34#6),
  (0x9CEC616D, .vmskVa gT 6#3 5#3 5#3 5#3),
  (0x9D2C989B, .viotaVa gT 9#8 34#6 27#6)] = true := by decide

theorem test_decode_vectorB_1 : decodesTo [
  (0xA06C989B, .vaddVb gT 9#8 ⟨34#8, false⟩ ⟨27#8, false⟩),
  (0xA0AC989B, .vsubVb gT 9#8 ⟨34#8, false⟩ ⟨27#8, false⟩),
  (0xA0EC989B, .vmulVb gT 9#8 ⟨34#8, false⟩ ⟨27#8, false⟩),
  (0xA12C989B, .vfmaVb gT 9#8 ⟨34#8, false⟩ ⟨27#8, false⟩),
  (0xA16C989B, .vfmsVb gT 9#8 ⟨34#8, false⟩ ⟨27#8, false⟩),
  (0xA1AC989B, .vfnmaVb gT 9#8 ⟨34#8, false⟩ ⟨27#8, false⟩),
  (0xA1EC989B, .vminVb gT 9#8 ⟨34#8, false⟩ ⟨27#8, false⟩),
  (0xA22C989B, .vmaxVb gT 9#8 ⟨34#8, false⟩ ⟨27#8, false⟩),
  (0xA26C9880, .vabsVb gT 9#8 ⟨34#8, false⟩),
  (0xA2AC9880, .vnegVb gT 9#8 ⟨34#8, false⟩),
  (0xA2EC9880, .vrcpeVb gT 9#8 ⟨34#8, false⟩),
  (0xA32C9880, .vrsqeVb gT 9#8 ⟨34#8, false⟩),
  (0xA46C989B, .viaddVb gT 9#8 ⟨34#8, false⟩ ⟨27#8, false⟩),
  (0xA4AC989B, .visubVb gT 9#8 ⟨34#8, false⟩ ⟨27#8, false⟩),
  (0xA4EC989B, .vimulVb gT 9#8 ⟨34#8, false⟩ ⟨27#8, false⟩),
  (0xA52C989B, .vimacVb gT 9#8 ⟨34#8, false⟩ ⟨27#8, false⟩)] = true := by decide

theorem test_decode_vectorB_2 : decodesTo [
  (0xA56C989B, .vandVb gT 9#8 ⟨34#8, false⟩ ⟨27#8, false⟩),
  (0xA5AC989B, .vorVb gT 9#8 ⟨34#8, false⟩ ⟨27#8, false⟩),
  (0xA5EC989B, .vxorVb gT 9#8 ⟨34#8, false⟩ ⟨27#8, false⟩),
  (0xA62C989B, .vshlVb gT 9#8 ⟨34#8, false⟩ ⟨27#8, false⟩),
  (0xA66C989B, .vshrVb gT 9#8 ⟨34#8, false⟩ ⟨27#8, false⟩),
  (0xA6AC989B, .vshraVb gT 9#8 ⟨34#8, false⟩ ⟨27#8, false⟩),
  (0xA6EC689B, .vfceqVb gT 6#3 ⟨34#8, false⟩ ⟨27#8, false⟩),
  (0xA72C689B, .vfcltVb gT 6#3 ⟨34#8, false⟩ ⟨27#8, false⟩),
  (0xA76C689B, .vfcleVb gT 6#3 ⟨34#8, false⟩ ⟨27#8, false⟩),
  (0xA7AC689B, .viceqVb gT 6#3 ⟨34#8, false⟩ ⟨27#8, false⟩),
  (0xA7EC689B, .vicltVb gT 6#3 ⟨34#8, false⟩ ⟨27#8, false⟩),
  (0xA82C689B, .vicleVb gT 6#3 ⟨34#8, false⟩ ⟨27#8, false⟩),
  (0xA86C989B, .vselVb gT 9#8 ⟨34#8, false⟩ ⟨27#8, false⟩),
  (0xA8AC9880, .vmovVb gT 9#8 ⟨34#8, false⟩),
  (0xA8EC9880, .vbcstVb gT 9#8 34#6),
  (0xA92C98AD, .vlaneVb gT 9#6 34#6 45#14)] = true := by decide

theorem test_decode_vectorB_3 : decodesTo [
  (0xA96C98AD, .vextVb gT 9#6 34#6 45#14),
  (0xA9AC9883, .vcvtVb gT 9#6 34#6 3#3 0#3 0#2 false),
  (0xA9EC98B3, .vpackVb gT 9#6 34#6 3#3 2#2 true),
  (0xAA2C9893, .vunpkVb gT 9#6 34#6 3#3 2#2),
  (0xAAAC98AD, .vrotlVb gT 9#6 34#6 45#14),
  (0xAB6C98AD, .vldxVb gT 9#6 34#6 ⟨false, 45#14⟩),
  (0xABAC98AD, .vstxVb gT 9#6 34#6 ⟨false, 45#14⟩),
  (0xABEC98A5, .vtrdVb gT 9#6 5#3 34#6 4#8),
  (0xAC6C98A5, .vtrwVb gT 9#6 5#3 34#6 4#8),
  (0xACEC616D, .vmskVb gT 6#3 5#3 5#3 5#3),
  (0xAD2C989B, .viotaVb gT 9#8 34#6 27#6)] = true := by decide

theorem test_decode_matrix : decodesTo [
  (0xB06C2143, .mma gT 2#2 5#3 3#3),
  (0xB0AC2143, .mmaz gT 2#2 5#3 3#3),
  (0xB0EDE040, .mdrn gT 1#2 3#2 2#2 true),
  (0xB12C0000, .mclr gT),
  (0xB16C1140, .mscl gT true 5#3),
  (0xB1AC15A3, .mvcn gT true 1443#16),
  (0xB1EC9880, .msta gT 9#6 34#6),
  (0xB22DE143, .mmat gT 1#2 3#2 2#2 5#3 3#3)] = true := by decide

theorem test_decode_copy : decodesTo [
  (0xC06CD240, .cpl gT true 5#3 9#4),
  (0xC0ACD25B, .cpi gT true 5#3 9#4 27#6),
  (0xC0ECD25B, .cpo gT true 5#3 9#4 27#6),
  (0xC12CD19B, .cpdi gT true 5#3 6#4 27#6),
  (0xC16CD25B, .cpdo gT true 5#3 9#4 27#6),
  (0xC1ACD25B, .cps gT true 5#3 9#4 27#6),
  (0xC1ECD25B, .cpg gT true 5#3 9#4 27#6),
  (0xC22CD25B, .cpst gT true 5#3 9#4 27#6),
  (0xC26CD25B, .cpb gT true 5#3 9#4 27#6),
  (0xC2ACD25B, .cpr gT true 5#3 9#4 27#6)] = true := by decide

theorem test_decode_control_1 : decodesTo [
  (0xD06C25A3, .pbr gT 2#2 ⟨false, 1443#20⟩),
  (0xD0AC2880, .pbrr gT 2#2 34#6),
  (0xD0EC2000, .br gT 2#2),
  (0xD12C2880, .brc gT 2#2 34#6),
  (0xD16C2000, .call gT 2#2),
  (0xD1AC0000, .ret gT),
  (0xD1EC3882, .loop gT 3#3 34#6 2#2),
  (0xD22D35A3, .loopi gT 3#3 2#2 1443#20),
  (0xD26C38AD, .lstr gT 3#3 34#6 ⟨false, 45#14⟩),
  (0xD2AC90C0, .lidx gT 9#6 3#3),
  (0xD2EC3000, .lbrk gT 3#3),
  (0xD32C2882, .spawn gT 2#2 34#6 2#2),
  (0xD36C2000, .joinK gT 2#2),
  (0xD3AC05A3, .safe gT 1443#12),
  (0xD3EC0000, .halt gT),
  (0xD42C05A3, .trap gT 1443#20)] = true := by decide

theorem test_decode_control_2 : decodesTo [
  (0xD46C6140, .vany gT 6#3 5#3),
  (0xD4AC6140, .vall gT 6#3 5#3),
  (0xD4EC0880, .waitt gT 34#6),
  (0xD52C0880, .waitl gT 34#6),
  (0xD56C2895, .psel gT 149#8 34#6),
  (0xD5AC05A3, .brk gT 1443#20),
  (0xD5EC0001, .tret gT true)] = true := by decide

theorem test_decode_system_1 : decodesTo [
  (0xE06C0000, .phase gT),
  (0xE0AC0000, .bar gT),
  (0xE0EC7882, .send gT 7#5 34#8 2#2),
  (0xE12C91C2, .recv gT 9#8 7#5 2#2),
  (0xE16C7880, .sends gT 7#5 34#6),
  (0xE1AC91C0, .recvs gT 9#6 7#5),
  (0xE1EC0016, .bacq gT 22#6),
  (0xE22C0016, .brel gT 22#6),
  (0xE26C989B, .precW gT 9#6 34#6 27#6),
  (0xE2AC202A, .preci gT .vec 42#20),
  (0xE2EC289B, .shape gT 2#2 false 34#6 27#6),
  (0xE32C989B, .shapq gT 9#6 34#6 27#6),
  (0xE36C789B, .view gT 7#5 34#6 27#6),
  (0xE3AC9240, .viewq gT 9#6 9#4),
  (0xE3EC902C, .getc gT 9#6 44#8),
  (0xE42C902C, .setc gT 9#6 44#8)] = true := by decide

theorem test_decode_system_2 : decodesTo [
  (0xE46C9029, .stat gT 9#6 2#2 9#4),
  (0xE4AC9000, .engy gT 9#6),
  (0xE4EC9000, .gtc gT 9#6),
  (0xE52C9880, .lcr gT 9#6 34#6),
  (0xE56C0000, .fence gT),
  (0xE5AC0000, .invq gT),
  (0xE5EC0000, .svcYield gT),
  (0xE5EC0001, .svcFlush gT),
  (0xE62C989B, .cdsc gT 9#4 34#6 27#6),
  (0xE66C9880, .kzero gT 9#6 34#6),
  (0xE6AC989B, .scrb gT 9#6 34#6 27#6),
  (0xE6EC989B, .scrq gT 9#6 34#6 27#6),
  (0xE72C989B, .frel gT 9#6 34#6 27#6),
  (0xE76C989B, .plwr gT 9#6 34#6 27#6),
  (0xE7AC989B, .btwr gT 9#6 34#6 27#6),
  (0xE7EC989B, .qwrt gT 9#6 34#6 27#6)] = true := by decide
/-- With a header's byte (R278): the row numbers' upper bits and hold bits, a 14-bit and a 20-bit immediate. -/
theorem test_decode_header :
    (decode (some 0x56#8) 0x90401083#32).toOption = some (.vaddVa ⟨true, 0#3, false⟩ 65#8 ⟨66#8, true⟩ ⟨67#8, false⟩) ∧
    (decode (some 0xFF#8) 0x812C98AD#32).toOption = some (.addi gT 9#6 34#6 ⟨true, 0x3FED#14⟩) ∧
    (decode (some 0x80#8) 0x816C95A3#32).toOption = some (.lih gT 9#6 ⟨true, 0x805A3#20⟩) := by decide

/-- Why a word is refused. -/
def whyNot (x : Option Byte) (w : SlotWord) : Option DecodeError :=
  match decode x w with
  | .error e => some e
  | .ok _ => none

/-- R284, R285: reserved opcodes, headers outside slot 0, VA-only opcodes in class 010, reserved bits and extension bits that a format
does not take; BAR is RI12, so its unused bits are reserved bits (R385). -/
theorem test_decode_refuses :
    whyNot none 0xF0000000#32 = some .headerSlot ∧ whyNot none 0x0F800000#32 = some .unknownOp ∧
    whyNot none 0x10000000#32 = some .unknownOp ∧ whyNot none 0x23400000#32 = some .vaOnly ∧
    whyNot none 0x00400001#32 = some .reserved ∧ whyNot (some 1#8) 0x00800000#32 = some .extension ∧
    whyNot (some 1#8) 0x60800000#32 = some .reserved := by decide

/-! ### Well-formedness -/

/-- One ill-formed term for each check. -/
theorem test_wf_refuses :
    [Instr.addi gT 1#6 1#6 ⟨false, 64#14⟩, .lih gT 1#6 ⟨false, 4096#20⟩, .pbr gT 1#2 ⟨false, 4096#20⟩, .loop gT 6#3 1#6 0#2,
      .loopi gT 7#3 0#2 1#20, .lstr gT 6#3 1#6 ⟨false, 1#14⟩, .lstr gT 0#3 1#6 ⟨false, 64#14⟩, .lidx gT 1#6 6#3, .lbrk gT 7#3,
      .preci gT .mat 4096#20, .preci gT .acc 2#20, .preci gT .vec 64#20, .preci gT .all 0x80000#20, .shape gT 0#2 true 1#6 1#6,
      .view gT 13#5 1#6 1#6, .viewq gT 1#6 12#4, .mma gT 3#2 0#3 0#3, .mmaz gT 3#2 0#3 0#3, .mdrn gT 3#2 0#2 0#2 false,
      .mdrn gT 0#2 0#2 3#2 false, .mmat gT 3#2 0#2 0#2 0#3 0#3, .mmat gT 0#2 0#2 3#2 0#3 0#3, .cpdi gT false 0#3 1#4 0#6,
      .vcvtVa gT 1#6 1#6 0#3 0#3 1#2 false, .vcvtVb gT 1#6 1#6 0#3 3#3 0#2 true, .vpackVa gT 1#6 1#6 0#3 0#2 false,
      .vunpkVb gT 1#6 1#6 5#3 0#2, .vldxVa gT 1#6 1#6 ⟨false, 64#14⟩].all (fun i => !i.wf) = true := by decide

/-- The same terms with the fault mended. -/
theorem test_wf_admits :
    [Instr.addi gT 1#6 1#6 ⟨false, 63#14⟩, .addi gT 1#6 1#6 ⟨true, 64#14⟩, .lih gT 1#6 ⟨true, 4096#20⟩, .loop gT 5#3 1#6 0#2,
      .preci gT .all 0x7FFFF#20, .shape gT 0#2 true 1#6 0#6, .shape gT 0#2 false 1#6 1#6, .view gT 12#5 1#6 1#6,
      .viewq gT 1#6 11#4, .mma gT 2#2 0#3 0#3, .cpdi gT false 0#3 2#4 0#6, .vcvtVa gT 1#6 1#6 3#3 0#3 3#2 true,
      .vpackVa gT 1#6 1#6 7#3 0#2 false].all Instr.wf = true := by decide

/-! ### Single steps, with results worked out by hand from the rules -/

/-- On and off: q0 reads one (R191). -/
def on : Guard := ⟨true, 0#3, false⟩
def off : Guard := ⟨true, 0#3, true⟩

/-- A one-column task at LC 9 of its fourth group, owning every bank, with s1 = 5, s2 all ones, s3 = 2, and bt1 written three groups
ago. -/
def sq1 : Machine.Seq :=
  { seq0 with
    st := .running, own := 0x3F#6, grp := 3, nextLC := 10, s := [(1, 5#64), (2, 0xFFFFFFFFFFFFFFFF#64), (3, 2#64)],
    bt := [(1, ⟨12, 6, 0⟩), (2, ⟨12, 8, 2⟩)] }
def tk1 : Task := { task0 with alive := true, lc := 9, obj := ⟨[], [⟨[], 0#64, false⟩], [[(4, 30), (7, 40)]], false, []⟩, nsib := 1 }
def st1 : State := { State.reset with ix := { ix0 with c := 9, cl := 9, last := ⟨4, 3⟩, next := ⟨5, 0⟩ }, sq := sq1, tk := tk1, cyc := 20 }

/-- The instruction answers a next state of which `p` holds. -/
def after (i : Instr) (s : State) (p : State → Bool) : Bool :=
  match exec i s with
  | .next t => p t
  | _ => false

/-- Its first landing. -/
def lands (i : Instr) (s : State) (l : Landing) : Bool := after i s (fun t => t.sq.land == [l])

/-- It takes a trap of this cause and subcause. -/
def traps (i : Instr) (s : State) (cause sub : Nat) : Bool :=
  after i s (fun t => match t.ix.trap with
    | some x => x.cause == cause && x.sub == sub
    | none => false)

theorem test_add_wraps : lands (.add on 4#6 2#6 3#6) st1 ⟨9, 9, .sreg 4#6 1#64⟩ = true := by decide
theorem test_mulh_signed : lands (.mulh on 4#6 2#6 3#6) st1 ⟨9, 11, .sreg 4#6 0xFFFFFFFFFFFFFFFF#64⟩ = true := by decide
theorem test_shra_keeps_sign : lands (.shra on 4#6 2#6 1#6) st1 ⟨9, 9, .sreg 4#6 0xFFFFFFFFFFFFFFFF#64⟩ = true := by decide
theorem test_div_truncates : lands (.div on 4#6 1#6 3#6) st1 ⟨9, 28, .sreg 4#6 2#64⟩ = true := by decide
theorem test_div_by_zero : traps (.remn on 4#6 1#6 0#6) st1 8 2 = true := by decide
theorem test_write_s0_discarded : after (.add on 0#6 1#6 1#6) st1 (fun t => t.sq.land == []) = true := by decide
theorem test_lih_inserts : lands (.lih on 1#6 ⟨false, 7#20⟩) st1 ⟨9, 9, .sreg 1#6 20487#64⟩ = true := by decide
theorem test_clt_signed : lands (.clt on 1#3 2#6 1#6) st1 ⟨9, 9, .pred 1#3 true⟩ = true := by decide
theorem test_boff_wraps_offset :
    lands (.boff on 4#6 5#6 ⟨false, 63#14⟩) { st1 with sq := { sq1 with s := [(5, 0x0003000000000000#64)] } }
      ⟨9, 9, .sreg 4#6 0x0003FFFFFFFFFFFF#64⟩ = true := by decide
theorem test_br_taken : after (.br on 1#2) st1 (fun t => t.sq.pend == some ⟨12, 2, 6⟩) = true := by decide
theorem test_br_too_early : traps (.br on 2#2) st1 2 1 = true := by decide
theorem test_loopi_zero_skips : after (.loopi on 0#3 1#2 0#20) st1 (fun t => t.ix.jump == some ⟨13, 0⟩) = true := by decide
theorem test_loopi_starts : after (.loopi on 0#3 1#2 4#20) st1 (fun t =>
    let l := tabGet loopOff t.sq.loops 0
    l.active && l.count == 4 && l.sB == 5 && l.eB == 12) = true := by decide
theorem test_psel_second_entry : after (.psel on 0#8 1#6) st1 (fun t => t.sq.pend == some ⟨40, 2, 6⟩) = true := by decide
theorem test_psel_no_variant : traps (.psel on 0#8 2#6) st1 10 2 = true := by decide
theorem test_safe_index : traps (.safe on 1#12) st1 1 1 = true := by decide
theorem test_illegal_unpredicated : traps (.illegal true 0#3 true 5#18) st1 1 6 = true := by decide
theorem test_trap_tinfo : after (.trap on 0x12345#20) st1 (fun t => tabGet 0#64 t.sq.tinfo 0 == 0x12345#64) = true := by decide
theorem test_shape_grant : lands (.shape on 1#2 false 1#6 3#6) st1 ⟨9, 12, .ctrl 0x1D (shWord 1 false 5 2)⟩ = true := by decide
/-- R206, R207: 5 × 2 at one column is granted 32 × 32. -/
theorem test_shape_word : shGM (shWord 1 false 5 2) = 32 ∧ shGN (shWord 1 false 5 2) = 32 ∧ shG (shWord 1 false 5 2) = true := by decide
theorem test_stat_other_column : traps (.stat on 4#6 1#2 1#4) st1 1 1 = true := by decide
theorem test_setc_read_only : traps (.setc on 1#6 0x00#8) st1 1 14 = true := by decide
theorem test_sends_invalid : traps (.sends on 3#5 1#6) st1 1 10 = true := by decide
theorem test_kzero_outside_custodian : traps (.kzero on 4#6 1#6) st1 1 13 = true := by decide
theorem test_copy_unwritten_descriptor : traps (.cpl on false 0#3 2#4) st1 2 1 = true := by decide
theorem test_load_invalid_buffer : traps (.ldw on 4#6 1#6 ⟨false, 0#14⟩) st1 4 1 = true := by decide
/-- R238: 1.5 + 1.5 in f32 is 3. -/
theorem test_vadd_lane : (encodeX fp32 0#2 (addX 0#2 (decodeF fp32 0x3FC00000) (decodeF fp32 0x3FC00000))).1 = 0x40400000 := by decide
theorem test_plim_clamps : after (.plimWrite 5000#64) st1 (fun t => t.dev.plim == 4200) = true := by decide
theorem test_pcreate : after .pcreate { st1 with dev := { dev0 with cfg := { cfg0 with a0 := 3#64, busy := true } } }
    (fun t => t.dev.parts == 8#48 && !t.dev.cfg.busy && t.dev.cfg.code == 0) = true := by decide
theorem test_vdestroy_absent : after .vdestroy { st1 with dev := { dev0 with cfg := { cfg0 with busy := true } } }
    (fun t => t.dev.cfg.code == 3) = true := by decide

/-- A word placed by `withFetchWord` is what the next step runs: ADDI s4, s0, 5. -/
theorem test_step_runs_word :
    (match step (State.reset.withFetchWord 32 0x81004005) with
      | .next t => ((tabFind t.tasks 0).bind (fun k => tabFind k.seqs 0)).any (fun q => q.land.any (fun l =>
          l.dst == .sreg 4#6 5#64))
      | _ => false) = true := by decide

/-! ### Witnesses: for each statement, states and operands that meet its hypotheses, one for each of its clauses -/

/-- The entry of a code buffer, with all rights. -/
abbrev anyEntry : BitVec 256 := fetchTask.fetchEntry

/-- `st1` with a leased buffer at INDEX 16, whose address s4 holds. -/
def stM : State := { st1 with
  tk := { tk1 with cust := true, lease := [⟨16, 0, 0x200000, true, true⟩] }
  sq := { sq1 with rr := [(16, anyEntry)], s := [(3, 2#64), (4, 0x0010000000000000#64)] } }

/-- The same with a running copy's task, a handler, a sibling and loops. -/
def sibl (st : SeqSt) : Machine.Seq := { seq0 with st := st, startLC := 2, haltLC := 4 }
def stS (st : SeqSt) : State := { st1 with tk := { tk1 with seqs := [(1, sibl st)] } }
def inLoop (_l : Nat) : Loop := ⟨true, false, 3, 1, 0#64, 1#64, 0#64, 1#64, 5, 12⟩
def stL : State := { st1 with sq := { sq1 with loops := [(1, inLoop 1)] } }
def stP : State := { st1 with sq := { sq1 with pend := some ⟨12, 2, 6⟩ } }
def stH : State := { st1 with sq := { sq1 with hret := some ⟨⟨4, 0⟩, .sequential, none, []⟩, trapv := 0x8000000000000040#64 } }

/-- Whether a check passes. -/
def passes {α : Type} (x : Except Trap α) : Bool := match x with
  | .ok _ => true
  | .error _ => false
theorem of_passes {α : Type} {x : Except Trap α} (h : passes x = true) : ∃ e, x = .ok e := by
  cases x with
  | ok e => exact ⟨e, rfl⟩
  | error _ => cases h
theorem of_passes_unit {x : Except Trap Unit} (h : passes x = true) : x = .ok () := by
  cases x with
  | ok e => rfl
  | error _ => cases h
theorem of_fails {α : Type} {x : Except Trap α} (h : passes x = false) : ∃ t, x = .error t := by
  cases x with
  | ok _ => cases h
  | error t => exact ⟨t, rfl⟩

theorem witness_RegisterArithmetic : predOn on st1 = true ∧ predOn off st1 = false := by decide
theorem witness_ImmediateArithmetic : predOn on st1 = true ∧ (⟨true, 0xFFFFF#20⟩ : Imm20).ok = true ∧
    (⟨false, 0xFFF#20⟩ : Imm20).ok = true := by decide
theorem witness_Division : predOn on st1 = true ∧ readS st1 3#6 ≠ 0#64 ∧ readS st1 0#6 = 0#64 := by decide
/-- A slot that a loop flag turns off, and a store that met uncorrectable data. -/
def stOff : State := { st1 with ix := { st1.ix with off := true } }
def stErr : State := { st1 with tk := { tk1 with serr := some (0x0010000000000040#64, 0x40) } }
theorem witness_Select : st1.ix.off = false ∧ stOff.ix.off = true := by decide
theorem witness_LrsLoadStore : predOn on st1 = true ∧ 0 < st1.tk.g ∧ ownsRow st1.sq 2303 = true ∧
    ¬(st1.sq.rdHold.1 ≤ st1.ix.c ∧ st1.ix.c < st1.sq.rdHold.2) ∧ ownsRow { sq1 with own := 0x1F#6 } 5 = false := by decide
theorem witness_ScalarMemory : predOn on stM = true ∧
    (∃ e, check stM true false false false kLoad (elemAddr (readS stM 4#6) ⟨false, 1#14⟩ 8) 8 = .ok e) ∧
    scalarOverlap stM false (elemAddr (readS stM 4#6) ⟨false, 1#14⟩ 8) 8 = .ok () ∧
    (∃ e, check stM false true false false kStore (elemAddr (readS stM 4#6) ⟨false, 1#14⟩ 1) 1 = .ok e) ∧
    scalarOverlap stM true (elemAddr (readS stM 4#6) ⟨false, 1#14⟩ 1) 1 = .ok () ∧
    (∃ t, check st1 true false false false kLoad (elemAddr (readS st1 1#6) ⟨false, 1#14⟩ 8) 8 = .error t) ∧
    (∃ t, check st1 false true false false kStore (elemAddr (readS st1 1#6) ⟨false, 1#14⟩ 1) 1 = .error t) :=
  ⟨by decide, of_passes (by decide), of_passes_unit (by decide), of_passes (by decide), of_passes_unit (by decide),
    of_fails (by decide), of_fails (by decide)⟩
theorem witness_Atomics : predOn on stM = true ∧
    (∃ e, check stM false true true false kAtomic (readS stM 4#6 &&& ~~~7#64) 8 = .ok e) ∧
    scalarOverlap stM true (readS stM 4#6 &&& ~~~7#64) 8 = .ok () ∧
    (∃ t, check st1 false true true false kAtomic (readS st1 1#6 &&& ~~~7#64) 8 = .error t) :=
  ⟨by decide, of_passes (by decide), of_passes_unit (by decide), of_fails (by decide)⟩
theorem witness_Branches : predOn on st1 = true ∧ st1.sq.pend = none ∧ tabFind st1.sq.bt 1 = some ⟨12, 6, 0⟩ ∧ 0 + 3 ≤ st1.sq.grp ∧
    tabFind st1.sq.bt 0 = none ∧ tabFind st1.sq.bt 2 = some ⟨12, 8, 2⟩ ∧ st1.sq.grp < 2 + 3 ∧ stP.sq.pend = some ⟨12, 2, 6⟩ ∧
    predOn on stP = true ∧ tabFind stP.sq.bt 1 = some ⟨12, 6, 0⟩ ∧ 0 + 3 ≤ stP.sq.grp ∧ readS stP 0#6 = 0#64 ∧ readS stP 1#6 ≠ 0#64 := by
  decide
theorem witness_Loops : predOn on stL = true ∧ tabFind stL.sq.bt 1 = some ⟨12, 6, 0⟩ ∧ 0 + 3 ≤ stL.sq.grp ∧
    (getLoop st1 5#3).active = false ∧ (∀ n < 6, (tabGet loopOff st1.sq.loops n).active = false) ∧ st1.ix.last.bundle + 1 ≤ 12 ∧
    12 ≤ st1.ix.last.bundle + 1 + 255 ∧ (getLoop stL 1#3).active = true ∧ (getLoop stL 0#3).active = false ∧
    (tabGet loopOff stL.sq.loops 1).active = true ∧ stL.sq.pend = none ∧ 12 < { st1.ix with last := ⟨12, 3⟩ }.last.bundle + 1 ∧
    { stL with sq := { stL.sq with pend := stP.sq.pend } }.sq.pend = some ⟨12, 2, 6⟩ := by decide
theorem witness_LoopBack : (tabGet loopOff stL.sq.loops 1).active = true ∧
    (∀ m < 6, m ≠ 1 → (tabGet loopOff stL.sq.loops m).active = false) ∧ (inLoop 1).iter + 1 < (inLoop 1).count ∧
    (inLoop 1).eB = 12 ∧ (tabGet loopOff [(1, { inLoop 1 with iter := 2 })] 1).count ≤ 2 + 1 := by decide
theorem witness_Siblings : (stS .idle).k = 0 ∧ predOn on (stS .idle) = true ∧ (1#2).toNat ≤ (stS .idle).tk.nsib ∧
    tabFind (stS .idle).tk.seqs 1 = some (sibl .idle) ∧ (56#6).toNat ≤ 56 ∧ tabFind (stS .idle).sq.bt 1 = some ⟨12, 6, 0⟩ ∧
    seqBusy (sibl .idle) = false ∧ (sibl .idle).haltLC ≠ (stS .idle).ix.c ∧ seqBusy (sibl .running) = true ∧
    tabFind (stS .idle).sq.bt 0 = none ∧ { sibl .idle with haltLC := 9 }.haltLC = (stS .idle).ix.c ∧ (sibl .idle).startLC ≤ (stS .idle).ix.c ∧
    (stS .idle).ix.c ≠ 0 ∧
    (stS .idle).tk.nsib < (2#2).toNat ∧ 56 < (57#6).toNat ∧ { st1 with k := 1 }.k ≠ 0 := by decide
theorem witness_SafePoint : st1.k = 0 ∧ (0#12).toNat < st1.tk.obj.live.length ∧ predOn on st1 = true ∧ pipelineEmpty st1 = .ok () ∧
    st1.tk.serr = none ∧ st1.tk.preempt = none ∧ { tk1 with preAt := 19 }.preAt < st1.cyc ∧
    (∃ t, pipelineEmpty { st1 with sq := { sq1 with win := (5, 12) } } = .error t) ∧ st1.tk.obj.live.length ≤ (1#12).toNat ∧
    stErr.tk.serr = some (0x0010000000000040#64, 0x40) ∧ predOn on stErr = true ∧ { st1 with k := 1 }.k ≠ 0 :=
  ⟨by decide, by decide, by decide, of_passes_unit (by decide), by decide, by decide, by decide, of_fails (by decide), by decide, by decide, by decide, by decide⟩
theorem witness_Halting : stErr.tk.serr.isSome = true ∧ predOn on st1 = true ∧ st1.tk.serr = none ∧ { st1 with k := 1 }.k ≠ 0 ∧
    (∀ e ∈ (stS .idle).tk.seqs, seqBusy e.2 = false) ∧ (∃ e ∈ (stS .running).tk.seqs, seqBusy e.2 = true) :=
  ⟨by decide, by decide, by decide, by decide, by decide, (1, sibl .running), by decide, by decide⟩
theorem witness_TrapsFromCode : predOn on stH = true ∧ stH.sq.hret.isSome = true ∧ st1.sq.hret = none := by decide
theorem witness_TrapEntry : handlerCause (trapOf st1 0x0C 0x01 0#64 0#64 0#64) = true ∧ st1.k < 4 ∧
    (trapOf st1 0x0C 0x01 0#64 0#64 0#64).slot < 8 ∧ stH.sq.trapv.getLsbD 63 = true ∧ { stH.sq with hret := none }.hret = none ∧
    st1.sq.trapv.getLsbD 63 = false := by decide
/-- A descriptor, valid: four LRS rows from row 100 to row 7 (CPL). -/
def cplDesc : BitVec 128 := (1#128 <<< 127) ||| (4#128 <<< 76) ||| (100#128 <<< 64) ||| 7#128
theorem witness_WaitsAndMarkers : predOn on st1 = true ∧ brelBlocked st1 0x3F#6 = none ∧
    (brelBlocked { st1 with sq := { sq1 with copies :=
      [⟨1, 3, 0, 0, 1, false, 0, 3, 6, 4, 2304, cplDesc, 0, 0#256, 0, 0, 0, 0#256, 0, [], 0#6, false⟩] } } 0x3F#6).isSome = true ∧
    st1.k = 0 ∧ st1.tk.serr = none ∧ { st1 with k := 3 }.k ≠ 0 ∧ stErr.tk.serr.isSome = true := by decide
theorem witness_ScheduleSelection : st1.tk.obj.sched[(0#8).toNat]? = some [(4, 30), (7, 40)] ∧ (readS st1 1#6).toNat ≤ 7 ∧
    4 < (readS st1 1#6).toNat ∧ stP.sq.pend.isSome = true ∧ 7 < (readS st1 2#6).toNat ∧ st1.tk.obj.sched[(1#8).toNat]? = none := by
  decide

/-- A task with sending channel 0 and receiving channel 1, whose expected message has landed. -/
def chan1 (recv : Bool) : Chan := ⟨0#2, recv, 0#32, 0#5, 0#8, 4#24, 8#5, 0#32, [(0, ⟨5, 0, true, natLe 8 77, 0⟩)], none⟩
def stC : State := { st1 with tk := { tk1 with chans := [(0, chan1 false), (1, chan1 true)] } }

theorem witness_Channels : (chan1 false).path ≠ 3#2 ∧ (tabGet chanOff stC.tk.chans 0).recv = false ∧ predOn on stC = true ∧
    (0#2).toNat < stC.tk.g ∧ ownsRow stC.sq (winRow stC 0) = true ∧ ¬(stC.sq.rdHold.1 ≤ stC.ix.c ∧ stC.ix.c < stC.sq.rdHold.2) ∧
    (tabGet chanOff stC.tk.chans 5).path = 3#2 ∧ (tabGet chanOff stC.tk.chans 1).recv = true ∧ (chan1 true).fault = none ∧
    tabFind (chan1 true).slots ((chan1 true).seq.toNat % 16) = some ⟨5, 0, true, natLe 8 77, 0⟩ ∧
    (stC.ix.c + 2 ^ 48 - (chan1 true).lat.toNat) % 2 ^ 48 = 5 ∧ { stC.ix with c := 10 }.c + 2 ^ 48 - 4 ≠ 5 + 2 ^ 48 ∧
    (⟨5, 0, false, List.replicate 128 0#8, 0⟩ : Landed).scalar = false := by decide
theorem test_recvs_takes : lands (.recvs on 4#6 1#5) stC ⟨9, 9, .sreg 4#6 77#64⟩ = true := by decide
theorem test_recvs_timestamp :
    traps (.recvs on 4#6 1#5) { stC with ix := { stC.ix with c := 10 } } 3 1 = true := by decide
theorem test_sends_spends_credit : after (.sends on 0#5 3#6) stC (fun t =>
    (tabGet chanOff t.tk.chans 0).cred == 7 && (tabGet chanOff t.tk.chans 0).seq == 1) = true := by decide

/-- A one-row view of 32-bit elements at row `b`, and an accumulator view of 32 rows. -/
def viewAt (b rows cols w : Nat) : Word :=
  w64 (b + 2 ^ 12 * rows + 2 ^ 24 * cols + 2 ^ 37 * (w - 1) + 2 ^ 42 * ((cols * w + 1023) / 1024))
def stV : State := { st1 with sq := { sq1 with
  s := [(1, viewAt 0 4 32 32), (2, viewAt 2302 4 32 32), (3, viewAt 0 4 32 8), (4, 2304#64)], td := [(0, viewAt 0 32 384 8), (1, viewAt 96 4 96 8)],
  av := [(0, viewAt 200 32 32 32)], sh := [(0, shWord 1 false 32 32)] } }

theorem witness_Grants : 0 < 32 ∧ 1 ≤ 1024 ∧ grant 33 32 1024 = 64 := by decide
theorem witness_Views : predOn on stV = true ∧ viewBad 1 (viewAt 0 4 32 32) = false ∧ vNrow (viewAt 0 4 32 32) ≠ 0 ∧
    vNrow (viewAt 0 0 32 32) = 0 ∧ viewBad 1 (viewAt 2302 4 32 32) = true ∧ vW (viewAt 0 4 32 32) = 32 ∧
    vW (viewAt 0 4 32 8) ≠ 16 ∧ vW (viewAt 0 4 32 8) ≠ 32 ∧ (readS stV 4#6).toNat % 4096 = 2304 ∧ (readS stV 0#6).toNat % 4096 < 2304 ∧
    vNrow (viewReg stV 0) ≠ 0 ∧ vNrow (viewReg stV 3) = 0 := by decide
theorem test_view_past_rows : traps (.view on 0#5 2#6 0#6) stV 5 2 = true := by decide
theorem test_view_acc_width : traps (.view on 8#5 3#6 0#6) stV 5 5 = true := by decide
theorem test_view_vwin : traps (.view on 12#5 4#6 0#6) stV 5 3 = true := by decide
theorem witness_ControlRegisters : (0x3F#8).toNat < 0x40 ∧ stM.tk.cust = true ∧ 0x40 ≤ (0x40#8).toNat ∧ st1.tk.cust = false ∧
    writable 0x00 = false ∧ (readS stV 0#6).toNat % 4096 < 2304 ∧ viewBad 1 (readS stV 1#6 &&& viewMask) = false ∧
    vNrow (readS stV 1#6 &&& viewMask) ≠ 0 ∧ vW (readS stV 1#6 &&& viewMask) = 32 ∧ vNrow (readS stV 0#6 &&& viewMask) = 0 ∧
    2304 ≤ (readS stV 4#6).toNat % 4096 ∧ viewBad 1 (readS stV 2#6 &&& viewMask) = true ∧
    viewBad 1 (readS stV 3#6 &&& viewMask) = false ∧ vNrow (readS stV 3#6 &&& viewMask) ≠ 0 ∧ vW (readS stV 3#6 &&& viewMask) = 8 := by
  decide
theorem witness_StatusAndClocks : predOn on st1 = true ∧ (0#2).toNat < st1.tk.g ∧ st1.tk.g ≤ (1#2).toNat := by decide
theorem witness_CustodianIssue : stM.tk.cust = true ∧ predOn on stM = true ∧ st1.tk.cust = false ∧
    (∃ e, check stM true false false false kLoad (readS stM 4#6) 32 = .ok e) ∧ scalarOverlap stM false (readS stM 4#6) 32 = .ok () :=
  ⟨by decide, by decide, by decide, of_passes (by decide), of_passes_unit (by decide)⟩
theorem witness_MatrixCompute : stV.ix.cl = stV.ix.c ∧ pMode (atLast stV).sq.prec ≠ 3 ∧ shG (tabGet 0#64 (atLast stV).sq.sh 0) = true ∧
    { stV.sq with win := (4, 9) }.win.2 ≤ stV.ix.c ∧ maskOn on stV = true ∧ pMode stV.sq.prec ≠ 3 ∧ vNrow (viewAt 0 32 384 8) ≠ 0 ∧
    viewKC (viewAt 0 32 384 8) = 1 ∧ viewKC (viewAt 0 32 384 8) * blocks 0#64 ≤ 96 ∧ shG (tabGet 0#64 stV.sq.sh 0) = true ∧
    shVec (tabGet 0#64 stV.sq.sh 0) = false ∧ shGM (tabGet 0#64 stV.sq.sh 0) = natM 1 ∧ shGN (tabGet 0#64 stV.sq.sh 0) = natN 1 ∧
    shGM (tabGet 0#64 stV.sq.sh 0) ≤ vNrow (tabGet 0#64 stV.sq.td 0) ∧ stV.sq.win.2 ≤ stV.ix.c ∧
    extentUnowned 1 stV.sq (tabGet 0#64 stV.sq.td 0) = none ∧ vNrow (tabGet 0#64 stV.sq.av 0) ≠ 0 ∧
    vW (tabGet 0#64 stV.sq.av 0) = drainW 0#2 ∧ shGM (tabGet 0#64 stV.sq.sh 0) ≤ vNrow (tabGet 0#64 stV.sq.av 0) ∧
    shGN (tabGet 0#64 stV.sq.sh 0) ≤ vNcol (tabGet 0#64 stV.sq.av 0) ∧ extentUnowned 1 stV.sq (tabGet 0#64 stV.sq.av 0) = none ∧
    pMode 0xC00#64 = 3 := by decide
theorem witness_MatrixRegisters : maskOn on stV = true ∧ pMode (atLast stV).sq.prec ≠ 3 ∧ stV.sq.win.2 = 0 ∧
    { stV.sq with win := (1, 5) }.win.2 + 4 ≤ stV.ix.c ∧ { stV.sq with win := (4, 9) }.win.2 ≤ stV.ix.c ∧
    vNrow (tabGet 0#64 stV.sq.td 1) ≠ 0 ∧ vW (tabGet 0#64 stV.sq.td 1) = 8 ∧ extentUnowned 1 stV.sq (tabGet 0#64 stV.sq.td 1) = none := by
  decide

def stK : State := { st1 with sq := { sq1 with cd := [(0, cplDesc)] } }

theorem witness_Copies : (0#3).toNat < 2 * stK.tk.g ∧ maskOn on stK = true ∧ dV (tabGet 0#128 stK.sq.cd 1) = false ∧
    dV (tabGet 0#128 stK.sq.cd 0) = true ∧ copyFields stK false 1 0 7 cplDesc = .ok () ∧
    unitFree stK 0 9 (9 + 6 + 4 - 1) = .ok () ∧ copyOwned stK 0 1 cplDesc = .ok () ∧ readsMem 1 cplDesc = false ∧
    writesMem 1 cplDesc = false ∧ copyMeets stK.sq.copies (taskCopies stK)
      ⟨stK.nextId, 9, 0, 0, 1, false, 0, 9, 6, 4, 65536, cplDesc, 0, 0#256, 7, 128, 0, 0#256, 0, [], 0#6, false⟩ = none :=
  ⟨by decide, by decide, by decide, by decide, of_passes_unit (by decide), of_passes_unit (by decide), of_passes_unit (by decide),
    by decide, by decide, by decide⟩
theorem test_cpl_starts : after (.cpl on false 0#3 0#4) stK (fun t => t.sq.copies.map (fun c => (c.start, c.lat, c.rows)) == [(9, 6, 4)]) = true := by
  decide

/-- A state with descriptors 0 and 1, and whether a copy of `kind` on unit 0 from `start` passes every check there. -/
def memDesc (kind : Nat) : BitVec 128 :=
  (1#128 <<< 127) ||| (BitVec.ofNat 128 kind <<< 120) ||| (4#128 <<< 76) ||| (100#128 <<< 64) ||| 0x0010000000000000#128
def stKM (kind : Nat) : State := { stM with sq := { stM.sq with cd := [(0, memDesc kind), (1, memDesc 0)] } }
def copyPasses (cps : Bool) (kind start : Nat) : Bool :=
  let s := stKM kind
  let d := tabGet 0#128 s.sq.cd 0
  let e := taskEntry s 16
  let lat := rowsNominal s.tk e 0 (memStep kind d) 4
  let c : Copy := ⟨s.nextId, s.ix.c, s.ix.slot, 0, kind, false, 0, start, lat, 4, mvalidCut s.sq.mvalid, d, 16, e, 0, memStep kind d, 16, e, 0, [],
    0#6, false⟩
  dV d && dV (tabGet 0#128 s.sq.cd 1) && passes (copyFields s cps kind 0 0 d) && passes (unitFree s 0 start (start + lat + 3)) &&
    passes (copyOwned s 0 kind d) && passes (checkRows s true false false kCopySrc 16 0 (memStep kind d) 4) &&
    passes (checkRows s false true (kind == 10) kCopyDst 16 0 (memStep kind d) 4) &&
    passes (checkRows s false true false kCopyDst 16 0 128 4) && passes (checkGather s 16 0) &&
    (copyMeets s.sq.copies (taskCopies s) c).isNone
theorem witness_Copies_memory : [2, 3, 4, 5, 7, 8, 9, 10].all (fun k => copyPasses false k 9) = true ∧
    copyPasses true 3 (9 + 1) = true ∧ copyPasses true 3 (9 + 2 ^ 20) = true ∧ dKind (memDesc 3) = 3 ∧
    dV (tabGet 0#128 ({ stKM 4 with sq := { stM.sq with cd := [(0, memDesc 4)] } } : State).sq.cd 1) = false := by decide +kernel

/-- A state that owns every bank and whose read ports are free can read any row. -/
theorem reads_any {s : State} (ho : s.sq.own = 0x3F#6) (hr : ¬(s.sq.rdHold.1 ≤ s.ix.c ∧ s.ix.c < s.sq.rdHold.2)) (x : Nat) : canRead s x := by
  have : ∀ m < 6, (0x3F#6).getLsbD m = true := by decide
  exact ⟨by simpa only [ownsRow, ho] using this _ (Nat.mod_lt _ (by decide)), hr⟩
theorem ready_any {s : State} (ho : s.sq.own = 0x3F#6) (hr : ¬(s.sq.rdHold.1 ≤ s.ix.c ∧ s.ix.c < s.sq.rdHold.2)) (n k : Nat) {x : Src}
    (hx : x ≠ .hold) : operandReady s n k x := ⟨fun h => absurd h hx, fun _ _ r _ => reads_any ho hr r⟩
theorem owned_any {s : State} (ho : s.sq.own = 0x3F#6) (l : List Nat) : rowsOwned s l := fun x _ => by
  have : ∀ m < 6, (0x3F#6).getLsbD m = true := by decide
  simpa only [ownsRow, ho] using this _ (Nat.mod_lt _ (by decide))
theorem ready1 (n k : Nat) {x : Src} (hx : x ≠ .hold) : operandReady st1 n k x := ready_any rfl (by decide) n k hx
theorem readyV (n k : Nat) {x : Src} (hx : x ≠ .hold) : operandReady stV n k x := ready_any rfl (by decide) n k hx
/-- A state whose latches hold both operands. -/
def stHold : State := { st1 with sq := { sq1 with lat := [(0, []), (1, []), (2, []), (3, [])] } }

theorem witness_VectorFloat : laneMask on st1 ≠ 0#128 ∧ pVft st1.sq.prec ≠ 3 ∧
    (∀ vb : Bool, vecReady vb true st1 (srcOf ⟨4#8, false⟩) (srcOf ⟨255#8, false⟩) .none 255) ∧
    (∀ vb : Bool, vecReady vb true st1 (srcOf ⟨4#8, false⟩) (srcOf ⟨255#8, false⟩) (.win 255) 255) ∧
    (∀ vb : Bool, vecReady vb true st1 (srcOf ⟨4#8, false⟩) .none .none 255) ∧
    (∀ vb x, (tabFind stHold.sq.lat (latchNo vb x)).isSome = true) :=
  ⟨by decide, by decide, fun _ => ⟨rfl, .inr (by decide), ready1 _ _ nofun, ready1 _ _ nofun, ready1 _ _ nofun, owned_any rfl _⟩,
    fun _ => ⟨rfl, .inr (by decide), ready1 _ _ nofun, ready1 _ _ nofun, ready1 _ _ nofun, owned_any rfl _⟩,
    fun _ => ⟨rfl, .inr (by decide), ready1 _ _ nofun, ready1 _ _ nofun, ready1 _ _ nofun, owned_any rfl _⟩, by decide⟩
theorem witness_VectorInteger : laneMask on st1 ≠ 0#128 ∧ pViw st1.sq.prec ≠ 3 ∧
    (∀ vb : Bool, vecReady vb true st1 (srcOf ⟨4#8, false⟩) (srcOf ⟨255#8, false⟩) (.win 255) 255) :=
  ⟨by decide, by decide, fun _ => ⟨rfl, .inr (by decide), ready1 _ _ nofun, ready1 _ _ nofun, ready1 _ _ nofun, owned_any rfl _⟩⟩
theorem witness_VectorMasks : laneMask on st1 ≠ 0#128 ∧ pVft st1.sq.prec ≠ 3 ∧ pViw st1.sq.prec ≠ 3 ∧ shapeReady st1 ∧ shapeReady stOff ∧
    (∀ n, operandReady st1 1 n (srcOf ⟨4#8, false⟩)) ∧ st1.ix.off = false ∧ stOff.ix.off = true ∧ rowsOwned st1 (resultRows st1 255) ∧
    (∀ n, operandReady stOff 1 n (srcOf ⟨4#8, false⟩)) :=
  ⟨by decide, by decide, by decide, .inr (by decide), .inr (by decide), fun _ => ready1 _ _ nofun, by decide, by decide, owned_any rfl _,
    fun _ => ready_any rfl (by decide) _ _ nofun⟩
theorem witness_VectorMoves : laneMask on st1 ≠ 0#128 ∧ shapeReady st1 ∧ pVft st1.sq.prec ≠ 3 ∧ (∀ n x, x ≠ .hold → operandReady st1 1 n x) ∧
    (∀ l, rowsOwned st1 l) ∧ (∀ x, canRead st1 x) :=
  ⟨by decide, .inr (by decide), by decide, fun _ _ h => ready1 _ _ h, owned_any rfl, reads_any rfl (by decide)⟩
theorem witness_VectorMoves_scale : (∃ x ∈ [FV.fin false 1 0, FV.inf true], isNan x = true ∨ x = .inf true ∨ x = .inf false) ∧
    (∀ x ∈ [FV.fin false 0 0, FV.fin true 0 5], ∃ sg e, x = .fin sg 0 e) ∧
    (∀ x ∈ [FV.fin false 1 8, FV.fin true 3 7], ∃ sg' m' e', x = .fin sg' m' e' ∧ (m' ≠ 0 → e' + m'.log2 ≤ 8 + (1 : Nat).log2)) ∧
    FV.fin false 1 8 ∈ [FV.fin false 1 8, FV.fin true 3 7] := by
  refine ⟨⟨_, List.mem_cons_of_mem _ (List.mem_cons_self ..), .inr (.inl rfl)⟩, by simp, ?_, List.mem_cons_self ..⟩
  intro x hx
  simp only [List.mem_cons, List.not_mem_nil, or_false] at hx
  rcases hx with rfl | rfl <;> exact ⟨_, _, _, rfl, fun _ => by decide⟩
theorem witness_VectorMoves_pack : (roundInt 0#2 true 128 0).1 = -128 ∧ (roundInt 0#2 true 129 0).1 < -128 ∧
    (roundInt 0#2 false 127 0).1 = 127 ∧ 127 < (roundInt 0#2 false 128 0).1 := by decide
theorem witness_VectorMemory : laneMask on stV ≠ 0#128 ∧ shapeReady stV ∧ (∀ n x, x ≠ .hold → operandReady stV 1 n x) ∧ (∀ l, rowsOwned stV l) ∧
    vNrow (tabGet 0#64 stV.sq.td 1) ≠ 0 ∧ vW (tabGet 0#64 stV.sq.td 1) = 8 ∧ ¬(stV.sq.rdHold.1 ≤ stV.ix.c ∧ stV.ix.c < stV.sq.rdHold.2) ∧
    vNrow (tabGet 0#64 st1.sq.td 0) = 0 :=
  ⟨by decide, .inr (by decide), fun _ _ h => readyV _ _ h, owned_any rfl, by decide, by decide, by decide, by decide⟩
theorem witness_PredicateOff : predOn off st1 = false ∧ maskOn off st1 = false ∧ laneMask off st1 = 0#128 := by decide
theorem witness_DecodeEncode : (Instr.add gT 1#6 2#6 3#6).wf = true ∧
    (encode (.add gT 1#6 2#6 3#6)).isSome = true ∧ (decode none 0x00801083#32).toOption.isSome = true := by decide

/-- A word at bundle 0 of a launched task's code, its group due. -/
def stF : State := State.reset.withFetchWord 32 0x81004005
/-- The state in which the group of that word issues, and what comes of its slots: the trap that counts, if any. -/
def groupAtF (s : State) : State := groupStart (fetchCode (focus 0 0 (touchRange 0 0 { s with agenda := [] })))
def ran (s : State) : Option (Option Trap) :=
  let u := groupState (groupAtF s)
  let g := groupAt u ⟨0, 0⟩
  match runSlots exec u ⟨0, 0⟩ (runOrder g) u [] with
  | .next (_, ts) => some (firstTrap (formTraps u ⟨0, 0⟩ g (g.slots.map (fun y => (y, slotUses u y))) ++ ts))
  | _ => none
theorem witness_StepRunsGroup : stF.agenda = [.issue 0 0] ∧ tabFind stF.tasks 0 = some fetchTask ∧
    0 ∈ dueSeqs { fetchTask with ending := none } ∧ skidRoom { stF with agenda := [] } 0 = true ∧ (groupAtF stF).sq.pos = ⟨0, 0⟩ ∧
    fetchTrap (groupAtF stF) ⟨0, 0⟩ = none ∧ headerOf (groupState (groupAtF stF)) 0 = none ∧
    (codeWord (groupState (groupAtF stF)) 0 0).getLsbD 31 = true ∧ (decode none (codeWord (groupState (groupAtF stF)) 0 0)).toOption.isSome = true ∧
    ran stF = some none ∧ (ran (State.reset.withFetchWord 32 0x80000000)).any (·.isSome) = true := by decide +kernel
theorem witness_StepRunsGroup_fetch :
    (fetchTrap (groupAtF { stF with tasks := [(0, { fetchTask with code := 0#64 })] }) ⟨0, 0⟩).isSome = true := by decide +kernel
theorem witness_StepOrder : { st1 with agenda := [.event .caratFlush] }.agenda = [.event .caratFlush] ∧
    st1.agenda = [] ∧ st1.inputs = [] ∧ mustWait st1 (.event .meshBreak) = false ∧
    inService { dev0 with host := { host0 with powered := true } } = true ∧ inService dev0 = false ∧ alwaysHeard (.event .meshBreak) = false ∧
    mustWait { st1 with reqs := [⟨1, 0, .host 1024 3, 0, .phys 0 0, 8, .write, [], 0#64, false, false⟩] }
      (.event (.hlpRrd ⟨1, 0, 3, 1024, 0, 0#64, false, []⟩)) = true := by decide
theorem witness_MemoryOkKept : Memory.wf State.reset.mem = true ∧ Memory.wf [(3, 7#8), (9, 1#8)] = true ∧
    Memory.wf [(3, 0#8)] = false := by decide
theorem witness_BlockWrites : 40 % 64 + [1#8, 2#8].length ≤ 64 ∧ blockReading State.reset 0 40 = .clean ∧
    tabFind State.reset.dev.sealed' (blkKey 0 40) = none := by decide
def dsmWrite : Req := ⟨1, 0, .host 1024 3, 0, .dsm 2 5 64, 2, .write, [1#8, 2#8], 0#64, false, false⟩
def stD : State := { State.reset with reqs := [dsmWrite] }
theorem witness_BlockWrites_dsm : dsmReq stD 2 5 = some dsmWrite ∧ awake stD.dev (elKey (.die 2)) = true ∧
    dsmReq { stD with reqs := [{ dsmWrite with op := .read }] } 2 5 = some { dsmWrite with op := .read } := by decide
theorem test_dsm_write : after (.dsmBankRequest 2 5) stD (fun t => memAt t (dsmKey 2 5 65) == 2#8) = true := by decide
/-- A sequencer whose read cache holds the first block of its buffer, 2 MiB of stack 0 at intermediate address 0 of VF 0. -/
def stLine : State := { st1 with sq := { sq1 with rcache := [⟨1, 0, List.replicate 64 7#8⟩] } }
theorem witness_AccessRequests : st1.sq.rcache = [] ∧ (cachedLine stLine.sq (.ipa 0 63)).map (·.blk) = some 0 ∧
    cachedLine stLine.sq (.ipa 0 64) = none ∧ lineTag (.ipa 0 63) = some (1, 0) := by decide
/-- Sequencers with one result, which lands at LC 9. -/
theorem witness_LandingWrites : { sq1 with land := [⟨8, 9, .link⟩] }.land = [⟨8, 9, .link⟩] ∧
    ⟨8, 9, .trap (trapOf st1 9 1 0#64 0#64 0#64)⟩ ∈ { sq1 with land := [⟨8, 9, .trap (trapOf st1 9 1 0#64 0#64 0#64)⟩] }.land ∧
    { sq1 with land := [⟨8, 9, .matrix ⟨false, true, 0#64, 0#2, 0#64, 0#64, 0#64, 0#64, 65536, [], [], 9⟩⟩] }.land.length = 1 ∧
    (List.range 4).any (inExtent 1 (tabGet 0#64 stV.sq.td 0)) = true := by decide
theorem witness_SlotOpsFrame : (encode (.add gT 1#6 2#6 3#6)).isSome = true ∧ (encode (.halt gT)).isSome = true := by decide
theorem witness_InterleaveDistinct : eBase (0#256 : BitVec 256) % 2 ^ 43 + 5 < 2 ^ 43 := by decide

/-! ### Witnesses for the events -/

/-- A task with one sequencer, alive, as entry 7 of the tasks. -/
def tkE (q : Machine.Seq) (lc : Nat) : Task := { tk1 with seqs := [(0, q)], lc := lc }
def stE (t : Task) : State := { State.reset with cyc := 20, tasks := [(7, t)] }

theorem witness_TileEvents : tabFind (stE (tkE sq1 9)).tasks 7 = some (tkE sq1 9) ∧ (tkE sq1 9).alive = true ∧ dueSeqs (tkE sq1 9) = [] ∧
    sq1.st = .running ∧ sq1.copies = [] ∧ (tkE sq1 9).out = [] ∧ (tkE sq1 9).kept = [] ∧ (tkE sq1 9).ending = none ∧
    (tkE sq1 9).taken = none ∧ landWait (sendKept 7 (stE (tkE sq1 9))) (tkE sq1 9) = 0 ∧
    seqTraps (sendKept 7 (stE (tkE sq1 9))) 7 0 9 (tkE sq1 9) sq1 = [] ∧ 2 ^ 26 ≤ { tkE sq1 9 with hold := 67108864 }.hold ∧
    (tkE sq1 9).hold < 2 ^ 26 ∧ { tkE sq1 9 with sref := 1, safeb := 7 }.lc = 1 + 7 + 1 ∧ draining (tkE sq1 9) = false ∧
    preCond (stE (tkE sq1 9)) 7 = 0 ∧ (tkE sq1 9).preempt = none := by decide +kernel

/-- A launched task whose next group is the word `w`: entry 0 of the tasks. -/
def stW (w : Nat) : State := State.reset.withFetchWord 32 w
/-- Its range registers are empty, so its group is held. -/
def stMiss : State :=
  let q : Machine.Seq := { seq0 with st := .running, own := 0x3F#6 }
  { stW 0x80400000 with tasks := [(0, { fetchTask with seqs := [(0, q)] })] }
/-- Held: a send without credit (R169, condition 4), a PHASE (5), a range register's miss (8). -/
def stCredit : State := { stW 0xE1400040 with tasks := [(0, { fetchTask with chans := [(0, { chan1 false with cred := 0#5 })] })] }
theorem witness_TileEvents_held : fetchTask.alive = true ∧ dueSeqs fetchTask ≠ [] ∧ preCond stCredit 0 = 4 ∧
    preCond (stW 0xE0400000) 0 = 5 ∧ (tabFind stMiss.tasks 0).any (fun t => t.alive && dueSeqs t != []) = true ∧ preCond stMiss 0 = 8 := by
  decide +kernel
theorem witness_TileEvents_waits : 0 < duePhases (stW 0xE0400000) 0 ∧
    allMembers (stW 0xE0400000) fetchTask (atPhase (stW 0xE0400000) (fetchTask.phn + 1)) = true ∧ 0 < dueBars (stW 0xE0800000) 0 ∧
    allMembers (stW 0xE0800000) fetchTask (atBar (stW 0xE0800000) (fetchTask.waits.bars + dueBars (stW 0xE0800000) 0)) = true ∧
    waittTarget (stW 0xD4C00000) 0 0 = some 0 ∧ 0 ≤ (stW 0xD4C00000).dev.gtci ∧
    waittTarget { stW 0xD4C00040 with tasks := [(0, { fetchTask with seqs := fetchTask.seqs.map (fun e => (e.1, { e.2 with s := [(1, 1#64)] })) })] }
      0 0 = some 1 ∧ (stW 0xD4C00040).dev.gtci < 1 := by decide +kernel
/-- A fill under way, and its reply. -/
def stFill : State := { stMiss with
  replies := [(5, ⟨.setter, 32, 0, [], [], false⟩)], dev := { stMiss.dev with jobs := [⟨.fill 0 0, [16], 5⟩] } }
theorem witness_TileEvents_fill : missedIndices stMiss 0 0 = [16] ∧ findJob stMiss.dev (.fill 0 0) [16] = none ∧
    missedIndices (onDev (fun d => { d with reading := false }) stFill) 0 0 = [16] ∧
    findJob stFill.dev (.fill 0 0) [16] = some ⟨.fill 0 0, [16], 5⟩ ∧ (tabFind stFill.replies 5).map (·.left) = some 0 := by decide +kernel

/-- A matrix operation at the first and the last LC of its window; a bank under clearing that no copy holds; copies that await their
replies: an ordinary one, and a CPDI. -/
def cpdi : Copy := ⟨30, 3, 0, 0, 4, false, 0, 3, 6, 4, 2304, (1#128 <<< 127) ||| (4#128 <<< 76), 16, anyEntry, 0, 128, 16, anyEntry, 0x1000, [], 0#6, true⟩
def stCp (rs : Tab Reply) : State := { stE (tkE { sq1 with copies := [cpdi] } 9) with replies := rs }
theorem witness_TileEvents_units : { sq1 with win := (9, 10), winExt := [0#64, 1#64] }.win.1 ≤ (tkE sq1 9).lc ∧
    (tkE sq1 9).lc < { sq1 with win := (9, 10) }.win.2 ∧ [0#64, 1#64].length < 3 ∧ { sq1 with clearing := 0x20#6 }.clearing.getLsbD 5 = true ∧
    sq1.copies.any (fun c => c.rel && decide (c.start ≤ 9) && (heldBanks c).getLsbD 5) = false ∧
    (tabFind (stCp [(31, ⟨.task 7 0, 0, 0, [], [], false⟩)]).replies 31).map (·.left) = some 0 ∧
    (stCp []).tasks.any (fun e => e.2.seqs.any (fun q => q.2.copies.any (fun c => c.id == 30 && c.wrote))) = true ∧
    (tabFind (tkE { sq1 with copies := [cpdi] } 9).seqs 0).map (fun q => q.copies.find? (fun c => c.id == 30 && c.kind == 4)) = some (some cpdi) ∧
    (tabFind (tkE sq1 9).seqs 0).map (fun q => q.copies.find? (fun c => c.id == 30 && c.kind == 4)) = some none ∧
    (⟨.task 7 0, 8, 0, [], [], false⟩ : Reply).size ≠ 0 := by decide +kernel

/-- A custodian instruction due at its target. -/
def custOf (op : Nat) (passed : Option Nat) : CustOp := ⟨1, 7, 0, 20, op, 0x00100000#64, 0x0010000000000000#64, anyEntry, false, 2, passed, []⟩
def stCust (c : CustOp) (errs : List ReplyErr) : State := { State.reset with
  cyc := 20, tasks := [(7, tkE sq1 9)], replies := [(2, ⟨.task 7 0, 0, 0, [], errs, false⟩)]
  dev := { dev0 with custs := [c], vfs := [(0, { vfAbsent with state := 1 })] } }
theorem witness_TileEvents_custodian : ([25, 26, 27, 28, 29, 30, 31].all (fun op => [none, some 3].all (fun p =>
      (stCust (custOf op p) []).dev.custs.find? (fun c => c.reply == 1) == some (custOf op p) && decide ((custOf op p).due ≤ 20)))) = true ∧
    btwrCode (stCust (custOf 30 none) []) (custOf 30 none) = none ∧
    btwrCode (stCust (custOf 30 none) []) { custOf 30 none with a := 0x000F0000#64 } = some 2 ∧
    (tabFind (stCust (custOf 30 none) []).replies 2).map (fun x => (x.left, x.errs)) = some (0, []) ∧
    (tabFind (stCust (custOf 30 none) [⟨0, 1, 0, 0#64⟩]).replies 2).map (fun x => x.errs.length) = some 1 := by decide +kernel
theorem witness_TileEvents_verdicts : (∃ w, kzero 0 0x100#64 true State.reset = .ok w) ∧ (∃ e, kzero 0 0x200#64 false State.reset = .error e) ∧
    (∃ w, qwrt 0 0#64 1#64 (stCust (custOf 31 none) []) = .ok w) ∧ (∃ e, qwrt 0 0x400#64 1#64 State.reset = .error e) ∧
    (∃ e, scrb 0 0#64 0#64 [] State.reset = .error e) ∧ (∃ e, plwr 0 0#64 0x101#64 State.reset = .error e) :=
  ⟨⟨_, rfl⟩, ⟨_, rfl⟩, ⟨_, rfl⟩, ⟨_, rfl⟩, ⟨_, rfl⟩, ⟨_, rfl⟩⟩
/-- A device with stack 3 up, as `f` leaves it, and requests in its port's queue. -/
def stP3 (f : Stack → Stack) (rs : List Req) : State :=
  { State.reset with reqs := rs, dev := { dev0 with hbm := [(3, f { stack0 with up := true })] } }
def phys3 (op : MemOp) : Req := ⟨1, 0, .host 1024 3, 0, .phys 3 64, 8, op, natLe 8 5, 0#64, false, false⟩
def dsm2 (op : MemOp) : Req := { dsmWrite with op := op, size := 8, data := natLe 8 5 }
theorem witness_MemoryEvents : (nextReq (stP3 id [phys3 .read]) 3).map (·.2.2) = some (phys3 .read) ∧
    (nextReq (stP3 (fun k => { k with budget := 63 }) [phys3 .read]) 3).isSome = false ∧
    (nextReq (stP3 (fun k => { k with budget := 64 }) [phys3 .read]) 3).isSome = true ∧
    reqStack (phys3 .read) = some 3 ∧ (phys3 .read).fence = false ∧ splitCase (stP3 id []) (phys3 .write) = 0 ∧
    (stP3 (fun k => { k with blk := 14 }) []).dev.hbm.any (fun e => e.2.up && decide (e.2.blk < 15)) = true ∧
    (getStack (stP3 (fun k => { k with blk := 15, pos := 2 ^ 27 - 1 }) []).dev 3).blk = 15 := by decide +kernel
theorem witness_MemoryEvents_dsm : [MemOp.read, .write, .aadd].all (fun op =>
      dsmReq { State.reset with reqs := [dsm2 op] } 2 5 == some (dsm2 op)) = true ∧ keyless dev0 (dsm2 .read) = false ∧
    keyless { dev0 with vfs := [(0, { vfAbsent with prot := true, state := 3 })] } { dsm2 .read with who := .card 1 } = true ∧
    awake dev0 (elKey (.die 2)) = true ∧
    awake { dev0 with power := [(elKey (.die 2), ⟨3, 0, none, 0⟩)] } (elKey (.die 2)) = false ∧
    atomResult .aadd (natLe 8 1) (natLe 8 5) = some (natLe 8 6) := by decide +kernel
theorem witness_MemoryEvents_scrub : (stP3 (fun k => { k with hot := [⟨5, 0, 63⟩] }) []).dev.hbm.all (fun e => e.2.hot.any (fun h => h.row == 5)) = true ∧
    (List.range 16).any (fun b => tabGet 0 dev0.upsets (blkKey 3 (blockAddr (5 / 16384) (5 % 16384) b)) != 0) = false ∧
    (List.range 16).any (fun b => tabGet 0 [(blkKey 3 (blockAddr (5 / 16384) (5 % 16384) 15), 1)] (blkKey 3 (blockAddr (5 / 16384) (5 % 16384) b)) != 0) = true ∧
    [Retire.mk 9 65280].find? (fun c => c.frame == 9) = some ⟨9, 65280⟩ ∧
    nextClear (stP3 (fun k => { k with queue := [7] }) []).dev 3 = some 7 ∧ stack0.clearing = none ∧
    (getStack (stP3 (fun k => { k with clearing := some 7, written := 32766 }) []).dev 3).written + 1 < 32768 := by decide +kernel
theorem test_port_admit : after (.portAdmit 3) (stP3 id [{ phys3 .write with size := 2, data := [9#8, 8#8] }])
    (fun t => memAt t (hbmKey 3 65) == 8#8 && t.reqs == []) = true := by decide +kernel
theorem test_patrol_advances : after (.patrolScrubStep 3) (stP3 (fun k => { k with blk := 15, pos := 134217727 }) [])
    (fun t => (getStack t.dev 3).pos == 0 && (getStack t.dev 3).blk == 0) = true := by decide +kernel

/-- A node of VF 0, and a VF in use, whose array on stack 0 is in frame 1 and whose entry for GFN 0 there is `e`. -/
def node1 : Node :=
  { vf := 0, handle := 1, idx := 0, die := 0, kind := 1, prio := 0, task := ⟨1, 0, 1, 0#64, 0, 0#64, 0#64, 0#64, 0, 0⟩,
    card := ⟨0, 0, 0, 0, 0, []⟩, regions := [], preds := [], starts := [], st := .running, lease := .acquiring, frames := [⟨0, 0, 0, false⟩],
    counted := [], replies := [0], pulls := 0, ready := none, order := 0, members := [], vidx := 0, obj := none, sel := [], argv := [],
    cost := 0, energy := 0, checks := 0, checkPhn := 0, cst := ⟨0, 0, 0, 0⟩, cancel := none, closing := none, began := false,
    resume := false, restart := false }
def stN (x : Node) : State :=
  { State.reset with dev := { dev0 with nodes := [(4, x)], vfs := [(0, { vfAbsent with state := 1 })] } }
def entryV (lcount : Nat) : BitVec 256 := (1#256 <<< 63) ||| (BitVec.ofNat 256 lcount <<< 40) ||| 9#256
def stX (e : BitVec 256) (f : State → State) : State := f (physWrite (physWrite (stN node1) 0 0 (natLe 8 (2 ^ 63 + 1))) 0 (2 ^ 21) (natLe 32 e.toNat))
/-- A piece of work, with the reply that it awaits. -/
def asked (why : JobFor) (key : List Nat) (r : Reply) (s : State) : State :=
  { s with replies := [(9, r)], dev := { s.dev with jobs := [⟨why, key, 9⟩] } }
def entryReply (errs : List ReplyErr) : Reply := ⟨.setter, 32, 0, [], errs, false⟩
theorem witness_LeaseAndLinkEvents : tabFind (stX (entryV 0) id).dev.nodes 4 = some node1 ∧ node1.frames[0]? = some ⟨0, 0, 0, false⟩ ∧
    node1.lease = .acquiring ∧ node1.replies.contains 0 = true ∧ noEntry (stN node1) ⟨0, 0, 0, false⟩ = true ∧
    noEntry (stX (entryV 0) id) ⟨0, 0, 0, false⟩ = false ∧ noEntry (stX (entryV 0) id) ⟨0, 0, 65536, false⟩ = true ∧
    ssLcount (ssEntry (stX (entryV 65535) id) 0 0 0) = 65535 ∧ ssLcount (ssEntry (stX (entryV 65534) id) 0 0 0) = 65534 := by decide +kernel
theorem witness_LeaseAndLinkEvents_increment : findJob (stX (entryV 0) id).dev (.frame 4 0) [] = none ∧
    findJob (stX (entryV 0) (asked (.frame 4 0) [] (entryReply []))).dev (.frame 4 0) [] = some ⟨.frame 4 0, [], 9⟩ ∧
    tabFind (stX (entryV 0) (asked (.frame 4 0) [] (entryReply []))).replies 9 = some (entryReply []) ∧
    ssV (ssEntry (stX (entryV 0) (asked (.frame 4 0) [] (entryReply []))) 0 0 0) = true ∧
    ssLoc (ssEntry (stX (entryV 0) (asked (.frame 4 0) [] (entryReply []))) 0 0 0) = false ∧
    ssV (ssEntry (stX 0#256 (asked (.frame 4 0) [] (entryReply []))) 0 0 0) = false ∧ (entryReply [⟨0, 1, 0, 0#64⟩]).errs ≠ [] := by
  decide +kernel
/-- A release of a buffer's count, of a frame's, and of a frame without an entry. -/
def release (what : Nat ⊕ LeaseFrame) (s : State) : State := onDev (fun d => { d with releases := [⟨0, 4, 2, what⟩] }) s
theorem witness_LeaseAndLinkEvents_release :
    ((release (.inl 3) (stX 0#256 id)).dev.releases.filter (fun r => r.node == 4))[0]? = some ⟨0, 4, 2, .inl 3⟩ ∧
    releasePlace (stN node1) ⟨0, 4, 2, .inr ⟨0, 0, 0, true⟩⟩ = none ∧
    releasePlace (stX 0#256 (release (.inl 3))) ⟨0, 4, 2, .inl 3⟩ = some (0, 96) ∧
    releasePlace (stX 0#256 (release (.inr ⟨0, 0, 0, true⟩))) ⟨0, 4, 2, .inr ⟨0, 0, 0, true⟩⟩ = some (0, 2097152) ∧
    findJob (stX 0#256 (release (.inl 3))).dev (.release 2) [] = none ∧
    (findJob (asked (.release 2) [] (entryReply []) (stX 0#256 (release (.inl 3)))).dev (.release 2) []).isSome = true ∧
    (entryReply []).left = 0 ∧ (entryReply []).errs = [] := by decide +kernel

/-- A pull with `got` of its 8,192 reads, and its reply. -/
def pull (got : Nat) : Pull := ⟨0, 0, 0, [4], 0, 1, 0, got⟩
def stPull (p : Pull) (r : Reply) : State := onDev (fun d => { d with pulls := [(6, p)] }) { stX (entryV 0) id with cyc := 1900, replies := [(6, r)] }
theorem witness_LeaseAndLinkEvents_pull : tabFind (stPull (pull 8190) (entryReply [])).dev.pulls 6 = some (pull 8190) ∧
    (pull 8190).got + 1 < 8192 ∧ (pull 8191).got + 1 = 8192 ∧ (pull 0).start + usec (pull 0).wd = (stPull (pull 0) (entryReply [])).cyc ∧
    { stPull (pull 0) (entryReply []) with cyc := 1899 }.cyc < (pull 0).start + usec (pull 0).wd ∧
    tabFind (stPull (pull 0) (entryReply [⟨0, 3, 0, 0#64⟩])).replies 6 = some (entryReply [⟨0, 3, 0, 0#64⟩]) ∧
    (entryReply []).size = 32 ∧ (entryReply []).ok = false ∧ (entryReply []).who = .setter ∧
    { entryReply [] with size := 2 ^ 21 }.size = 2 ^ 21 := by decide +kernel
/-- An invalidation that started at 0 under the watchdog of 1 µs. -/
def inval (ss : Bool) (p : Nat) (groups : List (Nat × Nat)) : Inval := ⟨ss, 0, 0, 2 ^ 21, 0, [], groups, 0, p, [], [], 1⟩
def stInv (i : Inval) (cyc : Nat) : State := onDev (fun d => { d with invals := [i] }) { stX (entryV 0) id with cyc := cyc }
theorem witness_LeaseAndLinkEvents_invalidation : (stInv (inval true 0 []) 0).dev.invals[0]? = some (inval true 0 []) ∧
    vfGone (stInv (inval true 0 []) 0).dev 0 = false ∧ invalDone (stInv (inval true 0 []) 0) (inval true 0 []) = true ∧
    invalDone (stInv (inval false 0 []) 0) (inval false 0 []) = true ∧ (inval true 0 [(0, 0)]).start + (0 + 1) * usec 1 = 1900 ∧
    (inval true 1 [(0, 0)]).start + (1 + 1) * usec (inval true 1 [(0, 0)]).wd = 3800 ∧ (inval true 1 [(0, 0)]).period = 1 := by decide +kernel

/-- A member of a node, on one column, with the task `tid`. -/
def member1 (tid : Nat) : Member := ⟨⟨0, 0, 0, 1⟩, [0], tid, false, false, 0, 0, false, false, none, 0, [], [], [], 0, [], []⟩
/-- A message to member 0 of node 4; its task is 7, or not placed yet. -/
def msg (port bytes : Nat) : Msg := ⟨4 * 2048, 0, port, 0, false, 0, 0, List.replicate bytes 0#8, 0⟩
def stMsg (tid : Nat) (landing : List Msg) : State :=
  { stN { node1 with members := [member1 tid] } with
    tasks := [(7, { tkE sq1 9 with chans := [(0, { chan1 false with cred := 15#5 })] })]
    dev := { (stN { node1 with members := [member1 tid] }).dev with ports := [(5, { port0 with landing := landing })] } }
theorem witness_LeaseAndLinkEvents_messages : findDest (stMsg 7 []) (4 * 2048) = .task 7 ∧ findDest (stMsg 0 []) (4 * 2048) = .later ∧
    findDest (stMsg 7 []) (5 * 2048) = .gone ∧ (msg 72 0).port < fromLanding ∧
    fromLanding ≤ { msg 5 0 with port := 133 }.port ∧ { msg 5 0 with port := 133 - fromLanding } = msg 5 0 ∧
    (buffered 0 (getPort (stMsg 7 [msg 5 0]).dev 5).landing).contains (msg 5 0) = true := by decide +kernel
theorem witness_LeaseAndLinkEvents_room (n : Nat) : landingRoom (stMsg 7 [msg 5 n]).dev (msg 5 0) = decide (n ≤ 65504) := by
  have h : (getPort (stMsg 7 [msg 5 n]).dev (msg 5 0).port).landing = [msg 5 n] := rfl
  have hn : ∀ m, msgBytes (msg 5 m) = 16 + m := fun m => by simp [msgBytes, msg]
  simp only [landingRoom, h, List.foldl_cons, List.foldl_nil, hn, landingBytes, decide_eq_decide]
  omega
theorem witness_LeaseAndLinkEvents_links : skidHeld port0 = true ∧ skidHeld { port0 with up := true } = false ∧
    skidHeld { port0 with up := true, dry := true } = true ∧ [Queued.mk 7 (msg 5 0)] ≠ [] ∧ destRemote 0 0 0 = 2 ^ 40 ∧ 4 * 2048 < 2 ^ 40 ∧
    (tabFind (stMsg 7 []).tasks 7).map (fun t => (tabGet chanOff t.chans 0).cred.toNat) = some 15 ∧
    { chan1 false with cred := 15#5 }.path ≠ 3#2 ∧ { chan1 false with cred := 15#5 }.recv = false := by decide +kernel
def remote (op : MemOp) (size ipa : Nat) : RemoteReq := ⟨5, 0, 0, ipa, size, op, natLe 16 1⟩
theorem witness_LeaseAndLinkEvents_remote : vfLive (stN node1).dev (remote .read 1 0).vf = true ∧ 0 < (remote .read 1 0).size ∧
    (remote .write 256 0).size ≤ 256 ∧ 256 < (remote .read 257 0).size ∧ (remote .read 0 0).size = 0 ∧ vfLive dev0 0 = false ∧
    remoteOp (.combine 0#2 0#2) = false ∧ remoteOp .acas = true ∧ (remote .acas 8 16).ipa % 8 = 0 := by decide +kernel
theorem test_training : after (.linkTraining 5 2 300) State.reset (fun t => (getPort t.dev 5).up && (getPort t.dev 5).width == 2) = true := by
  decide

/-- VF 0 in use with a first submission, and the replies to what its parsing reads: the header of an image and its one task node. -/
def zeros (n : Nat) : List Byte := List.replicate n 0#8
def imgHeader (magic : Nat) : List Byte :=
  natLe 4 magic ++ natLe 2 1 ++ zeros 2 ++ natLe 4 1 ++ zeros 12 ++ natLe 8 64 ++ zeros 32
def imgNode : List Byte := [1#8, 0#8, 0#8, 0#8, 0x09#8] ++ zeros 59
def full (bs : List Byte) : Reply := ⟨.setter, bs.length, 0, tabSetBytes [] 0 bs, [], false⟩
def sub1 : Submit := ⟨1, 0x0010000000000000#64, []⟩
def stSub (magic : Nat) (nodes : Nat) : State := { State.reset with
  replies := [(1, full (imgHeader magic)), (2, full imgNode)]
  dev := { dev0 with
    vfs := [(0, { vfAbsent with state := 1, subs := [sub1] })], nodes := (List.range nodes).map (fun i => (i, node1))
    jobs := [⟨.graph 0 1, [16, 0, 64, 0], 1⟩, ⟨.graph 0 1, [16, 64, 64, 0], 2⟩] } }
def parsedNodes (s : State) : Option (Nat × Nat) := match (parseImage 0 1 sub1.addr s).2 with
  | .ok (ns, es) => some (ns.length, es.length)
  | .error _ => none
theorem witness_SetterEvents_parse : (getVf (stSub 0x45584752 0).dev 0).subs = [sub1] ∧ parsedNodes (stSub 0x45584752 0) = some (1, 0) ∧
    roomFor (stSub 0x45584752 4095).dev 0 1 = true ∧ parsedNodes (stSub 0 0) = none := by decide +kernel
theorem witness_SetterEvents_parse_full : roomFor (stSub 0x45584752 4096).dev 0 1 = false := by decide +kernel

/-- Nodes of VF 0 on die 0 that are ready: a card, a gang of two, and a deficit of the VF. -/
def card1 (prio : Nat) : Node := { node1 with kind := 2, prio := prio, st := .waitingLease, lease := .held, replies := [], frames := [] }
def gang1 (prio : Nat) : Node :=
  { card1 prio with kind := 1, ready := some 0, task := { node1.task with gang := 2 } }
def stSet (ns : List Node) (deficit : Int) (cyc : Nat) : State := { State.reset with
  cyc := cyc
  dev := { dev0 with
    nodes := ns.zipIdx.map (fun e => (e.2, e.1)), vfs := [(0, { vfAbsent with state := 1, acct := 1, deficit := [(1, deficit)] })] } }
def busyCard : Node := { card1 0 with st := .running }
def costly : Node := { card1 1 with regions := [⟨16, 0, 128, true, false⟩] }
theorem witness_SetterEvents_round : levelWaits (stSet [card1 1] 0 0) 0 1 = true ∧ levelWaits (stSet [] 0 0) 0 1 = false ∧
    (oldestReady (stSet [card1 1, { card1 1 with handle := 0 }] 0 0) 0 0 1).map Prod.fst = some 1 ∧ oldestReady (stSet [] 0 0) 0 0 1 = none ∧
    launchOf (stSet [busyCard, busyCard, busyCard, busyCard, card1 1] 0 0) 4 (card1 1) false = none ∧
    launchOf (stSet [busyCard, busyCard, busyCard, card1 1] 0 0) 3 (card1 1) false = some (0, 0, []) ∧
    launchOf (stSet [costly] 0 0) 0 costly false = some (1, 0, []) ∧ deficitOf (stSet [costly] 0 0) 0 1 < 1 ∧
    (1 : Int) ≤ deficitOf (stSet [costly] 1 0) 0 1 := by decide +kernel
def gangsOf (s : State) : List Nat := ((waitingGangs s s.dev.token).foldl (fun l e => insertNode servedBefore e l) []).map Prod.fst
theorem witness_SetterEvents_token : gangsOf (stSet [] 0 0) = [] ∧ gangsOf (stSet [gang1 2, gang1 3, card1 4] 0 0) = [1, 0] ∧
    (List.range 8).any (fun l => decide (3 < l) && levelWaits (stSet [gang1 3, card1 4] 0 0) 0 l) = true ∧
    (List.range 8).any (fun l => decide (4 < l) && levelWaits (stSet [gang1 4, card1 4] 0 0) 0 l) = false := by decide +kernel

/-- Credits and cancels of a VF, and the tasks whose energy is flushed. -/
theorem witness_SetterEvents_writes : ((getVf (stN node1).dev 0).state = 1 ∨ (getVf (stN node1).dev 0).state = 2) ∧
    0 < { vfAbsent with gscred := 1 }.gscred ∧ { vfAbsent with gscred := 0 }.gscred = 0 ∧ vfLive dev0 0 = false ∧
    (getVf (stN node1).dev 0).subs = [] ∧
    [Machine.Graph.mk 0 1 1].any (fun g => g.vf == 0 && g.handle == fieldN (0x100000000#64) 32 32) = true ∧
    State.reset.dev.charges = [] ∧ State.reset.tasks = [] ∧ (stE (tkE sq1 9)).tasks.map Prod.fst = [7] ∧
    (flushTask 7 (stE (tkE sq1 9))).dev.charges = [] := by decide +kernel
theorem test_gsub_takes_credit : after (.gsub 0 0#64) (stN node1) (fun t =>
    (getVf t.dev 0).gscred == 63 && (getVf t.dev 0).subs == [⟨1, 0#64, []⟩]) = true := by decide +kernel

/-- A collective of one element and two members, of which `ks` are here; node 4 is one of them. -/
def contrib (node : Option Nat) (gs : List Nat) (rho : Nat) : Contrib := ⟨7, node, none, [(0, 1#64)], gs, [(0, rho)]⟩
def coll1 (ks : List Contrib) : Coll := ⟨1, 9, 1, 0, 0, 1, 1, [5], 5, false, none, false, false, ks, 0, false, false, [], none⟩
def stColl (c : Coll) (ctx : Tab Ctx) : State :=
  onDev (fun d => { d with colls := [c], ports := [(5, { port0 with ctx := ctx })] }) (stN { node1 with kind := 3 })
def takes (c : Coll) (ctx : Tab Ctx) : Option Nat := match takeCtxs c.key c.part c.ports (stColl c ctx).dev with
  | .ok _ => none
  | .error q => some q
theorem witness_SetterEvents_collectives : getColl (stColl (coll1 []) []).dev 9 = some (coll1 []) ∧ (coll1 []).started = false ∧
    takes (coll1 []) [(63, ⟨true, 1, none, none⟩)] = none ∧ takes (coll1 []) [(63, ⟨true, 1, some 2, none⟩)] = some 5 ∧
    spread (coll1 [contrib (some 4) [] 0, contrib (some 5) [] 0]) = false ∧ spread (coll1 [contrib (some 4) [] 0]) = true ∧
    (coll1 []).asked = false ∧ (coll1 []).others = none ∧ { coll1 [] with asked := true, others := some true }.others = some true ∧
    { coll1 [] with started := true }.contribs = [] ∧ 0 < groupCount (coll1 []) := by decide +kernel
theorem witness_SetterEvents_completion :
    collFull { coll1 [contrib (some 4) [0] 1, contrib none [0] 1] with started := true } = true ∧
    collBad { coll1 [contrib (some 4) [0] 1, contrib none [0] 1] with started := true } = false ∧
    collBad { coll1 [contrib (some 4) [0] 1, contrib none [0] 2] with started := true } = true ∧
    collBad { coll1 [] with bad := true } = true ∧ { coll1 [] with status := 2 }.status ≠ 0 := by decide +kernel

/-- A running card with a region of a buffer of its VF, whose entry `e` is. -/
def cardN (kind phase status : Nat) : Node :=
  { node1 with kind := kind, cst := ⟨phase, 0, status, 0⟩, regions := [⟨16, 0, 128, true, false⟩] }
def bufV : BitVec 256 := (0xE00#256 <<< 180) ||| (128#256 <<< 64)
def stCard (x : Node) (e : BitVec 256) : State := physWrite (stN x) 0 512 (natLe 32 e.toNat)
theorem witness_SetterEvents_cards : tabFind (stCard (cardN 2 0 0) bufV).dev.nodes 4 = some (cardN 2 0 0) ∧ (cardN 2 0 0).st = .running ∧
    [2, 3, 4].all (fun k => !cardRefused (stCard (cardN k 0 0) bufV) (cardN k 0 0)) = true ∧
    cardRefused (stCard (cardN 2 0 0) 0#256) (cardN 2 0 0) = true ∧ streamLen (readRegions (cardN 2 0 0)) = 128 ∧
    (cardN 2 3 0).cancel = none ∧ (cardN 2 3 0).cst.status % 256 = 0 ∧ (cardN 2 3 4).cst.status % 256 ≠ 0 := by decide +kernel

/-- A node of level 1 whose object has a variant for a column of either class, on a device whose partition 1 owns one column; and a running
node of level 0 whose task holds the column, or none.  Which class the tile has, the model leaves to the machine: both are tried. -/
def var1 (cls : Nat) : Variant := ⟨2, cls, 0, 1, 30, 1, 1, 1, 0, 1#6, [], []⟩
def obj1 : Obj := ⟨[var1 0, var1 1], [], [], false, []⟩
def wants : Node := { card1 1 with
  kind := 1, ready := some 0, sel := [1#8, 0#8, 0#8], obj := some obj1, task := { node1.task with pcls := 28, dies := 0, safeb := 1 } }
def holder : Node := { node1 with prio := 0, members := [{ member1 7 with grp := ⟨0, 0, 2, 1⟩ }] }
def stEv (ts : Tab Task) : State := { State.reset with
  tasks := ts
  dev := { dev0 with nodes := [(0, wants), (1, holder)], vfs := [(0, { vfAbsent with state := 1, part := 1, acct := 1 })], cols := [(2, 2)] } }
def tkCol : Task := { tkE sq1 9 with node := 1, col := 2, nsib := 0 }

/-- The spans of the tile, for the class it has. -/
def spansOf (t : Bool) (ts : Tab Task) (o : Occupied) (cls mode hop w : Nat) (die : Nat) : List Grp :=
  let f := groupFirsts cls mode
  if die = 0 ∧ (t == (cls == 1)) && modeFits (stEv ts).dev o 0 0 cls mode && hopsOk (stEv ts).dev 1 0 0 hop then
    (f.1.filter (fun c => decide (c + w ≤ f.2))).filterMap (fun c =>
      let x : Grp := ⟨0, 0, c, w⟩
      if spanFree (stEv ts).dev o 1 0 x then some x else none)
  else []
theorem dieSpans_ev {t : Bool} (h : Config.classT 0 0 = t) (ts : Tab Task) (o : Occupied) (cls mode hop w : Nat) :
    dieSpans (stEv ts).dev o wants 0 cls mode hop w = spansOf t ts o cls mode hop w := by
  funext die
  have hp : partTiles (stEv ts).dev ((getVf (stEv ts).dev wants.vf).part) = [(0, 0)] := by rfl
  have hd : wants.task.dies = 0 := rfl
  by_cases hz : die = 0
  · simp [dieSpans, hp, hd, spansOf, hz, tileSpans, h]; rfl
  · have : ¬ (0 = die) := fun e => hz e.symm
    simp [dieSpans, hp, hd, spansOf, hz, this]
theorem places_ev {t : Bool} (h : Config.classT 0 0 = t) (ts : Tab Task) (o : Occupied) (ok : List Grp → Bool) (v : Variant) (multi : Bool) :
    placesWith ok (stEv ts).dev o wants 0 v multi = search ok (byPower (stEv ts).dev ((dieOrder 0).flatMap (spansOf t ts o v.cls v.mode v.hop
      (modeCols v.mode * (v.sibs + 1))))) 1 [] := by
  simp only [placesWith, dieSpans_ev h]; rfl
/-- The variants of the node, for the class its tile has. -/
theorem variants_ev {t : Bool} (h : Config.classT 0 0 = t) (ts : Tab Task) :
    nodeVariants (stEv ts).dev wants 0 = [(if t then 1 else 0, var1 (if t then 1 else 0))] := by
  have e : ∀ v, eligible (stEv ts).dev wants 0 v = ((dieOrder 0).any (fun die => !(spansOf t ts ⟨[], true⟩ v.cls v.mode v.hop
      (modeCols v.mode * (v.sibs + 1)) die).isEmpty) && (v.chans.isEmpty || (placesFor (stEv ts).dev ⟨[], true⟩ wants 0 v true).isSome)) := by
    intro v
    simp only [eligible, dieSpans_ev h]; rfl
  have hc : classModes.filterMap (pairVariant (stEv ts).dev wants 0 obj1) = [(0, var1 0), (1, var1 1)] := by rfl
  have ho : wants.obj = some obj1 := rfl
  simp only [nodeVariants, ho, hc, List.filter_cons, List.filter_nil, e]
  cases t <;> rfl
theorem witness_SetterEvents_place : findPlace (stEv []) 0 wants [] true ≠ none := by
  cases h : Config.classT 0 0 <;> simp only [findPlace, variants_ev h, List.findSome?_cons, placesFor, places_ev h] <;> decide +kernel
theorem witness_SetterEvents_eviction : findPlace (stEv [(7, tkCol)]) 0 wants [] true = none ∧
    (∃ ids cols, evictSet (stEv [(7, tkCol)]) 0 wants (victims (stEv [(7, tkCol)]) wants.prio) [] [] = some (ids, cols)) ∧
    evictSet (stEv [(7, { tkCol with col := 1 })]) 0 wants (victims (stEv [(7, { tkCol with col := 1 })]) wants.prio) [] [] = none ∧
    tabFind (stEv []).dev.nodes 0 = some wants := by
  have hv : ∀ c, victims (stEv [(7, { tkCol with col := c })]) wants.prio = [(1, holder)] := fun _ => rfl
  cases h : Config.classT 0 0 <;>
    (refine ⟨?_, ⟨[1], [2], ?_⟩, ?_, rfl⟩
     all_goals
       first
       | rw [show victims (stEv [(7, tkCol)]) wants.prio = [(1, holder)] from rfl]
       | rw [hv]
       | skip
     all_goals simp only [evictSet, usable, findPlace, variants_ev h, List.findSome?_cons, List.any_cons, placesFor, places_ev h]
     all_goals decide +kernel)

/-- A field of a header is that of its image. -/
theorem imgGet_header (im : Tab Byte) (t : Machine.Task) (off : Nat) {o n : Nat} (h : o + n ≤ hdrLen) :
    imgGet (headerOfSlot im t off) o n = imgGet im ((slotOf t 0 0).2 + off + o) n := by
  have := tabBytes_setBytes [] 0 (slotRead im (slotOf t 0 0) off hdrLen)
  rw [slotRead, tabBytes_length] at this
  simpa only [imgGet, headerOfSlot, slotRead, Nat.zero_add] using congrArg leNat (tabBytes_part this h)

/-- A task node of VF 0 with the member `m`, and a running task of it where `ts` says so. -/
def nodeT (st : NodeSt) (m : Member) : Node :=
  { node1 with st := st, members := [m], obj := some obj1, lease := .held, frames := [], replies := [] }
def stT (x : Node) (cust : Bool) (ts : Tab Task) : State := { State.reset with
  tasks := ts
  dev := { dev0 with nodes := [(4, x)], vfs := [(0, { vfAbsent with state := 1, acct := 1, cust := cust })] } }
def tkN : Task := { tkE sq1 9 with node := 4 }
def argsOf (x : Node) (s : State) : Option (List Byte) := okBytes (readArgs 4 x s)
theorem witness_NodeEvents : tabFind (stT (nodeT .placed (member1 0)) false []).dev.nodes 4 = some (nodeT .placed (member1 0)) ∧
    mayStart (stT (nodeT .placed (member1 0)) false []) 4 (nodeT .placed (member1 0)) = true ∧
    placedVariant (nodeT .placed (member1 0)) = some (obj1, var1 0) ∧ (nodeT .placed (member1 0)).task.args = 0#64 ∧
    argsOf (nodeT .placed (member1 0)) (stT (nodeT .placed (member1 0)) false []) = some [] ∧ { obj1 with signed := true }.signed = true ∧
    (getVf (stT (nodeT .placed (member1 0)) true []).dev 0).cust = true ∧ obj1.signed = false ∧
    argsOf { nodeT .placed (member1 0) with task := { node1.task with args := 0x0003000000000000#64 } } (stT node1 false []) = none := by
  decide +kernel
def saved1 : Member := { member1 0 with saved := true }
def resuming : Node := { nodeT .placed saved1 with resume := true }
/-- The image of its member: a word for MAGIC, one for FLAGS. -/
def image (magic flags : Nat) : Tab Byte := tabSetBytes [] hdrOff (natLe 8 magic ++ natLe 8 flags)
def headers (im : Tab Byte) : List (Nat × Nat) := (savedTasks (stT resuming false []).dev 4 resuming obj1 (var1 0) im).map (fun e =>
  (imgGet (headerOfSlot im e.2 hdrOff) 0 8, imgGet (headerOfSlot im e.2 hdrOff) 8 8 / 4 % 4))
theorem headers_image (magic flags : Nat) : headers (image magic flags) = [(imgGet (image magic flags) hdrOff 8,
    imgGet (image magic flags) (hdrOff + 8) 8 / 4 % 4)] := by
  have h (t : Machine.Task) (ht : (slotOf t 0 0).2 = 0) : (imgGet (headerOfSlot (image magic flags) t hdrOff) 0 8,
      imgGet (headerOfSlot (image magic flags) t hdrOff) 8 8 / 4 % 4) =
      (imgGet (image magic flags) hdrOff 8, imgGet (image magic flags) (hdrOff + 8) 8 / 4 % 4) := by
    rw [imgGet_header _ _ _ (by decide), imgGet_header _ _ _ (by decide), ht]
    simp only [Nat.zero_add, Nat.add_zero]
  have hs : ∀ i m, (slotOf (savedTask (stT resuming false []).dev 4 resuming obj1 (var1 0) i m (image magic flags)) 0 0) =
      (slotOf (launchTask (stT resuming false []).dev 4 resuming obj1 resuming.vidx (var1 0) i m) 0 0) := by
    intro i m
    simp only [savedTask]
    split
    · split <;> simp only [slotOf, launchTask, Nat.zero_mul, Nat.zero_add]
    · rfl
  have hl : liveMembers resuming = [(saved1, 0)] := rfl
  simp only [headers, savedTasks, hl, List.map_cons, List.map_nil]
  rw [h _ (by rw [hs]; rfl)]
theorem witness_NodeEvents_resume : mayStart (stT resuming false []) 4 resuming = true ∧ resuming.restart = false ∧
    headers (image 0x45584358 8) = [(0x45584358, natCode 1)] ∧ headers (image 0x45584358 4) = [(0x45584358, 1)] ∧ natCode 1 ≠ 1 ∧
    headers (image 0x145584358 8) = [(0x145584358, 2)] ∧ saved1.k01 = false ∧
    { resuming with restart := true }.restart = true := by
  simp only [headers_image]
  decide +kernel
theorem witness_NodeEvents_ends : (nodeT .running saved1).kind = 1 ∧ membersDone (nodeT .running saved1) = true ∧
    (nodeT .running saved1).members.any (fun m => m.saved) = true ∧ (nodeT .running saved1).members.any (fun m => m.cut) = false ∧
    sentAll (stT (nodeT .running saved1) false []).dev 4 = true ∧ { nodeT .running saved1 with cancel := some 1 }.cancel = some 1 ∧
    stillPlaced 4 (nodeT .running (member1 7)) (stopTasks 4 (stT (nodeT .running (member1 7)) false [(7, tkN)])) = true ∧
    readsImage (stT (nodeT .running (member1 7)) false [(7, tkN)]).dev 4 = false ∧
    stillPlaced 4 (nodeT .running (member1 7)) (stopTasks 4 (stT (nodeT .running (member1 7)) false [])) = false ∧
    tasksBusy (stT (nodeT .running (member1 7)) false [(7, tkN)]) [7] = false ∧
    { nodeT .running (member1 7) with closing := some [] }.closing = some [] ∧
    membersDone (nodeT .running { member1 7 with done := true, cut := true }) = true ∧
    (tabFind (removeTasks [7] (stT (nodeT .running { member1 7 with done := true }) false [(7, tkN)])).dev.nodes 4).isSome = true := by
  decide +kernel

/-- A host transaction to a powered, ready device. -/
def hlp (type tag func : Nat) (addr : Word) (data : List Word) : Hlp := ⟨type, 0, tag, func, 0, addr, false, data⟩
def stR : State := { State.reset with dev := { dev0 with
  host := { host0 with powered := true, ready := true, resetting := false, reads := [(3, ⟨.nonce, 0, 8, 0, true⟩)] } } }
theorem witness_HostLinkEvents : stR.dev.host.powered = true ∧ stR.dev.trust.hold = false ∧ stR.dev.host.ready = true ∧
    badRequest 0x01 (hlp 1 4095 1024 0x10#64 []) = false ∧ badRequest 0x01 (hlp 1 4096 1024 0x10#64 []) = true ∧
    badRequest 0x02 (hlp 2 3 1025 0x10#64 []) = true ∧ badAccess (hlp 1 3 1024 0x10#64 []) = false ∧ badAccess (hlp 1 3 1024 0x14#64 []) = true ∧
    badAccess (hlp 1 3 1023 0xFF8#64 []) = false ∧ badAccess (hlp 1 3 1023 0x1000#64 []) = true ∧
    windowOff (hlp 1 3 1024 0x10#64 []) ≠ cfgcmdOff ∧ windowOff (hlp 1 3 1024 0x10028#64 []) = cfgcmdOff ∧
    earlyBlock (hlp 1 3 1024 0xFFF8#64 []) = true ∧ earlyBlock (hlp 1 3 1024 0x10000#64 []) = false ∧ host0.ready = false ∧
    badRequest 0x02 (hlp 2 3 1024 0x10#64 [0#64]) = false := by decide
def writes (x : Hlp) : Bool := match writeWindow (windowOff x) (x.data.headD 0#64) stR with
  | .inl _ => true
  | .inr _ => false
/-- VF 0 in use, with a writable and readable buffer. -/
def stRV : State := onDev (fun d => { d with vfs := [(0, { vfAbsent with state := 1 })] }) (physWrite stR 0 512 (natLe 32 bufV.toNat))
def bufAddr : Word := 0x0010000000000000#64
theorem witness_HostLinkEvents_memory : writes (hlp 2 3 1024 0x20000#64 [0#64]) = true ∧ writes (hlp 2 3 1024 0x10000#64 [0#64]) = false ∧
    badRequest 0x03 (hlp 3 3 1024 0#64 []) = false ∧ badRequest 0x04 (hlp 4 3 1024 0#64 [0#64]) = false ∧
    badRequest 0x03 (hlp 4 3 1024 0#64 []) = true ∧ badRequest 0x04 (hlp 3 3 1024 0#64 []) = true ∧
    pfOutside (hlp 3 3 1024 0x3FFFFFFFFF8#64 []) = false ∧ pfOutside (hlp 3 3 1024 0x3FFFFFFFFFC#64 []) = true ∧
    vfRefused stRV (hlp 3 3 0 (bufAddr + 120#64) []) false = false ∧ vfRefused stRV (hlp 3 3 0 (bufAddr + 121#64) []) false = true ∧
    vfRefused stRV (hlp 4 3 0 bufAddr [0#64]) true = false ∧ vfRefused stRV (hlp 4 3 1023 bufAddr [0#64]) true = true := by decide +kernel
theorem witness_HostLinkEvents_completions : (tabFind stR.dev.host.reads 3).isSome = true ∧ tabFind stR.dev.host.reads 4 = none ∧
    badCompletion 0x09 (hlp 9 3 1024 0#64 [1#64]) = false ∧ badCompletion 0x08 (hlp 8 3 1024 0#64 []) = false ∧
    badCompletion 0x09 (hlp 9 3 1025 0#64 [1#64]) = true ∧ badCompletion 0x08 (hlp 8 3 1025 0#64 []) = true ∧
    ((ofWords [1#64]).take 8).length = 8 ∧ ((ofWords []).take 8).length ≠ 8 ∧ { hlp 9 3 1024 0#64 [1#64] with status := 2 }.status ≠ 0 ∧
    0 + 95000000 ≤ { stR with cyc := 95000000 }.cyc ∧ { stR with cyc := 94999999 }.cyc < 0 + 95000000 := by decide

/-- A command with its arguments; partition 1 exists. -/
def cmdAt (a0 a1 : Word) (v : Vf) : State :=
  { State.reset with dev := { dev0 with cfg := { cfg0 with a0 := a0, a1 := a1, busy := true }, parts := 2#48, vfs := [(3, v)] } }
theorem witness_ConfigCommands : argsIn { cfg0 with a0 := 47#64 } 0x3F#64 0#64 0#64 0#64 = true ∧ partExists (cmdAt 1#64 0#64 vfAbsent).dev 1 = true ∧
    partExists (cmdAt 1#64 0#64 vfAbsent).dev 0 = false ∧ partOwns (cmdAt 1#64 0#64 vfAbsent).dev 1 = false ∧
    argsIn (cmdAt 0x81010000#64 0#64 vfAbsent).dev.cfg 0xBF0FFF07#64 0#64 0#64 0#64 = true ∧ (0x81010000#64).getLsbD 19 = false ∧
    (0x81010000#64).getLsbD 31 = true ∧ mayAssign dev0.cols true 1 [0] = true ∧ mayAssign [(0, 2)] false 1 [0] = true ∧
    busyColumns State.reset = [] ∧ argsIn (cmdAt 0x81003F00#64 0#64 vfAbsent).dev.cfg 0xBF3F3F07#64 0#64 0#64 0#64 = true ∧
    fieldN 0x81003F00#64 8 6 + fieldN 0x81003F00#64 16 6 < 64 ∧ mayAssign dev0.dsmOwn true 1 (dsmKeys (cmdAt 0x81003F00#64 0#64 vfAbsent).dev.cfg) = true := by
  decide
def poolAt (a1 a2 : Word) (up : Bool) (pool : Nat) : State := { State.reset with dev := { dev0 with
  cfg := { cfg0 with a0 := 0x100#64, a1 := a1, a2 := a2, busy := true }, parts := 2#48, hbm := [(0, { stack0 with up := up })]
  frames := if pool = 0 then [] else [(65279, { frame0 65279 with pool := pool })] } }
theorem witness_ConfigCommands_pools : poolArgs (poolAt 65279#64 0#64 true 0).dev.cfg = false ∧
    poolArgs (poolAt 65279#64 258#64 true 0).dev.cfg = false ∧ poolArgs (poolAt 65279#64 257#64 true 0).dev.cfg = true ∧
    poolArgs (poolAt 65279#64 1#64 false 0).dev.cfg = true ∧ (getStack (poolAt 65279#64 1#64 false 0).dev 0).up = false ∧
    partExists (poolAt 65279#64 1#64 true 0).dev 1 = true ∧
    ((poolRange (poolAt 65279#64 1#64 true 0).dev.cfg).all (fun fr => let f := getFrame (poolAt 65279#64 1#64 true 0).dev 0 fr
      !f.spare && f.quar == 0 && f.own == 0 && f.pool == 0)) = true ∧
    ((poolRange (poolAt 65279#64 1#64 true 2).dev.cfg).all (fun fr => let f := getFrame (poolAt 65279#64 1#64 true 2).dev 0 fr
      f.pool == 2 && f.own == 0)) = true := by decide +kernel
theorem witness_ConfigCommands_shares : argsIn (cmdAt 0x147#64 0xFFFF#64 vfAbsent).dev.cfg 0x3F7F#64 0xFFFF#64 0#64 0#64 = true ∧
    fieldN 0x147#64 0 7 = 71 ∧ portsInUse (cmdAt 0x147#64 0xFFFF#64 vfAbsent).dev 1 = false ∧
    argsIn (cmdAt 3#64 0#64 vfAbsent).dev.cfg 0x3FF#64 (BitVec.allOnes 64) 0#64 0#64 = true ∧
    (getVf (cmdAt 3#64 0#64 { vfAbsent with state := 1 }).dev 3).state ≠ 0 ∧ (getVf (cmdAt 3#64 0#64 vfAbsent).dev 3).state = 0 ∧
    (getVf (cmdAt 3#64 0#64 { vfAbsent with state := 5 }).dev 3).state = 5 := by decide
/-- VCREATE of VF 3 with its table in frame 512 of stack 0, just past its save frames. -/
def createAt : State := { State.reset with dev := { dev0 with
  cfg := { cfg0 with a0 := 0x10003#64, a1 := 0x40000000#64, a2 := 0#64, a3 := 0#64, busy := true }, parts := 2#48
  frames := (List.range 513).map (fun i => (i, { frame0 i with pool := 2 })) } }
theorem createAt_frame {i : Nat} (h : i < 513) : getFrame createAt.dev 0 i = { frame0 i with pool := 2 } := by
  have f : ∀ (g : Nat → Frame) (n a i : Nat), a ≤ i → i < a + n → tabFind ((List.range' a n).map (fun i => (i, g i))) i = some (g i) := by
    intro g n
    induction n with
    | zero => intro a i h1 h2; omega
    | succ n ih =>
      intro a i h1 h2
      by_cases e : a = i
      · simp [List.range'_succ, tabFind, e]
      · simp only [List.range'_succ, List.map_cons, tabFind, if_neg e]
        exact ih (a + 1) i (by omega) (by omega)
  have := f (fun i => { frame0 i with pool := 2 }) 513 0 i (Nat.zero_le _) (by omega)
  simp only [getFrame, createAt, List.range_eq_range', Nat.zero_mul, Nat.zero_add, this]
theorem witness_ConfigCommands_pool : ∀ i < 513, inPool createAt.dev 1 0 i = true := by
  intro i h
  have : ¬ 65280 ≤ i % 65536 := by omega
  simp [inPool, createAt_frame h, frame0, this]
theorem witness_ConfigCommands_create : argsIn createAt.dev.cfg 0xFFFFFF03073F03FF#64 0xFFFFFFFFFFFF#64 0xFFFFFFFFFFFF#64 (BitVec.allOnes 64) = true ∧
    frameAddr createAt.dev.cfg.a1 = (0, 512) ∧ frameAddr createAt.dev.cfg.a2 = (0, 0) ∧ frameAddrOk createAt.dev.cfg.a1 = true ∧
    frameAddrOk createAt.dev.cfg.a2 = true ∧ fieldN createAt.dev.cfg.a0 16 6 = 1 ∧ fieldN createAt.dev.cfg.a3 0 2 = 0 ∧
    (getVf createAt.dev 3).state = 0 ∧ partExists createAt.dev 1 = true ∧
    createAt.dev.cfg.a0.getLsbD 32 = false := by decide +kernel
def stReset (step : Nat) (x : Node) (rs : List Release) : State := { State.reset with dev := { dev0 with
  vfs := [(3, { vfAbsent with state := 4, rstep := step })], nodes := [(4, x)], releases := rs } }
theorem witness_ConfigCommands_reset : (∀ i < 3, (getVf (stReset i node1 []).dev 3).state = 4 ∧ (getVf (stReset i node1 []).dev 3).rstep = i) ∧
    (∀ e ∈ (stReset 0 { node1 with vf := 3, kind := 3 } []).dev.nodes, e.2.vf = 3 → e.2.kind ≠ 1) ∧
    (∀ e ∈ (stReset 1 node1 []).dev.nodes, e.2.vf ≠ 3) ∧
    (∀ r ∈ (stReset 2 node1 [⟨1, 4, 2, .inl 3⟩]).dev.releases, r.vf ≠ 3) := by decide
theorem witness_ConfigCommands_keys : argsIn (cmdAt 0x1FF#64 0x1000#64 vfAbsent).dev.cfg 0x3FFF#64 (BitVec.allOnes 64) 0#64 0#64 = true ∧
    fieldN 0x1FF#64 8 6 = 1 ∧ tabFind dev0.trust.slots 255 = none ∧
    (transportKey { dev0 with trust := { trust0 with transport := some 1 } }).isSome = true ∧
    argsIn (cmdAt 3#64 0x1000#64 vfAbsent).dev.cfg 0x3FF#64 (BitVec.allOnes 64) (BitVec.allOnes 64) 0#64 = true ∧
    idOk { dev0 with trust := { trust0 with identity := true, transport := some 1 } } = true ∧
    argsIn (cmdAt 0#64 0x1000#64 vfAbsent).dev.cfg 0#64 (BitVec.allOnes 64) (BitVec.allOnes 64) 0#64 = true := by decide
theorem test_vreset_absent : after .vreset (cmdAt 3#64 0#64 vfAbsent) (fun t => t.dev.cfg.code == 4) = true := by decide
theorem test_credit : after .credit (cmdAt 3#64 500#64 { vfAbsent with state := 1 }) (fun t =>
    (getVf t.dev 3).acct == 500 && t.dev.cfg.code == 0) = true := by decide

/-- A queue of two records' room with one held, and one that is full. -/
def stQ (q : Vf) : State := { State.reset with cyc := 19000, dev := { dev0 with vfs := [(3, q)] } }
def queue1 : Vf := { vfAbsent with state := 2, eqen := true, eqlog := 6, eqhead := 0#32, eqtail := 63#32, held := [record0 14] }
theorem witness_RegisterWriteEvents : dev0.gtc.valid = false ∧ { gtc0 with valid := true }.valid = true ∧ dev0.gtc.slew = 0 ∧
    0 + 3800000000 ≤ { State.reset with cyc := 3800000000 }.cyc ∧ (128#64).getLsbD 7 = true ∧ (1#64).getLsbD 0 = true ∧
    (2#64).getLsbD 0 = false ∧ queue1.state = 2 ∧ queue1.eqen = true ∧ vfAbsent.eqen = false ∧ (0x8000000000000005#64).getLsbD 63 = true ∧
    (63#32 - queue1.eqhead).toNat ≤ (queue1.eqtail - queue1.eqhead).toNat ∧
    (queue1.eqtail - queue1.eqhead).toNat < (64#32 - queue1.eqhead).toNat ∧ canWrite queue1 = true ∧
    canWrite { queue1 with eqtail := 64#32 } = false ∧ (999#64 : Word).toInt * 2 ^ 40 < 1000 * 2 ^ 40 ∧
    ((0x3E80000#64 : Word).extractLsb' 0 48).toInt * 2 ^ 24 = 1000 * 2 ^ 40 ∧
    (∀ e ∈ State.reset.dev.power, wakeTime e.2.state ≤ elTol State.reset.dev (elOf e.1)) := by decide
theorem witness_RegisterWriteEvents_timer : eqTimer 0x800000000000000A#64 = 10 ∧
    timerDue (stQ { queue1 with since := 1, eqint := 0x800000000000000A#64 }) { queue1 with since := 1, eqint := 0x800000000000000A#64 } = true ∧
    timerDue { stQ queue1 with cyc := 18999 } { queue1 with since := 1, eqint := 0x800000000000000A#64 } = false := by decide
theorem test_gtcset : after (.gtcsetWrite 77#64) State.reset (fun t => t.dev.gtci == 77 && t.dev.gtc.valid) = true := by decide

/-- Sensors: sixteen of a die, and one of a stack. -/
def heat (t : BitVec 16) : List (BitVec 16) := List.replicate 15 200#16 ++ [t]
set_option maxRecDepth 8000 in
theorem witness_PowerReset : inService stR.dev = true ∧ inService State.reset.dev = false ∧ (heat 400#16).length = 16 ∧
    degrees (hottest (heat 400#16)) ≤ 400 ∧ alarming (hottest (heat 400#16)) = false ∧ 380 < degrees 381#16 ∧ alarming 381#16 = false ∧
    dieRows (heat 501#16) 0 ≠ [] ∧ alarming (hottest (dieRows (heat 501#16) 0)) = true ∧ ([500#16, 501#16].take 32).any alarming = true ∧
    alarming 500#16 = false ∧ { host0 with binning := true }.binning = true := by decide
/-- A column whose partition tolerates 2 µs, awake since its last task left it at cyc 0, or asleep and waking. -/
def stPw (p : PowerEl) (cyc : Nat) : State := { State.reset with
  cyc := cyc
  dev := { dev0 with cols := [(0, 2)], ltol := [(1, 2)], power := if p = powerEl0 then [] else [(0, p)] } }
theorem witness_PowerReset_elements : entryState (stPw powerEl0 2048) (.column 0 0 0) = 1 ∧ entryState (stPw powerEl0 2047) (.column 0 0 0) = 0 ∧
    elKey (.column 0 0 0) = 0 ∧ (powerOf (stPw ⟨1, 5, none, 0⟩ 6).dev 0).state ≠ 0 ∧ (powerOf (stPw ⟨1, 5, none, 0⟩ 6).dev 0).wake = none ∧
    (powerOf (stPw ⟨1, 5, none, 0⟩ 6).dev 0).since ≠ (stPw ⟨1, 5, none, 0⟩ 6).cyc ∧
    (powerOf (stPw ⟨1, 5, some 3806, 0⟩ 3806).dev 0).wake = some 3806 ∧ 3806 ≤ (stPw ⟨1, 5, some 3806, 0⟩ 3806).cyc ∧
    (stPw ⟨1, 5, some 3806, 0⟩ 3805).cyc < 3806 := by decide +kernel
theorem test_fast_limiter : after (.fastLimiter 2) State.reset (fun t => (getDie t.dev 2).cap == 128 && t.dev.fast) = true := by decide

end Sys2Proof.Tests
end

section

/-! ## What leaves memory alone

The functions of the model that never write memory, file by file: after each the memory is the one before it. -/

namespace Sys2Proof.Machine

@[simp] theorem ite_mem (c : Prop) [Decidable c] (s t : State) : (if c then s else t).mem = if c then s.mem else t.mem := apply_ite ..

/-- A fold whose every step leaves memory alone leaves memory alone. -/
@[simp] theorem foldl_mem {α : Type} {f : State → α → State} (h : ∀ s x, (f s x).mem = s.mem) (l : List α) (s : State) :
    (l.foldl f s).mem = s.mem := by
  induction l generalizing s with
  | nil => rfl
  | cons x l ih => rw [List.foldl_cons, ih, h]

/-! ### Ops -/

@[simp] theorem enterHandler_mem (t : Trap) (s : State) : (enterHandler t s).mem = s.mem := rfl
@[simp] theorem endTrap_mem (nest : Bool) (t : Trap) (s : State) : (endTrap nest t s).mem = s.mem := rfl
@[simp] theorem takeTrap_mem (t : Trap) (s : State) : (takeTrap t s).mem = s.mem := by simp [takeTrap]

/-! ### Report -/

@[simp] theorem onVf_mem (v : Nat) (f : Vf → Vf) (s : State) : (onVf v f s).mem = s.mem := rfl
@[simp] theorem onHost_mem (f : HostSt → HostSt) (s : State) : (onHost f s).mem = s.mem := rfl
@[simp] theorem sendHost_mem (x : Hlp) (s : State) : (sendHost x s).mem = s.mem := rfl
@[simp] theorem hostWriteAll_mem (func : Nat) (addr : Word) (bs : List Byte) (s : State) : (hostWriteAll func addr bs s).mem = s.mem := by
  simp [hostWriteAll]
@[simp] theorem sendReads_mem (n : Nat) (s : State) : (sendReads n s).mem = s.mem := by
  induction n generalizing s with
  | zero => rfl
  | succ n ih =>
    unfold sendReads
    split
    · rw [ih]; rfl
    · rfl

@[simp] theorem hostRead_mem (why : ReadFor) (addr : Word) (n off len : Nat) (s : State) :
    (hostRead why addr n off len s).mem = s.mem := by simp [hostRead]
@[simp] theorem loupeSetter_mem (die code handle node vf : Nat) (s : State) : (loupeSetter die code handle node vf s).mem = s.mem := by
  simp [loupeSetter]
@[simp] theorem sendIntr_mem (v : Nat) (s : State) : (sendIntr v s).mem = s.mem := rfl
@[simp] theorem intrByCount_mem (v : Nat) (s : State) : (intrByCount v s).mem = s.mem := by simp [intrByCount]

/-! ### Blocks -/

@[simp] theorem onTask_mem (tid : Nat) (f : Task → Task) (s : State) : (onTask tid f s).mem = s.mem := by unfold onTask; split <;> simp
@[simp] theorem onSeq_mem (tid k : Nat) (f : Seq → Seq) (s : State) : (onSeq tid k f s).mem = s.mem := by simp [onSeq]
@[simp] theorem focus_mem (tid k : Nat) (s : State) : (focus tid k s).mem = s.mem := by unfold focus; (repeat' split) <;> simp
@[simp] theorem unfocus_mem (s : State) : (unfocus s).mem = s.mem := rfl
@[simp] theorem onStack_mem (n : Nat) (f : Stack → Stack) (s : State) : (onStack n f s).mem = s.mem := rfl
@[simp] theorem onFrame_mem (n fr : Nat) (f : Frame → Frame) (s : State) : (onFrame n fr f s).mem = s.mem := rfl
@[simp] theorem onFrames_mem (n : Nat) (f : Nat → Frame → Frame) (l : List Nat) (s : State) :
    (l.foldl (fun t fr => onFrame n fr (f fr) t) s).mem = s.mem := foldl_mem (fun _ _ => onFrame_mem ..) _ _
@[simp] theorem setUpsets_mem (n p bad : Nat) (s : State) : (setUpsets n p bad s).mem = s.mem := rfl
@[simp] theorem chargeVf_mem (port : Nat) (v : Option Nat) (amount : Nat) (s : State) : (chargeVf port v amount s).mem = s.mem := by
  unfold chargeVf; split <;> simp
@[simp] theorem chargeHops_mem (die p v n : Nat) (s : State) : (chargeHops die p v n s).mem = s.mem := rfl
@[simp] theorem activate_mem (n p part : Nat) (v : Option Nat) (s : State) : (activate n p part v s).mem = s.mem := by simp [activate]
@[simp] theorem quarantine_mem (n fr : Nat) (part : Option Nat) (s : State) : (quarantine n fr part s).mem = s.mem := rfl

/-! ### Jobs -/

@[simp] theorem closeJobs_mem (why : JobFor) (s : State) : (closeJobs why s).mem = s.mem := rfl
theorem worked_mem (why : JobFor) {t s : State} (h : t.mem = s.mem) : (worked why t s).mem = s.mem := by
  unfold worked; split <;> simp [h]
@[simp] theorem attempt_mem (why : JobFor) {f : State → State} (h : ∀ s, (f s).mem = s.mem) (s : State) : (attempt why f s).mem = s.mem :=
  worked_mem why (h _)
@[simp] theorem askEntries_mem (why : JobFor) (key : List Nat) (v : Nat) (es : List (Nat × Nat)) (s : State) :
    (askEntries why key v es s).1.mem = s.mem := by
  unfold askEntries; split
  · rfl
  · exact askRead_mem ..

/-! ### Wake -/

@[simp] theorem wakeKey_mem (k : Nat) (s : State) : (wakeKey k s).mem = s.mem := by simp [wakeKey]
@[simp] theorem wakeHome_mem (v : Nat) (s : State) : (wakeHome v s).mem = s.mem := by simp [wakeHome]
@[simp] theorem wakeForbidden_mem (s : State) : (wakeForbidden s).mem = s.mem := by simp [wakeForbidden]

/-! ### MemPort -/

@[simp] theorem invalidate_mem (ss : Bool) (v stack addr what : Nat) (frame : Option Nat) (s : State) :
    (invalidate ss v stack addr what frame s).mem = s.mem :=
    rfl
@[simp] theorem nameFrame_mem (v n fr : Nat) (s : State) : (nameFrame v n fr s).mem = s.mem := rfl
@[simp] theorem unnameFrame_mem (v n fr : Nat) (s : State) : (unnameFrame v n fr s).mem = s.mem := by simp [unnameFrame]
@[simp] theorem answer_mem (id off : Nat) (bs : List Byte) (err : Option ReplyErr) (s : State) : (answer id off bs err s).mem = s.mem := by
  unfold answer; split <;> simp
@[simp] theorem fail_mem (r : Req) (kind : Nat) (s : State) : (fail r kind s).mem = s.mem := by unfold fail; split <;> simp
@[simp] theorem splitNext_mem (v n g f b : Nat) (s : State) : (splitNext v n g f b s).mem = s.mem := rfl
@[simp] theorem startSplit_mem (v n g : Nat) (s : State) : (startSplit v n g s).mem = s.mem := by unfold startSplit; split <;> simp
@[simp] theorem cacheWrote_mem (r : Req) (bs : List Byte) (s : State) : (cacheWrote r bs s).mem = s.mem := by
  unfold cacheWrote; split <;> simp
@[simp] theorem install_mem (r : Req) (blk : List Byte) (s : State) : (install r blk s).mem = s.mem := by unfold install; split <;> simp
@[simp] theorem portAccess_mem (n q part : Nat) (v : Option Nat) (s : State) : (portAccess n q part v s).mem = s.mem := by
  simp [portAccess]
@[simp] theorem finishReply_mem (id : Nat) (s : State) : (finishReply id s).mem = s.mem := by unfold finishReply; (repeat' split) <;> simp
@[simp] theorem cacheEntry_mem (r : Req) (n : Nat) (s : State) : (cacheEntry r n s).mem = s.mem := by unfold cacheEntry; split <;> simp
@[simp] theorem meetSplit_mem (s : State) (r : Req) : (meetSplit s r).mem = s.mem := by unfold meetSplit; (repeat' split) <;> simp
@[simp] theorem loupePolisher_mem (n code fr : Nat) (s : State) : (loupePolisher n code fr s).mem = s.mem := by simp [loupePolisher]
@[simp] theorem frameCleared_mem (n fr : Nat) (s : State) : (frameCleared n fr s).mem = s.mem := by simp [frameCleared]
@[simp] theorem acknowledge_mem (tid k : Nat) (s : State) : (acknowledge tid k s).mem = s.mem := by simp [acknowledge]

/-! ### Nodes -/

@[simp] theorem onNode_mem (id : Nat) (f : Node → Node) (s : State) : (onNode id f s).mem = s.mem := by unfold onNode; split <;> simp
@[simp] theorem post_mem (tid : Nat) (k : PreemptKind) (s : State) : (post tid k s).mem = s.mem := rfl
@[simp] theorem loupeNode_mem (code id : Nat) (s : State) : (loupeNode code id s).mem = s.mem := by unfold loupeNode; split <;> simp
@[simp] theorem quotaCheck_mem (v : Nat) (s : State) : (quotaCheck v s).mem = s.mem := by
  unfold quotaCheck; dsimp only; split
  · refine (foldl_mem (fun t tid => ?_) _ _).trans (by simp)
    rw [post_mem]; split <;> simp
  · rfl
@[simp] theorem addAcct_mem (v : Nat) (n : Int) (s : State) : (addAcct v n s).mem = s.mem := rfl
@[simp] theorem chargeNode_mem (id v n : Nat) (s : State) : (chargeNode id v n s).mem = s.mem := by simp [chargeNode]
@[simp] theorem flushTask_mem (tid : Nat) (s : State) : (flushTask tid s).mem = s.mem := by
  unfold flushTask; split <;> simp
@[simp] theorem finalCharge_mem (tid : Nat) (s : State) : (finalCharge tid s).mem = s.mem := by
  unfold finalCharge; split
  · rfl
  · exact (chargeNode_mem ..).trans (onTask_mem ..)
@[simp] theorem giveBack_mem (id : Nat) (x : Node) (s : State) : (giveBack id x s).mem = s.mem := rfl
@[simp] theorem releaseLease_mem (id : Nat) (s : State) : (releaseLease id s).mem = s.mem := by unfold releaseLease; split <;> simp
@[simp] theorem dropReplies_mem (tids : List Nat) (s : State) : (dropReplies tids s).mem = s.mem := rfl
@[simp] theorem removeTasks_mem (tids : List Nat) (s : State) : (removeTasks tids s).mem = s.mem := by simp [removeTasks]
@[simp] theorem freeNode_mem (id : Nat) (s : State) : (freeNode id s).mem = s.mem := by unfold freeNode; split <;> simp
@[simp] theorem satisfy_mem (id : Nat) (s : State) : (satisfy id s).mem = s.mem := rfl
@[simp] theorem cancelWaiting_mem (id status : Nat) (s : State) : (cancelWaiting id status s).mem = s.mem := by
  unfold cancelWaiting; split <;> simp
@[simp] theorem cancelAfter_mem (n : Nat) (ids : List Nat) (s : State) : (cancelAfter n ids s).mem = s.mem := by
  induction n generalizing ids s with
  | zero => rfl
  | succ n ih =>
    unfold cancelAfter; dsimp only; split
    · rfl
    · rw [ih]; simp

@[simp] theorem chargeResidues_mem (id : Nat) (s : State) : (chargeResidues id s).mem = s.mem := by
  unfold chargeResidues; split
  · rfl
  · exact (onNode_mem ..).trans (foldl_mem (fun _ _ => chargeNode_mem ..) _ _)
@[simp] theorem endAlone_mem (id : Nat) (recs : List Record) (s : State) : (endAlone id recs s).mem = s.mem := by
  unfold endAlone; split
  · rfl
  · exact (freeNode_mem ..).trans ((foldl_mem (fun _ _ => report_mem ..) _ _).trans ((chargeResidues_mem ..).trans (removeTasks_mem ..)))
@[simp] theorem endNode_mem (id : Nat) (recs : List Record) (s : State) : (endNode id recs s).mem = s.mem := by simp [endNode]
@[simp] theorem closeNode_mem (id : Nat) (recs : List Record) (s : State) : (closeNode id recs s).mem = s.mem := by
  unfold closeNode; dsimp only; split <;> simp
@[simp] theorem faultNode_mem (id : Nat) (x : Node) (r : Record) (s : State) : (faultNode id x r s).mem = s.mem := by simp [faultNode]
@[simp] theorem faultEarly_mem (id : Nat) (t : Trap) (s : State) : (faultEarly id t s).mem = s.mem := by
  unfold faultEarly; split <;> simp
@[simp] theorem leaseRefused_mem (id : Nat) (r : Option Region) (s : State) : (leaseRefused id r s).mem = s.mem := by
  unfold leaseRefused; dsimp only; (repeat' split) <;> simp
@[simp] theorem sendPull_mem (id v off : Nat) (e : BitVec 256) (s : State) : (sendPull id v off e s).mem = s.mem := rfl
@[simp] theorem startPull_mem (id : Nat) (f : LeaseFrame) (s : State) : (startPull id f s).mem = s.mem := by
  unfold startPull; split <;> simp
@[simp] theorem dropPull_mem (id : Nat) (s : State) : (dropPull id s).mem = s.mem := rfl
@[simp] theorem failLease_mem (p : Pull) (s : State) (n : Nat) : (failLease p s n).mem = s.mem := by unfold failLease; split <;> simp
@[simp] theorem saveWritten_mem (id : Nat) (s : State) : (saveWritten id s).mem = s.mem := by simp [saveWritten]
@[simp] theorem cancelNode_mem (status id : Nat) (s : State) : (cancelNode status id s).mem = s.mem := by
  unfold cancelNode
  split
  · rfl
  · split
    · rfl
    · split
      · dsimp only; split
        · exact (foldl_mem (fun _ _ => post_mem ..) _ _).trans ((loupeNode_mem ..).trans (onNode_mem ..))
        · exact onNode_mem ..
      · exact endAlone_mem ..
@[simp] theorem cancelNodes_mem (status : Nat) (ids : List Nat) (s : State) :
    (cancelNodes status ids s).mem = s.mem := by simp [cancelNodes]
@[simp] theorem keyLost_mem (v : Nat) (s : State) : (keyLost v s).mem = s.mem := by
  unfold keyLost; dsimp only; rw [onVf_mem, report_mem]
  exact foldl_mem (fun t id => by split <;> simp) _ _
@[simp] theorem eraseKeys_mem (s : State) : (eraseKeys s).mem = s.mem := by simp [eraseKeys]
@[simp] theorem eraseIdentity_mem (s : State) : (eraseIdentity s).mem = s.mem := rfl
@[simp] theorem endAll_mem (s : State) : (endAll s).mem = s.mem := rfl
@[simp] theorem alarm_mem (c : Nat) (s : State) : (alarm c s).mem = s.mem := by simp [alarm]
@[simp] theorem takeAlarms_mem (s : State) : (takeAlarms s).mem = s.mem := by simp [takeAlarms]

/-! ### Context -/

@[simp] theorem onMember_mem (node m : Nat) (f : Member → Member) (s : State) : (onMember node m f s).mem = s.mem := by simp [onMember]
@[simp] theorem slotWrite_mem (id v : Nat) (sl : Nat × Nat) (off : Nat) (bs : List Byte) (s : State) :
    (slotWrite id v sl off bs s).mem = s.mem :=
    rfl
@[simp] theorem askSlots_mem (why : JobFor) (key : List Nat) (v : Nat) (xs : List Span) (s : State) :
    (askSlots why key v xs s).1.mem = s.mem := askRead_mem ..
@[simp] theorem phaseMark_mem (tid : Nat) (s : State) : (phaseMark tid s).mem = s.mem := by unfold phaseMark; split <;> simp
@[simp] theorem saveRow_mem (id : Nat) (t : Task) (k j x : Nat) (q : Seq) (s : State) : (saveRow id t k j x q s).mem = s.mem := rfl
@[simp] theorem saveRows_mem (id : Nat) (t : Task) (k : Nat) (q : Seq) (xs : List Nat) (s : State) :
    (saveRows id t k q xs s).mem = s.mem := foldl_mem (fun _ _ => foldl_mem (fun _ _ => saveRow_mem ..) _ _) _ _
@[simp] theorem saveAccs_mem (id : Nat) (t : Task) (k : Nat) (q : Seq) (s : State) :
    (saveAccs id t k q s).mem = s.mem := foldl_mem (fun _ _ => (slotWrite_mem ..).trans ((slotWrite_mem ..).trans (slotWrite_mem ..))) _ _
@[simp] theorem saveStatus_mem (id : Nat) (t : Task) (k : Nat) (q : Seq) (s : State) :
    (saveStatus id t k q s).mem = s.mem := foldl_mem (fun _ _ => slotWrite_mem ..) _ _
@[simp] theorem keepMsg_mem (id v : Nat) (sl : Nat × Nat) (n i : Nat) (m : Landed) (s : State) : (keepMsg id v sl n i m s).mem = s.mem :=
    rfl
@[simp] theorem saveMsgs_mem (id : Nat) (t : Task) (s : State) : (saveMsgs id t s).mem = s.mem := by
  refine foldl_mem (fun u e => ?_) _ _
  split
  · exact (foldl_mem (fun _ _ => keepMsg_mem ..) _ _).trans (slotWrite_mem ..)
  · rfl
@[simp] theorem contextSave_mem (id tid li : Nat) (s : State) : (contextSave id tid li s).mem = s.mem := by
  unfold contextSave; dsimp only; split <;> simp

/-! ### Loader -/

@[simp] theorem setterRead_mem (why : JobFor) (v idx off n : Nat) (rd exe : Bool) (s : State) :
    (setterRead why v idx off n rd exe s).1.mem = s.mem := by
  unfold setterRead; dsimp only; (repeat' split) <;> simp [askRead_mem]
@[simp] theorem loadObject_mem (why : JobFor) (v : Nat) (code : Word) (s : State) : (loadObject why v code s).1.mem = s.mem := by
  unfold loadObject; dsimp only; (repeat' split) <;> simp

/-! ### Cards -/

@[simp] theorem onCard_mem (node : Nat) (f : CardSt → CardSt) (s : State) : (onCard node f s).mem = s.mem := by simp [onCard]
@[simp] theorem cardSend_mem (node phase size : Nat) (mk : Nat → List Req) (s : State) : (cardSend node phase size mk s).mem = s.mem := by
  simp [cardSend]
@[simp] theorem cardDone_mem (node status : Nat) (s : State) : (cardDone node status s).mem = s.mem := by simp [cardDone]
@[simp] theorem drainEntries_mem (node : Nat) (x : Node) (s : State) : (drainEntries node x s).1.mem = s.mem := askEntries_mem ..
@[simp] theorem onColl_mem (cid : Nat) (f : Coll → Coll) (s : State) : (onColl cid f s).mem = s.mem := rfl
@[simp] theorem loupeUa_mem (port code x part : Nat) (s : State) : (loupeUa port code x part s).mem = s.mem := by simp [loupeUa]
@[simp] theorem tell_mem (c : Coll) (x : Sent) (s : State) : (tell c x s).mem = s.mem := by simp [tell]
@[simp] theorem fellBack_mem (c : Coll) (s : State) : (fellBack c s).mem = s.mem := foldl_mem (fun _ _ => report_mem ..) _ _
@[simp] theorem fallBack_mem (c : Coll) (port : Nat) (s : State) : (fallBack c port s).mem = s.mem := by simp [fallBack]
@[simp] theorem beginColl_mem (c : Coll) (fabric : Bool) (s : State) : (beginColl c fabric s).mem = s.mem := by simp [beginColl]
@[simp] theorem sendGroups_mem (c : Coll) (v die : Nat) (k : Contrib) (s : State) : (sendGroups c v die k s).mem = s.mem := by
  simp [sendGroups]
@[simp] theorem contribute_mem (node : Nat) (x : Node) (bs : List Byte) (s : State) : (contribute node x bs s).mem = s.mem := by
  unfold contribute; split <;> simp
@[simp] theorem countBad_mem (c : Coll) (s : State) : (countBad c s).mem = s.mem := by simp [countBad]
@[simp] theorem cardWrite_mem (node : Nat) (x : Node) (bs : List Byte) (mixed : Bool) (bad : Req → Bool) (status : Nat) (s : State) :
    (cardWrite node x bs mixed bad status s).mem = s.mem := by
  simp [cardWrite]
@[simp] theorem withdrawnCard_mem (node : Nat) (x : Node) (status : Nat) (s : State) : (withdrawnCard node x status s).mem = s.mem := by
  simp [withdrawnCard]
@[simp] theorem joinColl_mem (node : Nat) (x : Node) (s : State) : (joinColl node x s).mem = s.mem := by
  unfold joinColl; dsimp only; split <;> simp
@[simp] theorem oweReduction_mem (s : State) (c : Coll) : (oweReduction s c).mem = s.mem := rfl
@[simp] theorem dropColls_mem (s : State) : (dropColls s).mem = s.mem := rfl
@[simp] theorem collDelivered_mem (node : Nat) (s : State) : (collDelivered node s).mem = s.mem := by simp [collDelivered]
@[simp] theorem withdraw_mem (x : Node) (s : State) : (withdraw x s).mem = s.mem := by unfold withdraw; split <;> simp
@[simp] theorem withdrawnElsewhere_mem (cid : Nat) (s : State) : (withdrawnElsewhere cid s).mem = s.mem := by
  unfold withdrawnElsewhere; split <;> simp
@[simp] theorem deliveredElsewhere_mem (cid n : Nat) (s : State) : (deliveredElsewhere cid n s).mem = s.mem := by
  unfold deliveredElsewhere; split <;> simp
@[simp] theorem cardReply_mem (node id : Nat) (r : Reply) (s : State) : (cardReply node id r s).mem = s.mem := by
  unfold cardReply; dsimp only; split <;> simp

/-! ### Custodian -/

@[simp] theorem promoteFrame_mem (n fr : Nat) (s : State) : (promoteFrame n fr s).mem = s.mem := rfl

@[simp] theorem scrubFrame_mem (p n : Nat) (s : State) (fr : Nat) : (scrubFrame p n s fr).mem = s.mem := by simp [scrubFrame]
@[simp] theorem readSource_mem (c : CustOp) (s : State) : (readSource c s).1.mem = s.mem := rfl
@[simp] theorem sendCust_mem (c : CustOp) (s : State) : (sendCust c s).mem = s.mem := by unfold sendCust; split <;> simp
@[simp] theorem custReply_mem (id : Nat) (w : Word) (errs : List ReplyErr) (s : State) : (custReply id w errs s).mem = s.mem := by
  unfold custReply; split <;> simp
@[simp] theorem custRefuse_mem (id code item : Nat) (s : State) : (custRefuse id code item s).mem = s.mem := by simp [custRefuse]
@[simp] theorem frelWait_mem (c : CustOp) (value : Nat) (fs : List (Nat × Nat)) (s : State) : (frelWait c value fs s).mem = s.mem := by
  simp [frelWait]

/-! ### Issue -/

@[simp] theorem atSlot_mem (off : Bool) (pos : Pos) (x : Slot) (s : State) : (atSlot off pos x s).mem = s.mem := rfl
@[simp] theorem advance_mem (pre : State) (s : State) : (advance pre s).mem = s.mem := by simp [advance]
@[simp] theorem groupState_mem (s : State) : (groupState s).mem = s.mem := rfl
@[simp] theorem groupStart_mem (s : State) : (groupStart s).mem = s.mem := rfl
@[simp] theorem touchRange_mem (tid k : Nat) (s : State) : (touchRange tid k s).mem = s.mem := by unfold touchRange; split <;> simp

/-! ### Engine -/

@[simp] theorem later_mem (i : Ev) (s : State) : (later i s).mem = s.mem := rfl
@[simp] theorem sendReqs_mem (id : Nat) (rs : List Req) (s : State) : (sendReqs id rs s).mem = s.mem := by unfold sendReqs; split <;> simp
@[simp] theorem sendWrites_mem (id : Nat) (rs : List Req) (s : State) : (sendWrites id rs s).mem = s.mem := by simp [sendWrites]
@[simp] theorem dropPlaces_mem (id : Nat) (s : State) : (dropPlaces id s).mem = s.mem := rfl
@[simp] theorem openReply_mem (id rows : Nat) (none' : Bool) (s : State) : (openReply id rows none' s).mem = s.mem := by
  unfold openReply; split <;> simp
@[simp] theorem onCopy_mem (tid k id : Nat) (f : Copy → Copy) (s : State) : (onCopy tid k id f s).mem = s.mem := by simp [onCopy]
@[simp] theorem copyPlaces_mem (tid k : Nat) (t : Task) (c : Copy) (s : State) : (copyPlaces tid k t c s).mem = s.mem := by
  simp [copyPlaces]
@[simp] theorem copyStart_mem (tid k : Nat) (t : Task) (q : Seq) (c : Copy) (s : State) : (copyStart tid k t q c s).mem = s.mem := by
  simp [copyStart]
@[simp] theorem copyRead_mem (tid k lc : Nat) (t : Task) (q : Seq) (c : Copy) (s : State) : (copyRead tid k lc t q c s).mem = s.mem := by
  unfold copyRead; dsimp only; (repeat' split) <;> simp
@[simp] theorem copyCycle_mem (tid k lc : Nat) (t : Task) (q : Seq) (s : State) : (copyCycle tid k lc t q s).mem = s.mem := by
  simp [copyCycle]
@[simp] theorem copyFinish_mem (tid k : Nat) (c : Copy) (s : State) : (copyFinish tid k c s).mem = s.mem := by simp [copyFinish]
@[simp] theorem launchMsg_mem (tid : Nat) (t : Task) (ch : Nat) (m : Msg) (path : BitVec 2) (s : State) :
    (launchMsg tid t ch m path s).mem = s.mem := by
  simp [launchMsg]
@[simp] theorem launchCredit_mem (t : Task) (ch src : Nat) (s : State) : (launchCredit t ch src s).mem = s.mem := by simp [launchCredit]
@[simp] theorem loupeTask_mem (t : Task) (cause : Nat) (w : Word) (lc : Nat) (s : State) : (loupeTask t cause w lc s).mem = s.mem := by
  simp [loupeTask]
@[simp] theorem release_mem (tid : Nat) (o : Out) (s : State) : (release tid o s).mem = s.mem := by
  unfold release; split
  · rfl
  · split
    case h_4 => exact (foldl_mem (fun _ _ => post_mem ..) _ _).trans (onTask_mem ..)
    all_goals simp
@[simp] theorem sendKept_mem (tid : Nat) (s : State) : (sendKept tid s).mem = s.mem := by
  unfold sendKept; split <;> simp
@[simp] theorem loupeTrap_mem (t : Task) (k : Nat) (x : Trap) (s : State) : (loupeTrap t k x s).mem = s.mem := by simp [loupeTrap]
@[simp] theorem undoCopies_mem (tid : Nat) (p : Nat → Bool) (c : Nat) (s : State) : (undoCopies tid p c s).mem = s.mem := by
  unfold undoCopies; split <;> simp
@[simp] theorem settleOut_mem (tid : Nat) (s : State) : (settleOut tid s).mem = s.mem := by
  unfold settleOut; dsimp only; (repeat' split) <;> simp
@[simp] theorem finishCopies_mem (tid : Nat) (s : State) : (finishCopies tid s).mem = s.mem := by
  unfold finishCopies; split
  · rfl
  · exact foldl_mem (fun _ _ => foldl_mem (fun _ _ => (foldl_mem (fun _ _ => copyRead_mem ..) _ _).trans (by simp)) _ _) _ _
@[simp] theorem faultTask_mem (tid : Nat) (s0 : State) : (faultTask tid s0).mem = s0.mem := by
  unfold faultTask
  extract_lets s
  have hs : s.mem = s0.mem := by simp only [s]; split <;> simp
  split
  · exact hs
  · extract_lets ms recs s1
    have h1 : s1.mem = s.mem := foldl_mem (fun u e => by split <;> simp) _ _
    rw [takeAlarms_mem, ← hs, ← h1]
    split
    · exact closeNode_mem ..
    · exact (removeTasks_mem ..).trans (foldl_mem (fun _ _ => report_mem ..) _ _)
@[simp] theorem matrixCheck_mem (tid : Nat) (s : State) : (matrixCheck tid s).mem = s.mem := by
  unfold matrixCheck; dsimp only; (repeat' split) <;> simp
@[simp] theorem endTask_mem (tid : Nat) (s : State) : (endTask tid s).mem = s.mem := by
  unfold endTask; (repeat' split) <;> simp
@[simp] theorem parkTask_mem (tid : Nat) (s : State) : (parkTask tid s).mem = s.mem := rfl
@[simp] theorem freeColumns_mem (tid : Nat) (before : Task) (s : State) : (freeColumns tid before s).mem = s.mem := by
  unfold freeColumns; split <;> simp
@[simp] theorem settle_mem (tid : Nat) (s : State) : (settle tid s).mem = s.mem := by
  unfold settle; (repeat' split) <;> simp
@[simp] theorem endOfLc_mem (tid : Nat) (s : State) : (endOfLc tid s).mem = s.mem := by
  unfold endOfLc; dsimp only; (repeat' split) <;> simp
@[simp] theorem heldSplits_mem (tid : Nat) (s : State) : (heldSplits tid s).mem = s.mem := by simp [heldSplits]
@[simp] theorem phaseDone_mem (tid : Nat) (s : State) : (phaseDone tid s).mem = s.mem := by unfold phaseDone; split <;> simp
@[simp] theorem barDone_mem (tid : Nat) (s : State) : (barDone tid s).mem = s.mem := by unfold barDone; split <;> simp

/-! ### Graph -/

@[simp] theorem readArray_mem (why : JobFor) (v : Nat) (addr : Word) (off cnt sz : Nat) (s : State) :
    (readArray why v addr off cnt sz s).1.mem = s.mem := by
  unfold readArray; split <;> simp
@[simp] theorem readTrees_mem (why : JobFor) (v : Nat) (bs : List (List Byte)) (s : State) : (readTrees why v bs s).1.mem = s.mem := by
  induction bs generalizing s with
  | nil => rfl
  | cons b bs ih => simp [readTrees, ih]

@[simp] theorem parseImage_mem (v handle : Nat) (addr : Word) (s : State) : (parseImage v handle addr s).1.mem = s.mem := by
  unfold parseImage; dsimp only; (repeat' split) <;> simp
@[simp] theorem freeSlot_mem (v : Nat) (s : State) : (freeSlot v s).mem = s.mem := rfl
@[simp] theorem enterGraph_mem (v handle : Nat) (ns : List Node) (es : List (Nat × Nat)) (s : State) :
    (enterGraph v handle ns es s).mem = s.mem :=
    rfl
@[simp] theorem takeImage_mem (v : Nat) (sub : Submit) (s : State) : (takeImage v sub s).mem = s.mem := by
  unfold takeImage; dsimp only; (repeat' split) <;> simp

/-! ### Power -/

@[simp] theorem loupeArbiter_mem (code n grant : Nat) (s : State) : (loupeArbiter code n grant s).mem = s.mem := by simp [loupeArbiter]
@[simp] theorem chargeShared_mem (v n : Nat) (s : State) : (chargeShared v n s).mem = s.mem := by simp [chargeShared]
@[simp] theorem accrueCols_mem (s : State) : (accrueCols s).mem = s.mem := rfl
@[simp] theorem chargeEpoch_mem (s : State) : (chargeEpoch s).mem = s.mem := by simp [chargeEpoch]
@[simp] theorem epochDie_mem (d0 : Dev) (i : Nat) (s : State) : (epochDie d0 i s).mem = s.mem := by simp [epochDie]
@[simp] theorem epochStack_mem (d0 : Dev) (n : Nat) (s : State) : (epochStack d0 n s).mem = s.mem := by simp [epochStack]

/-! ### Place -/

@[simp] theorem readArgs_mem (id : Nat) (x : Node) (s : State) : (readArgs id x s).1.mem = s.mem := by
  unfold readArgs; (repeat' split) <;> simp
@[simp] theorem takeArgs_mem (id : Nat) (x : Node) (s : State) : (takeArgs id x s).mem = s.mem := by
  unfold takeArgs; dsimp only; split <;> simp
@[simp] theorem commitPlace_mem (id : Nat) (x : Node) (k : Nat) (gs : List Grp) (s : State) :
    (commitPlace id x k gs s).mem = s.mem := by simp [commitPlace]
@[simp] theorem launchNode_mem (id : Nat) (x : Node) (k : Nat) (gs : List Grp) (s : State) :
    (launchNode id x k gs s).mem = s.mem := by simp [launchNode]
@[simp] theorem ensureObject_mem (id : Nat) (x : Node) (s : State) : (ensureObject id x s).mem = s.mem := by
  unfold ensureObject; dsimp only; (repeat' split) <;> simp
@[simp] theorem setDeficit_mem (v lvl : Nat) (n : Int) (s : State) : (setDeficit v lvl n s).mem = s.mem := rfl
@[simp] theorem prepareLoaded_mem (id : Nat) (s : State) : (prepareLoaded id s).mem = s.mem := by
  unfold prepareLoaded; dsimp only; (repeat' split) <;> simp
@[simp] theorem prepareNode_mem (id : Nat) (s : State) : (prepareNode id s).mem = s.mem := attempt_mem _ (prepareLoaded_mem id) s
@[simp] theorem serveVf_mem (die lvl v n : Nat) (s : State) : (serveVf die lvl v n s).mem = s.mem := by
  induction n generalizing s with
  | zero => rfl
  | succ n ih => unfold serveVf; dsimp only; (repeat' split) <;> simp [ih]

@[simp] theorem stampReady_mem (die lvl : Nat) (s : State) : (stampReady die lvl s).mem = s.mem := by simp [stampReady]
@[simp] theorem serveLevel_mem (die lvl : Nat) (s : State) : (serveLevel die lvl s).mem = s.mem := by simp [serveLevel]
@[simp] theorem serveLevels_mem (die n : Nat) (s : State) : (serveLevels die n s).mem = s.mem := by
  induction n generalizing s with
  | zero => rfl
  | succ n ih => simp [serveLevels, ih]

@[simp] theorem prepareNodes_mem (die : Nat) (s : State) : (prepareNodes die s).mem = s.mem := by simp [prepareNodes]
@[simp] theorem stampLevels_mem (die : Nat) (s : State) : (stampLevels die s).mem = s.mem := by simp [stampLevels]
@[simp] theorem placeGang_mem (die : Nat) (e : Nat × Node) (s : State) : (placeGang die e s).mem = s.mem := by
  unfold placeGang; dsimp only; (repeat' split) <;> simp
@[simp] theorem evictFor_mem (id : Nat) (s : State) : (evictFor id s).mem = s.mem := by
  unfold evictFor
  split
  · rfl
  · split
    · rfl
    · split
      · rfl
      · exact (foldl_mem (fun _ _ => (loupeNode_mem ..).trans (foldl_mem (fun _ _ => post_mem ..) _ _)) _ _).trans (onDev_mem ..)

/-! ### Launch -/

@[simp] theorem placeTask_mem (id i : Nat) (t : Task) (s : State) : (placeTask id i t s).mem = s.mem := by simp [placeTask]
@[simp] theorem measure_mem (v : Nat) (digest : List Byte) (s : State) : (measure v digest s).mem = s.mem := rfl

@[simp] theorem dispatched_mem (node : Nat) (s : State) : (dispatched node s).mem = s.mem := by simp [dispatched]
@[simp] theorem startNode_mem (node : Nat) (x : Node) (o : Obj) (v : Variant) (b : List Byte) (s : State) :
    (startNode node x o v b s).mem = s.mem := by simp [startNode]
@[simp] theorem resumeMembers_mem (node : Nat) (ts : List ((Member × Nat) × Task)) (im : Tab Byte) (s : State) :
    (resumeMembers node ts im s).mem = s.mem := by
  simp [resumeMembers]
@[simp] theorem resumeNode_mem (node : Nat) (x : Node) (o : Obj) (v : Variant) (im : Tab Byte) (s : State) :
    (resumeNode node x o v im s).mem = s.mem := by
  unfold resumeNode; dsimp only; (repeat' split) <;> simp
@[simp] theorem restartElsewhere_mem (node : Nat) (x : Node) (s : State) : (restartElsewhere node x s).mem = s.mem := by
  unfold restartElsewhere
  extract_lets ts meterOf s1 s2
  have h1 : s1.mem = s.mem := by
    refine foldl_mem (fun u e => ?_) ts s
    exact parkTask_mem e.1 _
  split <;> simp [s2, h1]
@[simp] theorem stopTasks_mem (node : Nat) (s : State) : (stopTasks node s).mem = s.mem := by simp [stopTasks]
@[simp] theorem restartRunning_mem (node : Nat) (x : Node) (s : State) : (restartRunning node x s).mem = s.mem := by
  unfold restartRunning; dsimp only; (repeat' split) <;> simp
@[simp] theorem restartPlaced_mem (node : Nat) (x : Node) (o : Obj) (v : Variant) (s : State) :
    (restartPlaced node x o v s).mem = s.mem := by
  unfold restartPlaced; dsimp only; (repeat' split) <;> simp
@[simp] theorem correctDeficit_mem (x : Node) (lc : Nat) (s : State) : (correctDeficit x lc s).mem = s.mem := rfl
@[simp] theorem pressGroups_mem (i : Inval) (s : State) : (pressGroups i s).mem = s.mem := foldl_mem (fun s t => by split <;> simp) _ _
@[simp] theorem flushCharges_mem (key : Nat) (s : State) : (flushCharges key s).mem = s.mem := by simp [flushCharges]

/-! ### Links -/

@[simp] theorem onGtc_mem (f : Gtc → Gtc) (s : State) : (onGtc f s).mem = s.mem := rfl
@[simp] theorem countReplay_mem (port : Nat) (s : State) : (countReplay port s).mem = s.mem := by simp [countReplay]
@[simp] theorem loupeSeq_mem (port ch part : Nat) (s : State) : (loupeSeq port ch part s).mem = s.mem := by simp [loupeSeq]
@[simp] theorem landAtTask_mem (tid : Nat) (m : Msg) (s : State) : (landAtTask tid m s).mem = s.mem := by
  unfold landAtTask; dsimp only; (repeat' split) <;> simp
@[simp] theorem askChan_mem (why : JobFor) (v : Nat) (sl : Nat × Nat) (n seq : Nat) (s : State) :
    (askChan why v sl n seq s).1.mem = s.mem := askSlots_mem ..
@[simp] theorem landInImage_mem (v : Nat) (sl : Nat × Nat) (node i : Nat) (m : Msg) (s : State) :
    (landInImage v sl node i m s).mem = s.mem := by
  unfold landInImage; dsimp only; (repeat' split) <;> simp
@[simp] theorem mailImage_mem (v : Nat) (sl : Nat × Nat) (node i : Nat) (m : Msg) (s : State) :
    (mailImage v sl node i m s).mem = s.mem := by simp [mailImage]
@[simp] theorem creditImage_mem (v : Nat) (sl : Nat × Nat) (ch : Nat) (s : State) :
    (creditImage v sl ch s).mem = s.mem := by simp [creditImage]
@[simp] theorem mailCredit_mem (v : Nat) (sl : Nat × Nat) (node dst ch : Nat) (s : State) :
    (mailCredit v sl node dst ch s).mem = s.mem := by simp [mailCredit]
@[simp] theorem waitLanding_mem (m : Msg) (s : State) : (waitLanding m s).mem = s.mem := by simp [waitLanding]
@[simp] theorem leaveLanding_mem (m : Msg) (s : State) : (leaveLanding m s).mem = s.mem := by simp [leaveLanding]
@[simp] theorem deliver_mem (x : Msg) (s : State) : (deliver x s).mem = s.mem := by
  unfold deliver; (repeat' split) <;> simp

/-! ### Commands -/

@[simp] theorem onCfg_mem (f : Cfg → Cfg) (s : State) : (onCfg f s).mem = s.mem := rfl
@[simp] theorem endCmd_mem (code : Nat) (s : State) : (endCmd code s).mem = s.mem := rfl
@[simp] theorem withdrawAll_mem (v : Nat) (s : State) : (withdrawAll v s).mem = s.mem := by simp [withdrawAll]
@[simp] theorem releaseFrames_mem (v : Nat) (s : State) : (releaseFrames v s).mem = s.mem := foldl_mem (fun _ _ => quarantine_mem ..) _ _
@[simp] theorem releaseLate_mem (v : Nat) (s : State) :
    (releaseLate v s).mem = s.mem := (foldl_mem (fun _ _ => giveBack_mem ..) _ _).trans (onDev_mem ..)
@[simp] theorem startRead_mem (why : ReadFor) (addr : Word) (off n : Nat) (s : State) :
    (startRead why addr off n s).mem = s.mem := by simp [startRead]
@[simp] theorem keyRead_mem (s : State) : (keyRead s).mem = s.mem := by unfold keyRead; dsimp only; (repeat' split) <;> simp
@[simp] theorem nonceRead_mem (s : State) : (nonceRead s).mem = s.mem := by unfold nonceRead; split <;> simp
@[simp] theorem fetchFirmware_mem (got len : Nat) (s : State) : (fetchFirmware got len s).mem = s.mem := by simp [fetchFirmware]
@[simp] theorem beginFetch_mem (s : State) : (beginFetch s).mem = s.mem := by simp [beginFetch]
@[simp] theorem firmwareRead_mem (s : State) : (firmwareRead s).mem = s.mem := by simp [firmwareRead]
@[simp] theorem resumeStack_mem (s : State) (n : Nat) : (resumeStack s n).mem = s.mem := by unfold resumeStack; split <;> simp
@[simp] theorem retireNow_mem (n fr : Nat) (s : State) : (retireNow n fr s).mem = s.mem := by unfold retireNow; (repeat' split) <;> simp
@[simp] theorem binRow_mem (s : State) (r : BinnedRow) : (binRow s r).mem = s.mem := by simp [binRow]

/-! ### HostLink -/

@[simp] theorem discard_mem (s : State) : (discard s).mem = s.mem := rfl
@[simp] theorem completeBad_mem (x : Hlp) (status : Nat) (s : State) : (completeBad x status s).mem = s.mem := rfl
@[simp] theorem writeCommand_mem (w : Word) (s : State) : (writeCommand w s).mem = s.mem := by
  unfold writeCommand; (repeat' split) <;> simp
@[simp] theorem readOver_mem (tag : Nat) (r : HostRead) (bs : Option (List Byte)) (s : State) : (readOver tag r bs s).mem = s.mem := by
  unfold readOver; dsimp only; (repeat' split) <;> simp
@[simp] theorem moveFunctions_mem (s : State) : (moveFunctions s).mem = s.mem := rfl

/-! ### Due -/

@[simp] theorem sweepJobs_mem (s : State) : (sweepJobs s).mem = s.mem := rfl
@[simp] theorem keepBusy_mem (s : State) : (keepBusy s).mem = s.mem := rfl
@[simp] theorem tick_mem (s : State) : (tick s).mem = s.mem := by simp [tick]

end Sys2Proof.Machine
end

section

/-! ## Events that leave memory alone

What an event leads to, as a predicate on the next state of its outcome; then every event after which memory is as before. -/

namespace Sys2Proof.Machine

/-- The next state of an outcome, if it has one, satisfies `P`. -/
def Leads (P : State → Prop) (o : Host.Outcome State Fault Refusal) : Prop := ∀ t, o = .next t → P t

@[simp] theorem leads_next (P : State → Prop) (t : State) : Leads P (.next t) ↔ P t :=
  ⟨fun h => h t rfl, fun h _ e => by cases e; exact h⟩
@[simp] theorem leads_ite (P : State → Prop) (c : Prop) [Decidable c] (a b : Host.Outcome State Fault Refusal) :
    Leads P (if c then a else b) ↔ (c → Leads P a) ∧ (¬c → Leads P b) := by split <;> simp [*]

/-- What a register write leads to (R86), if it is no event, satisfies `P`. -/
def Writes (P : State → Prop) (x : Written) : Prop := ∀ t, x = .inr t → P t

@[simp] theorem writes_inr (P : State → Prop) (t : State) : Writes P (.inr t) ↔ P t :=
  ⟨fun h => h t rfl, fun h _ e => by cases e; exact h⟩
@[simp] theorem writes_inl (P : State → Prop) (e : Ev) : Writes P (.inl e) := fun _ h => by cases h
@[simp] theorem writes_ite (P : State → Prop) (c : Prop) [Decidable c] (a b : Written) :
    Writes P (if c then a else b) ↔ (c → Writes P a) ∧ (¬c → Writes P b) := by split <;> simp [*]

/-- What a configuration command leads to (R89), if it does not fail, satisfies `P`. -/
def Commands (P : State → Prop) (c : Command) : Prop := ∀ t, c = .ok t → P t

@[simp] theorem commands_ok (P : State → Prop) (t : State) : Commands P (.ok t) ↔ P t :=
  ⟨fun h => h t rfl, fun h _ e => by cases e; exact h⟩
@[simp] theorem commands_need (P : State → Prop) (b : Bool) (n : Nat) (c : Unit → Command) :
    Commands P (need b n >>= c) ↔ (b = true → Commands P (c ())) := by
  cases b with
  | true => exact ⟨fun h _ => h, fun h => h rfl⟩
  | false => exact ⟨fun _ h => (by cases h), fun _ _ e => by cases e⟩
/-- A command ends with CODE 0 in the state it leads to, or with another CODE in the state it found (R88). -/
theorem leads_runCommand {P : State → Prop} {s : State} {c : Command} (hend : ∀ n t, P t → P (endCmd n t)) (hs : P s)
    (hc : Commands P c) : Leads P (runCommand s c) := by
  unfold runCommand
  rw [leads_next]
  cases c with
  | ok t => exact hend _ _ (hc t rfl)
  | error n => exact hend _ _ hs
@[simp] theorem runCommand_mem {s : State} {c : Command} (hc : Commands (·.mem = s.mem) c) : Leads (·.mem = s.mem) (runCommand s c) :=
  leads_runCommand (fun _ _ h => h) rfl hc

/-! ### Report -/

theorem execLoupeArm_mem (w : BitVec 64) (s : State) : Leads (·.mem = s.mem) (execLoupeArm w s) := by simp [execLoupeArm]
theorem execEventRecordWrite_mem (v : Nat) (s : State) : Leads (·.mem = s.mem) (execEventRecordWrite v s) := by
  unfold execEventRecordWrite; dsimp only; split <;> simp
theorem execEqInterruptTimer_mem (v : Nat) (s : State) : Leads (·.mem = s.mem) (execEqInterruptTimer v s) := by
  simp [execEqInterruptTimer]

/-! ### Wake -/

theorem execEqctlWrite_mem (v : Nat) (w : BitVec 64) (s : State) : Leads (·.mem = s.mem) (execEqctlWrite v w s) := by
  simp [execEqctlWrite]
theorem execEqheadWrite_mem (v : Nat) (w : BitVec 64) (s : State) : Leads (·.mem = s.mem) (execEqheadWrite v w s) := by
  simp [execEqheadWrite]

/-! ### MemPort -/

theorem execPatrolPeriodEnd_mem (n : Nat) (s : State) : Leads (·.mem = s.mem) (execPatrolPeriodEnd n s) := by simp [execPatrolPeriodEnd]
theorem execRowRefresh_mem (n bank row : Nat) (s : State) : Leads (·.mem = s.mem) (execRowRefresh n bank row s) := by
  simp [execRowRefresh]
theorem execActivationWindow_mem (s : State) : Leads (·.mem = s.mem) (execActivationWindow s) := by simp [execActivationWindow]

/-! ### Nodes -/

theorem execLeaseReply_mem (node n : Nat) (s : State) : Leads (·.mem = s.mem) (execLeaseReply node n s) := by simp [execLeaseReply]
theorem execGcan_mem (v : Nat) (w : BitVec 64) (s : State) : Leads (·.mem = s.mem) (execGcan v w s) := by simp [execGcan]
theorem execSupplyExcursion_mem (s : State) : Leads (·.mem = s.mem) (execSupplyExcursion s) := by simp [execSupplyExcursion]
theorem execMeshBreak_mem (s : State) : Leads (·.mem = s.mem) (execMeshBreak s) := by simp [execMeshBreak]
theorem execTampctlWrite_mem (w : BitVec 64) (s : State) : Leads (·.mem = s.mem) (execTampctlWrite w s) := by simp [execTampctlWrite]

/-! ### Cards -/

theorem execCollectiveStart_mem (cid : Nat) (s : State) : Leads (·.mem = s.mem) (execCollectiveStart cid s) := by
  unfold execCollectiveStart; (repeat' split) <;> simp
theorem execReductionContribution_mem (w : TreePort) (member group : Nat) (elems : List (BitVec 64)) (residue' : Nat) (s : State) :
    Leads (·.mem = s.mem) (execReductionContribution w member group elems residue' s) := by
  simp [execReductionContribution]
theorem execCollectiveComplete_mem (cid : Nat) (s : State) : Leads (·.mem = s.mem) (execCollectiveComplete cid s) := by
  unfold execCollectiveComplete; split <;> simp

/-! ### Issue -/

theorem execRangeRegisterFill_mem (t k : Nat) (s : State) : Leads (·.mem = s.mem) (execRangeRegisterFill t k s) := by
  unfold execRangeRegisterFill; split
  · simp
  · refine (leads_next _ _).2 (attempt_mem _ (fun u => ?_) s)
    dsimp only; split
    · rfl
    · exact (touchRange_mem ..).trans (askRead_mem ..)

/-! ### Engine -/

theorem execResultLanding_mem (tid : Nat) (s : State) : Leads (·.mem = s.mem) (execResultLanding tid s) := by
  unfold execResultLanding; split <;> simp
theorem execCopyComplete_mem (id : Nat) (s : State) : Leads (·.mem = s.mem) (execCopyComplete id s) := by
  unfold execCopyComplete; split <;> simp
theorem execPhaseComplete_mem (tid : Nat) (s : State) : Leads (·.mem = s.mem) (execPhaseComplete tid s) := by simp [execPhaseComplete]
theorem execBarComplete_mem (tid : Nat) (s : State) : Leads (·.mem = s.mem) (execBarComplete tid s) := by simp [execBarComplete]
theorem execBankCleared_mem (tid k bank : Nat) (s : State) : Leads (·.mem = s.mem) (execBankCleared tid k bank s) := by
  unfold execBankCleared; split <;> simp
theorem execStallTimeout_mem (tid : Nat) (s : State) : Leads (·.mem = s.mem) (execStallTimeout tid s) := by
  unfold execStallTimeout; split <;> simp
theorem execSafeBoundOverrun_mem (tid : Nat) (s : State) : Leads (·.mem = s.mem) (execSafeBoundOverrun tid s) := by
  unfold execSafeBoundOverrun; split <;> simp
theorem execMatrixCheck_mem (tid k : Nat) (block main check' row col : Nat) (s : State) :
    Leads (·.mem = s.mem) (execMatrixCheck tid k block main check' row col s) := by
  unfold execMatrixCheck; split <;> simp

/-! ### Graph -/

theorem execGsub_mem (v : Nat) (w : BitVec 64) (s : State) : Leads (·.mem = s.mem) (execGsub v w s) := by simp [execGsub]
theorem execGraphParse_mem (v : Nat) (s : State) : Leads (·.mem = s.mem) (execGraphParse v s) := by unfold execGraphParse; split <;> simp

/-! ### Power -/

theorem execArbiterEpoch_mem (s : State) : Leads (·.mem = s.mem) (execArbiterEpoch s) := by simp [execArbiterEpoch]
theorem execFastLimiter_mem (die : Nat) (s : State) : Leads (·.mem = s.mem) (execFastLimiter die s) := by simp [execFastLimiter]
theorem execPlimWrite_mem (w : BitVec 64) (s : State) : Leads (·.mem = s.mem) (execPlimWrite w s) := by simp [execPlimWrite]
theorem execSensorUpdate_mem (dieT stkT : List (BitVec 16)) (s : State) : Leads (·.mem = s.mem) (execSensorUpdate dieT stkT s) := by
  have warmed : ∀ l : List (BitVec 16 × Nat), (l.foldl (fun s e => onStack e.2 (fun k => { k with
      temp := e.1, hotEpoch := k.hotEpoch || decide (degrees e.1 > 380) }) s)
        ((List.range 8).foldl (fun s i => onDev (senseDie dieT i) s) s)).mem = s.mem := fun l =>
    (foldl_mem (fun _ _ => onStack_mem ..) _ _).trans (foldl_mem (fun _ _ => onDev_mem ..) _ _)
  simp [execSensorUpdate, warmed]
theorem execPowerStateEntry_mem (e : Element) (s : State) : Leads (·.mem = s.mem) (execPowerStateEntry e s) := by
  simp [execPowerStateEntry]
theorem execWakeComplete_mem (e : Element) (s : State) : Leads (·.mem = s.mem) (execWakeComplete e s) := by
  unfold execWakeComplete; split <;> simp
theorem execLtolWrite_mem (p : Nat) (w : BitVec 64) (s : State) : Leads (·.mem = s.mem) (execLtolWrite p w s) := by simp [execLtolWrite]

/-! ### Place -/

theorem execGangToken_mem (s : State) : Leads (·.mem = s.mem) (execGangToken s) := by unfold execGangToken; dsimp only; split <;> simp
theorem execPriorityPreemption_mem (die : Nat) (s : State) : Leads (·.mem = s.mem) (execPriorityPreemption die s) := by
  simp [execPriorityPreemption]

/-! ### Launch -/

theorem execDispatch_mem (node : Nat) (s : State) : Leads (·.mem = s.mem) (execDispatch node s) := by
  unfold execDispatch
  split
  · simp
  · split
    · simp
    · split
      · simp
      · refine (leads_next _ _).2 (attempt_mem _ (fun u => ?_) s)
        dsimp only; split <;> simp
theorem execContextRestore_mem (node : Nat) (s : State) : Leads (·.mem = s.mem) (execContextRestore node s) := by
  unfold execContextRestore; (repeat' split) <;> simp
theorem execPhaseRestart_mem (node : Nat) (s : State) : Leads (·.mem = s.mem) (execPhaseRestart node s) := by
  unfold execPhaseRestart; (repeat' split) <;> simp
theorem execSaveComplete_mem (node : Nat) (s : State) : Leads (·.mem = s.mem) (execSaveComplete node s) := by
  unfold execSaveComplete; (repeat' split) <;> simp
theorem execNodeRetire_mem (node : Nat) (s : State) : Leads (·.mem = s.mem) (execNodeRetire node s) := by
  unfold execNodeRetire; dsimp only; (repeat' split) <;> simp
theorem execPreemptionRequestArrival_mem (t : Nat) (kind : PreemptKind) (s : State) :
    Leads (·.mem = s.mem) (execPreemptionRequestArrival t kind s) := by
  simp [execPreemptionRequestArrival]
theorem execInvalidationTimeout_mem (id : Nat) (s : State) : Leads (·.mem = s.mem) (execInvalidationTimeout id s) := by
  unfold execInvalidationTimeout; split <;> simp
theorem execCaratFlush_mem (s : State) : Leads (·.mem = s.mem) (execCaratFlush s) := by simp [execCaratFlush]

/-! ### Links -/

theorem execGtcincWrite_mem (w : BitVec 64) (s : State) : Leads (·.mem = s.mem) (execGtcincWrite w s) := by simp [execGtcincWrite]
theorem execGtcadjWrite_mem (w : BitVec 64) (s : State) : Leads (·.mem = s.mem) (execGtcadjWrite w s) := by
  unfold execGtcadjWrite; dsimp only; split <;> simp
theorem execGtcsetWrite_mem (w : BitVec 64) (s : State) : Leads (·.mem = s.mem) (execGtcsetWrite w s) := by simp [execGtcsetWrite]
theorem execGtcSlewDone_mem (s : State) : Leads (·.mem = s.mem) (execGtcSlewDone s) := by simp [execGtcSlewDone]
theorem execGtcHoldover_mem (s : State) : Leads (·.mem = s.mem) (execGtcHoldover s) := (leads_next _ _).2 (onGtc_mem ..)
theorem execUarctxWrite_mem (port j : Nat) (w : BitVec 64) (s : State) : Leads (·.mem = s.mem) (execUarctxWrite port j w s) := by
  simp [execUarctxWrite]
theorem execLinkTraining_mem (port width rtt : Nat) (s : State) : Leads (·.mem = s.mem) (execLinkTraining port width rtt s) := by
  simp [execLinkTraining]
theorem execLaneLoss_mem (port width rtt : Nat) (s : State) : Leads (·.mem = s.mem) (execLaneLoss port width rtt s) := by
  unfold execLaneLoss; dsimp only; split
  · exact (leads_next _ _).2 ((foldl_mem (fun _ _ => report_mem ..) _ _).trans (loupeUa_mem ..))
  · simp
theorem execLinkReplay_mem (port : Nat) (hold : Bool) (s : State) : Leads (·.mem = s.mem) (execLinkReplay port hold s) := by
  simp [execLinkReplay]
theorem execSkidSend_mem (port : Nat) (s : State) : Leads (·.mem = s.mem) (execSkidSend port s) := by
  unfold execSkidSend; dsimp only; split <;> simp
theorem execMessageLanding_mem (x : Msg) (s : State) : Leads (·.mem = s.mem) (execMessageLanding x s) := by simp [execMessageLanding]
theorem execCreditReturn_mem (t ch : Nat) (s : State) : Leads (·.mem = s.mem) (execCreditReturn t ch s) := by
  unfold execCreditReturn; split <;> simp
theorem execRemoteRequest_mem (x : RemoteReq) (s : State) : Leads (·.mem = s.mem) (execRemoteRequest x s) := by simp [execRemoteRequest]

/-! ### Commands -/

theorem execPcreate_mem (s : State) : Leads (·.mem = s.mem) (execPcreate s) := by
  unfold execPcreate; exact runCommand_mem (by simp)
theorem execPdestroy_mem (s : State) : Leads (·.mem = s.mem) (execPdestroy s) := by
  unfold execPdestroy; exact runCommand_mem (by simp)
theorem execColassign_mem (s : State) : Leads (·.mem = s.mem) (execColassign s) := by
  unfold execColassign; exact runCommand_mem (by simp)
theorem execDsmassign_mem (s : State) : Leads (·.mem = s.mem) (execDsmassign s) := by unfold execDsmassign; dsimp only; split <;> simp
theorem execPooladd_mem (s : State) : Leads (·.mem = s.mem) (execPooladd s) := by
  unfold execPooladd; exact runCommand_mem (by simp)
theorem execPoolrem_mem (s : State) : Leads (·.mem = s.mem) (execPoolrem s) := by
  unfold execPoolrem; exact runCommand_mem (by simp)
theorem execUashare_mem (s : State) : Leads (·.mem = s.mem) (execUashare s) := by
  unfold execUashare; exact runCommand_mem (by simp)
theorem execCredit_mem (s : State) : Leads (·.mem = s.mem) (execCredit s) := by
  unfold execCredit; exact runCommand_mem (by simp)
theorem execVreset_mem (s : State) : Leads (·.mem = s.mem) (execVreset s) := by simp [execVreset]
theorem execVdestroy_mem (s : State) : Leads (·.mem = s.mem) (execVdestroy s) := by
  unfold execVdestroy; exact runCommand_mem (by simp)
theorem execVfstatDegWrite_mem (v : Nat) (w : BitVec 64) (s : State) : Leads (·.mem = s.mem) (execVfstatDegWrite v w s) := by
  simp [execVfstatDegWrite]
theorem execKeyload_mem (s : State) : Leads (·.mem = s.mem) (execKeyload s) := by unfold execKeyload; dsimp only; split <;> simp
theorem execAttest_mem (s : State) : Leads (·.mem = s.mem) (execAttest s) := by unfold execAttest; dsimp only; split <;> simp
theorem execIdcert_mem (s : State) : Leads (·.mem = s.mem) (execIdcert s) := by
  unfold execIdcert; exact runCommand_mem (by simp)
theorem execFirmwareVerify_mem (image : List (BitVec 8)) (s : State) : Leads (·.mem = s.mem) (execFirmwareVerify image s) := by
  simp [execFirmwareVerify]
theorem execBinningComplete_mem (rows : List BinnedRow) (s : State) : Leads (·.mem = s.mem) (execBinningComplete rows s) := by
  simp [execBinningComplete]

/-! ### HostLink -/

theorem execHlpRrd_mem (x : Hlp) (s : State) : Leads (·.mem = s.mem) (execHlpRrd x s) := by simp [execHlpRrd]
@[simp] theorem writeDevice_mem (o : Nat) (w : Word) (s : State) : Writes (·.mem = s.mem) (writeDevice o w s) := by simp [writeDevice]
@[simp] theorem writeConfig_mem (o : Nat) (w : Word) (s : State) : Writes (·.mem = s.mem) (writeConfig o w s) := by simp [writeConfig]
@[simp] theorem writePower_mem (o : Nat) (w : Word) (s : State) : Writes (·.mem = s.mem) (writePower o w s) := by simp [writePower]
@[simp] theorem writeStack_mem (n o : Nat) (w : Word) (s : State) : Writes (·.mem = s.mem) (writeStack n o w s) := by simp [writeStack]
@[simp] theorem writePort_mem (p o : Nat) (w : Word) (s : State) : Writes (·.mem = s.mem) (writePort p o w s) := by simp [writePort]
@[simp] theorem writeLoupe_mem (o : Nat) (w : Word) (s : State) : Writes (·.mem = s.mem) (writeLoupe o w s) := by simp [writeLoupe]
@[simp] theorem writeSecurity_mem (o : Nat) (w : Word) (s : State) : Writes (·.mem = s.mem) (writeSecurity o w s) := by
  simp [writeSecurity]
@[simp] theorem writeVf_mem (v o : Nat) (w : Word) (s : State) : Writes (·.mem = s.mem) (writeVf v o w s) := by simp [writeVf]
@[simp] theorem writeWindow_mem (o : Nat) (w : Word) (s : State) : Writes (·.mem = s.mem) (writeWindow o w s) := by simp [writeWindow]
theorem execRegisterWrite_mem (x : Hlp) (s : State) : Leads (·.mem = s.mem) (execRegisterWrite x s) := by
  unfold execRegisterWrite
  simp only [leads_ite]
  refine ⟨fun _ => by simp, fun _ => ⟨fun _ => by simp, fun _ => ⟨fun _ => by simp, fun _ => ?_⟩⟩⟩
  have written := writeWindow_mem (windowOff x) (x.data.headD 0#64) s
  split
  · simp
  · next t h => simpa using written t h
theorem execScrubctlWrite_mem (n : Nat) (w : BitVec 64) (s : State) : Leads (·.mem = s.mem) (execScrubctlWrite n w s) := by
  simp [execScrubctlWrite]
theorem execHlpMrd_mem (x : Hlp) (s : State) : Leads (·.mem = s.mem) (execHlpMrd x s) := by simp [execHlpMrd]
theorem execHlpMwr_mem (x : Hlp) (s : State) : Leads (·.mem = s.mem) (execHlpMwr x s) := by simp [execHlpMwr]
theorem execHlpCpld_mem (x : Hlp) (s : State) : Leads (·.mem = s.mem) (execHlpCpld x s) := by unfold execHlpCpld; (repeat' split) <;> simp
theorem execHlpCpl_mem (x : Hlp) (s : State) : Leads (·.mem = s.mem) (execHlpCpl x s) := by unfold execHlpCpl; (repeat' split) <;> simp
theorem execHostReadTimeout_mem (tag : Nat) (s : State) : Leads (·.mem = s.mem) (execHostReadTimeout tag s) := by
  unfold execHostReadTimeout; split <;> simp
theorem execModuleDisabled_mem (m : Nat) (s : State) : Leads (·.mem = s.mem) (execModuleDisabled m s) := by simp [execModuleDisabled]

end Sys2Proof.Machine
end

section

/-! ## What writes memory keeps its canonical form

The functions that write memory do it through the operations whose laws stand in `Laws/Memory`; each keeps the canonical form. -/

namespace Sys2Proof.Machine

/-! ### Shared operations -/

/-- A fold whose every step keeps the canonical form keeps it. -/
theorem memoryOk_foldl {α : Type} {f : State → α → State} (hf : ∀ s x, memoryOk s → memoryOk (f s x)) (l : List α) {s : State}
    (h : memoryOk s) : memoryOk (l.foldl f s) := by
  induction l generalizing s with
  | nil => exact h
  | cons x l ih => exact ih (hf s x h)

theorem memoryOk_ite {c : Prop} [Decidable c] {s t : State} (hs : memoryOk s) (ht : memoryOk t) : memoryOk (if c then s else t) := by
  split
  · exact hs
  · exact ht

theorem memoryOk_worked (why : JobFor) {t s : State} (ht : memoryOk t) (hs : memoryOk s) : memoryOk (worked why t s) := by
  unfold worked; split
  · exact memoryOk_of_mem (keepAsked_mem ..) hs
  · exact memoryOk_of_mem (closeJobs_mem ..) ht

theorem memoryOk_attempt (why : JobFor) {f : State → State} {s : State} (hf : ∀ u, memoryOk u → memoryOk (f u)) (h : memoryOk s) :
    memoryOk (attempt why f s) := memoryOk_worked why (hf _ h) h

theorem memoryOk_askEntries (why : JobFor) (key : List Nat) (v : Nat) (es : List (Nat × Nat)) {s : State} (h : memoryOk s) :
    memoryOk (askEntries why key v es s).1 := memoryOk_of_mem (askEntries_mem ..) h

/-! ### Blocks -/

theorem memoryOk_copyBlock (n a b : Nat) {s : State} (h : memoryOk s) : memoryOk (copyBlock n a b s) := tabWf_setBytes _ _ h

/-! ### MemPort: entries and tables -/

theorem memoryOk_putEntry (n p : Nat) (e : BitVec 256) {s : State} (h : memoryOk s) : memoryOk (putEntry n p e s) :=
  memoryOk_physWrite _ _ _ h

theorem memoryOk_writeBt (v n p : Nat) (new : BitVec 256) {s : State} (h : memoryOk s) : memoryOk (writeBt v n p new s).1 := by
  unfold writeBt; dsimp only; split
  · exact memoryOk_of_mem (loupePort_mem ..) h
  · exact memoryOk_of_mem (invalidate_mem ..) (memoryOk_putEntry n p _ h)

theorem memoryOk_writeSs (v n p : Nat) (w0 : Bool) (new : BitVec 256) {s : State} (h : memoryOk s) :
    memoryOk (writeSs v n p w0 new s).1 := by
  have hdrop : memoryOk (loupePort n 7 p (getVf s.dev v).part s) := memoryOk_of_mem (loupePort_mem ..) h
  unfold writeSs
  extract_lets old e gfn drop moved t t1 t2
  have ht : memoryOk t := memoryOk_putEntry n p _ h
  have ht2 : t2.mem = t.mem := by simp [t2, t1]
  split
  · exact hdrop
  · split
    · exact hdrop
    · exact memoryOk_of_mem (by simp [ht2]) ht

theorem memoryOk_writeDir (v n p o w : Nat) {s : State} (h : memoryOk s) : memoryOk (writeDir v n p o w s) := by
  unfold writeDir; dsimp only
  split
  · split
    · exact h
    · split
      · exact memoryOk_physWrite n p _ h
      · split
        · exact memoryOk_physWrite n p _ (memoryOk_zeroRange _ _ _ (memoryOk_of_mem rfl h))
        · exact h
  · split
    · exact memoryOk_physWrite n p _ h
    · split
      · exact memoryOk_physWrite n p _ h
      · exact h

theorem memoryOk_writeTable (use : FrameUse) (v n p : Nat) (bs : List Byte) {s : State} (h : memoryOk s) :
    memoryOk (writeTable use v n p bs s) := by
  refine memoryOk_foldl (fun t u ht => ?_) _ h
  split
  · refine memoryOk_foldl (fun t i ht => ?_) _ ht
    exact memoryOk_ite (memoryOk_writeDir _ _ _ _ _ ht) ht
  · exact memoryOk_ite (memoryOk_writeBt _ _ _ _ ht) (memoryOk_writeSs _ _ _ _ _ ht)

theorem memoryOk_setDirty (v a : Nat) {s : State} (h : memoryOk s) : memoryOk (setDirty v a s) := memoryOk_putEntry _ _ _ h

/-! ### MemPort: requests -/

theorem memoryOk_tableWrite (r : Req) (fu : Frame) (n p : Nat) (bs : List Byte) (place : Word) {s : State} (h : memoryOk s) :
    memoryOk (tableWrite r fu n p bs place s).1 := by
  unfold tableWrite
  extract_lets q x
  have hx : memoryOk x.1 := by
    simp only [x]; split
    · exact memoryOk_of_mem (setUpsets_mem ..) h
    · exact memoryOk_readCode _ _ _ _ _ h
  split
  · exact memoryOk_writeTable _ _ _ _ _ hx
  · exact hx

theorem memoryOk_answer (id off : Nat) (bs : List Byte) (err : Option ReplyErr) {s : State} (h : memoryOk s) :
    memoryOk (answer id off bs err s) := memoryOk_of_mem (answer_mem ..) h
theorem memoryOk_fail (r : Req) (kind : Nat) {s : State} (h : memoryOk s) : memoryOk (fail r kind s) := memoryOk_of_mem (fail_mem ..) h
theorem memoryOk_finishReply (id : Nat) {s : State} (h : memoryOk s) : memoryOk (finishReply id s) :=
  memoryOk_of_mem (finishReply_mem ..) h
theorem memoryOk_dirtied (r : Req) {s : State} (h : memoryOk s) : memoryOk (match r.loc with
    | .ipa v a => setDirty v a s
    | _ => s) := by
  split
  · exact memoryOk_setDirty _ _ h
  · exact h

theorem memoryOk_performAt (r : Req) (n p : Nat) {s : State} (h : memoryOk s) : memoryOk (performAt r n p s) := by
  unfold performAt
  extract_lets part q key fu place s1 table
  have h1 : memoryOk s1 := memoryOk_of_mem (portAccess_mem ..) h
  have read := memoryOk_readBlock n q part key r.ba place h1
  split
  · exact h1
  · split
    · split
      · exact memoryOk_answer _ _ _ _ (memoryOk_of_mem (install_mem ..) read)
      · exact memoryOk_fail _ _ read
    · split
      · have written := memoryOk_tableWrite r fu n p r.data place h1
        exact memoryOk_ite (memoryOk_answer _ _ _ _ written) (memoryOk_fail _ _ written)
      · have written := memoryOk_writeBlock n q part key r.data r.ba place h1
        refine memoryOk_ite (memoryOk_answer _ _ _ _ (memoryOk_of_mem (cacheWrote_mem ..) ?_)) (memoryOk_fail _ _ written)
        exact memoryOk_dirtied r written
    · split
      · exact memoryOk_fail _ _ read
      · extract_lets old
        split
        · exact memoryOk_answer _ _ _ _ read
        · extract_lets t1 t2
          have ht : memoryOk t1 := memoryOk_ite (memoryOk_writeTable _ _ _ _ _ read) (memoryOk_writeBlock _ _ _ _ _ _ _ read)
          refine memoryOk_answer _ _ _ _ (memoryOk_of_mem (cacheWrote_mem ..) ?_)
          simp only [t2]; split
          · exact memoryOk_ite ht (memoryOk_setDirty _ _ ht)
          · exact ht

theorem memoryOk_lookup (r : Req) (n p : Nat) {s : State} (h : memoryOk s) : memoryOk (lookup r n p s) := by
  have read := memoryOk_readCode n p (reqPart s r) r.ba (reqPlace s r) (memoryOk_of_mem (portAccess_mem n p (reqPart s r) (reqVf r) s) h)
  unfold lookup; dsimp only; split
  · exact memoryOk_of_mem ((onDev_mem ..).trans (cacheEntry_mem ..)) read
  · exact memoryOk_finishReply _ (memoryOk_fail _ _ read)

theorem memoryOk_performData (r : Req) (n : Nat) {s : State} (h : memoryOk s) : memoryOk (performData r n s) := by
  unfold performData
  extract_lets t
  refine memoryOk_finishReply _ ?_
  split
  · exact memoryOk_fail _ _ h
  · exact memoryOk_performAt _ _ _ (memoryOk_of_mem (cacheEntry_mem ..) h)

theorem memoryOk_perform (r : Req) (n : Nat) {s : State} (h : memoryOk s) : memoryOk (perform r n s) := by
  unfold perform
  extract_lets t
  split
  · exact memoryOk_finishReply _ (memoryOk_fail _ _ h)
  · split
    · exact memoryOk_lookup _ _ _ h
    · exact memoryOk_performData _ _ h

theorem memoryOk_scrubBlock (n bank row b : Nat) (demote : Bool) {s : State} (h : memoryOk s) :
    memoryOk (scrubBlock n bank row b demote s) := by
  have read := memoryOk_readCode n (blockAddr bank row b) 63 0#64 0#64 h
  unfold scrubBlock; dsimp only; split
  · exact read
  · split
    · exact memoryOk_of_mem ((addScore_mem ..).trans ((loupePort_mem ..).trans (onStack_mem ..))) read
    · exact memoryOk_of_mem ((loupePort_mem ..).trans (onStack_mem ..)) read

/-! ### MemPort: splits (R129) -/

theorem memoryOk_splitFrame (v n g f : Nat) {s : State} (h : memoryOk s) : memoryOk (splitFrame v n g f s) :=
  memoryOk_putEntry _ _ _ h

theorem memoryOk_splitStep (v n g : Nat) (key : List Nat) (lost : Bool) {s : State} (h : memoryOk s) :
    memoryOk (splitStep v n g key lost s) := by
  unfold splitStep
  split
  · extract_lets e done
    have hdone : ∀ {t : State}, memoryOk t → memoryOk (done t) := fun ht => memoryOk_of_mem (dropJobs_mem ..) ht
    split
    · exact hdone (memoryOk_of_mem ((onVf_mem ..).trans (quarantine_mem ..)) h)
    · split
      · exact memoryOk_of_mem (splitNext_mem ..) (memoryOk_copyBlock _ _ _ h)
      · exact memoryOk_splitFrame _ _ _ _ (hdone h)
  · exact h

/-! ### Nodes: leases and pulls (R126 to R128) -/

theorem memoryOk_addLcnt (v i : Nat) (up : Bool) {s : State} (h : memoryOk s) : memoryOk (addLcnt v i up s) := memoryOk_putEntry _ _ _ h
theorem memoryOk_addLcount (f : LeaseFrame) (up : Bool) {s : State} (h : memoryOk s) : memoryOk (addLcount f up s) :=
  memoryOk_putEntry _ _ _ h

theorem memoryOk_beginLease (id : Nat) {s : State} (h : memoryOk s) : memoryOk (beginLease id s) := by
  unfold beginLease
  split
  · exact h
  · extract_lets is
    split
    · exact h
    · refine memoryOk_attempt _ (fun u hu => ?_) h
      extract_lets t
      have ht : memoryOk t := memoryOk_askEntries _ _ _ _ hu
      split
      · exact memoryOk_of_mem (leaseRefused_mem ..) ht
      · exact memoryOk_of_mem (onNode_mem ..) (memoryOk_foldl (fun _ _ hs => memoryOk_addLcnt _ _ _ hs) _ ht)

theorem memoryOk_raiseFrame (node n : Nat) (x : Node) (f : LeaseFrame) (lost : Bool) {s : State} (h : memoryOk s) :
    memoryOk (raiseFrame node n x f lost s) := by
  unfold raiseFrame
  split
  · exact memoryOk_of_mem (leaseRefused_mem ..) h
  · extract_lets loc t
    have ht : memoryOk t := memoryOk_of_mem (onNode_mem ..) (memoryOk_addLcount f true h)
    exact memoryOk_ite (memoryOk_of_mem (startPull_mem ..) ht) ht

theorem memoryOk_pullFails (id : Nat) (p : Pull) {s : State} (h : memoryOk s) : memoryOk (pullFails id p s) :=
  memoryOk_foldl (fun _ _ hs => memoryOk_of_mem (failLease_mem ..) hs) _ (memoryOk_zeroRange _ _ _ (memoryOk_of_mem (dropPull_mem ..) h))

theorem memoryOk_pullDone (id : Nat) (p : Pull) {s : State} (h : memoryOk s) : memoryOk (pullDone id p s) :=
  memoryOk_foldl (fun _ _ hs => memoryOk_of_mem (onNode_mem ..) hs) _
    (memoryOk_of_mem (dropPull_mem ..) (memoryOk_putEntry _ _ _ h))

theorem memoryOk_pullStep (id : Nat) (p : Pull) (r : Reply) {s : State} (h : memoryOk s) : memoryOk (pullStep id p r s) := by
  unfold pullStep
  split
  · exact memoryOk_pullFails _ _ h
  · split
    · exact h
    · exact memoryOk_pullDone _ _ h

theorem memoryOk_setterReply (id : Nat) (r : Reply) {s : State} (h : memoryOk s) : memoryOk (setterReply id r s) := by
  unfold setterReply
  split
  · exact memoryOk_pullStep _ _ _ h
  · exact memoryOk_splitStep _ _ _ _ _ h
  · exact memoryOk_of_mem (saveWritten_mem ..) h

/-! ### Cards (R129) -/

theorem memoryOk_onSs (f : LeaseFrame) (g : BitVec 256 → BitVec 256) {s : State} (h : memoryOk s) : memoryOk (onSs f g s) :=
  memoryOk_putEntry _ _ _ h

theorem memoryOk_beginDrain (node : Nat) (x : Node) {s : State} (h : memoryOk s) : memoryOk (beginDrain node x s) :=
  memoryOk_of_mem ((onDev_mem ..).trans (onNode_mem ..))
    (memoryOk_foldl (fun _ _ hs => memoryOk_onSs _ _ hs) _ (memoryOk_of_mem (drainEntries_mem ..) h))

theorem memoryOk_mergeFrame (f : LeaseFrame) {s : State} (h : memoryOk s) : memoryOk (mergeFrame s f) := by
  unfold mergeFrame
  extract_lets e t1 t2
  have ht : memoryOk t2 := memoryOk_of_mem (onDev_mem ..) (memoryOk_onSs _ _ h)
  exact memoryOk_ite (memoryOk_of_mem ((onVf_mem ..).trans (quarantine_mem ..)) ht) ht

theorem memoryOk_endDrain (node : Nat) (x : Node) {s : State} (h : memoryOk s) : memoryOk (endDrain node x s) :=
  memoryOk_foldl (fun _ _ hs => memoryOk_mergeFrame _ hs) _ (memoryOk_of_mem (drainEntries_mem ..) h)

theorem memoryOk_startCopyCard (node : Nat) (x : Node) {s : State} (h : memoryOk s) : memoryOk (startCopyCard node x s) := by
  unfold startCopyCard
  extract_lets s1 n
  have h1 : memoryOk s1 := memoryOk_ite (memoryOk_beginDrain _ _ h) h
  exact memoryOk_ite (memoryOk_of_mem (cardDone_mem ..) h1) (memoryOk_of_mem (cardSend_mem ..) h1)

theorem memoryOk_endCard (node : Nat) (x : Node) {s : State} (h : memoryOk s) : memoryOk (endCard node x s) := by
  unfold endCard
  extract_lets s1
  have h1 : memoryOk s1 := memoryOk_ite (memoryOk_endDrain _ _ h) (memoryOk_of_mem (collDelivered_mem ..) h)
  split
  · exact memoryOk_of_mem (endNode_mem ..) h1
  · split
    · exact memoryOk_of_mem (onCard_mem ..) h1
    · split
      · exact memoryOk_of_mem ((freeNode_mem ..).trans ((satisfy_mem ..).trans (report_mem ..))) h1
      · exact memoryOk_of_mem (endNode_mem ..) h1

/-! ### Custodian (R397 to R403) -/

/-- The state a custodian instruction leads to, where it is not refused, has canonical memory. -/
def VerdictOk (v : Verdict) : Prop := ∀ x, v = .ok x → memoryOk x.1

theorem memoryOk_unmapGfn (f : FrameSet) (g : Nat) {s : State} (h : memoryOk s) : memoryOk (unmapGfn f s g) :=
  memoryOk_writeSs _ _ _ _ _ h

theorem memoryOk_passSet {p : Nat} {f : FrameSet} {lost : List Nat} {s : State} (h : memoryOk s) {x : State × Nat × List Nat}
    (e : passSet p f lost s = .ok x) : memoryOk x.1 := by
  unfold passSet at e
  split at e
  · split at e
    · cases e
    · cases e; exact memoryOk_of_mem (foldl_mem (fun _ _ => scrubFrame_mem ..) _ _) h
  · split at e
    · cases e
    · split at e
      · cases e
      · split at e
        · cases e
        · cases e; exact memoryOk_foldl (fun _ _ hs => memoryOk_unmapGfn _ _ hs) _ h

theorem verdictOk_scrb (p : Nat) (a b : Word) (lost : List Nat) {s : State} (h : memoryOk s) : VerdictOk (scrb p a b lost s) := by
  intro x e
  unfold scrb at e
  split at e
  · cases e
  · next f _ =>
    cases hp : passSet p f lost s with
    | error c => rw [hp] at e; cases e
    | ok y => rw [hp] at e; cases e; exact memoryOk_passSet h hp

theorem memoryOk_frel {p : Nat} {a b : Word} {lost : List Nat} {s : State} (h : memoryOk s) {x : State × Nat × List (Nat × Nat)}
    (e : frel p a b lost s = .ok x) : memoryOk x.1 := by
  unfold frel at e
  split at e
  · cases e
  · next f _ =>
    split at e
    · split at e
      · cases e
      · cases e; exact h
    · cases hp : passSet p f lost s with
      | error c => rw [hp] at e; cases e
      | ok y => rw [hp] at e; cases e; exact memoryOk_passSet h hp

theorem verdictOk_kzero (p : Nat) (a : Word) (overtaken : Bool) {s : State} (h : memoryOk s) : VerdictOk (kzero p a overtaken s) := by
  intro x e
  unfold kzero at e; dsimp only at e
  split at e
  · cases e
  · split at e
    · cases e; exact h
    · split at e
      · cases e
      · split at e
        · cases e
        · split at e
          · cases e
          · cases e; exact memoryOk_of_mem (foldl_mem (fun _ _ => keyLost_mem ..) _ _) h

theorem verdictOk_scrq (p : Nat) (a b : Word) {s : State} (h : memoryOk s) : VerdictOk (scrq p a b s) := by
  intro x e
  unfold scrq at e
  split at e
  · cases e
  · split at e
    · cases e
    · split at e
      · cases e
      · cases e; exact h

theorem verdictOk_plwr (p : Nat) (a b : Word) {s : State} (h : memoryOk s) : VerdictOk (plwr p a b s) := by
  intro x e
  unfold plwr at e; dsimp only at e
  split at e
  · cases e
  · split at e
    · cases e
    · split at e
      · cases e
      · cases e; exact memoryOk_of_mem (onFrames_mem ..) h

theorem verdictOk_qwrt (p : Nat) (a b : Word) {s : State} (h : memoryOk s) : VerdictOk (qwrt p a b s) := by
  intro x e
  unfold qwrt at e; dsimp only at e
  split at e
  · cases e
  · split at e
    · cases e
    · split at e
      · cases e
      · cases e; exact memoryOk_of_mem (quotaCheck_mem ..) h

theorem memoryOk_custRefuse (id code item : Nat) {s : State} (h : memoryOk s) : memoryOk (custRefuse id code item s) :=
  memoryOk_of_mem (custRefuse_mem ..) h
theorem memoryOk_custReply (id : Nat) (w : Word) (errs : List ReplyErr) {s : State} (h : memoryOk s) : memoryOk (custReply id w errs s) :=
  memoryOk_of_mem (custReply_mem ..) h

theorem memoryOk_settleCust (id : Nat) {s : State} {v : Verdict} (h : memoryOk s) (hv : VerdictOk v) : memoryOk (settleCust id s v) := by
  unfold settleCust
  split
  · exact memoryOk_custReply _ _ _ (hv _ rfl)
  · exact memoryOk_custRefuse _ _ _ h

theorem memoryOk_btwrWrite (c : CustOp) (bs : List Byte) {s : State} (h : memoryOk s) : memoryOk (btwrWrite c bs s).1 := by
  unfold btwrWrite
  extract_lets v i r w
  have hr : memoryOk r.1 := memoryOk_askEntries _ _ _ _ h
  split
  · exact hr
  · exact memoryOk_writeBt _ _ _ _ hr

theorem memoryOk_performBtwr (c : CustOp) {s : State} (h : memoryOk s) : memoryOk (performBtwr c s) := by
  unfold performBtwr
  split
  · exact memoryOk_custRefuse _ _ _ h
  · exact memoryOk_of_mem ((onDev_mem ..).trans (readSource_mem c s)) h
  · split
    · exact h
    · split
      · exact memoryOk_custReply _ _ _ h
      · extract_lets r t
        have written : memoryOk t := memoryOk_of_mem (s := r.1) rfl (memoryOk_btwrWrite _ _ h)
        split
        · exact memoryOk_custReply _ _ _ written
        · exact memoryOk_custRefuse _ _ _ written

theorem memoryOk_performCust (c : CustOp) {s : State} (h : memoryOk s) : memoryOk (performCust c s) := by
  have asked := memoryOk_askEntries (.cust c.reply) [] c.vf (setEntries s (getVf s.dev c.vf).part c.a c.b) h
  unfold performCust
  extract_lets p r
  split_ifs
  · exact memoryOk_settleCust _ h (verdictOk_kzero _ _ _ h)
  · exact memoryOk_settleCust _ asked (verdictOk_scrb _ _ _ _ asked)
  · exact memoryOk_settleCust _ h (verdictOk_scrq _ _ _ h)
  · split
    · exact memoryOk_custRefuse _ _ _ asked
    · next x e => exact memoryOk_of_mem (frelWait_mem ..) (memoryOk_frel asked e)
  · exact memoryOk_settleCust _ h (verdictOk_plwr _ _ _ h)
  · exact memoryOk_performBtwr c h
  · exact memoryOk_settleCust _ h (verdictOk_qwrt _ _ _ h)

/-! ### Issue -/

theorem memoryOk_readFetched (l : Loc) (ba : Word) {s : State} (h : memoryOk s) : memoryOk (readFetched s l ba) := by
  unfold readFetched
  split
  · exact memoryOk_readCode _ _ _ _ _ h
  · exact h

/-- The definition is opened as a function and its check named at once: a comparison of two matches would make the kernel evaluate the
check of an address, which has no end.  `waittDone_cases` and `issueGroup_memoryOk` do the same. -/
theorem memoryOk_fetchCode {s : State} (h : memoryOk s) : memoryOk (fetchCode s) := by
  have body : fetchCode = fetchCode := rfl
  conv at body => rhs; delta fetchCode
  rw [body]
  beta_reduce
  generalize check s false false false true kFetch (bundleAddr s s.sq.pos.bundle) 16 = c
  cases c with
  | error x => exact h
  | ok e =>
    dsimp -zeta only
    extract_lets bs rs t
    exact memoryOk_of_mem (s := t) rfl (memoryOk_foldl (fun _ _ hs => memoryOk_readFetched _ _ hs) _ h)

/-! ### Engine -/

/-- The end of a WAITT changes its task or nothing. -/
theorem waittDone_cases (tid k : Nat) (s : State) : (∃ f, waittDone tid k s = onTask tid f s) ∨ waittDone tid k s = s := by
  have body : waittDone = waittDone := rfl
  conv at body => rhs; delta waittDone
  rw [body]
  beta_reduce
  generalize waittTarget s tid k = o
  cases o with
  | none => exact .inr rfl
  | some a =>
    dsimp only
    split
    · exact .inl ⟨_, rfl⟩
    · exact .inr rfl

theorem memoryOk_waittDone (tid k : Nat) {s : State} (h : memoryOk s) : memoryOk (waittDone tid k s) := by
  obtain ⟨f, e⟩ | e := waittDone_cases tid k s
  · rw [e]; exact memoryOk_of_mem (onTask_mem ..) h
  · rw [e]; exact h

/-! ### Place, Commands -/

theorem memoryOk_beginLeases (die : Nat) {s : State} (h : memoryOk s) : memoryOk (beginLeases die s) := by
  refine memoryOk_foldl (fun t id ht => ?_) _ h
  split
  · exact memoryOk_ite (memoryOk_beginLease _ ht) ht
  · exact ht

theorem memoryOk_endVreset (v : Nat) {s : State} (h : memoryOk s) : memoryOk (endVreset v s) := by
  unfold endVreset
  extract_lets s1 s2
  have h1 : memoryOk s1 := memoryOk_of_mem (dropJobs_mem ..) (memoryOk_foldl (fun _ _ hs => memoryOk_pullFails _ _ hs) _ h)
  have h2 : memoryOk s2 := memoryOk_of_mem ((onDev_mem ..).trans (releaseFrames_mem ..)) h1
  exact memoryOk_of_mem ((endCmd_mem ..).trans ((onVf_mem ..).trans (report_mem ..))) h2

theorem memoryOk_resetDevice {s : State} (h : memoryOk s) : memoryOk (resetDevice s) := by
  unfold resetDevice
  extract_lets t u
  have hu : memoryOk u := tabWf_filter _ h
  exact memoryOk_ite hu (memoryOk_of_mem (beginFetch_mem ..) hu)

end Sys2Proof.Machine
end

section

/-! ## The canonical form of memory over every instruction and step (O46) -/

namespace Sys2Proof.Machine

/-- An outcome that leaves memory alone keeps its canonical form. -/
theorem Leads.of_mem {s : State} {o : Host.Outcome State Fault Refusal} (h : Leads (·.mem = s.mem) o) (hs : memoryOk s) :
    Leads memoryOk o := fun t e => memoryOk_of_mem (h t e) hs

theorem leads_memoryOk {t : State} (h : memoryOk t) : Leads memoryOk (.next t) := (leads_next ..).2 h

/-! ### Events that write memory -/

theorem execCustodianResult_memoryOk (id : Nat) {s : State} (h : memoryOk s) : Leads memoryOk (execCustodianResult id s) := by
  unfold execCustodianResult
  split
  · exact leads_memoryOk h
  · split
    · exact leads_memoryOk h
    · refine leads_memoryOk (memoryOk_attempt _ (fun u hu => ?_) h)
      dsimp only; split
      · exact memoryOk_of_mem (frelWait_mem ..) hu
      · exact memoryOk_performCust _ hu

theorem execEndpointReply_memoryOk (id : Nat) {s : State} (h : memoryOk s) : Leads memoryOk (execEndpointReply id s) := by
  unfold execEndpointReply
  split
  · exact leads_memoryOk h
  · split
    · exact leads_memoryOk h
    · extract_lets t
      have ht : memoryOk t := h
      split
      · split
        · exact leads_memoryOk ht
        · split
          · exact leads_memoryOk ht
          · exact leads_memoryOk (memoryOk_of_mem ((onCopy_mem ..).trans ((onTask_mem ..).trans ((dropPlaces_mem ..).trans
              (sendWrites_mem ..)))) ht)
      · exact leads_memoryOk (memoryOk_of_mem (cardReply_mem ..) ht)
      · exact leads_memoryOk (memoryOk_setterReply _ _ ht)
      · exact leads_memoryOk ht

theorem execWaittRelease_memoryOk (tid k : Nat) {s : State} (h : memoryOk s) : Leads memoryOk (execWaittRelease tid k s) :=
  leads_memoryOk (memoryOk_waittDone _ _ h)

theorem execDsmBankClearDone_memoryOk {s : State} (h : memoryOk s) : Leads memoryOk (execDsmBankClearDone s) :=
  leads_memoryOk (memoryOk_of_mem ((endCmd_mem ..).trans ((wakeForbidden_mem ..).trans (onDev_mem ..))) (memoryOk_filter _ h))

theorem execVcreate_memoryOk {s : State} (h : memoryOk s) : Leads memoryOk (execVcreate s) := by
  unfold execVcreate
  refine leads_runCommand (fun n t ht => memoryOk_of_mem (endCmd_mem n t) ht) h ?_
  simp only [commands_need, commands_ok]
  intros
  exact memoryOk_of_mem (onVf_mem ..) (memoryOk_zeroRange _ _ _ (memoryOk_of_mem ((onFrames_mem ..).trans (onFrame_mem ..)) h))

theorem execVresetComplete_memoryOk (v : Nat) {s : State} (h : memoryOk s) : Leads memoryOk (execVresetComplete v s) := by
  unfold execVresetComplete
  split
  · exact leads_memoryOk h
  · split
    · exact leads_memoryOk (memoryOk_of_mem ((withdrawAll_mem ..).trans (onVf_mem ..)) h)
    · exact leads_memoryOk (memoryOk_of_mem ((releaseLate_mem ..).trans (onVf_mem ..)) h)
    · exact leads_memoryOk (memoryOk_endVreset _ h)

theorem execDeviceReset_memoryOk {s : State} (h : memoryOk s) : Leads memoryOk (execDeviceReset s) := by
  unfold execDeviceReset
  split
  · exact leads_memoryOk (memoryOk_resetDevice (memoryOk_of_mem (onHost_mem ..) h))
  · exact leads_memoryOk h

theorem execSidebandReset_memoryOk {s : State} (h : memoryOk s) : Leads memoryOk (execSidebandReset s) := by
  unfold execSidebandReset
  split
  · exact leads_memoryOk (memoryOk_resetDevice h)
  · exact leads_memoryOk h

theorem execPackagePowerOn_memoryOk (stk : BitVec 32) (mods : BitVec 4) (s : State) : Leads memoryOk (execPackagePowerOn stk mods s) :=
  leads_memoryOk (memoryOk_of_mem rfl memoryOk_reset)

theorem execPortAdmit_memoryOk (n : Nat) {s : State} (h : memoryOk s) : Leads memoryOk (execPortAdmit n s) := by
  unfold execPortAdmit
  extract_lets t
  have ht : memoryOk t := memoryOk_of_mem (foldl_mem (fun _ _ => meetSplit_mem ..) _ _) h
  split
  · exact leads_memoryOk (memoryOk_perform _ _ ht)
  · exact leads_memoryOk (memoryOk_of_mem (onStack_mem ..) ht)

theorem execDsmBankRequest_memoryOk (die bank : Nat) {s : State} (h : memoryOk s) : Leads memoryOk (execDsmBankRequest die bank s) := by
  unfold execDsmBankRequest
  split
  · exact leads_memoryOk h
  · split
    · exact leads_memoryOk (memoryOk_finishReply _ (memoryOk_fail _ _ h))
    · split
      · exact leads_memoryOk (memoryOk_of_mem (wakeKey_mem ..) h)
      · split
        · refine leads_memoryOk (memoryOk_finishReply _ (memoryOk_answer _ _ _ _ ?_))
          have ht (f : Dev → Dev) (rs : List Req) : memoryOk (onDev f { s with reqs := rs }) := memoryOk_of_mem (onDev_mem ..) h
          split
          · exact memoryOk_of_mem (cacheWrote_mem ..) (memoryOk_setBytes _ _ (ht ..))
          · exact memoryOk_ite (memoryOk_of_mem (install_mem ..) (ht ..)) (ht ..)
        · exact leads_memoryOk h

theorem execPatrolScrubStep_memoryOk (n : Nat) {s : State} (h : memoryOk s) : Leads memoryOk (execPatrolScrubStep n s) := by
  unfold execPatrolScrubStep; dsimp only
  split
  · exact leads_memoryOk h
  · exact leads_memoryOk (memoryOk_of_mem (onStack_mem ..) (memoryOk_scrubBlock _ _ _ _ _ h))

theorem execHotScrubStep_memoryOk (n row : Nat) {s : State} (h : memoryOk s) : Leads memoryOk (execHotScrubStep n row s) := by
  unfold execHotScrubStep
  split
  · exact leads_memoryOk h
  · exact leads_memoryOk (memoryOk_of_mem (onStack_mem ..) (memoryOk_foldl (fun _ _ hs => memoryOk_scrubBlock _ _ _ _ _ hs) _ h))

theorem execRetirementCopyDone_memoryOk (n frame : Nat) {s : State} (h : memoryOk s) :
    Leads memoryOk (execRetirementCopyDone n frame s) := by
  unfold execRetirementCopyDone
  split
  · exact leads_memoryOk h
  · exact leads_memoryOk (memoryOk_of_mem ((loupePort_mem ..).trans ((onStack_mem ..).trans (onDev_mem ..))) (memoryOk_copyFrame _ _ _ h))

theorem execPolisherClearBlock_memoryOk (n : Nat) {s : State} (h : memoryOk s) : Leads memoryOk (execPolisherClearBlock n s) := by
  unfold execPolisherClearBlock; extract_lets k
  split
  · split
    · exact leads_memoryOk h
    · exact leads_memoryOk (memoryOk_of_mem ((loupePolisher_mem ..).trans (onStack_mem ..)) h)
  · have ht (f : Stack → Stack) (a len : Nat) : memoryOk (onStack n f (zeroRange n a len s)) :=
      memoryOk_of_mem (onStack_mem ..) (memoryOk_zeroRange _ _ _ h)
    exact leads_memoryOk (memoryOk_ite (memoryOk_of_mem (frameCleared_mem ..) (ht ..)) (ht ..))

theorem execInvalidationDone_memoryOk (id : Nat) {s : State} (h : memoryOk s) : Leads memoryOk (execInvalidationDone id s) := by
  unfold execInvalidationDone
  split
  · exact leads_memoryOk h
  · split
    · exact leads_memoryOk h
    · extract_lets bit t
      have ht : memoryOk t := memoryOk_of_mem (onDev_mem ..) h
      exact leads_memoryOk (memoryOk_ite ht (memoryOk_putEntry _ _ _ ht))

theorem execLeaseIncrement_memoryOk (node n : Nat) {s : State} (h : memoryOk s) : Leads memoryOk (execLeaseIncrement node n s) := by
  unfold execLeaseIncrement
  split
  · exact leads_memoryOk h
  · split
    · exact leads_memoryOk h
    · split
      · exact leads_memoryOk h
      · split
        · exact leads_memoryOk (memoryOk_of_mem (leaseRefused_mem ..) h)
        · split
          · exact leads_memoryOk h
          · refine leads_memoryOk (memoryOk_attempt _ (fun u hu => ?_) h)
            extract_lets r
            have asked : memoryOk r.1 := memoryOk_askEntries _ _ _ _ hu
            exact memoryOk_ite asked (memoryOk_raiseFrame _ _ _ _ _ asked)

theorem execLeaseRelease_memoryOk (node n : Nat) {s : State} (h : memoryOk s) : Leads memoryOk (execLeaseRelease node n s) := by
  unfold execLeaseRelease
  split
  · exact leads_memoryOk h
  · refine leads_memoryOk (memoryOk_attempt _ (fun u hu => ?_) h)
    split
    · exact memoryOk_of_mem (onDev_mem ..) hu
    · extract_lets e
      have asked : memoryOk e.1 := memoryOk_askEntries _ _ _ _ hu
      refine memoryOk_of_mem (onDev_mem ..) (memoryOk_ite asked ?_)
      split
      · exact memoryOk_addLcnt _ _ _ asked
      · exact memoryOk_addLcount _ _ asked

theorem execPullReadReply_memoryOk (id : Nat) (ok : Bool) (data : List Byte) {s : State} (h : memoryOk s) :
    Leads memoryOk (execPullReadReply id ok data s) := by
  unfold execPullReadReply
  split
  · exact leads_memoryOk h
  · split
    · exact leads_memoryOk (memoryOk_pullFails _ _ h)
    · split
      · exact leads_memoryOk h
      · dsimp only
        split
        · exact leads_memoryOk h
        · exact leads_memoryOk (memoryOk_of_mem (s := s) (sendPull_mem ..) h)

theorem execPullTimeout_memoryOk (id : Nat) {s : State} (h : memoryOk s) : Leads memoryOk (execPullTimeout id s) := by
  unfold execPullTimeout
  split
  · exact leads_memoryOk h
  · split
    · exact leads_memoryOk (memoryOk_pullFails _ _ h)
    · exact leads_memoryOk h

theorem execSelectionRound_memoryOk (die : Nat) {s : State} (h : memoryOk s) : Leads memoryOk (execSelectionRound die s) :=
  leads_memoryOk (memoryOk_of_mem ((stampLevels_mem ..).trans ((serveLevels_mem ..).trans (prepareNodes_mem ..)))
    (memoryOk_beginLeases _ h))

theorem execJobCardStart_memoryOk (node : Nat) {s : State} (h : memoryOk s) : Leads memoryOk (execJobCardStart node s) := by
  unfold execJobCardStart
  split
  · exact leads_memoryOk h
  · split
    · exact leads_memoryOk h
    · split
      · exact leads_memoryOk (memoryOk_of_mem (cardDone_mem ..) h)
      · split
        · exact leads_memoryOk (memoryOk_of_mem (joinColl_mem ..) h)
        · exact leads_memoryOk (memoryOk_attempt _ (fun _ hu => memoryOk_startCopyCard _ _ hu) h)

theorem execJobCardComplete_memoryOk (node : Nat) {s : State} (h : memoryOk s) : Leads memoryOk (execJobCardComplete node s) := by
  unfold execJobCardComplete
  split
  · exact leads_memoryOk h
  · split
    · exact leads_memoryOk h
    · exact leads_memoryOk (memoryOk_attempt _ (fun _ hu => memoryOk_endCard _ _ hu) h)

/-! ### Every event, every instruction -/

theorem runEv_memoryOk (e : Ev) {s : State} (h : memoryOk s) : Leads memoryOk (runEv e s) :=
  match e with
  | .custodianResult .. => execCustodianResult_memoryOk _ h
  | .matrixCheck .. => (execMatrixCheck_mem _ _ _ _ _ _ _ _).of_mem h
  | .copyComplete .. => (execCopyComplete_mem _ _).of_mem h
  | .resultLanding .. => (execResultLanding_mem _ _).of_mem h
  | .endpointReply .. => execEndpointReply_memoryOk _ h
  | .phaseComplete .. => (execPhaseComplete_mem _ _).of_mem h
  | .barComplete .. => (execBarComplete_mem _ _).of_mem h
  | .waittRelease .. => execWaittRelease_memoryOk _ _ h
  | .bankCleared .. => (execBankCleared_mem _ _ _ _).of_mem h
  | .stallTimeout .. => (execStallTimeout_mem _ _).of_mem h
  | .safeBoundOverrun .. => (execSafeBoundOverrun_mem _ _).of_mem h
  | .hlpRrd .. => (execHlpRrd_mem _ _).of_mem h
  | .registerWrite .. => (execRegisterWrite_mem _ _).of_mem h
  | .hlpMrd .. => (execHlpMrd_mem _ _).of_mem h
  | .hlpMwr .. => (execHlpMwr_mem _ _).of_mem h
  | .hlpCpld .. => (execHlpCpld_mem _ _).of_mem h
  | .hlpCpl .. => (execHlpCpl_mem _ _).of_mem h
  | .hostReadTimeout .. => (execHostReadTimeout_mem _ _).of_mem h
  | .moduleDisabled .. => (execModuleDisabled_mem _ _).of_mem h
  | .pcreate .. => (execPcreate_mem _).of_mem h
  | .pdestroy .. => (execPdestroy_mem _).of_mem h
  | .colassign .. => (execColassign_mem _).of_mem h
  | .dsmassign .. => (execDsmassign_mem _).of_mem h
  | .dsmBankClearDone .. => execDsmBankClearDone_memoryOk h
  | .pooladd .. => (execPooladd_mem _).of_mem h
  | .poolrem .. => (execPoolrem_mem _).of_mem h
  | .uashare .. => (execUashare_mem _).of_mem h
  | .vcreate .. => execVcreate_memoryOk h
  | .vreset .. => (execVreset_mem _).of_mem h
  | .vresetComplete .. => execVresetComplete_memoryOk _ h
  | .vdestroy .. => (execVdestroy_mem _).of_mem h
  | .credit .. => (execCredit_mem _).of_mem h
  | .keyload .. => (execKeyload_mem _).of_mem h
  | .attest .. => (execAttest_mem _).of_mem h
  | .idcert .. => (execIdcert_mem _).of_mem h
  | .deviceReset .. => execDeviceReset_memoryOk h
  | .sidebandReset .. => execSidebandReset_memoryOk h
  | .firmwareVerify .. => (execFirmwareVerify_mem _ _).of_mem h
  | .packagePowerOn .. => execPackagePowerOn_memoryOk _ _ s
  | .binningComplete .. => (execBinningComplete_mem _ _).of_mem h
  | .plimWrite .. => (execPlimWrite_mem _ _).of_mem h
  | .ltolWrite .. => (execLtolWrite_mem _ _ _).of_mem h
  | .scrubctlWrite .. => (execScrubctlWrite_mem _ _ _).of_mem h
  | .uarctxWrite .. => (execUarctxWrite_mem _ _ _ _).of_mem h
  | .gtcincWrite .. => (execGtcincWrite_mem _ _).of_mem h
  | .gtcadjWrite .. => (execGtcadjWrite_mem _ _).of_mem h
  | .gtcsetWrite .. => (execGtcsetWrite_mem _ _).of_mem h
  | .gtcSlewDone .. => (execGtcSlewDone_mem _).of_mem h
  | .gtcHoldover .. => (execGtcHoldover_mem _).of_mem h
  | .loupeArm .. => (execLoupeArm_mem _ _).of_mem h
  | .tampctlWrite .. => (execTampctlWrite_mem _ _).of_mem h
  | .vfstatDegWrite .. => (execVfstatDegWrite_mem _ _ _).of_mem h
  | .gsub .. => (execGsub_mem _ _ _).of_mem h
  | .gcan .. => (execGcan_mem _ _ _).of_mem h
  | .eqctlWrite .. => (execEqctlWrite_mem _ _ _).of_mem h
  | .eqheadWrite .. => (execEqheadWrite_mem _ _ _).of_mem h
  | .eventRecordWrite .. => (execEventRecordWrite_mem _ _).of_mem h
  | .eqInterruptTimer .. => (execEqInterruptTimer_mem _ _).of_mem h
  | .arbiterEpoch .. => (execArbiterEpoch_mem _).of_mem h
  | .fastLimiter .. => (execFastLimiter_mem _ _).of_mem h
  | .sensorUpdate .. => (execSensorUpdate_mem _ _ _).of_mem h
  | .supplyExcursion .. => (execSupplyExcursion_mem _).of_mem h
  | .meshBreak .. => (execMeshBreak_mem _).of_mem h
  | .powerStateEntry .. => (execPowerStateEntry_mem _ _).of_mem h
  | .wakeComplete .. => (execWakeComplete_mem _ _).of_mem h
  | .portAdmit .. => execPortAdmit_memoryOk _ h
  | .rowRefresh .. => (execRowRefresh_mem _ _ _ _).of_mem h
  | .activationWindow .. => (execActivationWindow_mem _).of_mem h
  | .patrolScrubStep .. => execPatrolScrubStep_memoryOk _ h
  | .hotScrubStep .. => execHotScrubStep_memoryOk _ _ h
  | .patrolPeriodEnd .. => (execPatrolPeriodEnd_mem _ _).of_mem h
  | .retirementCopyDone .. => execRetirementCopyDone_memoryOk _ _ h
  | .leaseIncrement .. => execLeaseIncrement_memoryOk _ _ h
  | .leaseReply .. => (execLeaseReply_mem _ _ _).of_mem h
  | .leaseRelease .. => execLeaseRelease_memoryOk _ _ h
  | .pullReadReply .. => execPullReadReply_memoryOk _ _ _ h
  | .pullTimeout .. => execPullTimeout_memoryOk _ h
  | .remoteRequest .. => (execRemoteRequest_mem _ _).of_mem h
  | .invalidationDone .. => execInvalidationDone_memoryOk _ h
  | .invalidationTimeout .. => (execInvalidationTimeout_mem _ _).of_mem h
  | .polisherClearBlock .. => execPolisherClearBlock_memoryOk _ h
  | .linkTraining .. => (execLinkTraining_mem _ _ _ _).of_mem h
  | .laneLoss .. => (execLaneLoss_mem _ _ _ _).of_mem h
  | .linkReplay .. => (execLinkReplay_mem _ _ _).of_mem h
  | .skidSend .. => (execSkidSend_mem _ _).of_mem h
  | .messageLanding .. => (execMessageLanding_mem _ _).of_mem h
  | .creditReturn .. => (execCreditReturn_mem _ _ _).of_mem h
  | .collectiveStart .. => (execCollectiveStart_mem _ _).of_mem h
  | .reductionContribution .. => (execReductionContribution_mem _ _ _ _ _ _).of_mem h
  | .collectiveComplete .. => (execCollectiveComplete_mem _ _).of_mem h
  | .graphParse .. => (execGraphParse_mem _ _).of_mem h
  | .selectionRound .. => execSelectionRound_memoryOk _ h
  | .gangToken .. => (execGangToken_mem _).of_mem h
  | .priorityPreemption .. => (execPriorityPreemption_mem _ _).of_mem h
  | .dispatch .. => (execDispatch_mem _ _).of_mem h
  | .saveComplete .. => (execSaveComplete_mem _ _).of_mem h
  | .contextRestore .. => (execContextRestore_mem _ _).of_mem h
  | .phaseRestart .. => (execPhaseRestart_mem _ _).of_mem h
  | .nodeRetire .. => (execNodeRetire_mem _ _).of_mem h
  | .jobCardStart .. => execJobCardStart_memoryOk _ h
  | .jobCardComplete .. => execJobCardComplete_memoryOk _ h
  | .caratFlush .. => (execCaratFlush_mem _).of_mem h
  | .preemptionRequestArrival .. => (execPreemptionRequestArrival_mem _ _ _).of_mem h
  | .dsmBankRequest .. => execDsmBankRequest_memoryOk _ _ h
  | .rangeRegisterFill .. => (execRangeRegisterFill_mem _ _ _).of_mem h

theorem Ends.quiet {s : State} {o : Host.Outcome State Fault Refusal} (h : Ends Steady s o) : Ends Quiet s o := by
  obtain ⟨t, e, h | h⟩ := h
  · exact ⟨t, e, .inl h.toQuiet⟩
  · exact ⟨t, e, .inr h⟩

/-- Everything an instruction can do: a slot operation keeps what `Quiet` says or traps, every other row is an event. -/
theorem exec_cases (i : Instr) (s : State) : Ends Quiet s (exec i s) ∨ ∃ e, exec i s = runEv e s :=
  match i with
  | .nop .. => .inl (ends_nop ..).quiet
  | .illegal .. => .inl (ends_illegal ..).quiet
  | .add .. => .inl (ends_add ..).quiet
  | .sub .. => .inl (ends_sub ..).quiet
  | .addi .. => .inl (ends_addi ..).quiet
  | .lih .. => .inl (ends_lih ..).quiet
  | .mul .. => .inl (ends_mul ..).quiet
  | .mulh .. => .inl (ends_mulh ..).quiet
  | .mulhn .. => .inl (ends_mulhn ..).quiet
  | .div .. => .inl (ends_div ..).quiet
  | .divn .. => .inl (ends_divn ..).quiet
  | .rem .. => .inl (ends_rem ..).quiet
  | .remn .. => .inl (ends_remn ..).quiet
  | .andS .. => .inl (ends_andS ..).quiet
  | .orS .. => .inl (ends_orS ..).quiet
  | .xorS .. => .inl (ends_xorS ..).quiet
  | .andi .. => .inl (ends_andi ..).quiet
  | .ori .. => .inl (ends_ori ..).quiet
  | .xori .. => .inl (ends_xori ..).quiet
  | .shl .. => .inl (ends_shl ..).quiet
  | .shr .. => .inl (ends_shr ..).quiet
  | .shra .. => .inl (ends_shra ..).quiet
  | .shli .. => .inl (ends_shli ..).quiet
  | .shri .. => .inl (ends_shri ..).quiet
  | .shrai .. => .inl (ends_shrai ..).quiet
  | .rotr .. => .inl (ends_rotr ..).quiet
  | .clz .. => .inl (ends_clz ..).quiet
  | .popc .. => .inl (ends_popc ..).quiet
  | .minS .. => .inl (ends_minS ..).quiet
  | .maxS .. => .inl (ends_maxS ..).quiet
  | .minn .. => .inl (ends_minn ..).quiet
  | .maxn .. => .inl (ends_maxn ..).quiet
  | .sel .. => .inl (ends_sel ..).quiet
  | .ceq .. => .inl (ends_ceq ..).quiet
  | .cne .. => .inl (ends_cne ..).quiet
  | .clt .. => .inl (ends_clt ..).quiet
  | .cle .. => .inl (ends_cle ..).quiet
  | .cltn .. => .inl (ends_cltn ..).quiet
  | .clen .. => .inl (ends_clen ..).quiet
  | .ceqi .. => .inl (ends_ceqi ..).quiet
  | .clti .. => .inl (ends_clti ..).quiet
  | .badr .. => .inl (ends_badr ..).quiet
  | .boff .. => .inl (ends_boff ..).quiet
  | .ldb .. => .inl (ends_ldb ..).quiet
  | .ldh .. => .inl (ends_ldh ..).quiet
  | .ldw .. => .inl (ends_ldw ..).quiet
  | .ldd .. => .inl (ends_ldd ..).quiet
  | .stb .. => .inl (ends_stb ..).quiet
  | .sth .. => .inl (ends_sth ..).quiet
  | .stw .. => .inl (ends_stw ..).quiet
  | .std .. => .inl (ends_std ..).quiet
  | .ldl .. => .inl (ends_ldl ..).quiet
  | .stl .. => .inl (ends_stl ..).quiet
  | .aadd .. => .inl (ends_aadd ..).quiet
  | .amin .. => .inl (ends_amin ..).quiet
  | .amax .. => .inl (ends_amax ..).quiet
  | .aor .. => .inl (ends_aor ..).quiet
  | .axch .. => .inl (ends_axch ..).quiet
  | .acas .. => .inl (ends_acas ..).quiet
  | .qmov .. => .inl (ends_qmov ..).quiet
  | .movq .. => .inl (ends_movq ..).quiet
  | .qlog .. => .inl (ends_qlog ..).quiet
  | .pbr .. => .inl (ends_pbr ..)
  | .pbrr .. => .inl (ends_pbrr ..)
  | .br .. => .inl (ends_br ..)
  | .brc .. => .inl (ends_brc ..)
  | .call .. => .inl (ends_call ..)
  | .ret .. => .inl (ends_ret ..)
  | .loop .. => .inl (ends_loop ..)
  | .loopi .. => .inl (ends_loopi ..)
  | .lstr .. => .inl (ends_lstr ..)
  | .lidx .. => .inl (ends_lidx ..).quiet
  | .lbrk .. => .inl (ends_lbrk ..)
  | .spawn .. => .inl (ends_spawn ..)
  | .joinK .. => .inl (ends_joinK ..)
  | .safe .. => .inl (ends_safe ..)
  | .halt .. => .inl (ends_halt ..)
  | .trap .. => .inl (ends_trap ..)
  | .vany .. => .inl (ends_vany ..).quiet
  | .vall .. => .inl (ends_vall ..).quiet
  | .waitt .. => .inl (ends_waitt ..)
  | .waitl .. => .inl (ends_waitl ..)
  | .psel .. => .inl (ends_psel ..)
  | .brk .. => .inl (ends_brk ..)
  | .tret .. => .inl (ends_tret ..)
  | .phase .. => .inl (ends_phase ..).quiet
  | .bar .. => .inl (ends_bar ..).quiet
  | .send .. => .inl (ends_send ..).quiet
  | .recv .. => .inl (ends_recv ..).quiet
  | .sends .. => .inl (ends_sends ..).quiet
  | .recvs .. => .inl (ends_recvs ..).quiet
  | .bacq .. => .inl (ends_bacq ..).quiet
  | .brel .. => .inl (ends_brel ..).quiet
  | .precW .. => .inl (ends_precW ..).quiet
  | .preci .. => .inl (ends_preci ..).quiet
  | .shape .. => .inl (ends_shape ..).quiet
  | .shapq .. => .inl (ends_shapq ..).quiet
  | .view .. => .inl (ends_view ..).quiet
  | .viewq .. => .inl (ends_viewq ..).quiet
  | .getc .. => .inl (ends_getc ..).quiet
  | .setc .. => .inl (ends_setc ..).quiet
  | .stat .. => .inl (ends_stat ..).quiet
  | .engy .. => .inl (ends_engy ..).quiet
  | .gtc .. => .inl (ends_gtc ..).quiet
  | .lcr .. => .inl (ends_lcr ..).quiet
  | .fence .. => .inl (ends_fence ..).quiet
  | .invq .. => .inl (ends_invq ..).quiet
  | .svcYield .. => .inl (ends_svcYield ..).quiet
  | .svcFlush .. => .inl (ends_svcFlush ..).quiet
  | .cdsc .. => .inl (ends_cdsc ..).quiet
  | .kzero .. => .inl (ends_kzero ..).quiet
  | .scrb .. => .inl (ends_scrb ..).quiet
  | .scrq .. => .inl (ends_scrq ..).quiet
  | .frel .. => .inl (ends_frel ..).quiet
  | .plwr .. => .inl (ends_plwr ..).quiet
  | .btwr .. => .inl (ends_btwr ..).quiet
  | .qwrt .. => .inl (ends_qwrt ..).quiet
  | .custodianResult id => .inr ⟨.custodianResult id, rfl⟩
  | .mma .. => .inl (ends_mma ..).quiet
  | .mmaz .. => .inl (ends_mmaz ..).quiet
  | .mdrn .. => .inl (ends_mdrn ..).quiet
  | .mclr .. => .inl (ends_mclr ..).quiet
  | .mscl .. => .inl (ends_mscl ..).quiet
  | .mvcn .. => .inl (ends_mvcn ..).quiet
  | .msta .. => .inl (ends_msta ..).quiet
  | .mmat .. => .inl (ends_mmat ..).quiet
  | .matrixCheck t k block main check row col => .inr ⟨.matrixCheck t k block main check row col, rfl⟩
  | .cpl .. => .inl (ends_cpl ..).quiet
  | .cpi .. => .inl (ends_cpi ..).quiet
  | .cpo .. => .inl (ends_cpo ..).quiet
  | .cpdi .. => .inl (ends_cpdi ..).quiet
  | .cpdo .. => .inl (ends_cpdo ..).quiet
  | .cps .. => .inl (ends_cps ..).quiet
  | .cpg .. => .inl (ends_cpg ..).quiet
  | .cpst .. => .inl (ends_cpst ..).quiet
  | .cpb .. => .inl (ends_cpb ..).quiet
  | .cpr .. => .inl (ends_cpr ..).quiet
  | .copyComplete id => .inr ⟨.copyComplete id, rfl⟩
  | .vaddVa .. => .inl (ends_vaddVa ..).quiet
  | .vaddVb .. => .inl (ends_vaddVb ..).quiet
  | .vsubVa .. => .inl (ends_vsubVa ..).quiet
  | .vsubVb .. => .inl (ends_vsubVb ..).quiet
  | .vmulVa .. => .inl (ends_vmulVa ..).quiet
  | .vmulVb .. => .inl (ends_vmulVb ..).quiet
  | .vfmaVa .. => .inl (ends_vfmaVa ..).quiet
  | .vfmaVb .. => .inl (ends_vfmaVb ..).quiet
  | .vfmsVa .. => .inl (ends_vfmsVa ..).quiet
  | .vfmsVb .. => .inl (ends_vfmsVb ..).quiet
  | .vfnmaVa .. => .inl (ends_vfnmaVa ..).quiet
  | .vfnmaVb .. => .inl (ends_vfnmaVb ..).quiet
  | .vminVa .. => .inl (ends_vminVa ..).quiet
  | .vminVb .. => .inl (ends_vminVb ..).quiet
  | .vmaxVa .. => .inl (ends_vmaxVa ..).quiet
  | .vmaxVb .. => .inl (ends_vmaxVb ..).quiet
  | .vabsVa .. => .inl (ends_vabsVa ..).quiet
  | .vabsVb .. => .inl (ends_vabsVb ..).quiet
  | .vnegVa .. => .inl (ends_vnegVa ..).quiet
  | .vnegVb .. => .inl (ends_vnegVb ..).quiet
  | .vrcpeVa .. => .inl (ends_vrcpeVa ..).quiet
  | .vrcpeVb .. => .inl (ends_vrcpeVb ..).quiet
  | .vrsqeVa .. => .inl (ends_vrsqeVa ..).quiet
  | .vrsqeVb .. => .inl (ends_vrsqeVb ..).quiet
  | .vdiv .. => .inl (ends_vdiv ..).quiet
  | .vsqrt .. => .inl (ends_vsqrt ..).quiet
  | .vexp2 .. => .inl (ends_vexp2 ..).quiet
  | .vlog2 .. => .inl (ends_vlog2 ..).quiet
  | .viaddVa .. => .inl (ends_viaddVa ..).quiet
  | .viaddVb .. => .inl (ends_viaddVb ..).quiet
  | .visubVa .. => .inl (ends_visubVa ..).quiet
  | .visubVb .. => .inl (ends_visubVb ..).quiet
  | .vimulVa .. => .inl (ends_vimulVa ..).quiet
  | .vimulVb .. => .inl (ends_vimulVb ..).quiet
  | .vimacVa .. => .inl (ends_vimacVa ..).quiet
  | .vimacVb .. => .inl (ends_vimacVb ..).quiet
  | .vandVa .. => .inl (ends_vandVa ..).quiet
  | .vandVb .. => .inl (ends_vandVb ..).quiet
  | .vorVa .. => .inl (ends_vorVa ..).quiet
  | .vorVb .. => .inl (ends_vorVb ..).quiet
  | .vxorVa .. => .inl (ends_vxorVa ..).quiet
  | .vxorVb .. => .inl (ends_vxorVb ..).quiet
  | .vshlVa .. => .inl (ends_vshlVa ..).quiet
  | .vshlVb .. => .inl (ends_vshlVb ..).quiet
  | .vshrVa .. => .inl (ends_vshrVa ..).quiet
  | .vshrVb .. => .inl (ends_vshrVb ..).quiet
  | .vshraVa .. => .inl (ends_vshraVa ..).quiet
  | .vshraVb .. => .inl (ends_vshraVb ..).quiet
  | .vfceqVa .. => .inl (ends_vfceqVa ..).quiet
  | .vfceqVb .. => .inl (ends_vfceqVb ..).quiet
  | .vfcltVa .. => .inl (ends_vfcltVa ..).quiet
  | .vfcltVb .. => .inl (ends_vfcltVb ..).quiet
  | .vfcleVa .. => .inl (ends_vfcleVa ..).quiet
  | .vfcleVb .. => .inl (ends_vfcleVb ..).quiet
  | .viceqVa .. => .inl (ends_viceqVa ..).quiet
  | .viceqVb .. => .inl (ends_viceqVb ..).quiet
  | .vicltVa .. => .inl (ends_vicltVa ..).quiet
  | .vicltVb .. => .inl (ends_vicltVb ..).quiet
  | .vicleVa .. => .inl (ends_vicleVa ..).quiet
  | .vicleVb .. => .inl (ends_vicleVb ..).quiet
  | .vselVa .. => .inl (ends_vselVa ..).quiet
  | .vselVb .. => .inl (ends_vselVb ..).quiet
  | .vmovVa .. => .inl (ends_vmovVa ..).quiet
  | .vmovVb .. => .inl (ends_vmovVb ..).quiet
  | .vbcstVa .. => .inl (ends_vbcstVa ..).quiet
  | .vbcstVb .. => .inl (ends_vbcstVb ..).quiet
  | .vlaneVa .. => .inl (ends_vlaneVa ..).quiet
  | .vlaneVb .. => .inl (ends_vlaneVb ..).quiet
  | .vextVa .. => .inl (ends_vextVa ..).quiet
  | .vextVb .. => .inl (ends_vextVb ..).quiet
  | .vcvtVa .. => .inl (ends_vcvtVa ..).quiet
  | .vcvtVb .. => .inl (ends_vcvtVb ..).quiet
  | .vpackVa .. => .inl (ends_vpackVa ..).quiet
  | .vpackVb .. => .inl (ends_vpackVb ..).quiet
  | .vunpkVa .. => .inl (ends_vunpkVa ..).quiet
  | .vunpkVb .. => .inl (ends_vunpkVb ..).quiet
  | .vperm .. => .inl (ends_vperm ..).quiet
  | .vrotlVa .. => .inl (ends_vrotlVa ..).quiet
  | .vrotlVb .. => .inl (ends_vrotlVb ..).quiet
  | .vrsum .. => .inl (ends_vrsum ..).quiet
  | .vrmax .. => .inl (ends_vrmax ..).quiet
  | .vldxVa .. => .inl (ends_vldxVa ..).quiet
  | .vldxVb .. => .inl (ends_vldxVb ..).quiet
  | .vstxVa .. => .inl (ends_vstxVa ..).quiet
  | .vstxVb .. => .inl (ends_vstxVb ..).quiet
  | .vtrdVa .. => .inl (ends_vtrdVa ..).quiet
  | .vtrdVb .. => .inl (ends_vtrdVb ..).quiet
  | .vtcd .. => .inl (ends_vtcd ..).quiet
  | .vtrwVa .. => .inl (ends_vtrwVa ..).quiet
  | .vtrwVb .. => .inl (ends_vtrwVb ..).quiet
  | .vtcw .. => .inl (ends_vtcw ..).quiet
  | .vmskVa .. => .inl (ends_vmskVa ..).quiet
  | .vmskVb .. => .inl (ends_vmskVb ..).quiet
  | .viotaVa .. => .inl (ends_viotaVa ..).quiet
  | .viotaVb .. => .inl (ends_viotaVb ..).quiet
  | .resultLanding t => .inr ⟨.resultLanding t, rfl⟩
  | .endpointReply id => .inr ⟨.endpointReply id, rfl⟩
  | .phaseComplete t => .inr ⟨.phaseComplete t, rfl⟩
  | .barComplete t => .inr ⟨.barComplete t, rfl⟩
  | .waittRelease t k => .inr ⟨.waittRelease t k, rfl⟩
  | .bankCleared t k bank => .inr ⟨.bankCleared t k bank, rfl⟩
  | .stallTimeout t => .inr ⟨.stallTimeout t, rfl⟩
  | .safeBoundOverrun t => .inr ⟨.safeBoundOverrun t, rfl⟩
  | .hlpRrd x => .inr ⟨.hlpRrd x, rfl⟩
  | .registerWrite x => .inr ⟨.registerWrite x, rfl⟩
  | .hlpMrd x => .inr ⟨.hlpMrd x, rfl⟩
  | .hlpMwr x => .inr ⟨.hlpMwr x, rfl⟩
  | .hlpCpld x => .inr ⟨.hlpCpld x, rfl⟩
  | .hlpCpl x => .inr ⟨.hlpCpl x, rfl⟩
  | .hostReadTimeout tag => .inr ⟨.hostReadTimeout tag, rfl⟩
  | .moduleDisabled m => .inr ⟨.moduleDisabled m, rfl⟩
  | .pcreate => .inr ⟨.pcreate, rfl⟩
  | .pdestroy => .inr ⟨.pdestroy, rfl⟩
  | .colassign => .inr ⟨.colassign, rfl⟩
  | .dsmassign => .inr ⟨.dsmassign, rfl⟩
  | .dsmBankClearDone => .inr ⟨.dsmBankClearDone, rfl⟩
  | .pooladd => .inr ⟨.pooladd, rfl⟩
  | .poolrem => .inr ⟨.poolrem, rfl⟩
  | .uashare => .inr ⟨.uashare, rfl⟩
  | .vcreate => .inr ⟨.vcreate, rfl⟩
  | .vreset => .inr ⟨.vreset, rfl⟩
  | .vresetComplete v => .inr ⟨.vresetComplete v, rfl⟩
  | .vdestroy => .inr ⟨.vdestroy, rfl⟩
  | .credit => .inr ⟨.credit, rfl⟩
  | .keyload => .inr ⟨.keyload, rfl⟩
  | .attest => .inr ⟨.attest, rfl⟩
  | .idcert => .inr ⟨.idcert, rfl⟩
  | .deviceReset => .inr ⟨.deviceReset, rfl⟩
  | .sidebandReset => .inr ⟨.sidebandReset, rfl⟩
  | .firmwareVerify image => .inr ⟨.firmwareVerify image, rfl⟩
  | .packagePowerOn stk mods => .inr ⟨.packagePowerOn stk mods, rfl⟩
  | .binningComplete rows => .inr ⟨.binningComplete rows, rfl⟩
  | .plimWrite w => .inr ⟨.plimWrite w, rfl⟩
  | .ltolWrite p w => .inr ⟨.ltolWrite p w, rfl⟩
  | .scrubctlWrite n w => .inr ⟨.scrubctlWrite n w, rfl⟩
  | .uarctxWrite port j w => .inr ⟨.uarctxWrite port j w, rfl⟩
  | .gtcincWrite w => .inr ⟨.gtcincWrite w, rfl⟩
  | .gtcadjWrite w => .inr ⟨.gtcadjWrite w, rfl⟩
  | .gtcsetWrite w => .inr ⟨.gtcsetWrite w, rfl⟩
  | .gtcSlewDone => .inr ⟨.gtcSlewDone, rfl⟩
  | .gtcHoldover => .inr ⟨.gtcHoldover, rfl⟩
  | .loupeArm w => .inr ⟨.loupeArm w, rfl⟩
  | .tampctlWrite w => .inr ⟨.tampctlWrite w, rfl⟩
  | .vfstatDegWrite v w => .inr ⟨.vfstatDegWrite v w, rfl⟩
  | .gsub v w => .inr ⟨.gsub v w, rfl⟩
  | .gcan v w => .inr ⟨.gcan v w, rfl⟩
  | .eqctlWrite v w => .inr ⟨.eqctlWrite v w, rfl⟩
  | .eqheadWrite v w => .inr ⟨.eqheadWrite v w, rfl⟩
  | .eventRecordWrite v => .inr ⟨.eventRecordWrite v, rfl⟩
  | .eqInterruptTimer v => .inr ⟨.eqInterruptTimer v, rfl⟩
  | .arbiterEpoch => .inr ⟨.arbiterEpoch, rfl⟩
  | .fastLimiter die => .inr ⟨.fastLimiter die, rfl⟩
  | .sensorUpdate dieT stkT => .inr ⟨.sensorUpdate dieT stkT, rfl⟩
  | .supplyExcursion => .inr ⟨.supplyExcursion, rfl⟩
  | .meshBreak => .inr ⟨.meshBreak, rfl⟩
  | .powerStateEntry e => .inr ⟨.powerStateEntry e, rfl⟩
  | .wakeComplete e => .inr ⟨.wakeComplete e, rfl⟩
  | .portAdmit n => .inr ⟨.portAdmit n, rfl⟩
  | .rowRefresh n bank row => .inr ⟨.rowRefresh n bank row, rfl⟩
  | .activationWindow => .inr ⟨.activationWindow, rfl⟩
  | .patrolScrubStep n => .inr ⟨.patrolScrubStep n, rfl⟩
  | .hotScrubStep n row => .inr ⟨.hotScrubStep n row, rfl⟩
  | .patrolPeriodEnd n => .inr ⟨.patrolPeriodEnd n, rfl⟩
  | .retirementCopyDone n frame => .inr ⟨.retirementCopyDone n frame, rfl⟩
  | .leaseIncrement node n => .inr ⟨.leaseIncrement node n, rfl⟩
  | .leaseReply node n => .inr ⟨.leaseReply node n, rfl⟩
  | .leaseRelease node n => .inr ⟨.leaseRelease node n, rfl⟩
  | .pullReadReply id ok data => .inr ⟨.pullReadReply id ok data, rfl⟩
  | .pullTimeout id => .inr ⟨.pullTimeout id, rfl⟩
  | .remoteRequest x => .inr ⟨.remoteRequest x, rfl⟩
  | .invalidationDone id => .inr ⟨.invalidationDone id, rfl⟩
  | .invalidationTimeout id => .inr ⟨.invalidationTimeout id, rfl⟩
  | .polisherClearBlock n => .inr ⟨.polisherClearBlock n, rfl⟩
  | .linkTraining port width rtt => .inr ⟨.linkTraining port width rtt, rfl⟩
  | .laneLoss port width rtt => .inr ⟨.laneLoss port width rtt, rfl⟩
  | .linkReplay port hold => .inr ⟨.linkReplay port hold, rfl⟩
  | .skidSend port => .inr ⟨.skidSend port, rfl⟩
  | .messageLanding x => .inr ⟨.messageLanding x, rfl⟩
  | .creditReturn t ch => .inr ⟨.creditReturn t ch, rfl⟩
  | .collectiveStart cid => .inr ⟨.collectiveStart cid, rfl⟩
  | .reductionContribution w member group elems residue => .inr ⟨.reductionContribution w member group elems residue, rfl⟩
  | .collectiveComplete cid => .inr ⟨.collectiveComplete cid, rfl⟩
  | .graphParse v => .inr ⟨.graphParse v, rfl⟩
  | .selectionRound die => .inr ⟨.selectionRound die, rfl⟩
  | .gangToken => .inr ⟨.gangToken, rfl⟩
  | .priorityPreemption die => .inr ⟨.priorityPreemption die, rfl⟩
  | .dispatch node => .inr ⟨.dispatch node, rfl⟩
  | .saveComplete node => .inr ⟨.saveComplete node, rfl⟩
  | .contextRestore node => .inr ⟨.contextRestore node, rfl⟩
  | .phaseRestart node => .inr ⟨.phaseRestart node, rfl⟩
  | .nodeRetire node => .inr ⟨.nodeRetire node, rfl⟩
  | .jobCardStart node => .inr ⟨.jobCardStart node, rfl⟩
  | .jobCardComplete node => .inr ⟨.jobCardComplete node, rfl⟩
  | .caratFlush => .inr ⟨.caratFlush, rfl⟩
  | .preemptionRequestArrival t kind => .inr ⟨.preemptionRequestArrival t kind, rfl⟩
  | .dsmBankRequest die bank => .inr ⟨.dsmBankRequest die bank, rfl⟩
  | .rangeRegisterFill t k => .inr ⟨.rangeRegisterFill t k, rfl⟩

/-- An operation that keeps what `Quiet` says, or traps, leaves memory as it was. -/
theorem Ends.mem {s : State} {o : Host.Outcome State Fault Refusal} (h : Ends Quiet s o) : Leads (·.mem = s.mem) o := by
  obtain ⟨t, rfl, hq | ⟨x, rfl⟩⟩ := h
  · exact (leads_next ..).2 hq.world.1
  · exact (leads_next ..).2 (takeTrap_mem ..)

theorem exec_memoryOk (i : Instr) {s : State} (h : memoryOk s) : Leads memoryOk (exec i s) := by
  obtain hq | ⟨e, he⟩ := exec_cases i s
  · exact hq.mem.of_mem h
  · rw [he]; exact runEv_memoryOk e h

/-! ### Groups and steps -/

/-- The slots of a group keep the canonical form if each operation does. -/
theorem runSlots_memoryOk {run : Run} (hrun : ∀ i {u : State}, memoryOk u → Leads memoryOk (run i u)) (base : State) (pos : Pos)
    (xs : List Slot) {s : State} (h : memoryOk s) (ts : List Trap) (r : State × List Trap)
    (e : runSlots run base pos xs s ts = .next r) : memoryOk r.1 := by
  induction xs generalizing s ts with
  | nil => cases e; exact h
  | cons x xs ih =>
    unfold runSlots at e
    split at e
    · exact ih h _ e
    · next i _ =>
      have ran := hrun i (u := atSlot (slotOff base x) pos x s) (memoryOk_of_mem (atSlot_mem ..) h)
      split at e
      · next t ht =>
        split at e
        · exact ih h _ e
        · exact ih (ran t ht) _ e
      · cases e
      · cases e

theorem issueGroup_memoryOk {run : Run} (hrun : ∀ i {u : State}, memoryOk u → Leads memoryOk (run i u)) {s : State} (h : memoryOk s) :
    Leads memoryOk (issueGroup run s) := by
  have body : issueGroup = issueGroup := rfl
  conv at body => rhs; delta issueGroup
  rw [body]
  beta_reduce
  extract_lets +onlyGivenNames s0 pos
  have h0 : memoryOk s0 := memoryOk_of_mem (groupStart_mem ..) h
  clear_value s0 pos
  generalize fetchTrap s0 pos = o
  cases o with
  | some t => exact leads_memoryOk (memoryOk_of_mem (takeTrap_mem ..) h0)
  | none =>
    dsimp -zeta only
    extract_lets +onlyGivenNames s1 g
    have h1 : memoryOk s1 := memoryOk_of_mem (groupState_mem ..) h0
    clear_value s1 g
    split
    · next r hr =>
      split
      · exact leads_memoryOk (memoryOk_of_mem (takeTrap_mem ..) h1)
      · exact leads_memoryOk (memoryOk_of_mem (advance_mem ..) (runSlots_memoryOk hrun _ _ _ h1 _ r hr))
    · exact fun _ e => by cases e
    · exact fun _ e => by cases e

theorem issueAct_memoryOk (tid k : Nat) {s : State} (h : memoryOk s) : Leads memoryOk (issueAct exec tid k s) := by
  have fetched := memoryOk_fetchCode (memoryOk_of_mem ((focus_mem tid k _).trans (touchRange_mem tid k s)) h)
  have issued := issueGroup_memoryOk (fun i {_} hu => exec_memoryOk i hu) fetched
  unfold issueAct
  split
  · exact leads_memoryOk h
  · split
    · exact leads_memoryOk h
    · split
      · next u hu => exact leads_memoryOk (memoryOk_of_mem ((onDev_mem ..).trans (unfocus_mem ..)) (issued u hu))
      · exact fun _ e => by cases e
      · exact fun _ e => by cases e

theorem takeInput_memoryOk (i : Input) {s : State} (h : memoryOk s) : Leads memoryOk (takeInput i s) := by
  unfold takeInput
  split
  · exact leads_memoryOk h
  · cases i with
    | event e => exact runEv_memoryOk e h
    | upset n b bad => exact leads_memoryOk (memoryOk_of_mem (onDev_mem ..) h)
    | odecc n => exact leads_memoryOk (memoryOk_of_mem (onStack_mem ..) h)
    | gtceb eb => exact leads_memoryOk (memoryOk_of_mem (onGtc_mem ..) h)
    | collContexts cid ok => exact leads_memoryOk (memoryOk_of_mem (onColl_mem ..) h)
    | collMismatch cid => exact leads_memoryOk (memoryOk_of_mem (onColl_mem ..) h)
    | flowCredits p lacking => exact leads_memoryOk (memoryOk_of_mem (onDev_mem ..) h)
    | collWithdrawn cid => exact leads_memoryOk (memoryOk_of_mem (withdrawnElsewhere_mem ..) h)
    | collDelivered cid n => exact leads_memoryOk (memoryOk_of_mem (deliveredElsewhere_mem ..) h)

theorem step_memoryOk {s : State} (h : memoryOk s) : Leads memoryOk (step s) := by
  unfold step
  split
  · exact issueAct_memoryOk _ _ h
  · exact runEv_memoryOk _ h
  · split
    · exact leads_memoryOk (memoryOk_of_mem (tick_mem ..) h)
    · split
      · exact leads_memoryOk (memoryOk_of_mem (tick_mem ..) h)
      · exact takeInput_memoryOk _ h

/-- Settles O46: an instruction is a slot operation, which leaves memory alone at its issue, or an event, and each event writes memory only
through operations that keep its canonical form; a step issues a group, runs an event, takes an input or ticks. -/
theorem memoryOkKept : Obligations.MemoryOkKept :=
  ⟨fun i _ t h e => exec_memoryOk i h t e, fun _ t h e => step_memoryOk h t e⟩

end Sys2Proof.Machine
end

section

/-! ## What a step does around the instructions (O43) -/

namespace Sys2Proof.Machine

/-! ### The clock's tick -/

theorem foldl_setPower (f : Dev → Nat → PowerEl) (ks : List Nat) (d : Dev) :
    ∃ p, ks.foldl (fun d k => setPower k (f d k) d) d = { d with power := p } := by
  induction ks generalizing d with
  | nil => exact ⟨d.power, rfl⟩
  | cons k ks ih =>
    obtain ⟨p, hp⟩ := ih (setPower k (f d k) d)
    exact ⟨p, hp⟩

/-- Busy columns stay awake: nothing changes but the power elements (R22). -/
theorem keepBusy_eq (s : State) : ∃ p, keepBusy s = { s with dev := { s.dev with power := p } } := by
  obtain ⟨p, hp⟩ := foldl_setPower (fun d k => { powerOf d k with idle := s.cyc + 1 }) (busyColumns s) s.dev
  exact ⟨p, congrArg (fun d => { s with dev := d }) hp⟩

theorem tick_cyc (s : State) : (tick s).cyc = s.cyc + 1 := rfl
theorem tick_free (s : State) : (tick s).free = s.free + 1 := rfl
theorem tick_tasks (s : State) : (tick s).tasks = s.tasks := by
  obtain ⟨p, hp⟩ := keepBusy_eq s
  unfold tick
  rw [hp]
  rfl
theorem tick_inputs (s : State) : (tick s).inputs = s.inputs := by
  obtain ⟨p, hp⟩ := keepBusy_eq s
  unfold tick
  rw [hp]
  rfl
theorem tick_gtc (s : State) : (tick s).dev.gtc = if s.dev.host.powered then gtcTick s.dev.gtc else s.dev.gtc := by
  obtain ⟨p, hp⟩ := keepBusy_eq s
  unfold tick
  rw [hp]
  rfl

/-- A reply that belongs to no job, and that the Setter does not ask for, outlives the sweep of the jobs. -/
theorem mem_sweepJobs_replies {s : State} {e : Nat × Reply} (he : e ∈ s.replies) (hw : e.2.who ≠ .setter)
    (hj : ∀ j ∈ s.dev.jobs, j.id ≠ e.1) : e ∈ (sweepJobs s).replies := by
  have kept : e ∈ (dropJobs (fun j => !jobLive s j) s).replies := by
    refine List.mem_filter.2 ⟨he, ?_⟩
    simpa using fun j hjs _ => hj j hjs
  exact List.mem_filter.2 ⟨kept, by simp [hw]⟩

theorem mem_tick_replies {s : State} {e : Nat × Reply} (he : e ∈ s.replies) (hw : e.2.who ≠ .setter)
    (hj : ∀ j ∈ s.dev.jobs, j.id ≠ e.1) : e ∈ (tick s).replies := by
  obtain ⟨p, hp⟩ := keepBusy_eq s
  refine mem_sweepJobs_replies (s := moveFunctions (keepBusy s)) he hw ?_
  rw [hp]
  exact hj

/-! ### What a step takes up -/

theorem step_of_agenda_event {s : State} {e : Ev} {rest : List Act} (h : s.agenda = .event e :: rest) :
    step s = runEv e { s with agenda := rest } := by
  unfold step; rw [h]

theorem step_of_input {s : State} {i : Input} {rest : List Input} (ha : s.agenda = []) (hi : s.inputs = i :: rest)
    (hw : mustWait s i = false) : step s = takeInput i { s with inputs := rest } := by
  unfold step; rw [ha, hi]; simp [hw]

/-- With nothing to take up, neither an act nor an input that need not wait, the clock ticks. -/
theorem step_of_idle {s : State} (ha : s.agenda = []) (hi : s.inputs = [] ∨ ∃ i rest, s.inputs = i :: rest ∧ mustWait s i = true) :
    step s = .next (tick s) := by
  unfold step; rw [ha]
  obtain hi | ⟨i, rest, hi, hw⟩ := hi
  · rw [hi]
  · rw [hi]; simp [hw]

theorem takeInput_event {s : State} (e : Ev) (hs : inService s.dev = true) : takeInput (.event e) s = runEv e s := by
  simp [takeInput, hs]

theorem takeInput_lost {s : State} {i : Input} (hs : inService s.dev = false) (hh : alwaysHeard i = false) : takeInput i s = .next s := by
  simp [takeInput, hs, hh]

/-- Settles O43: by what the agenda and the inputs hold; each event of the table has in `exec` the meaning `runEv` gives it. -/
theorem stepOrder : Obligations.StepOrder := by
  intro s
  refine ⟨fun e rest => step_of_agenda_event, fun e rest ha hi hw hs => ?_, fun i rest ha hi hw hs hh => ?_, fun ha hi => ?_, ?_⟩
  · rw [step_of_input ha hi hw, takeInput_event e (s := { s with inputs := rest }) hs]
  · rw [step_of_input ha hi hw, takeInput_lost (s := { s with inputs := rest }) hs hh]
  · exact ⟨tick s, step_of_idle ha hi, tick_cyc s, tick_free s, tick_tasks s, tick_mem s, tick_inputs s,
      fun _ he hw hj => mem_tick_replies he hw hj, tick_gtc s⟩
  · intros
    and_intros <;> rfl

end Sys2Proof.Machine
end

section

/-! ## Host packets and the read timeout (O57) -/

namespace Sys2Proof.Machine

/-! ### Register accesses (R85, R86) -/

section Registers

variable {x : Hlp} {s : State} (hp : s.dev.host.powered = true) (hh : s.dev.trust.hold = false)
include hp hh

theorem inService_of_powered : inService s.dev = true := by simp [inService, hp, hh]

theorem execHlpRrd_of_badRequest (hb : badRequest 0x01 x = true) : execHlpRrd x s = .next (discard s) := by
  simp [execHlpRrd, hp, hh, hb]

theorem execHlpRrd_of_badAccess (hb : badRequest 0x01 x = false) (ha : badAccess x = true) :
    execHlpRrd x s = .next (completeBad x 1 s) := by
  simp [execHlpRrd, hp, hh, hb, ha]

theorem execHlpRrd_of_shut (hb : badRequest 0x01 x = false) (ha : badAccess x = false)
    (hc : s.dev.host.ready = false ∧ earlyBlock x = false) : execHlpRrd x s = .next (completeBad x 5 s) := by
  simp [execHlpRrd, hp, hh, hb, ha, hc]

theorem execHlpRrd_of_open (hb : badRequest 0x01 x = false) (ha : badAccess x = false)
    (ho : s.dev.host.ready = true ∨ earlyBlock x = true) (hw : windowOff x ≠ cfgcmdOff) :
    execHlpRrd x s = .next (sendHost ⟨0x09, 0, x.tag, x.func, 0, 0#64, false, [w64 (readWindow s (windowOff x))]⟩ s) := by
  obtain h | h := ho <;> simp [execHlpRrd, hp, hh, hb, ha, h, hw]

/-- A read of CFGCMD answers with the next free value, and so counts it (log 9). -/
theorem execHlpRrd_of_open_cfgcmd (hb : badRequest 0x01 x = false) (ha : badAccess x = false)
    (ho : s.dev.host.ready = true ∨ earlyBlock x = true) (hw : windowOff x = cfgcmdOff) :
    execHlpRrd x s =
      .next (sendHost ⟨0x09, 0, x.tag, x.func, 0, 0#64, false, [w64 (Config.freeValue s.free)]⟩ { s with free := s.free + 1 }) := by
  obtain h | h := ho <;> simp [execHlpRrd, hp, hh, hb, ha, h, hw]

theorem execRegisterWrite_of_bad (hb : badRequest 0x02 x = true ∨ badAccess x = true) :
    execRegisterWrite x s = .next (discard s) := by
  obtain h | h := hb <;> simp [execRegisterWrite, inService, hp, hh, h]

theorem execRegisterWrite_of_shut (hb : badRequest 0x02 x = false) (ha : badAccess x = false)
    (hc : s.dev.host.ready = false ∧ earlyBlock x = false) : execRegisterWrite x s = .next s := by
  simp [execRegisterWrite, inService, hp, hh, hb, ha, hc]

theorem execRegisterWrite_of_event (hb : badRequest 0x02 x = false) (ha : badAccess x = false)
    (ho : s.dev.host.ready = true ∨ earlyBlock x = true) {e : Ev} (he : writeWindow (windowOff x) (x.data.headD 0#64) s = .inl e) :
    execRegisterWrite x s = .next { s with agenda := .event e :: s.agenda } := by
  obtain h | h := ho <;> simp [execRegisterWrite, inService, hp, hh, hb, ha, h, he, -List.headD_eq_head?_getD]

theorem execRegisterWrite_of_written (hb : badRequest 0x02 x = false) (ha : badAccess x = false)
    (ho : s.dev.host.ready = true ∨ earlyBlock x = true) {t : State} (ht : writeWindow (windowOff x) (x.data.headD 0#64) s = .inr t) :
    execRegisterWrite x s = .next t := by
  obtain h | h := ho <;> simp [execRegisterWrite, inService, hp, hh, hb, ha, h, ht, -List.headD_eq_head?_getD]

end Registers

/-! ### Memory accesses (R80, R82, R83) -/

section Memory

variable {x : Hlp} {s : State} (hs : inService s.dev = true)
include hs

theorem execHlpMrd_of_badRequest (hb : badRequest 0x03 x = true) : execHlpMrd x s = .next (discard s) := by
  simp [execHlpMrd, hs, hb]

theorem execHlpMrd_of_notReady (hb : badRequest 0x03 x = false) (hr : s.dev.host.ready = false) :
    execHlpMrd x s = .next (completeBad x 5 s) := by
  simp [execHlpMrd, hs, hb, hr]

theorem execHlpMwr_of_badRequest (hb : badRequest 0x04 x = true) : execHlpMwr x s = .next (discard s) := by
  simp [execHlpMwr, hs, hb]

theorem execHlpMwr_of_notReady (hb : badRequest 0x04 x = false) (hr : s.dev.host.ready = false) : execHlpMwr x s = .next s := by
  simp [execHlpMwr, hs, hb, hr]

/-- A read that is let through enters the queue with its reply, under the module of the PF or of a VF. -/
theorem execHlpMrd_of_ready (hb : badRequest 0x03 x = false) (hr : s.dev.host.ready = true) :
    let queued (rs : List Req) : Host.Outcome State Fault Refusal := .next { s with
      nextId := s.nextId + 1
      replies := tabPut s.replies s.nextId ⟨.host x.func x.tag, hlpBytes x, rs.length, [], [], false⟩
      reqs := s.reqs ++ rs }
    (x.func = 1024 → pfOutside x = false → execHlpMrd x s = queued (pfReqs s.nextId x .read [])) ∧
    (x.func = 1024 → pfOutside x = true → execHlpMrd x s = .next (completeBad x 1 s)) ∧
    (x.func < 1024 → vfRefused s x false = false → execHlpMrd x s = queued (vfReqs s s.nextId x .read [])) ∧
    (x.func < 1024 → vfRefused s x false = true → execHlpMrd x s = .next (completeBad x 3 s)) := by
  refine ⟨fun hf h => ?_, fun hf h => ?_, fun hf h => ?_, fun hf h => ?_⟩
  · simp [execHlpMrd, hs, hb, hr, hf, h]
  · simp [execHlpMrd, hs, hb, hr, hf, h]
  · simp [execHlpMrd, hs, hb, hr, hf, hf.ne, h]
  · simp [execHlpMrd, hs, hb, hr, hf, hf.ne, h]

theorem execHlpMwr_of_ready (hb : badRequest 0x04 x = false) (hr : s.dev.host.ready = true) :
    let bs := (ofWords x.data).take (hlpBytes x)
    (x.func = 1024 → pfOutside x = false → execHlpMwr x s = .next { s with reqs := s.reqs ++ pfReqs 0 x .write bs }) ∧
    (x.func = 1024 → pfOutside x = true → execHlpMwr x s = .next (discard s)) ∧
    (x.func < 1024 → vfRefused s x true = false → execHlpMwr x s = .next { s with reqs := s.reqs ++ vfReqs s 0 x .write bs }) ∧
    (x.func < 1024 → vfRefused s x true = true → execHlpMwr x s = .next s) := by
  refine ⟨fun hf h => ?_, fun hf h => ?_, fun hf h => ?_, fun hf h => ?_⟩
  · simp [execHlpMwr, hs, hb, hr, hf, h]
  · simp [execHlpMwr, hs, hb, hr, hf, h]
  · simp [execHlpMwr, hs, hb, hr, hf, hf.ne, h]
  · simp [execHlpMwr, hs, hb, hr, hf, hf.ne, h]

end Memory

/-! ### Completions of the device's own reads, and their timeout -/

theorem badCompletion_of_func (type : Nat) {x : Hlp} (h : 1024 < x.func) : badCompletion type x = true := by
  simp [badCompletion, h]

section Completions

variable {x : Hlp} {s : State} (hs : inService s.dev = true)
include hs

theorem execHlpCpld_of_bad (h : badCompletion 0x09 x = true ∨ tabFind s.dev.host.reads x.tag = none) :
    execHlpCpld x s = .next (discard s) := by
  obtain h | h := h <;> simp [execHlpCpld, hs, h]

theorem execHlpCpl_of_bad (h : badCompletion 0x08 x = true ∨ tabFind s.dev.host.reads x.tag = none) :
    execHlpCpl x s = .next (discard s) := by
  obtain h | h := h <;> simp [execHlpCpl, hs, h]

/-- A completion ends the read of its TAG: with the data of the read, where the status is 0 and all of it is there. -/
theorem execHlpCpld_of_read {r : HostRead} (hr : tabFind s.dev.host.reads x.tag = some r) (hb : badCompletion 0x09 x = false) :
    execHlpCpld x s = .next (readOver x.tag r
      (if ((ofWords x.data).take r.len).length = r.len ∧ x.status = 0 then some ((ofWords x.data).take r.len) else none) s) := by
  simp [execHlpCpld, hs, hr, hb]

theorem execHlpCpl_of_read {r : HostRead} (hr : tabFind s.dev.host.reads x.tag = some r) (hb : badCompletion 0x08 x = false) :
    execHlpCpl x s = .next (readOver x.tag r none s) := by
  simp [execHlpCpl, hs, hr, hb]

end Completions

/-- A read of host memory waits 50 ms, 95,000,000 cyc. -/
theorem execHostReadTimeout_of_read {tag : Nat} {s : State} {r : HostRead} (hr : tabFind s.dev.host.reads tag = some r) :
    execHostReadTimeout tag s = if s.cyc < r.sent + 95000000 then .next s else .next (readOver tag r none s) := by
  unfold execHostReadTimeout
  rw [hr]
  rfl

/-- Settles O57, a packet at a time: its lemmas above, one for each answer of the device. -/
theorem hostLinkEvents : Obligations.HostLinkEvents := by
  intro x s hp hh answered opened shut
  have hs := inService_of_powered hp hh
  refine ⟨fun hb ha ho => ⟨execHlpRrd_of_open hp hh hb ha ho, execHlpRrd_of_open_cfgcmd hp hh hb ha ho⟩,
    execHlpRrd_of_badAccess hp hh, execHlpRrd_of_shut hp hh,
    fun hb ha ho => ⟨fun _ => execRegisterWrite_of_event hp hh hb ha ho, fun _ => execRegisterWrite_of_written hp hh hb ha ho⟩,
    execRegisterWrite_of_shut hp hh, execRegisterWrite_of_bad hp hh, execHlpRrd_of_badRequest hp hh,
    execHlpMrd_of_badRequest hs, execHlpMwr_of_badRequest hs,
    execHlpMrd_of_notReady hs, execHlpMwr_of_notReady hs, execHlpMrd_of_ready hs, execHlpMwr_of_ready hs, execHlpCpld_of_bad hs,
    execHlpCpl_of_bad hs, fun hf => ⟨badCompletion_of_func _ hf, badCompletion_of_func _ hf⟩, fun r hr => ?_⟩
  refine ⟨fun hb h0 hl => ?_, fun hb hbad => ?_, execHlpCpl_of_read hs hr, fun ht => ?_, fun ht => ?_⟩
  · exact (execHlpCpld_of_read hs hr hb).trans (by rw [if_pos ⟨hl, h0⟩])
  · exact (execHlpCpld_of_read hs hr hb).trans (by rw [if_neg fun ⟨hl, h0⟩ => hbad.elim (· h0) (· hl)])
  · exact (execHostReadTimeout_of_read hr).trans (if_neg (Nat.not_lt.2 ht))
  · exact (execHostReadTimeout_of_read hr).trans (if_pos ht)

end Sys2Proof.Machine
end

section

/-! ## What reports, replies and wakes leave alone

Beside memory: reports change the Loupe and the host link, wakes the power elements; replies leave the queues and the tasks' list alone. -/

namespace Sys2Proof.Machine

/-- A fold whose every step keeps what `g` reads of the state keeps it. -/
theorem foldl_keeps {α β : Type} {g : State → β} {f : State → α → State} (h : ∀ s x, g (f s x) = g s) (l : List α) (s : State) :
    g (l.foldl f s) = g s := by
  induction l generalizing s with
  | nil => rfl
  | cons x l ih => rw [List.foldl_cons, ih, h]

/-! ### Reports -/

/-- A write to host memory changes nothing but the host link. -/
theorem hostWrite_eq (func : Nat) (addr : Word) (n : Nat) (bs : List Byte) (s : State) :
    ∃ h, hostWrite func addr n bs s = { s with dev := { s.dev with host := h } } := by
  induction n generalizing addr bs s with
  | zero => exact ⟨s.dev.host, rfl⟩
  | succ n ih =>
    unfold hostWrite
    split
    · exact ⟨s.dev.host, rfl⟩
    · extract_lets b
      obtain ⟨h, hh⟩ := ih (addr + 256#64) (bs.drop 256)
        (sendHost ⟨0x04, (b.length + 7) / 8 - 1, 0, func, 0, addr, false, toWords 32 b⟩ s)
      exact ⟨h, hh⟩

/-- A Loupe event changes nothing but the Loupe and the host link. -/
theorem loupe_eq (src code : Nat) (data : List Byte) (s : State) :
    ∃ l h, loupe src code data s = { s with dev := { s.dev with loupe := l, host := h } } := by
  unfold loupe
  extract_lets l seq l1
  split
  · exact ⟨l1, s.dev.host, rfl⟩
  · split
    · exact ⟨{ l1 with full := true }, s.dev.host, rfl⟩
    · exact ⟨{ l1 with pos := l.pos + 32, full := decide (l.pos + 64 > l.alen) }, hostWrite_eq ..⟩

section

variable (src code : Nat) (data : List Byte) (s : State)

@[simp] theorem loupe_tasks : (loupe src code data s).tasks = s.tasks := by
  obtain ⟨l, h, e⟩ := loupe_eq src code data s
  rw [e]
@[simp] theorem loupe_agenda : (loupe src code data s).agenda = s.agenda := by
  obtain ⟨l, h, e⟩ := loupe_eq src code data s
  rw [e]
@[simp] theorem loupe_hbm : (loupe src code data s).dev.hbm = s.dev.hbm := by
  obtain ⟨l, h, e⟩ := loupe_eq src code data s
  rw [e]
@[simp] theorem loupe_upsets : (loupe src code data s).dev.upsets = s.dev.upsets := by
  obtain ⟨l, h, e⟩ := loupe_eq src code data s
  rw [e]
@[simp] theorem loupe_epoch : (loupe src code data s).dev.epoch = s.dev.epoch := by
  obtain ⟨l, h, e⟩ := loupe_eq src code data s
  rw [e]

end

@[simp] theorem loupePort_upsets (n code x part : Nat) (s : State) : (loupePort n code x part s).dev.upsets = s.dev.upsets := by
  simp [loupePort]
@[simp] theorem getStack_loupePolisher (m n code fr : Nat) (s : State) :
    getStack (loupePolisher n code fr s).dev m = getStack s.dev m := by simp [getStack, loupePolisher]

/-! ### Parts of the device -/

@[simp] theorem getStack_onStack_same (n : Nat) (f : Stack → Stack) (s : State) :
    getStack (onStack n f s).dev n = f (getStack s.dev n) := tabGet_set_same ..
@[simp] theorem getVf_onVf_same (v : Nat) (f : Vf → Vf) (s : State) : getVf (onVf v f s).dev v = f (getVf s.dev v) :=
  tabGet_set_same ..
@[simp] theorem onStack_upsets (n : Nat) (f : Stack → Stack) (s : State) : (onStack n f s).dev.upsets = s.dev.upsets := rfl
@[simp] theorem getStack_zeroRange (m n p len : Nat) (s : State) : getStack (zeroRange n p len s).dev m = getStack s.dev m := rfl

/-- Two changes of a stack that agree on it as it stands are one. -/
theorem onStack_congr {n : Nat} {f g : Stack → Stack} {s : State} (h : f (getStack s.dev n) = g (getStack s.dev n)) :
    onStack n f s = onStack n g s := by
  simp only [onStack, onDev, h]

/-! ### Replies -/

@[simp] theorem onTask_reqs (tid : Nat) (f : Task → Task) (s : State) : (onTask tid f s).reqs = s.reqs := by
  unfold onTask; split <;> rfl
@[simp] theorem onSeq_reqs (tid k : Nat) (f : Machine.Seq → Machine.Seq) (s : State) : (onSeq tid k f s).reqs = s.reqs := onTask_reqs ..
@[simp] theorem answer_reqs (id off : Nat) (bs : List Byte) (err : Option ReplyErr) (s : State) : (answer id off bs err s).reqs = s.reqs := by
  unfold answer; split <;> rfl
@[simp] theorem cacheWrote_reqs (r : Req) (bs : List Byte) (s : State) : (cacheWrote r bs s).reqs = s.reqs := by
  unfold cacheWrote
  split
  · split
    · rfl
    · exact onTask_reqs ..
  · rfl
@[simp] theorem install_reqs (r : Req) (blk : List Byte) (s : State) : (install r blk s).reqs = s.reqs := by
  unfold install
  split
  · dsimp only
    split
    · exact onSeq_reqs ..
    · rfl
  · rfl
@[simp] theorem finishReply_reqs (id : Nat) (s : State) : (finishReply id s).reqs = s.reqs := by
  unfold finishReply
  split
  · rfl
  · split
    · rfl
    · split
      · dsimp only
        split
        · rfl
        · split <;> rfl
      · rfl
      · rfl

/-! ### Wakes -/

/-- A wake changes nothing but the power elements (R23). -/
theorem wakeKey_eq (k : Nat) (s : State) : ∃ p, wakeKey k s = { s with dev := { s.dev with power := p } } := by
  unfold wakeKey
  dsimp only
  split
  · exact ⟨s.dev.power, rfl⟩
  · split <;> exact ⟨_, rfl⟩

@[simp] theorem wakeKey_tasks (k : Nat) (s : State) : (wakeKey k s).tasks = s.tasks := by
  obtain ⟨p, hp⟩ := wakeKey_eq k s
  rw [hp]
@[simp] theorem wakeKey_reqs (k : Nat) (s : State) : (wakeKey k s).reqs = s.reqs := by
  obtain ⟨p, hp⟩ := wakeKey_eq k s
  rw [hp]
@[simp] theorem wakeForbidden_tasks (s : State) : (wakeForbidden s).tasks = s.tasks :=
  foldl_keeps (g := State.tasks) (fun t e => by split <;> simp) _ _
@[simp] theorem wakeForbidden_reqs (s : State) : (wakeForbidden s).reqs = s.reqs :=
  foldl_keeps (g := State.reqs) (fun t e => by split <;> simp) _ _

/-- Where every element's owners tolerate the wake time of its state, none wakes (R22, R23). -/
theorem wakeForbidden_of_tolerated {u : State} (h : ∀ e ∈ u.dev.power, wakeTime e.2.state ≤ elTol u.dev (elOf e.1)) :
    wakeForbidden u = u := by
  unfold wakeForbidden
  generalize u.dev.power = l at h
  induction l with
  | nil => rfl
  | cons e l ih =>
    have he : ¬ elTol u.dev (elOf e.1) < wakeTime e.2.state := Nat.not_lt.2 (h e List.mem_cons_self)
    rw [List.foldl_cons, if_neg he]
    exact ih fun x hx => h x (List.mem_cons_of_mem e hx)

end Sys2Proof.Machine
end

section

/-! ## Memory ports, DSM banks, scrubbers and the Polisher (O53) -/

namespace Sys2Proof.Machine

/-! ### A turn of a memory port (R44) -/

/-- An address that no drain holds up, or no address at all, is met without a split (R129). -/
theorem meetSplit_of_noSplit {s : State} {r : Req} (h : splitCase s r = 0) : meetSplit s r = s := by
  unfold meetSplit
  split
  · rw [h]; rfl
  · rfl

section PortTurn

variable {n : Nat} {s : State}

/-- The port serves the next request, once the splits that its writes meet have begun. -/
theorem execPortAdmit_of_next {c : Nat × Nat × Req}
    (h : nextReq ((s.reqs.filter (fun r => reqStack r == some n && !r.fence)).foldl meetSplit s) n = some c) :
    execPortAdmit n s =
      .next (perform c.2.2 n ((s.reqs.filter (fun r => reqStack r == some n && !r.fence)).foldl meetSplit s)) := by
  unfold execPortAdmit
  dsimp only
  rw [h]

/-- With no request to serve the port only notes whether one waits for the budget (R14). -/
theorem execPortAdmit_of_none (h : nextReq ((s.reqs.filter (fun r => reqStack r == some n && !r.fence)).foldl meetSplit s) n = none) :
    ∃ w, execPortAdmit n s = .next (onStack n (fun k => { k with waited := k.waited || w })
      ((s.reqs.filter (fun r => reqStack r == some n && !r.fence)).foldl meetSplit s)) := by
  unfold execPortAdmit
  extract_lets t
  rw [h]
  refine ⟨t.reqs.zipIdx.any (fun e => inTurn t n (t.reqs.take e.2) e.1 && overBudget (getStack t.dev n) (nextRow t e.1 n)),
    congrArg _ (onStack_congr ?_)⟩
  split
  · next h => rw [h, Bool.or_true]
  · next h => rw [Bool.eq_false_of_not_eq_true h, Bool.or_false]

end PortTurn

/-! ### A request at a DSM bank (R117, R249) -/

section DsmBank

variable {die bank : Nat} {s : State} {r : Req} (hr : dsmReq s die bank = some r)
include hr

theorem execDsmBankRequest_of_keyless (hk : keyless s.dev r = true) :
    execDsmBankRequest die bank s = .next (finishReply r.id (fail r 3 { s with reqs := s.reqs.erase r })) := by
  simp [execDsmBankRequest, hr, hk]

theorem execDsmBankRequest_of_asleep (hk : keyless s.dev r = false) (ha : awake s.dev (elKey (.die die)) = false) :
    execDsmBankRequest die bank s = .next (wakeKey (elKey (.die die)) s) := by
  simp [execDsmBankRequest, hr, hk, ha]

/-- At a bank that is awake the request leaves the queue, and the bank holds what the operation writes, if it writes. -/
theorem execDsmBankRequest_of_awake (hk : keyless s.dev r = false) (ha : awake s.dev (elKey (.die die)) = true)
    {d b y : Nat} (hl : r.loc = .dsm d b y) :
    ∃ t, execDsmBankRequest die bank s = .next t ∧ t.reqs = s.reqs.erase r ∧
      t.mem = (atomResult r.op (tabBytes s.mem (dsmKey d b y) r.size) r.data).elim s.mem (tabSetBytes s.mem (dsmKey d b y)) := by
  unfold execDsmBankRequest
  simp only [hr, hk, ha, hl, Bool.not_true, Bool.false_eq_true, if_false]
  refine ⟨_, rfl, ?_, ?_⟩
  · rw [finishReply_reqs, answer_reqs]
    split
    · rw [cacheWrote_reqs]; rfl
    · split
      · rw [install_reqs]; rfl
      · rfl
  · rw [finishReply_mem, answer_mem]
    split
    · next h => rw [cacheWrote_mem, h]; rfl
    · next h =>
      rw [h]
      split
      · rw [install_mem]; rfl
      · rfl

theorem execDsmBankRequest_of_read (hk : keyless s.dev r = false) (ha : awake s.dev (elKey (.die die)) = true)
    {d b y : Nat} (hl : r.loc = .dsm d b y) (ho : r.op = .read) :
    ∃ t, execDsmBankRequest die bank s = .next t ∧ t.mem = s.mem ∧ t.reqs = s.reqs.erase r := by
  obtain ⟨t, ht, hreqs, hmem⟩ := execDsmBankRequest_of_awake hr hk ha hl
  exact ⟨t, ht, by rw [hmem, ho]; rfl, hreqs⟩

theorem execDsmBankRequest_of_written (hk : keyless s.dev r = false) (ha : awake s.dev (elKey (.die die)) = true)
    {d b y : Nat} (hl : r.loc = .dsm d b y) {new : List Byte}
    (hn : atomResult r.op (tabBytes s.mem (dsmKey d b y) r.size) r.data = some new) :
    ∃ t, execDsmBankRequest die bank s = .next t ∧ t.mem = tabSetBytes s.mem (dsmKey d b y) new ∧ t.reqs = s.reqs.erase r := by
  obtain ⟨t, ht, hreqs, hmem⟩ := execDsmBankRequest_of_awake hr hk ha hl
  exact ⟨t, ht, by rw [hmem, hn]; rfl, hreqs⟩

end DsmBank

/-! ### Activation windows, scrubs and retirement (R41 to R45, R51) -/

theorem execActivationWindow_cleared (s : State) : ∃ t, execActivationWindow s = .next t ∧ t = { s with dev := t.dev } ∧
    t.dev.hbm.map Prod.fst = s.dev.hbm.map Prod.fst ∧ ∀ e ∈ t.dev.hbm, e.2.track = [] ∧ e.2.acts = [] ∧ e.2.throt = [] := by
  refine ⟨_, rfl, rfl, ?_, fun e he => ?_⟩
  · simp [Function.comp_def]
  · obtain ⟨x, -, rfl⟩ := List.mem_map.1 he
    exact ⟨rfl, rfl, rfl⟩

theorem execPatrolScrubStep_of_up {n : Nat} {s : State} (h : (getStack s.dev n).up = true) :
    execPatrolScrubStep n s = .next (onStack n
      (fun x => if (getStack s.dev n).blk < 15 then { x with blk := (getStack s.dev n).blk + 1 }
        else { x with blk := 0, pos := ((getStack s.dev n).pos + 1) % 2 ^ 27 })
      (scrubBlock n ((getStack s.dev n).pos / 16384) ((getStack s.dev n).pos % 16384) (getStack s.dev n).blk true s)) := by
  simp [execPatrolScrubStep, h]

/-- A row whose hot scrub has found an error stays on the hot list: its count of clean scrubs starts again (R42). -/
theorem hot_filter_of_bad (l : List Hot) (row : Nat) :
    (l.map (fun h => if h.row = row then { h with clean := 0 } else h)).filter (fun h => !(h.row == row && decide (h.clean ≥ 64))) =
      l.map (fun h => if h.row = row then { h with clean := 0 } else h) := by
  refine List.filter_eq_self.2 fun x hx => ?_
  obtain ⟨h, -, rfl⟩ := List.mem_map.1 hx
  split
  · simp
  · simp [*]

section HotScrub

variable {n row : Nat} {s : State} (hr : (getStack s.dev n).hot.any (fun h => h.row == row) = true)
include hr

theorem execHotScrubStep_of_bad (hb : (List.range 16).any (fun b =>
      tabGet 0 s.dev.upsets (blkKey n (blockAddr (row / 16384) (row % 16384) b)) != 0) = true) :
    execHotScrubStep n row s = .next (onStack n
      (fun k => { k with hot := k.hot.map (fun h => if h.row = row then { h with clean := 0 } else h) })
      ((List.range 16).foldl (fun t b => scrubBlock n (row / 16384) (row % 16384) b false t) s)) := by
  simp only [execHotScrubStep, hr, hb, Bool.not_true, Bool.false_eq_true, if_false, if_true, hot_filter_of_bad]

theorem execHotScrubStep_of_clean (hb : (List.range 16).any (fun b =>
      tabGet 0 s.dev.upsets (blkKey n (blockAddr (row / 16384) (row % 16384) b)) != 0) = false) :
    execHotScrubStep n row s = .next (onStack n
      (fun k => { k with
        hot := (k.hot.map (fun h => if h.row = row then { h with clean := h.clean + 1 } else h)).filter
          (fun h => h.row != row || decide (h.clean < 64)) })
      ((List.range 16).foldl (fun t b => scrubBlock n (row / 16384) (row % 16384) b false t) s)) := by
  have hp : (fun h : Hot => !(h.row == row && decide (h.clean ≥ 64))) = fun h => h.row != row || decide (h.clean < 64) := by
    funext h
    have hlt : (!decide (h.clean ≥ 64)) = decide (h.clean < 64) := (decide_not ..).symm.trans (decide_eq_decide.2 Nat.not_le)
    rw [Bool.not_and, hlt]
    rfl
  simp only [execHotScrubStep, hr, hb, Bool.not_true, Bool.false_eq_true, if_false, hp]

end HotScrub

/-- A retirement copy that ends has moved the frame's bytes and code words (R41). -/
theorem execRetirementCopyDone_of_copying {n frame : Nat} {s : State} {c : Retire}
    (h : (getStack s.dev n).copying.find? (fun c => c.frame == frame) = some c) :
    ∃ t, execRetirementCopyDone n frame s = .next t ∧ t.mem = (copyFrame n frame c.spare s).mem ∧
      t.dev.upsets = (copyFrame n frame c.spare s).dev.upsets := by
  unfold execRetirementCopyDone
  rw [h]
  exact ⟨_, rfl, by simp, by simp⟩

/-! ### Clearing (R400) -/

section Clearing

variable {n f : Nat} {s : State}

theorem execPolisherClearBlock_of_idle (hc : (getStack s.dev n).clearing = none) (hf : nextClear s.dev n = some f) :
    ∃ t, execPolisherClearBlock n s = .next t ∧ t.mem = s.mem ∧ (getStack t.dev n).clearing = some f ∧
      (getStack t.dev n).queue = (getStack s.dev n).queue.filter (· != f) ∧ (getStack t.dev n).written = 0 := by
  unfold execPolisherClearBlock
  simp only [hc, hf]
  exact ⟨_, rfl, by simp, by simp, by simp, by simp⟩

theorem execPolisherClearBlock_of_clearing (hc : (getStack s.dev n).clearing = some f) (hw : (getStack s.dev n).written + 1 < 32768) :
    ∃ t, execPolisherClearBlock n s = .next t ∧
      t.mem = (zeroRange n (remapFrame s.dev n f * 2 ^ 21 + 64 * (getStack s.dev n).written) 64 s).mem ∧
      (getStack t.dev n).clearing = some f ∧ (getStack t.dev n).written = (getStack s.dev n).written + 1 := by
  unfold execPolisherClearBlock
  simp only [hc, ge_iff_le, Nat.not_le.2 hw, if_false]
  exact ⟨_, rfl, by simp, by simp [hc], by simp⟩

end Clearing

/-! ### DSM banks that come back (R89) -/

/-- A key whose entries a filter drops reads the default. -/
theorem tabGet_filter_dropped {α : Type} {d : α} {p : Nat × α → Bool} {k : Nat} (h : ∀ v, p (k, v) = false) (t : Tab α) :
    tabGet d (t.filter p) k = d := by
  induction t with
  | nil => rfl
  | cons e t ih =>
    obtain ⟨j, v⟩ := e
    by_cases hp : p (j, v) = true
    · have hj : j ≠ k := by
        rintro rfl
        simp [h] at hp
      rw [List.filter_cons_of_pos hp]
      simpa only [tabGet, hj, if_false] using ih
    · rw [List.filter_cons_of_neg hp]
      exact ih

/-- Every byte of a DSM bank has the bank's number above its low 21 bits (R117). -/
theorem dsmKey_bank (key : Nat) {y : Nat} (hy : y < 2 ^ 21) :
    dsmKey (key / 64) (key % 64) y / 2 ^ 21 = (2 ^ 42 + key / 64 * 2 ^ 27 + key % 64 * 2 ^ 21) / 2 ^ 21 := by
  unfold dsmKey
  omega

theorem execDsmBankClearDone_cleared (s : State) : ∃ t, execDsmBankClearDone s = .next t ∧
    t.dev.cfg.busy = false ∧ t.dev.cfg.code = 0 ∧ t.tasks = s.tasks ∧ t.reqs = s.reqs ∧ (∀ e ∈ t.mem, e ∈ s.mem) ∧
    ∀ key ∈ dsmKeys s.dev.cfg, ∀ y < 2 ^ 21, memAt t (dsmKey (key / 64) (key % 64) y) = 0#8 := by
  refine ⟨_, rfl, rfl, rfl, wakeForbidden_tasks _, wakeForbidden_reqs _, fun e he => ?_, fun key hkey y hy => ?_⟩
  · rw [endCmd_mem, wakeForbidden_mem] at he
    exact (List.mem_filter.1 he).1
  · rw [memAt, endCmd_mem, wakeForbidden_mem]
    refine tabGet_filter_dropped (fun v => ?_) s.mem
    rw [Bool.not_eq_false', List.any_eq_true]
    exact ⟨key, hkey, beq_iff_eq.2 (dsmKey_bank key hy)⟩

/-- Settles O53, an event at a time, by the lemmas above; a row's refresh and the end of a patrol period are one change of the stack each. -/
theorem memoryEvents : Obligations.MemoryEvents := by
  intro n s k
  refine ⟨⟨fun _ => execPortAdmit_of_next, execPortAdmit_of_none⟩, fun _ _ _ => meetSplit_of_noSplit, fun die bank r hr => ?_,
    fun _ _ => rfl, execActivationWindow_cleared s, execPatrolScrubStep_of_up,
    fun row hr => ⟨execHotScrubStep_of_bad hr, execHotScrubStep_of_clean hr⟩, rfl, fun _ _ => execRetirementCopyDone_of_copying,
    fun _ => execPolisherClearBlock_of_idle, fun _ => execPolisherClearBlock_of_clearing, execDsmBankClearDone_cleared s⟩
  refine ⟨execDsmBankRequest_of_keyless hr, execDsmBankRequest_of_asleep hr,
    fun d b y hk ha hl => ⟨fun ho => ?_, fun ho => ?_, fun new hn => ?_⟩⟩
  · exact execDsmBankRequest_of_read hr hk ha hl ho
  · exact execDsmBankRequest_of_written hr hk ha hl (by rw [ho]; rfl)
  · exact execDsmBankRequest_of_written hr hk ha hl hn

end Sys2Proof.Machine
end

section

/-! ## Configuration commands (O58) -/

namespace Sys2Proof.Machine

/-! ### How a command ends (R88) -/

section Conditions

variable {α : Type} {s : State} {ok : Bool} {code : Nat}

theorem need_bind_of_true (f : Unit → Except Nat α) (h : ok = true) : (need ok code >>= f) = f () := by rw [h]; rfl
theorem need_bind_of_false (f : Unit → Except Nat α) (h : ok = false) : (need ok code >>= f) = .error code := by rw [h]; rfl
theorem need_of_true (h : ok = true) : need ok code = .ok () := by rw [h]; rfl

/-- A command goes on past a condition that holds. -/
theorem runCommand_of_met {f : Unit → Command} {o : Host.Outcome State Fault Refusal} (h : ok = true) (hf : runCommand s (f ()) = o) :
    runCommand s (need ok code >>= f) = o := by
  rw [need_bind_of_true f h, hf]

/-- A command ends at the first condition that does not hold, with its CODE. -/
theorem runCommand_of_unmet {f : Unit → Command} (h : ok = false) : runCommand s (need ok code >>= f) = .next (endCmd code s) := by
  rw [need_bind_of_false f h]
  rfl

end Conditions

/-! ### Partitions, columns and banks (R89) -/

section Partitions

variable {s : State}

theorem execPcreate_of_free (ha : argsIn s.dev.cfg 0x3F#64 0#64 0#64 0#64 = true) (hp : fieldN s.dev.cfg.a0 0 6 < 48)
    (he : partExists s.dev (fieldN s.dev.cfg.a0 0 6) = false) :
    execPcreate s = .next (endCmd 0 (onDev (fun d => { d with parts := d.parts ||| (1#48 <<< fieldN s.dev.cfg.a0 0 6) }) s)) :=
  runCommand_of_met (by simp [ha, hp]) (runCommand_of_met (by simp [he]) rfl)

theorem execPdestroy_of_empty (ha : argsIn s.dev.cfg 0x3F#64 0#64 0#64 0#64 = true) (hp : fieldN s.dev.cfg.a0 0 6 < 48)
    (he : partExists s.dev (fieldN s.dev.cfg.a0 0 6) = true) (ho : partOwns s.dev (fieldN s.dev.cfg.a0 0 6) = false) :
    execPdestroy s = .next (endCmd 0 (onDev (fun d => { d with parts := d.parts &&& ~~~(1#48 <<< fieldN s.dev.cfg.a0 0 6) }) s)) :=
  runCommand_of_met (by simp [ha, hp]) (runCommand_of_met he (runCommand_of_met (by simp [ho]) rfl))

theorem execColassign_of_ok {die tile q : Nat} {assign : Bool} {keys : List Nat} (hdie : fieldN s.dev.cfg.a0 0 3 = die)
    (htile : fieldN s.dev.cfg.a0 8 8 = tile) (hq : fieldN s.dev.cfg.a0 24 6 = q) (has : s.dev.cfg.a0.getLsbD 31 = assign)
    (hkeys : ((List.range 4).filter (fun i => s.dev.cfg.a0.getLsbD (16 + i))).map (colKey die tile) = keys)
    (ha : argsIn s.dev.cfg 0xBF0FFF07#64 0#64 0#64 0#64 = true) (hq48 : q < 48)
    (hc : Config.classT die tile = true → s.dev.cfg.a0.getLsbD 19 = false) (he : assign = true → partExists s.dev q = true)
    (hm : mayAssign s.dev.cols assign q keys = true) (hb : ∀ k ∈ keys, k ∉ busyColumns s) :
    execColassign s = .next (endCmd 0 (wakeForbidden (onDev (fun d => { d with cols := assigned d.cols assign q keys }) (accrueCols s)))) := by
  have hclass : (Config.classT die tile && s.dev.cfg.a0.getLsbD 19) = false := by
    cases h : Config.classT die tile
    · rfl
    · exact hc h
  have hpart : (!assign || partExists s.dev q) = true := by
    cases h : assign
    · rfl
    · exact he h
  have hidle : keys.all (fun k => !(busyColumns s).contains k) = true := by simpa using hb
  subst hdie htile hq has hkeys
  exact runCommand_of_met (by rw [ha, hclass, decide_eq_true hq48]; rfl)
    (runCommand_of_met hpart (runCommand_of_met (by rw [hm, hidle]; rfl) rfl))

theorem execDsmassign_of_ok (ha : argsIn s.dev.cfg 0xBF3F3F07#64 0#64 0#64 0#64 = true) (hq : fieldN s.dev.cfg.a0 24 6 < 48)
    (hn : fieldN s.dev.cfg.a0 8 6 + fieldN s.dev.cfg.a0 16 6 < 64) (has : s.dev.cfg.a0.getLsbD 31 = true)
    (he : partExists s.dev (fieldN s.dev.cfg.a0 24 6) = true)
    (hm : mayAssign s.dev.dsmOwn true (fieldN s.dev.cfg.a0 24 6) (dsmKeys s.dev.cfg) = true) :
    execDsmassign s = .next (endCmd 0 (wakeForbidden (onDev (fun d => { d with
      dsmOwn := assigned d.dsmOwn true (fieldN s.dev.cfg.a0 24 6) (dsmKeys s.dev.cfg) }) s))) := by
  unfold execDsmassign
  extract_lets c p assign keys checks
  have hassign : assign = true := has
  have hc : checks = .ok () := (need_bind_of_true _ (by simp [c, p, ha, hq, hn])).trans
    ((need_bind_of_true _ (by rw [he, Bool.or_true])).trans (need_of_true (by rw [hassign, hm]; rfl)))
  rw [hc, if_pos hassign]

end Partitions

/-! ### Frames, shares and credit (R89, R93) -/

section Pools

variable {s : State}

theorem execPooladd_of_badArgs (ha : poolArgs s.dev.cfg = false) : execPooladd s = .next (endCmd 2 s) := runCommand_of_unmet ha
theorem execPoolrem_of_badArgs (ha : poolArgs s.dev.cfg = false) : execPoolrem s = .next (endCmd 2 s) := runCommand_of_unmet ha
theorem execPooladd_of_down (ha : poolArgs s.dev.cfg = true) (hu : (getStack s.dev (fieldN s.dev.cfg.a0 0 5)).up = false) :
    execPooladd s = .next (endCmd 4 s) := runCommand_of_met ha (runCommand_of_unmet (by rw [hu, Bool.and_false]))

variable (ha : poolArgs s.dev.cfg = true) (he : partExists s.dev (fieldN s.dev.cfg.a0 8 6) = true)
include ha he

theorem execPooladd_of_free (hu : (getStack s.dev (fieldN s.dev.cfg.a0 0 5)).up = true)
    (hf : (poolRange s.dev.cfg).all (fun fr =>
      let f := getFrame s.dev (fieldN s.dev.cfg.a0 0 5) fr
      !f.spare && f.quar == 0 && f.own == 0 && f.pool == 0) = true) :
    execPooladd s = .next (endCmd 0 ((poolRange s.dev.cfg).foldl
      (fun t fr => onFrame (fieldN s.dev.cfg.a0 0 5) fr (fun f => { f with pool := fieldN s.dev.cfg.a0 8 6 + 1 }) t) s)) :=
  runCommand_of_met ha (runCommand_of_met (by rw [he, hu]; rfl) (runCommand_of_met hf rfl))

theorem execPoolrem_of_unowned (hf : (poolRange s.dev.cfg).all (fun fr =>
      let f := getFrame s.dev (fieldN s.dev.cfg.a0 0 5) fr
      f.pool == fieldN s.dev.cfg.a0 8 6 + 1 && f.own == 0) = true) :
    execPoolrem s = .next (endCmd 0 ((poolRange s.dev.cfg).foldl
      (fun t fr => onFrame (fieldN s.dev.cfg.a0 0 5) fr (fun f => { f with pool := 0 }) t) s)) := by
  have hframe := fun fr hfr => Bool.and_eq_true_iff.1 (List.all_eq_true.1 hf fr hfr)
  have hpool : (poolRange s.dev.cfg).all (fun fr => (getFrame s.dev (fieldN s.dev.cfg.a0 0 5) fr).pool == fieldN s.dev.cfg.a0 8 6 + 1) = true :=
    List.all_eq_true.2 fun fr hfr => (hframe fr hfr).1
  have hown : (poolRange s.dev.cfg).all (fun fr => (getFrame s.dev (fieldN s.dev.cfg.a0 0 5) fr).own == 0) = true :=
    List.all_eq_true.2 fun fr hfr => (hframe fr hfr).2
  exact runCommand_of_met ha (runCommand_of_met (by rw [he, hpool]; rfl) (runCommand_of_met hown rfl))

end Pools

section Shares

variable {s : State}

theorem execUashare_of_idle (ha : argsIn s.dev.cfg 0x3F7F#64 0xFFFF#64 0#64 0#64 = true) (hp : fieldN s.dev.cfg.a0 8 6 < 48)
    (hport : fieldN s.dev.cfg.a0 0 7 < 72) (he : partExists s.dev (fieldN s.dev.cfg.a0 8 6) = true)
    (hi : portsInUse s.dev (fieldN s.dev.cfg.a0 8 6) = false) :
    execUashare s = .next (endCmd 0 (onDev (fun d => { d with
      shares := tabSet 0 d.shares (fieldN s.dev.cfg.a0 0 7 * 64 + fieldN s.dev.cfg.a0 8 6) s.dev.cfg.a1.toNat }) s)) :=
  runCommand_of_met (by simp [ha, hp, hport]) (runCommand_of_met he (runCommand_of_met (by simp [hi]) rfl))

theorem execCredit_of_present (ha : argsIn s.dev.cfg 0x3FF#64 (BitVec.allOnes 64) 0#64 0#64 = true)
    (hv : (getVf s.dev (fieldN s.dev.cfg.a0 0 10)).state ≠ 0) :
    execCredit s = .next (endCmd 0 (quotaCheck (fieldN s.dev.cfg.a0 0 10) (addAcct (fieldN s.dev.cfg.a0 0 10) s.dev.cfg.a1.toInt s))) :=
  runCommand_of_met ha (runCommand_of_met (bne_iff_ne.2 hv) rfl)

end Shares

/-! ### Virtual functions (R90 to R92) -/

/-- The retirement remap says where a frame lies, and nothing else does (R41). -/
theorem remapFrame_congr {d e : Dev} (h : d.remap = e.remap) (n fr : Nat) : remapFrame d n fr = remapFrame e n fr := by
  simp only [remapFrame, h]

/-- Frames that a VF takes change where no frame lies. -/
theorem onFrames_remap (n : Nat) (f : Nat → Frame → Frame) (l : List Nat) (s : State) :
    (l.foldl (fun t fr => onFrame n fr (f fr) t) s).dev.remap = s.dev.remap :=
  foldl_keeps (g := fun s => s.dev.remap) (f := fun t fr => onFrame n fr (f fr) t) (fun _ _ => rfl) l s

theorem zeroRange_mem_congr {s t : State} (h : t.mem = s.mem) (n p len : Nat) : (zeroRange n p len t).mem = (zeroRange n p len s).mem := by
  simp only [zeroRange, h]

/-- The VF that VCREATE makes of its arguments where PROT is 0 (R90). -/
def createdVf (c : Cfg) : Vf :=
  { vfAbsent with
    part := fieldN c.a0 16 6, state := 1, die := fieldN c.a0 24 3, prot := false, cust := c.a0.getLsbD 33, slot := fieldN c.a0 40 8
    msiData := fieldN c.a0 48 16, msiAddr := c.a3, btStack := (frameAddr c.a1).1, btFrame := (frameAddr c.a1).2
    svStack := (frameAddr c.a2).1, svFrame := (frameAddr c.a2).2 }

@[simp] theorem getVf_endCmd (code v : Nat) (s : State) : getVf (endCmd code s).dev v = getVf s.dev v := rfl

section Vcreate

variable {s : State} {v q : Nat} {bt sv : Nat × Nat}

/-- The frames of a new VF's save slots are free, and the frame of its buffer table is none of them (R90). -/
theorem vcreate_frames_ok {d : Dev} (hb : inPool d q bt.1 bt.2 = true) (h512 : sv.2 + 512 ≤ 65536)
    (hs : ∀ i < 512, inPool d q sv.1 (sv.2 + i) = true) (hd : sv.1 = bt.1 → bt.2 < sv.2 ∨ sv.2 + 512 ≤ bt.2) :
    (inPool d q bt.1 bt.2 && decide (sv.2 + 512 ≤ 65536) && ((List.range 512).map (sv.2 + ·)).all (fun fr => inPool d q sv.1 fr)
      && !(sv.1 == bt.1 && ((List.range 512).map (sv.2 + ·)).contains bt.2)) = true := by
  have hsaves : ((List.range 512).map (sv.2 + ·)).all (fun fr => inPool d q sv.1 fr) = true := by
    rw [List.all_map, List.all_eq_true]
    exact fun i hi => hs i (List.mem_range.1 hi)
  have happart : (sv.1 == bt.1 && ((List.range 512).map (sv.2 + ·)).contains bt.2) = false := by
    rw [Bool.and_eq_false_iff, ← Bool.not_eq_true, ← Bool.not_eq_true, beq_iff_eq, List.contains_iff_mem, List.mem_map,
      ← not_and_or]
    rintro ⟨h, i, hi, hbt⟩
    have := hd h
    have := List.mem_range.1 hi
    omega
  rw [hb, hsaves, happart, decide_eq_true h512]
  rfl

theorem execVcreate_of_ok (hv : fieldN s.dev.cfg.a0 0 10 = v) (hq : fieldN s.dev.cfg.a0 16 6 = q) (hbt : frameAddr s.dev.cfg.a1 = bt)
    (hsv : frameAddr s.dev.cfg.a2 = sv)
    (ha : argsIn s.dev.cfg 0xFFFFFF03073F03FF#64 0xFFFFFFFFFFFF#64 0xFFFFFFFFFFFF#64 (BitVec.allOnes 64) = true) (hq48 : q < 48)
    (h1 : frameAddrOk s.dev.cfg.a1 = true) (h2 : frameAddrOk s.dev.cfg.a2 = true) (h3 : fieldN s.dev.cfg.a3 0 2 = 0)
    (h0 : (getVf s.dev v).state = 0) (he : partExists s.dev q = true) (hb : inPool s.dev q bt.1 bt.2 = true) (h512 : sv.2 + 512 ≤ 65536)
    (hs : ∀ i < 512, inPool s.dev q sv.1 (sv.2 + i) = true) (hd : sv.1 = bt.1 → bt.2 < sv.2 ∨ sv.2 + 512 ≤ bt.2)
    (hprot : s.dev.cfg.a0.getLsbD 32 = false) :
    ∃ t, execVcreate s = .next t ∧ t.dev.cfg.busy = false ∧ t.dev.cfg.code = 0 ∧
      t.mem = (zeroRange bt.1 (remapFrame t.dev bt.1 bt.2 * 2 ^ 21) (2 ^ 21) s).mem ∧
      getVf t.dev v = createdVf s.dev.cfg := by
  have hargs : (argsIn s.dev.cfg 0xFFFFFF03073F03FF#64 0xFFFFFFFFFFFF#64 0xFFFFFFFFFFFF#64 (BitVec.allOnes 64) && decide (q < 48)
      && frameAddrOk s.dev.cfg.a1 && frameAddrOk s.dev.cfg.a2 && fieldN s.dev.cfg.a3 0 2 == 0) = true := by
    rw [ha, h1, h2, h3, decide_eq_true hq48]
    rfl
  have hframes := vcreate_frames_ok hb h512 hs hd
  obtain ⟨u, hmem, hremap, hrun⟩ : ∃ u, u.mem = s.mem ∧ u.dev.remap = s.dev.remap ∧ execVcreate s =
      .next (endCmd 0 (onVf v (fun _ => createdVf s.dev.cfg) (zeroRange bt.1 (remapFrame s.dev bt.1 bt.2 * 2 ^ 21) (2 ^ 21) u))) := by
    subst hv hq hbt hsv
    refine ⟨_, ?_, ?_, runCommand_of_met hargs (runCommand_of_met (beq_iff_eq.2 h0) (runCommand_of_met he (runCommand_of_met hframes
      (runCommand_of_met (by simp only [hprot]; rfl) (by rw [hprot]; rfl)))))⟩
    · exact onFrames_mem ..
    · exact onFrames_remap ..
  refine ⟨_, hrun, rfl, rfl, ?_, (getVf_endCmd ..).trans (getVf_onVf_same ..)⟩
  rw [endCmd_mem, onVf_mem, zeroRange_mem_congr hmem]
  exact congrArg (fun fr => (zeroRange bt.1 (fr * 2 ^ 21) (2 ^ 21) s).mem) (remapFrame_congr hremap.symm ..)

end Vcreate

section Vreset

variable {s : State}

theorem execVreset_of_absent (ha : argsIn s.dev.cfg 0x3FF#64 0#64 0#64 0#64 = true)
    (hv : (getVf s.dev (fieldN s.dev.cfg.a0 0 10)).state = 0) : execVreset s = .next (endCmd 4 s) := by
  simp [execVreset, ha, hv]

theorem execVreset_of_reset (ha : argsIn s.dev.cfg 0x3FF#64 0#64 0#64 0#64 = true)
    (hv : (getVf s.dev (fieldN s.dev.cfg.a0 0 10)).state = 5) : execVreset s = .next (endCmd 0 s) := by
  simp [execVreset, ha, hv]

theorem execVreset_of_present (ha : argsIn s.dev.cfg 0x3FF#64 0#64 0#64 0#64 = true)
    (h0 : (getVf s.dev (fieldN s.dev.cfg.a0 0 10)).state ≠ 0) (h5 : (getVf s.dev (fieldN s.dev.cfg.a0 0 10)).state ≠ 5) :
    let t := onVf (fieldN s.dev.cfg.a0 0 10) (fun q => { q with state := 4, rstep := 0, subs := [], gscred := 64, chain := [], objects := 0 }) s
    execVreset s = .next (cancelNodes 3 (vfNodes t.dev (fieldN s.dev.cfg.a0 0 10)) t) := by
  simp only [execVreset, ha, h0, h5, Bool.not_true, Bool.false_eq_true, if_false]

theorem execVdestroy_of_reset (ha : argsIn s.dev.cfg 0x3FF#64 0#64 0#64 0#64 = true)
    (hv : (getVf s.dev (fieldN s.dev.cfg.a0 0 10)).state = 5) :
    execVdestroy s = .next (endCmd 0 (onDev (fun d => { d with
        charges := d.charges.filter (fun e => e.1 / 128 != fieldN s.dev.cfg.a0 0 10), owed := tabSet 0 d.owed (fieldN s.dev.cfg.a0 0 10) 0 })
      (onVf (fieldN s.dev.cfg.a0 0 10) (fun _ => vfAbsent) s))) :=
  runCommand_of_met ha (runCommand_of_met (beq_iff_eq.2 hv) rfl)

theorem execVdestroy_of_other (ha : argsIn s.dev.cfg 0x3FF#64 0#64 0#64 0#64 = true)
    (hv : (getVf s.dev (fieldN s.dev.cfg.a0 0 10)).state ≠ 5) : execVdestroy s = .next (endCmd 3 s) :=
  runCommand_of_met ha (runCommand_of_unmet (beq_eq_false_iff_ne.2 hv))

end Vreset

/-! ### The steps of a VF's reset (R92, R159) -/

section VresetSteps

variable {s : State} {v : Nat} (h4 : (getVf s.dev v).state = 4)
include h4

theorem execVresetComplete_of_tasksOver (hr : (getVf s.dev v).rstep = 0) (ht : ∀ e ∈ s.dev.nodes, e.2.vf = v → e.2.kind ≠ 1) :
    execVresetComplete v s = .next (withdrawAll v (onVf v (fun q => { q with rstep := 1 }) s)) := by
  have hd : vresetDue s v = true := by
    simp only [vresetDue, h4, hr, beq_self_eq_true, Bool.true_and, List.all_eq_true, List.mem_filter, beq_iff_eq, bne_iff_ne, and_imp]
    exact ht
  simp only [execVresetComplete, hd, hr, Bool.not_true, Bool.false_eq_true, if_false]

theorem execVresetComplete_of_nodesOver (hr : (getVf s.dev v).rstep = 1) (hn : ∀ e ∈ s.dev.nodes, e.2.vf ≠ v) :
    execVresetComplete v s = .next (releaseLate v (onVf v (fun q => { q with rstep := 2 }) s)) := by
  have hd : vresetDue s v = true := by
    simp only [vresetDue, h4, hr, beq_self_eq_true, Bool.true_and, List.isEmpty_iff, List.filter_eq_nil_iff, beq_iff_eq]
    exact hn
  simp only [execVresetComplete, hd, hr, Bool.not_true, Bool.false_eq_true, if_false]

theorem execVresetComplete_of_leasesOver (hr : (getVf s.dev v).rstep = 2)
    (hl : ∀ r ∈ s.dev.releases, r.vf ≠ v ∧ ∀ f, r.what = .inr f → f.vf ≠ v) : execVresetComplete v s = .next (endVreset v s) := by
  have hd : vresetDue s v = true := by
    simp only [vresetDue, h4, hr, beq_self_eq_true, Bool.true_and, Bool.not_eq_true', List.any_eq_false, Bool.or_eq_true, beq_iff_eq]
    rintro r hmem (hv | hw)
    · exact (hl r hmem).1 hv
    · split at hw
      · next f hf => exact (hl r hmem).2 f hf (beq_iff_eq.1 hw)
      · cases hw
  simp only [execVresetComplete, hd, hr, Bool.not_true, Bool.false_eq_true, if_false]

end VresetSteps

/-! ### Keys, attestation and the certificate (R104 to R106) -/

section Keys

variable {s : State}

theorem execKeyload_of_ok (ha : argsIn s.dev.cfg 0x3FFF#64 (BitVec.allOnes 64) 0#64 0#64 = true) (hp : fieldN s.dev.cfg.a0 8 6 < 48)
    (he : partExists s.dev (fieldN s.dev.cfg.a0 8 6) = true) (hs : tabFind s.dev.trust.slots (fieldN s.dev.cfg.a0 0 8) = none)
    (hk : (transportKey s.dev).isSome = true) :
    execKeyload s = .next (startRead .key s.dev.cfg.a1 0 512 (onCfg (fun c => { c with buf := [] }) s)) := by
  unfold execKeyload
  extract_lets c p checks
  have hc : checks = .ok () := (need_bind_of_true _ (Bool.and_eq_true_iff.2 ⟨ha, decide_eq_true hp⟩)).trans
    ((need_bind_of_true _ he).trans ((need_bind_of_true _ (Option.isNone_iff_eq_none.2 hs)).trans (need_of_true hk)))
  rw [hc]

theorem execAttest_of_ok (ha : argsIn s.dev.cfg 0x3FF#64 (BitVec.allOnes 64) (BitVec.allOnes 64) 0#64 = true)
    (hv : (getVf s.dev (fieldN s.dev.cfg.a0 0 10)).state ≠ 0) (hi : idOk s.dev = true) :
    execAttest s = .next (startRead .nonce s.dev.cfg.a1 0 64 (onCfg (fun c => { c with buf := [] }) s)) := by
  unfold execAttest
  extract_lets c v checks
  have hc : checks = .ok () := (need_bind_of_true _ ha).trans ((need_bind_of_true _ (bne_iff_ne.2 hv)).trans (need_of_true hi))
  rw [hc]

theorem execIdcert_of_args (ha : argsIn s.dev.cfg 0#64 (BitVec.allOnes 64) (BitVec.allOnes 64) 0#64 = true) :
    execIdcert s = .next (if Config.certificate.length ≤ s.dev.cfg.a2.toNat then
      endCmd 0 (hostWriteAll 1025 s.dev.cfg.a1 Config.certificate s) else endCmd 5 s) := by
  refine runCommand_of_met ha ?_
  split
  · next h => exact runCommand_of_met (decide_eq_true h) rfl
  · next h => exact runCommand_of_unmet (decide_eq_false h)

end Keys

/-- Settles O58, a command at a time: each meets its conditions in the order of its checks. -/
theorem configCommands : Obligations.ConfigCommands := by
  intro s c v p p8 done
  refine ⟨fun ha hp => ⟨execPcreate_of_free ha hp, execPdestroy_of_empty ha hp⟩, execColassign_of_ok rfl rfl rfl rfl rfl,
    execDsmassign_of_ok, fun ha => ⟨execPooladd_of_badArgs ha, execPoolrem_of_badArgs ha⟩, execPooladd_of_down,
    fun ha he => ⟨execPooladd_of_free ha he, execPoolrem_of_unowned ha he⟩, execUashare_of_idle, execCredit_of_present,
    execVcreate_of_ok rfl rfl rfl rfl,
    fun ha => ⟨execVreset_of_absent ha, execVreset_of_reset ha, execVreset_of_present ha, execVdestroy_of_reset ha, execVdestroy_of_other ha⟩,
    fun w h4 => ⟨execVresetComplete_of_tasksOver h4, execVresetComplete_of_nodesOver h4,
      fun hr hl => ⟨execVresetComplete_of_leasesOver h4 hr hl, _, rfl⟩⟩,
    execKeyload_of_ok, execAttest_of_ok, execIdcert_of_args⟩

end Sys2Proof.Machine
end

section

/-! ## Register writes with an event of their own, and the clock's events (O59) -/

namespace Sys2Proof.Machine

/-! ### Changes of one part of the device, by what they leave there -/

theorem onVf_eq_of_image {v : Nat} {f : Vf → Vf} {s : State} {h : Vf} (hf : f (getVf s.dev v) = h) :
    onVf v f s = { s with dev := setVf v h s.dev } := by
  subst hf
  rfl

/-- What a VF's register holds after a write, with the wake of the VF's home die (R23). -/
theorem next_wakeHome_onVf {v : Nat} {s : State} {f : Vf → Vf} {h : Vf} (hf : f (getVf s.dev v) = h) :
    (.next (wakeHome v (onVf v f s)) : Host.Outcome State Fault Refusal) = .next (wakeHome v { s with dev := setVf v h s.dev }) :=
  congrArg (fun t => Host.Outcome.next (wakeHome v t)) (onVf_eq_of_image hf)

theorem next_onGtc {s : State} {f : Gtc → Gtc} {h : Gtc} (hf : f s.dev.gtc = h) :
    (.next (onGtc f s) : Host.Outcome State Fault Refusal) = .next { s with dev := { s.dev with gtc := h } } := by
  subst hf
  rfl

/-- A limit below and a limit above, in either order (R18, R73, R94). -/
theorem max_min_eq_ite {lo hi : Nat} (h : lo ≤ hi) (x : Nat) : max lo (min hi x) = if x < lo then lo else if hi < x then hi else x := by
  split
  · omega
  · split <;> omega
theorem min_max_eq_ite {lo hi : Nat} (h : lo ≤ hi) (x : Nat) : min hi (max lo x) = if x < lo then lo else if hi < x then hi else x := by
  rw [← max_min_eq_ite h x]
  omega
theorem max_eq_ite (lo x : Nat) : max lo x = if x < lo then lo else x := by
  split <;> omega

/-! ### Power, patrol and the Loupe (R18, R51, R87) -/

theorem execPlimWrite_eq (w : Word) (s : State) : execPlimWrite w s = .next (onDev (fun d => { d with
    plim := if fieldN w 0 16 < 1500 then 1500 else if 4200 < fieldN w 0 16 then 4200 else fieldN w 0 16 }) s) := by
  rw [execPlimWrite, max_min_eq_ite (by omega)]

theorem execScrubctlWrite_eq (n : Nat) (w : Word) (s : State) : execScrubctlWrite n w s = .next (onStack n (fun k => { k with
    period := if fieldN w 0 8 = 0 then 24 else if fieldN w 0 8 < 6 then 6 else fieldN w 0 8 }) s) := by
  rw [execScrubctlWrite, max_eq_ite]

theorem execLoupeArm_of_set {w : Word} (s : State) (h : w.getLsbD 0 = true) :
    execLoupeArm w s = .next (onDev (fun d => { d with loupe := { s.dev.loupe with
      arm := true, full := false, pos := 0, abase := s.dev.loupe.base, alen := s.dev.loupe.len.toNat } }) s) := by
  simp only [execLoupeArm, h, if_true]

theorem execLoupeArm_of_clear {w : Word} (s : State) (h : w.getLsbD 0 = false) :
    execLoupeArm w s = .next (onDev (fun d => { d with loupe := { s.dev.loupe with arm := false } }) s) := by
  simp only [execLoupeArm, h, Bool.false_eq_true, if_false]

/-! ### Global time (R72 to R75) -/

section Time

variable {s : State}

theorem execGtcincWrite_eq (w : Word) (s : State) : execGtcincWrite w s = .next (onGtc (fun g => { g with
    inc := if fieldN w 0 48 < 10989618719622 then 10989618719622 else if 11000613835898 < fieldN w 0 48 then 11000613835898
      else fieldN w 0 48 }) s) := by
  rw [execGtcincWrite, min_max_eq_ite (by omega)]

/-- A correction of less than 1 µs is a slew (R74). -/
theorem execGtcadjWrite_of_slew {w : Word} (h : (w.extractLsb' 0 48).toInt * 2 ^ 24 < 1000 * 2 ^ 40) :
    execGtcadjWrite w s = .next { s with dev := { s.dev with gtc := { s.dev.gtc with
      hold := false, adjAt := s.cyc, app := 0, slew := (w.extractLsb' 0 48).toInt * 2 ^ 24 } } } :=
  next_onGtc (if_neg (Int.not_le.2 h))

theorem execGtcadjWrite_of_step {w : Word} (h : 1000 * 2 ^ 40 ≤ (w.extractLsb' 0 48).toInt * 2 ^ 24) :
    execGtcadjWrite w s = .next { s with dev := { s.dev with gtc := { s.dev.gtc with
      hold := false, adjAt := s.cyc, app := 0, stepBy := s.dev.gtc.stepBy + ((w.extractLsb' 0 48).toInt * 2 ^ 24).toNat, slew := 0 } } } :=
  next_onGtc (if_pos h)

theorem execGtcsetWrite_of_unset (w : Word) (h : s.dev.gtc.valid = false) :
    execGtcsetWrite w s = .next { s with dev := { s.dev with gtc := { s.dev.gtc with t := w.toNat * 2 ^ 40, valid := true } } } :=
  next_onGtc (if_neg (Bool.eq_false_iff.1 h))

theorem execGtcsetWrite_of_set (w : Word) (h : s.dev.gtc.valid = true) : execGtcsetWrite w s = .next s :=
  next_onGtc (if_pos h)

theorem execGtcSlewDone_of_absorbed (h : s.dev.gtc.slew = 0) :
    execGtcSlewDone s = .next { s with dev := { s.dev with gtc := { s.dev.gtc with app := 0 } } } :=
  next_onGtc (if_pos h)

/-- Two seconds without an adjustment. -/
theorem execGtcHoldover_of_late (h : s.dev.gtc.adjAt + holdAfter ≤ s.cyc) :
    execGtcHoldover s = .next { s with dev := { s.dev with gtc := { s.dev.gtc with hold := true } } } :=
  next_onGtc (if_pos h)

end Time

/-! ### Registers of a VF (R94, R97) -/

section VfRegisters

variable {v : Nat} {w : Word} {s : State}

theorem execVfstatDegWrite_of_degraded (hw : w.getLsbD 7 = true) (h : (getVf s.dev v).state = 2) :
    execVfstatDegWrite v w s = .next (wakeHome v { s with dev := setVf v { getVf s.dev v with state := 1 } s.dev }) :=
  next_wakeHome_onVf (if_pos ⟨hw, h⟩)

theorem execVfstatDegWrite_of_other (h : w.getLsbD 7 = false ∨ (getVf s.dev v).state ≠ 2) :
    execVfstatDegWrite v w s = .next (wakeHome v { s with dev := setVf v (getVf s.dev v) s.dev }) :=
  next_wakeHome_onVf (if_neg fun ⟨hw, h2⟩ => h.elim (fun h => Bool.eq_false_iff.1 h hw) (· h2))

theorem execEqctlWrite_of_enabled (h : (getVf s.dev v).eqen = true) :
    execEqctlWrite v w s = .next (wakeHome v { s with dev := setVf v { getVf s.dev v with eqen := w.getLsbD 63 } s.dev }) :=
  next_wakeHome_onVf (if_pos h)

/-- The size that a write of EQCTL gives a queue that is off: 2^6 to 2^16 records (R94). -/
def eqlogOf (w : Word) : Nat := if fieldN w 0 5 < 6 then 6 else if 16 < fieldN w 0 5 then 16 else fieldN w 0 5

theorem execEqctlWrite_of_enabling (h : (getVf s.dev v).eqen = false) (hw : w.getLsbD 63 = true) :
    execEqctlWrite v w s = .next (wakeHome v { s with dev := setVf v { getVf s.dev v with
      eqen := true, eqlog := eqlogOf w, eqhead := 0#32, eqtail := 0#32 } s.dev }) := by
  rw [eqlogOf, ← min_max_eq_ite (by omega)]
  exact next_wakeHome_onVf ((if_neg (Bool.eq_false_iff.1 h)).trans (if_pos hw))

theorem execEqctlWrite_of_off (h : (getVf s.dev v).eqen = false) (hw : w.getLsbD 63 = false) :
    execEqctlWrite v w s = .next (wakeHome v { s with dev := setVf v { getVf s.dev v with eqlog := eqlogOf w } s.dev }) := by
  rw [eqlogOf, ← min_max_eq_ite (by omega)]
  exact next_wakeHome_onVf ((if_neg (Bool.eq_false_iff.1 h)).trans (if_neg (Bool.eq_false_iff.1 hw)))

/-- EQHEAD takes a value between itself and EQTAIL, round the ring; any other sets HEADBAD (R97). -/
theorem execEqheadWrite_of_within
    (h : (w.extractLsb' 0 32 - (getVf s.dev v).eqhead).toNat ≤ ((getVf s.dev v).eqtail - (getVf s.dev v).eqhead).toNat) :
    execEqheadWrite v w s =
      .next (wakeHome v { s with dev := setVf v { getVf s.dev v with eqhead := w.extractLsb' 0 32 } s.dev }) :=
  next_wakeHome_onVf (if_pos h)

theorem execEqheadWrite_of_outside
    (h : ((getVf s.dev v).eqtail - (getVf s.dev v).eqhead).toNat < (w.extractLsb' 0 32 - (getVf s.dev v).eqhead).toNat) :
    execEqheadWrite v w s =
      .next (wakeHome v { s with dev := setVf v { getVf s.dev v with gerr := (getVf s.dev v).gerr ||| 8#4 } s.dev }) :=
  next_wakeHome_onVf (if_neg (Nat.not_le.2 h))

end VfRegisters

/-! ### Event records and the interrupt timer (R97, R100) -/

theorem execEqInterruptTimer_of_due {v : Nat} {s : State} (h : timerDue s (getVf s.dev v) = true) :
    execEqInterruptTimer v s = .next (sendIntr v s) := if_pos h
theorem execEqInterruptTimer_of_notDue {v : Nat} {s : State} (h : timerDue s (getVf s.dev v) = false) :
    execEqInterruptTimer v s = .next s := if_neg (Bool.eq_false_iff.1 h)

theorem execEventRecordWrite_of_room {v : Nat} {s : State} {r : Record} {rest : List Record} (hq : (getVf s.dev v).held = r :: rest)
    (hw : canWrite (getVf s.dev v) = true) :
    let q := getVf s.dev v
    let a := q.eqbase + w64 (128 * (q.eqtail.toNat % 2 ^ q.eqlog))
    let b := recordBytes r (q.eqtail.toNat / 2 ^ q.eqlog % 2 == 0)
    execEventRecordWrite v s = .next (intrByCount v (onVf v (fun x => { x with
        held := rest, eqtail := x.eqtail + 1#32, since := x.since + 1, stamp1 := if q.since = 0 then s.cyc else q.stamp1 })
      (hostWriteAll v (a + 120#64) (b.drop 120) (hostWriteAll v a (b.take 120) s)))) := by
  simp only [execEventRecordWrite, hq, hw, Bool.not_true, Bool.false_eq_true, if_false]

/-- Settles O59, a register at a time. -/
theorem registerWriteEvents : Obligations.RegisterWriteEvents := by
  intro n v w s g q withGtc withVf f16
  refine ⟨execPlimWrite_eq w s, rfl, fun _ => wakeForbidden_of_tolerated, execScrubctlWrite_eq n w s, execGtcincWrite_eq w s,
    ⟨execGtcadjWrite_of_slew, execGtcadjWrite_of_step⟩, execGtcsetWrite_of_unset w, execGtcsetWrite_of_set w, execGtcSlewDone_of_absorbed,
    execGtcHoldover_of_late, execLoupeArm_of_set s, execLoupeArm_of_clear s, rfl, execVfstatDegWrite_of_degraded, execVfstatDegWrite_of_other,
    ⟨execEqctlWrite_of_enabled, execEqctlWrite_of_enabling, execEqctlWrite_of_off⟩,
    ⟨execEqheadWrite_of_within, execEqheadWrite_of_outside⟩, fun _ _ => execEventRecordWrite_of_room, execEqInterruptTimer_of_due,
    execEqInterruptTimer_of_notDue⟩

end Sys2Proof.Machine
end

section

/-! ## Power units, resets and the firmware check (O60) -/

namespace Sys2Proof.Machine

/-! ### Resets, power-on and binning (R39, R86, R103) -/

section Resets

variable {s : State}

theorem execDeviceReset_of_inService (h : inService s.dev = true) :
    execDeviceReset s = .next (resetDevice (onHost (fun h => { h with rst := true }) s)) := if_pos h
theorem execSidebandReset_of_inService (h : inService s.dev = true) : execSidebandReset s = .next (resetDevice s) := if_pos h
theorem execDeviceReset_of_out (h : inService s.dev = false) : execDeviceReset s = .next s := if_neg (Bool.eq_false_iff.1 h)
theorem execSidebandReset_of_out (h : inService s.dev = false) : execSidebandReset s = .next s := if_neg (Bool.eq_false_iff.1 h)

end Resets

/-- FWFLOOR never falls: an image that is accepted may raise it (R103). -/
theorem fwfloor_le_raised (c : Prop) [Decidable c] (floor n : Nat) : floor ≤ if c then max floor n else floor := by
  split
  · exact le_max_left ..
  · exact le_rfl

/-- An accepted image starts every stack's port again, in a device that is ready; any other raises the alarm (R103, R109). -/
theorem execFirmwareVerify_eq (bs : List Byte) (s : State) : ∃ u,
    execFirmwareVerify bs s = .next (if firmwareOk s.dev.host.fwfloor bs = true then (List.range 32).foldl resumeStack u
      else alarm 3 (onHost (fun h => { h with fwerr := true, resetting := false, rst := false }) s)) ∧
    u = { s with dev := u.dev } ∧ u.dev.host.ready = true ∧ u.dev.host.resetting = false ∧ u.dev.host.rst = false ∧
    u.dev.host.image = Config.sha512 bs ∧ s.dev.host.fwfloor ≤ u.dev.host.fwfloor :=
  ⟨_, (apply_ite Host.Outcome.next ..).symm, rfl, rfl, rfl, rfl, rfl, fwfloor_le_raised ..⟩

/-- A table that holds one value at each of its keys. -/
theorem tabGet_map_const {α : Type} (d x : α) (l : List Nat) (n : Nat) :
    tabGet d (l.map (fun k => (k, x))) n = if n ∈ l then x else d := by
  induction l with
  | nil => rfl
  | cons k l ih =>
    rw [List.map_cons, tabGet, ih]
    by_cases h : k = n
    · subst h; simp
    · simp [h, Ne.symm h]

/-- At power-on the stacks that train are up, and no others (R39). -/
theorem execPackagePowerOn_eq (stk : BitVec 32) (mods : BitVec 4) (s : State) : ∃ t, execPackagePowerOn stk mods s = .next t ∧
    t.mem = [] ∧ t.tasks = [] ∧ t.reqs = [] ∧ t.dev.host.powered = true ∧ t.dev.host.ready = false ∧ t.dev.trust.hold = false ∧
    t.dev.host.mods = mods ∧ t.dev.host.fwfloor = s.dev.host.fwfloor ∧ ∀ n < 32, (getStack t.dev n).up = stk.getLsbD n := by
  refine ⟨_, rfl, rfl, rfl, rfl, rfl, rfl, rfl, rfl, rfl, fun n hn => ?_⟩
  rw [getStack, tabGet_map_const, apply_ite Stack.up]
  have hmem : n ∈ (List.range 32).filter (fun n => stk.getLsbD n) ↔ stk.getLsbD n = true := by
    rw [List.mem_filter, List.mem_range, and_iff_right hn]
  split
  · next h => exact (hmem.1 h).symm
  · next h => exact (Bool.eq_false_iff.2 (mt hmem.2 h)).symm

theorem execBinningComplete_of_binning {s : State} (h : s.dev.host.binning = true) :
    execBinningComplete [] s = .next (beginFetch (onDev (fun d => { d with
      hbm := d.hbm.map (fun e => (e.1, { e.2 with binned := e.2.up })), host := { d.host with binning := false } }) s)) := by
  rw [execBinningComplete, h]
  rfl

/-! ### The arbiter's epochs (R12, R15) -/

@[simp] theorem loupeArbiter_tasks (code n grant : Nat) (s : State) : (loupeArbiter code n grant s).tasks = s.tasks := loupe_tasks ..
@[simp] theorem loupeArbiter_agenda (code n grant : Nat) (s : State) : (loupeArbiter code n grant s).agenda = s.agenda := loupe_agenda ..
@[simp] theorem loupeArbiter_epoch (code n grant : Nat) (s : State) : (loupeArbiter code n grant s).dev.epoch = s.dev.epoch :=
  loupe_epoch ..

/-- What the new limits of dies and stacks leave alone: the epoch's number, memory, tasks and what is left of the cyc. -/
def besideLimits (s : State) : BitVec 32 × Tab Byte × Tab Task × List Act := (s.dev.epoch, s.mem, s.tasks, s.agenda)

theorem besideLimits_epochDie (d0 : Dev) (s : State) (i : Nat) : besideLimits (epochDie d0 i s) = besideLimits s := by
  unfold epochDie
  dsimp only [besideLimits, onDev, setDie]
  split <;> simp
theorem besideLimits_epochStack (d0 : Dev) (s : State) (n : Nat) : besideLimits (epochStack d0 n s) = besideLimits s := by
  unfold epochStack
  dsimp only [besideLimits, onDev, setStack]
  split <;> simp

theorem execArbiterEpoch_eq (s : State) : ∃ t, execArbiterEpoch s = .next (onDev (fun d => { d with
      epoch := d.epoch + 1#32, pkgw := measuredPower s.dev 40 / 16 % 65536 }) (chargeEpoch t)) ∧
    t.dev.epoch = s.dev.epoch ∧ t.mem = s.mem ∧ t.tasks = s.tasks ∧ t.agenda = s.agenda := by
  have limited : besideLimits ((List.range 32).foldl (fun t n => epochStack s.dev n t)
      ((List.range 8).foldl (fun t i => epochDie s.dev i t) s)) = besideLimits s :=
    (foldl_keeps (besideLimits_epochStack s.dev) _ _).trans (foldl_keeps (besideLimits_epochDie s.dev) _ _)
  simp only [besideLimits, Prod.mk.injEq] at limited
  exact ⟨_, rfl, limited⟩

theorem execFastLimiter_eq (die : Nat) (s : State) :
    execFastLimiter die s = .next (loupeArbiter 1 die (getDie s.dev die).grant (onDev (fun d => setDie die { getDie s.dev die with
      cap := if (getDie s.dev die).cap / 2 < 16 then 16 else (getDie s.dev die).cap / 2 } { d with fast := true }) s)) := by
  rw [execFastLimiter, max_eq_ite]

/-! ### Temperatures (R24, R109) -/

/-- The later readings keep or raise the highest so far. -/
theorem foldl_hottest_spec (ts : List (BitVec 16)) (a : BitVec 16) :
    let m := ts.foldl (fun a b => if degrees a < degrees b then b else a) a
    m ∈ a :: ts ∧ ∀ t ∈ a :: ts, degrees t ≤ degrees m := by
  induction ts generalizing a with
  | nil => simp
  | cons b ts ih =>
    rw [List.foldl_cons]
    split
    · next hab =>
      obtain ⟨hmem, hmax⟩ := ih b
      exact ⟨List.mem_cons_of_mem a hmem, List.forall_mem_cons.2 ⟨hab.le.trans (hmax b List.mem_cons_self), hmax⟩⟩
    · next hab =>
      obtain ⟨hmem, hmax⟩ := ih a
      obtain ⟨ha, hts⟩ := List.forall_mem_cons.1 hmax
      exact ⟨List.mem_cons.2 ((List.mem_cons.1 hmem).imp_right (List.mem_cons_of_mem b)),
        List.forall_mem_cons.2 ⟨ha, List.forall_mem_cons.2 ⟨(not_lt.1 hab).trans ha, hts⟩⟩⟩

/-- DTEMP is one of the readings, and no reading is above it. -/
theorem hottest_spec {ts : List (BitVec 16)} (h : ts ≠ []) : hottest ts ∈ ts ∧ ∀ t ∈ ts, degrees t ≤ degrees (hottest ts) := by
  cases ts with
  | nil => exact absurd rfl h
  | cons a ts => exact foldl_hottest_spec ts a

/-- The alarm is judged by the die readings and the stack readings of an update (log 12). -/
theorem readings_alarming_iff (ts us : List (BitVec 16)) :
    (((((List.range 8).map (dieRows ts)).filter (fun r => !r.isEmpty)).map hottest ++ us.take 32).any alarming = true) ↔
      (∃ i < 8, dieRows ts i ≠ [] ∧ alarming (hottest (dieRows ts i)) = true) ∨ (us.take 32).any alarming = true := by
  rw [List.any_append, Bool.or_eq_true]
  refine or_congr_left ?_
  rw [List.any_map, List.any_filter, List.any_map, List.any_eq_true]
  simp

theorem execSensorUpdate_of_alarming {ts us : List (BitVec 16)} (s : State)
    (h : (∃ i < 8, dieRows ts i ≠ [] ∧ alarming (hottest (dieRows ts i)) = true) ∨ (us.take 32).any alarming = true) :
    ∃ u, execSensorUpdate ts us s = .next (alarm 1 u) := by
  rw [← readings_alarming_iff] at h
  exact ⟨_, congrArg Host.Outcome.next (if_pos h)⟩

/-- Readings that raise no alarm are only noted. -/
theorem execSensorUpdate_of_calm {ts us : List (BitVec 16)} (s : State)
    (hd : ∀ i < 8, dieRows ts i ≠ [] → alarming (hottest (dieRows ts i)) = false) (hs : (us.take 32).any alarming = false) :
    execSensorUpdate ts us s = .next ((us.take 32).zipIdx.foldl (fun s e => onStack e.2 (fun k => { k with
        temp := e.1, hotEpoch := k.hotEpoch || decide (degrees e.1 > 380) }) s)
      ((List.range 8).foldl (fun s i => onDev (senseDie ts i) s) s)) := by
  refine congrArg Host.Outcome.next (if_neg ?_)
  rw [readings_alarming_iff]
  rintro (⟨i, hi, hne, ha⟩ | ha)
  · exact Bool.eq_false_iff.1 (hd i hi hne) ha
  · exact Bool.eq_false_iff.1 hs ha

theorem onDev_senseDie_of_empty {ts : List (BitVec 16)} {i : Nat} (h : dieRows ts i = []) (s : State) : onDev (senseDie ts i) s = s := by
  simp [onDev, senseDie, h]

theorem dieRows_zero {ts : List (BitVec 16)} (h : ts.length = 16) : dieRows ts 0 = ts := by
  rw [dieRows, Nat.mul_zero, List.drop_zero, List.take_of_length_le h.le]

theorem dieRows_past {ts : List (BitVec 16)} {i : Nat} (h : ts.length ≤ 16 * i) : dieRows ts i = [] := by
  rw [dieRows, List.drop_eq_nil_of_le h, List.take_nil]

/-- A fold of the dies' readings in which only die 0 has any. -/
theorem foldl_senseDie_of_one {ts : List (BitVec 16)} (h : ts.length ≤ 16) (s : State) :
    (List.range 8).foldl (fun s i => onDev (senseDie ts i) s) s = onDev (senseDie ts 0) s := by
  have past (i : Nat) (s : State) : onDev (senseDie ts (i + 1)) s = s := onDev_senseDie_of_empty (dieRows_past (by omega)) s
  rw [List.range_succ_eq_map, List.foldl_cons, List.foldl_map]
  exact foldl_keeps (g := id) (fun t i => past i t) _ _

theorem execSensorUpdate_of_die {ts : List (BitVec 16)} (s : State) (hl : ts.length = 16) (hc : degrees (hottest ts) ≤ 400)
    (ha : alarming (hottest ts) = false) :
    execSensorUpdate ts [] s = .next (onDev (fun d => setDie 0 { getDie d 0 with
      temp := hottest ts, rows := tabSets 0#16 [] (ts.zipIdx.map (fun e => (e.2, e.1))) } d) s) := by
  have hne : ts ≠ [] := by
    rintro rfl
    cases hl
  have calm (i : Nat) (h : dieRows ts i ≠ []) : alarming (hottest (dieRows ts i)) = false := by
    obtain rfl : i = 0 := by
      by_contra hi
      exact h (dieRows_past (by omega))
    rwa [dieRows_zero hl]
  rw [execSensorUpdate_of_calm s (fun i _ => calm i) rfl, foldl_senseDie_of_one hl.le]
  simp only [onDev, senseDie, dieRows_zero hl, List.isEmpty_iff, hne, if_false, gt_iff_lt, not_lt.2 hc, decide_false, Bool.or_false]
  rfl

theorem execSensorUpdate_of_hotStack {t : BitVec 16} (s : State) (hh : 380 < degrees t) (ha : alarming t = false) :
    execSensorUpdate [] [t] s = .next (onStack 0 (fun k => { k with temp := t, hotEpoch := true }) s) := by
  have noRows (i : Nat) : dieRows [] i = [] := dieRows_past (Nat.zero_le _)
  rw [execSensorUpdate_of_calm s (fun i _ h => absurd (noRows i) h) (by simp [ha]), foldl_senseDie_of_one (Nat.zero_le _),
    onDev_senseDie_of_empty (noRows 0), List.take_of_length_le (by simp), List.zipIdx_singleton, List.foldl_cons, List.foldl_nil]
  exact congrArg Host.Outcome.next (onStack_congr (by simp [hh]))

/-! ### Power states (R22, R23) -/

section PowerStates

variable {e : Element} {s : State}

theorem execPowerStateEntry_of_entry (h : entryState s e ≠ 0) : execPowerStateEntry e s = .next (onDev (setPower (elKey e)
    ⟨entryState s e, s.cyc, none, (powerOf s.dev (elKey e)).idle⟩) s) := if_neg h
theorem execPowerStateEntry_of_none (h : entryState s e = 0) : execPowerStateEntry e s = .next s := if_pos h

/-- A wake that is requested after the cyc of the entry takes the longest time of its state (log 51). -/
theorem wakeKey_of_low {k : Nat} (h0 : (powerOf s.dev k).state ≠ 0) (hw : (powerOf s.dev k).wake = none)
    (hs : (powerOf s.dev k).since ≠ s.cyc) :
    wakeKey k s = onDev (setPower k { powerOf s.dev k with wake := some (s.cyc + wakeTime (powerOf s.dev k).state) }) s := by
  simp only [wakeKey, h0, hw, hs, Option.isSome_none, Bool.false_eq_true, or_self, if_false]

theorem execWakeComplete_of_wake {t : Nat} (h : (powerOf s.dev (elKey e)).wake = some t) :
    execWakeComplete e s = if s.cyc < t then .next s else .next (onDev (setPower (elKey e)
      ⟨0, s.cyc, none, (powerOf s.dev (elKey e)).idle⟩) s) := by
  unfold execWakeComplete
  rw [h]
  rfl

end PowerStates

/-- Settles O60, an event at a time. -/
theorem powerReset : Obligations.PowerReset := by
  intro die s
  refine ⟨fun h => ⟨execDeviceReset_of_inService h, execSidebandReset_of_inService h⟩,
    fun h => ⟨execDeviceReset_of_out h, execSidebandReset_of_out h⟩, fun bs => execFirmwareVerify_eq bs s,
    fun stk mods => execPackagePowerOn_eq stk mods s, execBinningComplete_of_binning, fun _ => rfl, execArbiterEpoch_eq s,
    execFastLimiter_eq die s, fun ts hl hc ha => ⟨execSensorUpdate_of_die s hl hc ha, hottest_spec ?_⟩,
    fun t => execSensorUpdate_of_hotStack s, fun ts us => execSensorUpdate_of_alarming s, rfl, rfl,
    fun e => ⟨execPowerStateEntry_of_entry, execPowerStateEntry_of_none, wakeKey_of_low, fun t ht => ⟨fun hle => ?_, fun hlt => ?_⟩⟩⟩
  · rintro rfl
    cases hl
  · exact (execWakeComplete_of_wake ht).trans (if_neg (Nat.not_lt.2 hle))
  · exact (execWakeComplete_of_wake ht).trans (if_pos hlt)

end Sys2Proof.Machine
end

section

/-! ## The interleave of a buffer's offsets (O51) -/

namespace Sys2Proof.Machine

/-- Two digits to the base `p`, the lower one below `p`, are told by their number. -/
theorem digits_inj {p x y r t : Nat} (hr : r < p) (ht : t < p) (h : x * p + r = y * p + t) : x = y ∧ r = t := by
  have hp : 0 < p := Nat.zero_lt_of_lt hr
  obtain ⟨hx, hr'⟩ := (Nat.div_mod_unique hp).2 ⟨(by rw [add_comm, mul_comm] : r + p * x = x * p + r), hr⟩
  obtain ⟨hy, ht'⟩ := (Nat.div_mod_unique hp).2 ⟨(by rw [add_comm, mul_comm] : t + p * y = y * p + t), ht⟩
  rw [← h] at hy ht'
  exact ⟨hx.symm.trans hy, hr'.symm.trans ht'⟩

/-- The stack-local part of an offset among `n` stacks is at most the offset. -/
theorem striped_le (n g a : Nat) : a / g / n * g + a % g ≤ a := by
  calc a / g / n * g + a % g ≤ a / g * g + a % g := Nat.add_le_add_right (Nat.mul_le_mul_right g (Nat.div_le_self _ n)) _
    _ = a := Nat.div_add_mod' a g

/-- R32: granules of `g` bytes dealt to `n` stacks in turn, from stack `s` and local offset `l` on: the turn gives the granule's
number mod `n`, the local part its quotient and the byte in the granule. -/
theorem striped_inj {n g l s p a b : Nat} (hg : 0 < g) (ha : l + a < p) (hb : l + b < p)
    (h : (s + a / g) % n * p + (l + (a / g / n * g + a % g)) = (s + b / g) % n * p + (l + (b / g / n * g + b % g))) : a = b := by
  have below {a : Nat} (ha : l + a < p) : l + (a / g / n * g + a % g) < p :=
    (Nat.add_le_add_left (striped_le n g a) l).trans_lt ha
  obtain ⟨hturn, hlocal⟩ := digits_inj (below ha) (below hb) h
  obtain ⟨hround, hbyte⟩ := digits_inj (Nat.mod_lt a hg) (Nat.mod_lt b hg) (Nat.add_left_cancel hlocal)
  have hmod : a / g % n = b / g % n := Nat.ModEq.add_left_cancel' s hturn
  have hgran : a / g = b / g := by rw [← Nat.div_add_mod (a / g) n, hround, hmod, Nat.div_add_mod]
  rw [← Nat.div_add_mod a g, hgran, hbyte, Nat.div_add_mod]

theorem eGran_pos (e : BitVec 256) : 0 < eGran e := by
  unfold eGran
  split <;> decide

/-- Settles O51, by the interleave's form: linear, over the four stacks of a die, or over the 32 stacks of the package. -/
theorem interleaveDistinct : Obligations.InterleaveDistinct := by
  intro e a b ha hb h
  have hg := eGran_pos e
  unfold interleave at h
  dsimp only at h
  split at h
  · exact Nat.add_left_cancel h
  · simp only [Nat.add_mul, Nat.add_assoc, Nat.add_left_cancel_iff] at h
    exact striped_inj hg ha hb h
  · simp only [Nat.add_assoc] at h
    exact striped_inj hg ha hb h

end Sys2Proof.Machine
end

section

/-! ## SAFE, HALT, PHASE, and the operations that only wait or mark (O15, O16, O20) -/

namespace Sys2Proof.Machine

/-! ### An operation whose predicate is on (R274) -/

section On

variable {g : Guard} {s t : State} {e : Eff} {x : Trap}

theorem finishOp_guarded_of_ok (h : predOn g s = true) (he : e = .ok t) :
    finishOp s (guarded (predOn g s) s e) = .next (charge 5 1 t) := by
  rw [guarded, if_pos h, he]
  rfl

theorem finishOp_guarded_of_error (h : predOn g s = true) (he : e = .error x) :
    finishOp s (guarded (predOn g s) s e) = .next (takeTrap x s) := by
  rw [guarded, if_pos h, he]
  rfl

end On

/-! ### Uncorrectable data (R36) -/

theorem storeError_of_none {s : State} (h : s.tk.serr = none) : storeError s = .ok () := by
  rw [storeError, h]

theorem storeError_of_some {s : State} {e : Word × Nat} (h : s.tk.serr = some e) :
    storeError s = .error { trapOf s 0x0E 0x03 e.1 e.2 (w64 kStore) with slot := 0, gaddr := some e.1 } := by
  rw [storeError, h]

/-! ### SAFE (R185 to R188, R319) -/

section Safe

variable {g : Guard} {i : BitVec 12} {s : State} {t : Trap}

theorem execSafe_of_storeError (h : predOn g s = true) (he : storeError s = .error t) : execSafe g i s = .next (takeTrap t s) := by
  rw [execSafe, if_pos h, he]
  rfl

theorem execSafe_of_sibling (he : predOn g s = true → storeError s = .ok ()) (hk : s.k ≠ 0) :
    execSafe g i s = .next (takeTrap (illegal s 0x0B) s) := by
  by_cases h : predOn g s = true
  · rw [execSafe, if_pos h, he h, if_pos hk]
    rfl
  · rw [execSafe, if_neg h, if_pos hk]
    rfl

theorem execSafe_of_unlisted (he : predOn g s = true → storeError s = .ok ()) (hk : s.k = 0) (hi : s.tk.obj.live.length ≤ i.toNat) :
    execSafe g i s = .next (takeTrap (illegal s 0x01) s) := by
  by_cases h : predOn g s = true
  · rw [execSafe, if_pos h, he h, if_neg (not_not.2 hk), if_pos hi]
    rfl
  · rw [execSafe, if_neg h, if_neg (not_not.2 hk), if_pos hi]
    rfl

section Listed

variable (h : predOn g s = true) (he : storeError s = .ok ()) (hk : s.k = 0) (hi : i.toNat < s.tk.obj.live.length)

include h he hk hi

theorem execSafe_of_busy (hp : pipelineEmpty s = .error t) : execSafe g i s = .next (takeTrap t s) := by
  rw [execSafe, if_pos h, he, if_neg (not_not.2 hk), if_neg (not_le.2 hi), guarded, if_pos h, hp]
  rfl

theorem execSafe_of_safe (hp : pipelineEmpty s = .ok ()) (hq : s.tk.preempt = none) :
    execSafe g i s = .next (charge 5 1 (quiesce { s with tk := { s.tk with sref := s.ix.c } })) := by
  rw [execSafe, if_pos h, he, if_neg (not_not.2 hk), if_neg (not_le.2 hi), guarded, if_pos h, hp, hq]
  rfl

theorem execSafe_of_preempted {p : PreemptKind} (hp : pipelineEmpty s = .ok ()) (hq : s.tk.preempt = some p) (ha : s.tk.preAt < s.cyc) :
    let t := quiesce { s with tk := { s.tk with sref := s.ix.c } }
    execSafe g i s = .next (charge 5 1 { t with tk := { t.tk with preempt := none, taken := some (p, i.toNat) } }) := by
  intro t
  rw [execSafe, if_pos h, he, if_neg (not_not.2 hk), if_neg (not_le.2 hi), guarded, if_pos h, hp, hq]
  exact congrArg (finishOp s) (if_pos ha)

end Listed
end Safe

/-- Settles O15, by the checks of SAFE in their order: a store's uncorrectable data, the sequencer, the index, the pipeline. -/
theorem safePoint : Obligations.SafePoint := by
  intro g i s
  refine ⟨fun hk hi h hp hs => ⟨fun hq => ?_, fun p hq ha => ?_⟩, fun t hk hi h hs hp => ?_, fun e h hs => ?_, fun hs => ?_⟩
  · exact execSafe_of_safe h (storeError_of_none hs) hk hi hp hq
  · exact ⟨_, execSafe_of_preempted h (storeError_of_none hs) hk hi hp hq ha, rfl, rfl, rfl, rfl⟩
  · exact execSafe_of_busy h (storeError_of_none hs) hk hi hp
  · exact execSafe_of_storeError h (storeError_of_some hs)
  · have he (h : predOn g s = true) : storeError s = .ok () := storeError_of_none (hs.resolve_left (by simp [h]))
    exact ⟨execSafe_of_sibling he, execSafe_of_unlisted he⟩

/-! ### HALT (R166, R183) -/

section Halt

variable {g : Guard} {s : State} {t : Trap}

theorem execHalt_of_storeError (h : predOn g s = true) (he : storeError s = .error t) : execHalt g s = .next (takeTrap t s) :=
  finishOp_guarded_of_error h (by rw [he]; rfl)

variable (h : predOn g s = true) (he : storeError s = .ok ())

include h he

theorem execHalt_of_sibling (hk : s.k ≠ 0) :
    execHalt g s = .next (charge 5 1 { s with sq := { s.sq with st := .idle, haltLC := s.ix.c, pend := none } }) :=
  finishOp_guarded_of_ok h (by rw [he, if_pos hk]; rfl)

theorem execHalt_of_done (hk : s.k = 0) (hb : (s.tk.seqs.map Prod.snd).any seqBusy = false) :
    execHalt g s = .next (charge 5 1 { s with sq := { s.sq with st := .halted, haltLC := s.ix.c, pend := none } }) :=
  finishOp_guarded_of_ok h (by rw [he, if_neg (not_not.2 hk), if_neg (Bool.eq_false_iff.1 hb)]; rfl)

theorem execHalt_of_busy (hk : s.k = 0) (hb : (s.tk.seqs.map Prod.snd).any seqBusy = true) :
    execHalt g s = .next (charge 5 1 { s with
      sq := { s.sq with st := .halting, pend := none }, ix := { s.ix with jump := some s.ix.pos, keep := true } }) :=
  finishOp_guarded_of_ok h (by rw [he, if_neg (not_not.2 hk), if_pos hb]; rfl)

end Halt

/-- Settles O16: at a store's uncorrectable data, of a sibling, and of the primary with and without a busy sibling. -/
theorem halting : Obligations.Halting := by
  refine ⟨fun g e s h hs => execHalt_of_storeError h (storeError_of_some hs), fun g s h hs => ?_⟩
  have he := storeError_of_none hs
  refine ⟨execHalt_of_sibling h he, fun hk hb => execHalt_of_done h he hk ?_, fun hk hb => execHalt_of_busy h he hk ?_⟩
  · rw [List.any_map, List.any_eq_false]
    exact fun e hm => Bool.eq_false_iff.1 (hb e hm)
  · rw [List.any_map, List.any_eq_true]
    exact hb

/-! ### PHASE (R384) -/

section Phase

variable {g : Guard} {s : State} {t : Trap}

theorem execPhase_of_storeError (h : predOn g s = true) (he : storeError s = .error t) : execPhase g s = .next (takeTrap t s) := by
  rw [execPhase, if_pos h, he]
  rfl

variable (h : predOn g s = true) (he : storeError s = .ok ())

include h he

theorem execPhase_of_sibling (hk : s.k ≠ 0) : execPhase g s = .next (takeTrap (illegal s 0x0B) s) := by
  rw [execPhase, if_pos h, he, if_pos hk]
  rfl

theorem execPhase_of_primary (hk : s.k = 0) :
    let t := quiesce s
    execPhase g s = .next (charge 5 1 (emit .mark
      (onCaches (fun q => { q with rcache := [] }) { t with tk := { t.tk with phn := t.tk.phn + 1 } }))) := by
  intro t
  rw [execPhase, if_pos h, he, if_neg (not_not.2 hk), guarded, if_pos h]
  rfl

end Phase

/-! ### BREL (R388) -/

section Brel

variable {g : Guard} {m : BitVec 6} {s : State}

theorem execBrel_of_free (h : predOn g s = true) (hb : brelBlocked s m = none) :
    execBrel g m s = .next (scheduled s [⟨s.ix.c, s.ix.c, .banks 0#6 (m &&& s.sq.own)⟩]) :=
  finishOp_guarded_of_ok h (by rw [hb]; rfl)

theorem execBrel_of_blocked {x : Trap} (h : predOn g s = true) (hb : brelBlocked s m = some x) :
    execBrel g m s = .next (takeTrap x s) :=
  finishOp_guarded_of_error h (by rw [hb])

end Brel

/-- Settles O20, an operation at a time: all but BREL and PHASE have one effect and no trap. -/
theorem waitsAndMarkers : Obligations.WaitsAndMarkers := by
  intro g a m s h
  have always {t : State} : finishOp s (guarded (predOn g s) s (.ok t)) = .next (charge 5 1 t) := finishOp_guarded_of_ok h rfl
  refine ⟨always, always, always, ⟨_, rfl, rfl, always⟩, always, always, always, always, execBrel_of_free h,
    fun x => execBrel_of_blocked h, fun hk hs => ⟨_, execPhase_of_primary h (storeError_of_none hs) hk, rfl, rfl, rfl, ?_, ?_⟩,
    fun hk hs => execPhase_of_sibling h (storeError_of_none hs) hk, fun e hs => execPhase_of_storeError h (storeError_of_some hs)⟩
  · exact List.append_assoc ..
  · exact (((steady_quiesce s).trans (steady_phaseEffect _)).trans ((steady_emit ..).trans (steady_charge ..))).world

end Sys2Proof.Machine
end

section

/-! ## The state after reset (O45) -/

namespace Sys2Proof.Machine

theorem readS_of_empty {s : State} (h : s.sq.s = []) (n : BitVec 6) : readS s n = 0#64 := by
  rw [readS, h]
  exact ite_self _

theorem readQ_of_zero {s : State} (h : s.sq.q = 0#8) (n : BitVec 3) : readQ s n = decide (n = 0#3) := by
  rw [readQ, h, BitVec.getLsbD_zero, Bool.or_false]
  rfl

/-- Settles O45, a part of the state at a time: tables are empty and read as their default values. -/
theorem resetValues : Obligations.ResetValues :=
  ⟨rfl, fun _ => rfl, rfl, rfl, rfl, rfl, rfl, rfl, rfl, rfl, rfl, rfl, fun _ => rfl, fun _ => ⟨rfl, rfl⟩,
    readS_of_empty rfl, readQ_of_zero rfl, rfl, rfl, rfl, rfl, rfl, rfl, fun _ => ⟨rfl, rfl, rfl, rfl⟩⟩

end Sys2Proof.Machine
end

section

/-! ## Sends and receives (O22) -/

namespace Sys2Proof.Machine

/-- An operation takes the trap of a check that comes before its predicate. -/
theorem finishOp_bind_of_error {s : State} {e : Except Trap Unit} {f : Unit → Eff} {x : Trap} (he : e = .error x) :
    finishOp s (e >>= f) = .next (takeTrap x s) := by
  rw [he]
  rfl

/-- An operation whose check passes goes on. -/
theorem finishOp_bind_of_ok {s : State} {e : Except Trap Unit} {f : Unit → Eff} (he : e = .ok ()) :
    finishOp s (e >>= f) = finishOp s (f ()) := by
  rw [he]
  rfl

/-! ### The channel entry (R383) -/

section Check

variable {s : State} {c : BitVec 5} {dir : Bool}

theorem chanCheck_of_fit (hv : (getChan s c).path ≠ 3#2) (hd : (getChan s c).recv = dir) : chanCheck s c dir = .ok () :=
  if_neg (not_or.2 ⟨hv, not_not.2 hd⟩)

theorem chanCheck_of_unfit (h : (getChan s c).path = 3#2 ∨ (getChan s c).recv ≠ dir) :
    chanCheck s c dir = .error (illegal s 0x0A) := if_pos h

end Check

theorem getChan_setChan_same (s : State) (c : BitVec 5) (v : Chan) : tabGet chanOff (setChan c v s).tk.chans c.toNat = v :=
  tabGet_set_same ..

theorem getChan_setChan_other (s : State) (c : BitVec 5) (v : Chan) {n : Nat} (hn : n ≠ c.toNat) :
    tabGet chanOff (setChan c v s).tk.chans n = tabGet chanOff s.tk.chans n := tabGet_set_other _ _ _ hn

/-! ### Sends (R55, R63, R381, R382) -/

section Sends

variable {g : Guard} {c : BitVec 5} {va : BitVec 8} {j : BitVec 2} {a : BitVec 6} {s : State}

theorem execSends_of_fit (hv : (getChan s c).path ≠ 3#2) (hd : (getChan s c).recv = false) (h : predOn g s = true) :
    execSends g c a s = .next (charge 5 1 (sendMsg c true (natLe 8 (readS s a).toNat) s)) :=
  (finishOp_bind_of_ok (chanCheck_of_fit hv hd)).trans (finishOp_guarded_of_ok h rfl)

theorem execSends_of_unfit (hu : (getChan s c).path = 3#2 ∨ (getChan s c).recv ≠ false) :
    execSends g c a s = .next (takeTrap (illegal s 0x0A) s) := finishOp_bind_of_error (chanCheck_of_unfit hu)

variable (hj : j.toNat < s.tk.g)
include hj

theorem execSend_of_fit (hv : (getChan s c).path ≠ 3#2) (hd : (getChan s c).recv = false) (h : predOn g s = true)
    (hl : lrsCheck s (winRow s va.toNat) j.toNat = .ok ()) :
    execSend g c va j s = .next (charge 5 1 (charge 1 1 (sendMsg c false
      (tabBytes s.sq.lrs (rowByte s.tk.g (winRow s va.toNat) (128 * j.toNat)) 128) s))) := by
  rw [execSend, if_neg (not_le.2 hj)]
  refine (finishOp_bind_of_ok (chanCheck_of_fit hv hd)).trans (finishOp_guarded_of_ok h ?_)
  rw [hl]
  rfl

theorem execSend_of_unfit (hu : (getChan s c).path = 3#2 ∨ (getChan s c).recv ≠ false) :
    execSend g c va j s = .next (takeTrap (illegal s 0x0A) s) := by
  rw [execSend, if_neg (not_le.2 hj)]
  exact finishOp_bind_of_error (chanCheck_of_unfit hu)

end Sends

/-- A row in an owned bank whose read ports no column operation holds can be read (R184, R216). -/
theorem lrsCheck_of_free {s : State} {x col : Nat} (ho : ownsRow s.sq x = true)
    (hf : ¬(s.sq.rdHold.1 ≤ s.ix.c ∧ s.ix.c < s.sq.rdHold.2)) : lrsCheck s x col = .ok () := by
  rw [lrsCheck, if_neg (by simp [ho]), if_neg hf]

/-! ### Receives (R57, R381 to R383) -/

/-- The stamp that a receive expects on a channel: its group's LC less the channel's latency (R57). -/
def wantedStamp (s : State) (ch : Chan) : Nat := (s.ix.c + 2 ^ 48 - ch.lat.toNat) % 2 ^ 48

/-- What taking a message leaves: its slot is free, SEQ has advanced and one credit is on its way (R57, R63). -/
def tookMsg (c : BitVec 5) (m : Landed) (s : State) : State :=
  let ch := getChan s c
  emit (.credit c.toNat m.src) (setChan c { ch with seq := ch.seq + 1, slots := tabDel ch.slots (ch.seq.toNat % 16) } s)

theorem steady_tookMsg (c : BitVec 5) (m : Landed) (s : State) : Steady s (tookMsg c m s) :=
  (steady_setChan ..).trans (steady_emit ..)

theorem w64_inj {a b : Nat} (ha : a < 2 ^ 48) (hb : b < 2 ^ 48) (h : w64 a = w64 b) : a = b := by
  have := congrArg BitVec.toNat h
  simp only [w64, BitVec.toNat_ofNat] at this
  omega

section Take

variable {c : BitVec 5} {s : State} {m : Landed} (hf : (getChan s c).fault = none)
  (hm : tabFind (getChan s c).slots ((getChan s c).seq.toNat % 16) = some m)
include hf hm

/-- A receive judges the message in the slot that SEQ names: its kind, then its stamp. -/
theorem takeMsg_of_found (scalar : Bool) : takeMsg c scalar s =
    if m.scalar ≠ scalar then .error (mismatch s c 0x02 (w64 (wantedStamp s (getChan s c))) never m.seq)
    else if w64 m.stamp ≠ w64 (wantedStamp s (getChan s c)) then
      .error (mismatch s c 0x01 (w64 (wantedStamp s (getChan s c))) (w64 m.stamp) m.seq)
    else .ok (some (m.payload, tookMsg c m s)) := by
  simp only [takeMsg, tookMsg, wantedStamp, hf, hm]

theorem takeMsg_of_expected (hw : m.stamp = wantedStamp s (getChan s c)) :
    takeMsg c m.scalar s = .ok (some (m.payload, tookMsg c m s)) := by
  rw [takeMsg_of_found hf hm, if_neg (not_not.2 rfl), if_neg (not_not.2 (congrArg w64 hw))]

theorem takeMsg_of_otherStamp (h48 : m.stamp < 2 ^ 48) (hw : m.stamp ≠ wantedStamp s (getChan s c)) :
    takeMsg c m.scalar s = .error (mismatch s c 0x01 (w64 (wantedStamp s (getChan s c))) (w64 m.stamp) m.seq) := by
  have hne : w64 m.stamp ≠ w64 (wantedStamp s (getChan s c)) := fun h => hw (w64_inj h48 (Nat.mod_lt _ (by decide)) h)
  rw [takeMsg_of_found hf hm, if_neg (not_not.2 rfl), if_pos hne]

theorem takeMsg_of_otherKind {scalar : Bool} (hk : m.scalar ≠ scalar) :
    takeMsg c scalar s = .error (mismatch s c 0x02 (w64 (wantedStamp s (getChan s c))) never m.seq) := by
  rw [takeMsg_of_found hf hm, if_pos hk]

end Take

section Receives

variable {g : Guard} {c : BitVec 5} {vd : BitVec 8} {j : BitVec 2} {d : BitVec 6} {s : State} (hv : (getChan s c).path ≠ 3#2)
  (hd : (getChan s c).recv = true) (h : predOn g s = true)
include hv hd h

theorem execRecvs_of_taken {r : List Byte × State} (ht : takeMsg c true s = .ok (some r)) :
    execRecvs g d c s = .next (charge 5 1 (landS r.2 1 d (w64 (leNat r.1)))) := by
  refine (finishOp_bind_of_ok (chanCheck_of_fit hv hd)).trans (finishOp_guarded_of_ok h ?_)
  rw [ht]
  rfl

theorem execRecvs_of_error {x : Trap} (ht : takeMsg c true s = .error x) : execRecvs g d c s = .next (takeTrap x s) := by
  refine (finishOp_bind_of_ok (chanCheck_of_fit hv hd)).trans (finishOp_guarded_of_error h ?_)
  rw [ht]
  rfl

theorem execRecv_of_taken {r : List Byte × State} (hj : j.toNat < s.tk.g) (ho : ownsRow s.sq (winRow s vd.toNat) = true)
    (ht : takeMsg c false s = .ok (some r)) :
    execRecv g vd c j s = .next (charge 5 1 (landIn r.2 1 (.row (winRow s vd.toNat) (1#4 <<< j.toNat)
      (r.1.zipIdx.map (fun e => (rowByte s.tk.g (winRow s vd.toNat) (128 * j.toNat + e.2), e.1))) 0#5))) := by
  rw [execRecv, if_neg (not_le.2 hj)]
  refine (finishOp_bind_of_ok (chanCheck_of_fit hv hd)).trans (finishOp_guarded_of_ok h ?_)
  rw [ho, ht]
  rfl

end Receives

/-- A scalar result that lands joins the sequencer's list of landings. -/
theorem landS_land (s : State) (l : Nat) (d : BitVec 6) (v : Word) : (landS s l d v).sq.land = s.sq.land ++ toS s l d v := by
  unfold landS toS
  split
  · exact (List.append_nil _).symm
  · rfl

/-- What a send leaves (R55, R63): one credit spent, SEQ advanced and the message on its way, with the sequencer as it was. -/
theorem sendMsg_sent (c : BitVec 5) (scalar : Bool) (payload : List Byte) (s : State) :
    let ch := getChan s c
    let t := sendMsg c scalar payload s
    tabGet chanOff t.tk.chans c.toNat = { ch with cred := ch.cred - 1, seq := ch.seq + 1 } ∧
    (∀ n, n ≠ c.toNat → tabGet chanOff t.tk.chans n = tabGet chanOff s.tk.chans n) ∧
    t.tk.out = s.tk.out ++ [.msg c.toNat ⟨ch.dest.toNat, ch.pch.toNat, ch.port.toNat, (if scalar then 1 else 0), false,
      s.ix.c % 2 ^ 48, ch.seq.toNat, payload, destLocal s.tk.node s.tk.member⟩ ch.path] ∧ t.sq = s.sq ∧ sameWorld s t :=
  ⟨getChan_setChan_same .., fun _ hn => getChan_setChan_other _ _ _ hn, rfl, rfl, (steady_sendMsg ..).world⟩

/-- What taking a message leaves (R57): SEQ advanced past it, its slot free and one credit returned. -/
theorem tookMsg_taken (c : BitVec 5) (m : Landed) (s : State) :
    let ch := getChan s c
    let t := tookMsg c m s
    tabGet chanOff t.tk.chans c.toNat = { ch with seq := ch.seq + 1, slots := tabDel ch.slots (ch.seq.toNat % 16) } ∧
    (∀ n, n ≠ c.toNat → tabGet chanOff t.tk.chans n = tabGet chanOff s.tk.chans n) ∧
    t.tk.out = s.tk.out ++ [.credit c.toNat m.src] :=
  ⟨getChan_setChan_same .., fun _ hn => getChan_setChan_other _ _ _ hn, rfl⟩

/-- Settles O22: the checks of each operation pass or take their trap, and its effect is that of `sendMsg` or of `tookMsg`. -/
theorem channels : Obligations.Channels := by
  refine ⟨?_, ?_⟩
  · intro g c va j a s ch x sent
    have hsent (scalar : Bool) (payload : List Byte) : sent scalar payload (sendMsg c scalar payload s) := sendMsg_sent ..
    have hcharge {scalar : Bool} {payload : List Byte} {t : State} (kind n : Nat) (ht : sent scalar payload t) :
        sent scalar payload (charge kind n t) := ht
    refine ⟨fun hv hd h => ⟨⟨_, execSends_of_fit hv hd h, hcharge 5 1 (hsent ..)⟩, fun hj ho hf =>
      ⟨_, execSend_of_fit hj hv hd h (lrsCheck_of_free ho hf), hcharge 5 1 (hcharge 1 1 (hsent ..))⟩⟩, fun hu => ?_⟩
    have hu : (getChan s c).path = 3#2 ∨ (getChan s c).recv ≠ false := hu.imp_right ne_false_of_eq_true
    exact ⟨execSends_of_unfit hu, fun hj => execSend_of_unfit hj hu⟩
  · intro g vd c j d m s ch want x taken hv hd h hf h48 hm
    have htaken {t : State} (ht : Steady (tookMsg c m s) t) (htk : t.tk.chans = (tookMsg c m s).tk.chans ∧
        t.tk.out = (tookMsg c m s).tk.out) : taken t := by
      obtain ⟨hsame, hother, hout⟩ := tookMsg_taken c m s
      have hs := (steady_tookMsg c m s).trans ht
      simp only [taken, htk]
      exact ⟨hsame, hother, hout, hs.regs, hs.world⟩
    refine ⟨fun hw hk => ?_, fun hw hk hj ho => ?_, fun hw hk => ?_, fun hk => ?_⟩
    · have ht := takeMsg_of_expected hf hm hw
      rw [hk] at ht
      exact ⟨_, execRecvs_of_taken hv hd h ht, htaken ((steady_landS ..).trans (steady_charge ..)) ⟨by simp, by simp⟩, landS_land ..⟩
    · have ht := takeMsg_of_expected hf hm hw
      rw [hk] at ht
      exact ⟨_, execRecv_of_taken hv hd h hj ho ht, htaken ((steady_landIn ..).trans (steady_charge ..)) ⟨rfl, rfl⟩, rfl⟩
    · have ht := takeMsg_of_otherStamp hf hm h48 hw
      rw [hk] at ht
      exact execRecvs_of_error hv hd h ht
    · exact execRecvs_of_error hv hd h (takeMsg_of_otherKind hf hm (hk ▸ Bool.false_ne_true))

end Sys2Proof.Machine
end

section

/-! ## A step that issues a group (O42) -/

namespace Sys2Proof.Machine

/-! ### The slots of a group (R280) -/

/-- A bundle's slots from one that is an operation and has the stop bit are that slot alone. -/
theorem slotsFrom_of_stop {s : State} {p k : Nat} (hk : k < 4) (hh : k ≠ 0 ∨ headerOf s p = none) (hw : (codeWord s p k).getLsbD 31 = true) :
    slotsFrom s p k = ([⟨p, k, codeWord s p k, headerOf s p⟩], true) := by
  have hstart : ¬(k = 0 ∧ (headerOf s p).isSome = true) := by
    rintro ⟨h0, hs⟩
    obtain h | h := hh
    · exact h h0
    · rw [h] at hs
      cases hs
  obtain ⟨n, hn⟩ : ∃ n, 4 - k = n + 1 := ⟨3 - k, by omega⟩
  rw [slotsFrom, if_neg hstart, hn, takeSlots, if_pos hw]

theorem groupAt_of_stop {s : State} {p : Pos} (hk : p.slot < 4) (hh : p.slot ≠ 0 ∨ headerOf s p.bundle = none)
    (hw : (codeWord s p.bundle p.slot).getLsbD 31 = true) :
    (groupAt s p).slots = [⟨p.bundle, p.slot, codeWord s p.bundle p.slot, headerOf s p.bundle⟩] := by
  rw [groupAt, slotsFrom_of_stop hk hh hw]
  rfl

/-- No operation comes both first and last of its group. -/
theorem seesUnits_of_holdsPorts {x : Slot} (h : holdsPorts x = true) : seesUnits x = false := by
  unfold holdsPorts at h
  unfold seesUnits
  split at h
  · next e => rw [e]
  · next e => rw [e]
  · cases h

/-- A group of one slot runs that slot. -/
theorem runOrder_of_single {g : Group} {x : Slot} (h : g.slots = [x]) : runOrder g = [x] := by
  rw [runOrder, h]
  cases hp : holdsPorts x with
  | true => simp [hp, seesUnits_of_holdsPorts hp]
  | false => cases hu : seesUnits x <;> simp [hp, hu]

/-! ### The slots run one after the other (R260) -/

section Run

variable {run : Run} {base : State} {pos : Pos} {x : Slot} {xs : List Slot} {s t : State} {ts : List Trap} {i : Instr}
  (hi : slotInstr x = .ok i) (ht : run i (atSlot (slotOff base x) pos x s) = .next t)
include hi ht

/-- A slot's effects are there for the slots after it. -/
theorem runSlots_cons_of_noTrap (hn : t.ix.trap = none) : runSlots run base pos (x :: xs) s ts = runSlots run base pos xs t ts := by
  rw [runSlots, hi]
  simp only [ht, hn]

/-- A slot that traps has no effect. -/
theorem runSlots_cons_of_trap {e : Trap} (he : t.ix.trap = some e) :
    runSlots run base pos (x :: xs) s ts = runSlots run base pos xs s (ts ++ [e]) := by
  rw [runSlots, hi]
  simp only [ht, he]

end Run

/-! ### The group (R167, R258, R260) -/

/-- Every trap that the form of the group at a position raises. -/
def groupForm (s : State) (p : Pos) : List Trap := formTraps s p (groupAt s p) ((groupAt s p).slots.map (fun y => (y, slotUses s y)))

section Group

variable {run : Run} {s : State}

/-- A group whose code cannot be fetched traps. -/
theorem issueGroup_of_fetchTrap {e : Trap} (h : fetchTrap (groupStart s) (groupStart s).sq.pos = some e) :
    issueGroup run s = .next (takeTrap e (groupStart s)) := by
  have body : issueGroup = issueGroup := rfl
  conv at body => rhs; delta issueGroup
  rw [body]
  beta_reduce
  extract_lets +onlyGivenNames s0 pos
  change fetchTrap s0 pos = some e at h
  change _ = Host.Outcome.next (takeTrap e s0)
  clear_value s0 pos
  rw [h]

variable (h : fetchTrap (groupStart s) (groupStart s).sq.pos = none)
include h

section Ran

variable {v : State} {ts : List Trap} (hr : runSlots run (groupState (groupStart s)) (groupStart s).sq.pos
  (runOrder (groupAt (groupState (groupStart s)) (groupStart s).sq.pos)) (groupState (groupStart s)) [] = .next (v, ts))
include hr

theorem issueGroup_of_ran : issueGroup run s =
    match firstTrap (groupForm (groupState (groupStart s)) (groupStart s).sq.pos ++ ts) with
      | some t => .next (takeTrap t (groupState (groupStart s)))
      | none => .next (advance (groupState (groupStart s)) v) := by
  have body : issueGroup = issueGroup := rfl
  conv at body => rhs; delta issueGroup
  rw [body]
  beta_reduce
  extract_lets +onlyGivenNames s0 pos
  change fetchTrap s0 pos = none at h
  change runSlots run (groupState s0) pos (runOrder (groupAt (groupState s0) pos)) (groupState s0) [] = .next (v, ts) at hr
  change _ = match firstTrap (groupForm (groupState s0) pos ++ ts) with
    | some t => Host.Outcome.next (takeTrap t (groupState s0))
    | none => .next (advance (groupState s0) v)
  clear_value s0 pos
  rw [h]
  dsimp -zeta only
  extract_lets +onlyGivenNames s1 g
  change runSlots run s1 pos (runOrder g) s1 [] = .next (v, ts) at hr
  rw [hr]
  rfl

theorem issueGroup_of_noTrap (hn : firstTrap (groupForm (groupState (groupStart s)) (groupStart s).sq.pos ++ ts) = none) :
    issueGroup run s = .next (advance (groupState (groupStart s)) v) := by
  rw [issueGroup_of_ran h hr, hn]

theorem issueGroup_of_trap {e : Trap} (he : firstTrap (groupForm (groupState (groupStart s)) (groupStart s).sq.pos ++ ts) = some e) :
    issueGroup run s = .next (takeTrap e (groupState (groupStart s))) := by
  rw [issueGroup_of_ran h hr, he]

end Ran
end Group

/-! ### The step (R13, R63, R115) -/

/-- The sequencer in focus as its group issues: the range registers that the group uses are the last used, and its code is fetched. -/
def fetched (tid k : Nat) (s : State) : State := fetchCode (focus tid k (touchRange tid k s))

/-- A due group whose messages the skid buffers take issues, and counts in its window. -/
theorem step_of_issued {tid k : Nat} {rest : List Act} {t : Task} {s v : State} (ha : s.agenda = .issue tid k :: rest)
    (ht : tabFind s.tasks tid = some t) (hk : k ∈ dueSeqs { t with ending := none }) (hs : skidRoom { s with agenda := rest } tid = true)
    (hv : issueGroup exec (fetched tid k { s with agenda := rest }) = .next v) :
    step s = .next (onDev (fun d => { d with window := tabSet 0 d.window (groupKey t k) (tabGet 0 d.window (groupKey t k) + 1) })
      (unfocus v)) := by
  have hdue : (!(dueSeqs { t with ending := none }).contains k || !skidRoom { s with agenda := rest } tid) = false := by
    rw [hs, List.contains_iff_mem.2 hk]
    rfl
  rw [fetched] at hv
  rw [step, ha]
  simp only [issueAct, ht, hdue, hv, Bool.false_eq_true, if_false]

/-- Settles O42: what the step does is what `issueGroup` does with the group, by the group's fetch and the traps of its form and slots. -/
theorem stepRunsGroup : Obligations.StepRunsGroup := by
  intro tid k rest t s ha ht hk hs u p s1 done x form
  have hstep {v : State} (hv : issueGroup exec (fetched tid k { s with agenda := rest }) = .next v) : step s = done v :=
    step_of_issued ha ht hk hs hv
  refine ⟨fun e he => hstep (issueGroup_of_fetchTrap he), fun hf => ?_⟩
  have hran {v : State} {ts : List Trap} (hr : runSlots exec s1 p (runOrder (groupAt s1 p)) s1 [] = .next (v, ts)) :
      (firstTrap (form ++ ts) = none → step s = done (advance s1 v)) ∧
        (∀ e, firstTrap (form ++ ts) = some e → step s = done (takeTrap e s1)) :=
    ⟨fun hn => hstep (issueGroup_of_noTrap hf hr hn), fun e he => hstep (issueGroup_of_trap hf hr he)⟩
  refine ⟨fun h4 hh hw => ?_, fun v ts => hran, fun y ys v ts i hi v' hv => ?_⟩
  · have hslots : (groupAt s1 p).slots = [x] := groupAt_of_stop h4 hh hw
    refine ⟨hslots, fun i hi hform v hv => ⟨fun hn => ?_, fun e he => ?_⟩⟩
    · have hr := runSlots_cons_of_noTrap (xs := []) (ts := []) hi hv hn
      rw [← runOrder_of_single hslots] at hr
      exact (hran hr).1 (by rw [hform]; rfl)
    · have hr := runSlots_cons_of_trap (xs := []) (ts := []) hi hv he
      rw [← runOrder_of_single hslots] at hr
      exact (hran hr).2 e (by rw [hform]; rfl)
  · split
    · next hn => exact runSlots_cons_of_noTrap hi hv hn
    · next e he => exact runSlots_cons_of_trap hi hv he

end Sys2Proof.Machine
end

section

/-! ## Leases, pulls and invalidations (O54) -/

namespace Sys2Proof.Machine

/-! ### Work that reads memory: its first read, and its reply -/

theorem mem_tabPut {α : Type} (t : Tab α) (k : Nat) (v : α) : (k, v) ∈ tabPut t k v := by
  induction t with
  | nil => exact List.mem_singleton.2 rfl
  | cons e t ih =>
    rw [tabPut]
    split
    · exact List.mem_cons_self
    · split
      · exact List.mem_cons_self
      · exact List.mem_cons_of_mem _ ih

/-- Puts leave an entry of a key that has one. -/
theorem tabFind_puts_isSome {α : Type} {k : Nat} (es t : Tab α) (h : (tabFind t k).isSome = true ∨ ∃ v, (k, v) ∈ es) :
    (tabFind (es.foldl (fun rs e => tabPut rs e.1 e.2) t) k).isSome = true := by
  induction es generalizing t with
  | nil =>
    obtain h | ⟨v, hv⟩ := h
    · exact h
    · cases hv
  | cons e es ih =>
    rw [List.foldl_cons]
    refine ih _ ?_
    obtain h | ⟨v, hv⟩ := h
    · refine .inl ?_
      by_cases hk : k = e.1
      · rw [hk, tabFind_put_same]
        rfl
      · rwa [tabFind_put_other _ _ hk]
    · obtain rfl | hv := List.mem_cons.1 hv
      · refine .inl ?_
        rw [tabFind_put_same]
        rfl
      · exact .inr ⟨v, hv⟩

section Work

variable {why : JobFor} {key : List Nat} {v : Nat} {s : State}

theorem askEntries_of_noJob {es : List (Nat × Nat)} (hj : findJob s.dev why key = none) (hr : s.dev.reading = false) (he : es ≠ []) :
    askEntries why key v es s = (notYet (openJob why key (32 * es.length) (entryReads v es) s), []) := by
  simp [askEntries, askRead, List.isEmpty_iff, he, hj, hr]

theorem askEntries_of_reply {es : List (Nat × Nat)} {j : Job} {r : Reply} (hj : findJob s.dev why key = some j)
    (hr : tabFind s.replies j.id = some r) (hl : r.left = 0) (he : es ≠ []) :
    askEntries why key v es s = (s, (r.errs.map (fun e => e.off / 32)).eraseDups) := by
  simp [askEntries, askRead, List.isEmpty_iff, he, hj, hr, hl]

/-- Some entry could not be read. -/
theorem lostEntries_ne_nil {errs : List ReplyErr} (h : errs ≠ []) : (errs.map (fun e => e.off / 32)).eraseDups ≠ [] := by
  cases errs with
  | nil => exact absurd rfl h
  | cons e es =>
    rw [List.map_cons, List.eraseDups_cons]
    exact List.cons_ne_nil _ _

variable {t : State} {y : Reply} (hj : findJob s.dev why key = none) (hjobs : t.dev.jobs = s.dev.jobs ++ [⟨why, key, s.nextId⟩])
include hj hjobs

theorem newJobs_of_noJob : t.dev.jobs.filter (fun j => !s.dev.jobs.contains j) = [⟨why, key, s.nextId⟩] := by
  have hold : ⟨why, key, s.nextId⟩ ∉ s.dev.jobs := fun hm => by
    have := List.find?_eq_none.1 hj _ hm
    simp at this
  rw [hjobs, List.filter_append, List.filter_eq_nil_iff.2 (by simp), List.nil_append,
    List.filter_cons_of_pos (by simpa using hold), List.filter_nil]

/-- What is kept of a piece of work that has asked for the first time: its job. -/
theorem keepAsked_jobs : (keepAsked t s).dev.jobs = s.dev.jobs ++ [⟨why, key, s.nextId⟩] :=
  congrArg (s.dev.jobs ++ ·) (newJobs_of_noJob hj hjobs)

/-- What is kept of a piece of work that has asked for the first time: the reply that it awaits. -/
theorem keepAsked_reply (hr : t.replies = tabPut s.replies s.nextId y) : (tabFind (keepAsked t s).replies s.nextId).isSome = true := by
  unfold keepAsked
  refine tabFind_puts_isSome _ _ (.inr ⟨y, List.mem_filter.2 ⟨hr ▸ mem_tabPut .., ?_⟩⟩)
  rw [newJobs_of_noJob hj hjobs]
  simp

end Work

/-! ### Leases (R126) -/

theorem onNode_of_found {id : Nat} {x : Node} {s : State} (hx : tabFind s.dev.nodes id = some x) (f : Node → Node) :
    onNode id f s = { s with dev := { s.dev with nodes := tabPut s.dev.nodes id (f x) } } := by
  rw [onNode, hx]
  rfl

/-- A change of a node changes nothing of whether the work under way still awaits a read. -/
theorem onNode_reading (id : Nat) (f : Node → Node) (s : State) : (onNode id f s).dev.reading = s.dev.reading := by
  unfold onNode
  split <;> rfl

section Increment

variable {id n : Nat} {s : State} {x : Node} {f : LeaseFrame} (hx : tabFind s.dev.nodes id = some x) (hf : x.frames[n]? = some f)
  (hl : x.lease = .acquiring) (hd : f.done = false)
include hx hf hl hd

theorem execLeaseIncrement_of_noEntry (h : noEntry s f = true) :
    execLeaseIncrement id n s = .next (leaseRefused id (frameRegion s x f) s) := by
  simp only [execLeaseIncrement, hx, hf, hl, hd, h, ne_eq, not_true_eq_false, Bool.false_eq_true, or_self, if_false, if_true]

theorem execLeaseIncrement_of_full (h : noEntry s f = false) (hc : 65535 ≤ ssLcount (ssEntry s f.vf f.stack f.gfn)) :
    execLeaseIncrement id n s = .next s := by
  simp only [execLeaseIncrement, hx, hf, hl, hd, h, ge_iff_le, hc, ne_eq, not_true_eq_false, Bool.false_eq_true, or_self, if_false, if_true]

section Room

variable (h : noEntry s f = false) (hc : ssLcount (ssEntry s f.vf f.stack f.gfn) < 65535)
include h hc

/-- An increment that a frame has room for is work on its entry (R47). -/
theorem execLeaseIncrement_of_room : execLeaseIncrement id n s = .next (attempt (.frame id n) (fun s =>
    let r := askEntries (.frame id n) [] x.vf [ssPlace s f.vf f.stack f.gfn] s
    if r.1.dev.reading then r.1 else raiseFrame id n x f (!r.2.isEmpty) r.1) s) := by
  have hroom : ¬ ssLcount (ssEntry s f.vf f.stack f.gfn) ≥ 65535 := not_le.2 hc
  simp only [execLeaseIncrement, hx, hf, hl, hd, h, hroom, ne_eq, not_true_eq_false, Bool.false_eq_true, or_self, if_false]

theorem execLeaseIncrement_of_noJob (hj : findJob s.dev (.frame id n) [] = none) : ∃ t, execLeaseIncrement id n s = .next t ∧
    t.mem = s.mem ∧ t.dev.nodes = s.dev.nodes ∧ t.dev.jobs = s.dev.jobs ++ [⟨.frame id n, [], s.nextId⟩] ∧
    (tabFind t.replies s.nextId).isSome = true := by
  have hrun : execLeaseIncrement id n s = .next (keepAsked (notYet (openJob (.frame id n) [] 32
      (entryReads x.vf [ssPlace s f.vf f.stack f.gfn]) { s with dev := { s.dev with reading := false } })) s) := by
    rw [execLeaseIncrement_of_room hx hf hl hd h hc, attempt]
    simp only [askEntries_of_noJob (s := { s with dev := { s.dev with reading := false } }) hj rfl (List.cons_ne_nil _ _), notYet_reading, if_true]
    exact congrArg Host.Outcome.next (worked_waits rfl)
  exact ⟨_, hrun, rfl, rfl, keepAsked_jobs hj rfl, keepAsked_reply hj rfl rfl⟩

variable {j : Job} {r : Reply} (hj : findJob s.dev (.frame id n) [] = some j) (hr : tabFind s.replies j.id = some r) (h0 : r.left = 0)
include hj hr h0

theorem execLeaseIncrement_of_reply : execLeaseIncrement id n s = .next (worked (.frame id n)
    (raiseFrame id n x f (!((r.errs.map (fun e => e.off / 32)).eraseDups).isEmpty) (onDev (fun d => { d with reading := false }) s)) s) := by
  rw [execLeaseIncrement_of_room hx hf hl hd h hc, attempt]
  simp only [askEntries_of_reply (s := { s with dev := { s.dev with reading := false } }) hj hr h0 (List.cons_ne_nil _ _),
    Bool.false_eq_true, if_false]
  rfl

theorem execLeaseIncrement_of_mapped (hv : ssV (ssEntry s f.vf f.stack f.gfn) = true) (hloc : ssLoc (ssEntry s f.vf f.stack f.gfn) = false)
    (he : r.errs = []) : execLeaseIncrement id n s = .next (closeJobs (.frame id n) (onNode id (fun x => { x with
      frames := x.frames.set n { f with done := true }, replies := x.replies ++ [n] })
      (addLcount f true (onDev (fun d => { d with reading := false }) s)))) := by
  have hraise : raiseFrame id n x f false (onDev (fun d => { d with reading := false }) s) = onNode id (fun x => { x with
      frames := x.frames.set n { f with done := true }, replies := x.replies ++ [n] })
      (addLcount f true (onDev (fun d => { d with reading := false }) s)) := by
    have hm : unmappedFrame (onDev (fun d => { d with reading := false }) s) f = false := Bool.or_eq_false_iff.2 ⟨h, congrArg (!·) hv⟩
    rw [raiseFrame, hm]
    exact if_neg (Bool.eq_false_iff.1 hloc)
  rw [execLeaseIncrement_of_reply hx hf hl hd h hc hj hr h0, he]
  refine congrArg Host.Outcome.next ((congrArg (fun t => worked (.frame id n) t s) hraise).trans (worked_done ?_))
  exact onNode_reading ..

theorem execLeaseIncrement_of_unmapped (hu : ssV (ssEntry s f.vf f.stack f.gfn) = false ∨ r.errs ≠ []) :
    execLeaseIncrement id n s = .next (worked (.frame id n) (leaseRefused id
      (frameRegion (onDev (fun d => { d with reading := false }) s) x f) (onDev (fun d => { d with reading := false }) s)) s) := by
  rw [execLeaseIncrement_of_reply hx hf hl hd h hc hj hr h0, raiseFrame, if_pos]
  obtain hv | he := hu
  · exact Bool.or_eq_true_iff.2 (.inr (Bool.or_eq_true_iff.2 (.inr (congrArg (!·) hv))))
  · exact Bool.or_eq_true_iff.2 (.inl (by simpa [List.isEmpty_iff] using lostEntries_ne_nil he))

end Room
end Increment

theorem execLeaseReply_of_awaited {id n : Nat} {s : State} {x : Node} (hx : tabFind s.dev.nodes id = some x) (hl : x.lease = .acquiring)
    (hn : x.replies.contains n = true) : ∃ u, execLeaseReply id n s = .next { s with dev := { s.dev with nodes := tabPut s.dev.nodes id u } } ∧
      u.replies = x.replies.filter (· != n) ∧ u.frames = x.frames := by
  refine ⟨{ x with
    replies := x.replies.filter (· != n), lease := leaseState { x with replies := x.replies.filter (· != n) } }, ?_, rfl, rfl⟩
  rw [execLeaseReply, onNode_of_found hx, if_pos ⟨hl, hn⟩]

section Release

variable {id n : Nat} {s : State} {r : Release} (hn : (s.dev.releases.filter (fun r => r.node == id))[n]? = some r)
include hn

theorem execLeaseRelease_of_gone (hp : releasePlace s r = none) : execLeaseRelease id n s = .next (closeJobs (.release r.id)
    (onDev (fun d => { d with reading := false, releases := d.releases.filter (fun x => x.id != r.id) }) s)) := by
  have hp' : releasePlace { s with dev := { s.dev with reading := false } } r = none := hp
  simp only [execLeaseRelease, hn, attempt, hp']
  rw [worked_done rfl]
  rfl

variable {p : Nat × Nat} (hp : releasePlace s r = some p)
include hp

theorem execLeaseRelease_of_noJob (hj : findJob s.dev (.release r.id) [] = none) : ∃ t, execLeaseRelease id n s = .next t ∧
    t.mem = s.mem ∧ t.dev.releases = s.dev.releases ∧ t.dev.jobs = s.dev.jobs ++ [⟨.release r.id, [], s.nextId⟩] := by
  have hp' : releasePlace { s with dev := { s.dev with reading := false } } r = some p := hp
  simp only [execLeaseRelease, hn, attempt, hp',
    askEntries_of_noJob (s := { s with dev := { s.dev with reading := false } }) hj rfl (List.cons_ne_nil _ _)]
  refine ⟨_, congrArg Host.Outcome.next (worked_waits ?_), rfl, rfl, keepAsked_jobs hj ?_⟩
  · cases r.what <;> rfl
  · cases r.what <;> rfl

variable {j : Job} {y : Reply} (hj : findJob s.dev (.release r.id) [] = some j) (hr : tabFind s.replies j.id = some y) (h0 : y.left = 0)
  (he : y.errs = [])
include hj hr h0 he

theorem execLeaseRelease_of_reply : execLeaseRelease id n s = .next (closeJobs (.release r.id)
    (onDev (fun d => { d with reading := false, releases := d.releases.filter (fun x => x.id != r.id) })
      (match r.what with
        | .inl i => addLcnt r.vf i false (onDev (fun d => { d with reading := false }) s)
        | .inr f => addLcount f false (onDev (fun d => { d with reading := false }) s)))) := by
  have hp' : releasePlace { s with dev := { s.dev with reading := false } } r = some p := hp
  simp only [execLeaseRelease, hn, attempt, hp',
    askEntries_of_reply (s := { s with dev := { s.dev with reading := false } }) hj hr h0 (List.cons_ne_nil _ _), he]
  rw [worked_done]
  · cases r.what <;> rfl
  · cases r.what <;> rfl

end Release

end Sys2Proof.Machine
end

section

/-! ## Pulls, invalidations and UALink ports (O54) -/

namespace Sys2Proof.Machine

/-! ### Pulls (R128) -/

@[simp] theorem sendPull_pulls (id v off : Nat) (e : BitVec 256) (s : State) : (sendPull id v off e s).dev.pulls = s.dev.pulls := rfl

section Pull

variable {id : Nat} {s : State} {p : Pull} (hp : tabFind s.dev.pulls id = some p)
include hp

theorem execPullReadReply_of_failed (bs : List Byte) : execPullReadReply id false bs s = .next (pullFails id p s) := by
  simp only [execPullReadReply, hp, Bool.not_false, if_true]

theorem execPullReadReply_of_more (hg : p.got + 1 < 8192) (bs : List Byte) : ∃ t u, execPullReadReply id true bs s = .next t ∧
    tabFind t.dev.pulls id = some u ∧ u.got = p.got + 1 ∧ t.reqs = s.reqs ++ pullWrites s id p bs ∧ t.mem = s.mem := by
  have hfirst : ¬ p.got ≥ 8192 := by omega
  have hlast : ¬ p.got + 1 ≥ 8192 := by omega
  simp only [execPullReadReply, hp, hfirst, hlast, Bool.not_true, Bool.false_eq_true, if_false]
  refine ⟨_, { p with got := p.got + 1, sent := p.sent + 1 }, rfl, ?_, rfl, rfl, ?_⟩
  · rw [sendPull_pulls]
    exact tabFind_put_same ..
  · rw [sendPull_mem]

theorem execPullReadReply_of_last (hg : p.got + 1 = 8192) (bs : List Byte) : execPullReadReply id true bs s = .next { s with
    reqs := s.reqs ++ pullWrites s id p bs
    dev := { s.dev with pulls := tabPut s.dev.pulls id { p with got := p.got + 1, sent := p.sent + 1 } } } := by
  have hfirst : ¬ p.got ≥ 8192 := by omega
  simp only [execPullReadReply, hp, hfirst, ge_iff_le, hg.ge, Bool.not_true, Bool.false_eq_true, if_false, if_true]

theorem execPullTimeout_of_late (h : p.start + usec p.wd ≤ s.cyc) : execPullTimeout id s = .next (pullFails id p s) := by
  rw [execPullTimeout, hp]
  exact if_pos h

theorem execPullTimeout_of_early (h : s.cyc < p.start + usec p.wd) : execPullTimeout id s = .next s := by
  rw [execPullTimeout, hp]
  exact if_neg (not_le.2 h)

section Reply

variable {r : Reply} (hr : tabFind s.replies id = some r) (hl : r.left = 0) (hz : r.size ≠ 0) (ho : r.ok = false) (hw : r.who = .setter)
include hr hl hz ho hw

/-- What a pull awaits is in: the pull goes on (R128). -/
theorem execEndpointReply_of_pull : execEndpointReply id s =
    .next (pullStep id p r { s with replies := tabPut s.replies id { r with ok := true } }) := by
  have hopen : ¬(r.left ≠ 0 ∨ r.size = 0 ∨ r.ok = true) := by simp [hl, hz, ho]
  rw [execEndpointReply, hr]
  simp only [if_neg hopen, hw, setterReply, hp]

theorem execEndpointReply_of_pullError (he : r.errs ≠ []) : execEndpointReply id s =
    .next (pullFails id p { s with replies := tabPut s.replies id { r with ok := true } }) := by
  rw [execEndpointReply_of_pull hp hr hl hz ho hw, pullStep, if_pos (by simpa [List.isEmpty_iff] using he)]

theorem execEndpointReply_of_pullBlocks (he : r.errs = []) (hs : r.size = 2 ^ 21) : ∃ t, execEndpointReply id s = .next t ∧
    t.mem = s.mem ∧ t.reqs = s.reqs ++ [ownReq id 0 p.vf (.phys p.stack (ssPlace s p.vf p.stack p.gfn).2) 32 .read []] := by
  rw [execEndpointReply_of_pull hp hr hl hz ho hw, pullStep, if_neg (by simp [he]), if_pos (hs.trans rfl : r.size = pullData)]
  exact ⟨_, rfl, rfl, rfl⟩

theorem execEndpointReply_of_pullEntry (he : r.errs = []) (hs : r.size = 32) : execEndpointReply id s =
    .next (pullDone id p { s with replies := tabPut s.replies id { r with ok := true } }) := by
  rw [execEndpointReply_of_pull hp hr hl hz ho hw, pullStep, if_neg (by simp [he]), if_neg (by simp [hs, pullData])]

end Reply
end Pull

/-! ### Invalidations (R124) -/

section Invalidation

variable {id : Nat} {s : State} {i : Inval} (hi : s.dev.invals[id]? = some i)
include hi

theorem execInvalidationDone_of_done (hv : vfGone s.dev i.vf = false) (hd : invalDone s i = true) : ∃ t, execInvalidationDone id s =
    .next (putEntry i.stack i.addr (entryAt s i.stack i.addr &&& ~~~(1#256 <<< (if i.ss then 57 else 181))) t) ∧
    t.dev.invals = s.dev.invals.eraseIdx id := by
  refine ⟨onDev (fun d => { d with invals := d.invals.eraseIdx id }) s, ?_, rfl⟩
  simp only [execInvalidationDone, hi, hd, hv, Bool.not_true, Bool.false_eq_true, if_false]

variable (ht : i.start + (i.period + 1) * usec i.wd ≤ s.cyc)
include ht

/-- At the end of a first or a second period an invalidation that is not complete goes on. -/
theorem execInvalidationTimeout_of_due (h : i.period < 2) : execInvalidationTimeout id s =
    if i.period + 1 = 1 then .next (pressGroups { i with period := i.period + 1 }
      (onDev (fun d => { d with invals := d.invals.set id { i with period := i.period + 1 } }) s))
    else .next (i.groups.foldl (fun s g => onTask g.1 (addTrap g.2 (invalTrap { i with period := i.period + 1 })) s)
      (onDev (fun d => { d with invals := d.invals.set id { i with period := i.period + 1 } }) s)) := by
  have hdue : (decide (s.cyc < i.start + (i.period + 1) * usec i.wd) || decide (i.period ≥ 2)) = false := by
    rw [decide_eq_false (not_lt.2 ht), decide_eq_false (not_le.2 h)]
    rfl
  simp only [execInvalidationTimeout, hi, hdue, Bool.false_eq_true, if_false]

/-- At the end of the first period the sequencers that have not acknowledged are pre-empted. -/
theorem execInvalidationTimeout_of_first (h : i.period = 0) : execInvalidationTimeout id s = .next (pressGroups { i with period := 1 }
    (onDev (fun d => { d with invals := d.invals.set id { i with period := 1 } }) s)) := by
  rw [execInvalidationTimeout_of_due hi ht (by omega), if_pos (by omega), h]

/-- At the end of the second period their tasks trap. -/
theorem execInvalidationTimeout_of_second (h : i.period = 1) : execInvalidationTimeout id s = .next (i.groups.foldl
    (fun s g => onTask g.1 (addTrap g.2 (invalTrap { i with period := 2 })) s)
    (onDev (fun d => { d with invals := d.invals.set id { i with period := 2 } }) s)) := by
  rw [execInvalidationTimeout_of_due hi ht (by omega), if_neg (by omega), h]

end Invalidation

/-! ### The links of a port (R53, R62, R64) -/

section Link

variable {n : Nat} {s : State}

@[simp] theorem getPort_setPort_same (n : Nat) (p : Port) (d : Dev) : getPort (setPort n p d) n = p := tabGet_set_same ..

theorem portWidth_ne_zero {w : Nat} (h : w ≠ 0) : portWidth w ≠ 0 := by
  unfold portWidth
  split
  · decide
  · split
    · decide
    · exact h

theorem trained_retrain (w r : Nat) (p : Port) : (trained w r p).retrain = p.retrain := by
  unfold trained
  split <;> rfl

theorem execLaneLoss_of_none (r : Nat) : execLaneLoss n 0 r s = .next ((portUsers s n).foldl
    (fun t e => report e.1 { record0 12 with place := w64 e.2 } t)
    (loupeUa n 2 0 0 (onDev (fun d => setPort n { getPort s.dev n with width := 0, up := false } d) s))) := rfl

theorem execLaneLoss_of_width {w : Nat} (h : w ≠ 0) (r : Nat) : ∃ t, execLaneLoss n w r s = .next (loupeUa n 1 0 0 t) ∧
    t = onDev (fun d => setPort n { trained w r (getPort s.dev n) with retrain := (getPort s.dev n).retrain + 1#16 }
      (setPort n (trained w r (getPort s.dev n)) d)) s := by
  refine ⟨_, if_neg (portWidth_ne_zero h), ?_⟩
  simp only [onDev, getPort_setPort_same, trained_retrain]

theorem execSkidSend_of_held {m : Queued} {ms : List Queued} (hh : skidHeld (getPort s.dev n) = true)
    (hm : (getPort s.dev n).skid = m :: ms) : execSkidSend n s = .next s := by
  simp only [execSkidSend, hm, hh, if_true]

theorem execSkidSend_of_free {m : Queued} {ms : List Queued} (hh : skidHeld (getPort s.dev n) = false)
    (hm : (getPort s.dev n).skid = m :: ms) : execSkidSend n s = .next (onDev (fun d => { setPort n { getPort s.dev n with skid := ms } d with
      outbox := d.outbox ++ [.message n m.m] }) s) := by
  simp only [execSkidSend, hm, hh, Bool.false_eq_true, if_false]

end Link

/-! ### Messages and credits (R56, R62, R63, R141) -/

section Message

variable {m : Msg} {s : State}

/-- A message that no landing buffer holds is delivered where its port has room for it. -/
theorem execMessageLanding_of_room (hp : m.port < fromLanding) (hr : m.port < 72 → landingRoom s.dev m = true) :
    execMessageLanding m s = .next (deliver m s) := by
  have hfull : ¬(decide (m.port < 72) && !landingRoom s.dev m) = true := by
    simp only [Bool.and_eq_true, decide_eq_true_eq, Bool.not_eq_true', not_and, Bool.not_eq_false]
    exact hr
  rw [execMessageLanding, if_neg (not_le.2 hp), if_neg hfull]

theorem execMessageLanding_of_full (hp : m.port < 72) (hr : landingRoom s.dev m = false) :
    execMessageLanding m s = .next (waitLanding m s) := by
  have hfull : (decide (m.port < 72) && !landingRoom s.dev m) = true := by simp [hp, hr]
  rw [execMessageLanding, if_neg (not_le.2 (hp.trans (by decide))), if_pos hfull]

/-- The message that a landing buffer gives out, with its port's number. -/
def givenOut (m : Msg) : Msg := { m with port := m.port - fromLanding }

@[simp] theorem givenOut_dst (m : Msg) : (givenOut m).dst = m.dst := by simp only [givenOut]

theorem execMessageLanding_of_taken (hp : fromLanding ≤ m.port)
    (hb : (buffered 0 (getPort s.dev (givenOut m).port).landing).contains (givenOut m) = true) :
    execMessageLanding m s = .next (deliver (givenOut m) (leaveLanding (givenOut m) s)) := by
  rw [execMessageLanding, if_pos hp]
  exact congrArg Host.Outcome.next (if_pos hb)

/-- A landing buffer says nothing of where a receiver is. -/
@[simp] theorem findDest_leaveLanding (m : Msg) (s : State) (dst : Nat) : findDest (leaveLanding m s) dst = findDest s dst := by
  unfold leaveLanding
  split <;> rfl

theorem deliver_of_task {tid : Nat} (h : findDest s m.dst = .task tid) : deliver m s = landAtTask tid m s := by rw [deliver, h]
theorem deliver_of_gone (h : findDest s m.dst = .gone) : deliver m s = s := by rw [deliver, h]
theorem deliver_of_later (h : findDest s m.dst = .later) : deliver m s = waitLanding m s := by rw [deliver, h]

end Message

section Credit

variable {id ch : Nat} {s : State}

theorem execCreditReturn_of_noLaunch (h : 2 ^ 40 ≤ id) : execCreditReturn id ch s = .next s := by
  rw [execCreditReturn, if_neg (not_lt.2 h)]

theorem execCreditReturn_of_sender {tid : Nat} {t : Task} (hid : id < 2 ^ 40) (hd : findDest s id = .task tid)
    (ht : tabFind s.tasks tid = some t) (hv : (tabGet chanOff t.chans ch).path ≠ 3#2) (hs : (tabGet chanOff t.chans ch).recv = false)
    (hc : (tabGet chanOff t.chans ch).cred.toNat < 16) : execCreditReturn id ch s = .next { s with tasks := tabPut s.tasks tid { t with
      chans := tabSet chanOff t.chans ch { tabGet chanOff t.chans ch with cred := (tabGet chanOff t.chans ch).cred + 1 } } } := by
  rw [execCreditReturn, if_pos hid, hd]
  simp only [onTask, ht]
  rw [if_neg]
  simp [hv, hs, hc]

end Credit

/-! ### Remote requests (R52, R107) -/

section Remote

variable {x : RemoteReq} {s : State}

theorem execRemoteRequest_of_refused (h : vfLive s.dev x.vf = false ∨ x.size = 0 ∨ 256 < x.size ∨ remoteOp x.op = false) :
    execRemoteRequest x s = .next (onDev (fun d => { d with outbox := d.outbox ++ [.reply x.port false []] }) s) := by
  rw [execRemoteRequest]
  refine if_pos ?_
  simp only [Bool.or_eq_true, Bool.not_eq_true', decide_eq_true_eq]
  tauto

theorem execRemoteRequest_of_access (hv : vfLive s.dev x.vf = true) (h0 : 0 < x.size) (h256 : x.size ≤ 256) (ho : x.op = .read ∨ x.op = .write) :
    execRemoteRequest x s = .next { s with
      nextId := s.nextId + 1
      replies := tabPut s.replies s.nextId ⟨.remote x.port x.vf x.src, if x.op = .write then 0 else x.size,
        (piecesOf x.ipa x.size).length, [], [], false⟩
      reqs := s.reqs ++ (piecesOf x.ipa x.size).map (fun p => ⟨s.nextId, p.1, .remote x.port x.vf x.src, x.vf, .ipa x.vf p.2.1, p.2.2, x.op,
        (x.data.drop p.1).take p.2.2, w64 p.2.1, false, false⟩) } := by
  have hop : remoteOp x.op = true ∧ (x.op != .read && x.op != .write) = false := by
    obtain h | h := ho <;> rw [h] <;> exact ⟨rfl, by decide⟩
  have hsize : x.size ≠ 0 ∧ ¬ 256 < x.size := by omega
  simp [execRemoteRequest, hop, hv, hsize]

theorem execRemoteRequest_of_atomic (hv : vfLive s.dev x.vf = true) (h8 : x.size = 8) (ha : x.ipa % 8 = 0) (ho : remoteOp x.op = true)
    (hr : x.op ≠ .read) (hw : x.op ≠ .write) : execRemoteRequest x s = .next { s with
      nextId := s.nextId + 1
      replies := tabPut s.replies s.nextId ⟨.remote x.port x.vf x.src, 8, (piecesOf x.ipa 8).length, [], [], false⟩
      reqs := s.reqs ++ (piecesOf x.ipa 8).map (fun p => ⟨s.nextId, p.1, .remote x.port x.vf x.src, x.vf, .ipa x.vf p.2.1, p.2.2, x.op,
        x.data, w64 p.2.1, false, false⟩) } := by
  have hop : (x.op != .read && x.op != .write) = true := by simp [hr, hw]
  simp [execRemoteRequest, hop, hv, ho, h8, ha, hw]

end Remote

/-- Settles O54, an event at a time. -/
theorem leaseAndLinkEvents : Obligations.LeaseAndLinkEvents := by
  intro n id s
  refine ⟨fun x f hx hf hl hd => ⟨execLeaseIncrement_of_noEntry hx hf hl hd, execLeaseIncrement_of_full hx hf hl hd,
      fun h hc => ⟨execLeaseIncrement_of_noJob hx hf hl hd h hc, fun j r hj hr h0 =>
        ⟨execLeaseIncrement_of_mapped hx hf hl hd h hc hj hr h0, execLeaseIncrement_of_unmapped hx hf hl hd h hc hj hr h0⟩⟩⟩,
    fun x => execLeaseReply_of_awaited,
    fun r hn => ⟨execLeaseRelease_of_gone hn, fun p hp => ⟨execLeaseRelease_of_noJob hn hp, fun j y hj hr h0 he =>
      ⟨fun i hi => ?_, fun f hf => ?_⟩⟩⟩,
    fun p hp => ⟨execPullReadReply_of_more hp, execPullReadReply_of_last hp, fun r hr hl hz ho hw =>
        ⟨execEndpointReply_of_pullError hp hr hl hz ho hw, execEndpointReply_of_pullBlocks hp hr hl hz ho hw,
          execEndpointReply_of_pullEntry hp hr hl hz ho hw⟩,
      execPullReadReply_of_failed hp, execPullTimeout_of_late hp, execPullTimeout_of_early hp⟩,
    fun i hi => execInvalidationDone_of_done hi,
    fun i hi ht => ⟨execInvalidationTimeout_of_first hi ht, execInvalidationTimeout_of_second hi ht⟩,
    fun w r => rfl, execLaneLoss_of_none, fun w r hw => execLaneLoss_of_width hw r, rfl, rfl,
    fun m ms => execSkidSend_of_held, fun m ms => execSkidSend_of_free,
    fun m tid hd => ⟨fun hp hr => ?_, execMessageLanding_of_full, fun hp hb => ?_⟩,
    fun m hp hr => ⟨fun hd => ?_, fun hd => ?_⟩,
    fun ch => execCreditReturn_of_noLaunch, fun tid t ch hid hd ht => execCreditReturn_of_sender hid hd ht,
    fun x => execRemoteRequest_of_access, fun x => execRemoteRequest_of_refused, fun x => execRemoteRequest_of_atomic, fun j w => rfl⟩
  · exact (execLeaseRelease_of_reply hn hp hj hr h0 he).trans (by rw [hi])
  · exact (execLeaseRelease_of_reply hn hp hj hr h0 he).trans (by rw [hf])
  · exact (execMessageLanding_of_room hp hr).trans (congrArg Host.Outcome.next (deliver_of_task hd))
  · have hd' : findDest (leaveLanding (givenOut m) s) (givenOut m).dst = .task tid := by
      rw [findDest_leaveLanding, givenOut_dst, hd]
    exact (execMessageLanding_of_taken hp hb).trans (congrArg Host.Outcome.next (deliver_of_task hd'))
  · exact (execMessageLanding_of_room hp hr).trans (congrArg Host.Outcome.next (deliver_of_gone hd))
  · exact (execMessageLanding_of_room hp hr).trans (congrArg Host.Outcome.next (deliver_of_later hd))

end Sys2Proof.Machine
end

section

/-! ## Selection rounds, gangs and pre-emption (O55) -/

namespace Sys2Proof.Machine

/-! ### Nodes in an order -/

section Order

variable {before : Nat × Node → Nat × Node → Bool}

theorem mem_insertNode {a x : Nat × Node} {l : List (Nat × Node)} : x ∈ insertNode before a l ↔ x = a ∨ x ∈ l := by
  induction l with
  | nil => simp [insertNode]
  | cons b bs ih =>
    rw [insertNode]
    split
    · simp
    · simp only [List.mem_cons, ih]
      tauto

theorem mem_foldl_insertNode {x : Nat × Node} (xs l : List (Nat × Node)) :
    x ∈ xs.foldl (fun l e => insertNode before e l) l ↔ x ∈ xs ∨ x ∈ l := by
  induction xs generalizing l with
  | nil => simp
  | cons y ys ih =>
    rw [List.foldl_cons, ih, mem_insertNode, List.mem_cons]
    tauto

variable (hasymm : ∀ a b, before a b = true → before b a = false)
  (htrans : ∀ a b c, before a b = true → before b c = true → before a c = true)
include hasymm htrans

/-- Inserting keeps a list in which none comes before one ahead of it. -/
theorem insertNode_pairwise (a : Nat × Node) {l : List (Nat × Node)} (h : l.Pairwise (fun x y => before y x = false)) :
    (insertNode before a l).Pairwise (fun x y => before y x = false) := by
  induction l with
  | nil => exact List.pairwise_singleton ..
  | cons b bs ih =>
    obtain ⟨hb, hbs⟩ := List.pairwise_cons.1 h
    rw [insertNode]
    split
    · next hab =>
      refine List.pairwise_cons.2 ⟨fun y hy => ?_, h⟩
      obtain rfl | hy := List.mem_cons.1 hy
      · exact hasymm _ _ hab
      · refine Bool.eq_false_iff.2 fun hya => ?_
        exact absurd (htrans _ _ _ hya hab) (Bool.eq_false_iff.1 (hb y hy))
    · next hab =>
      refine List.pairwise_cons.2 ⟨fun y hy => ?_, ih hbs⟩
      obtain rfl | hy := mem_insertNode.1 hy
      · exact Bool.eq_false_iff.2 hab
      · exact hb y hy

theorem foldl_insertNode_pairwise (xs : List (Nat × Node)) {l : List (Nat × Node)} (h : l.Pairwise (fun x y => before y x = false)) :
    (xs.foldl (fun l e => insertNode before e l) l).Pairwise (fun x y => before y x = false) := by
  induction xs generalizing l with
  | nil => exact h
  | cons y ys ih => exact ih (insertNode_pairwise hasymm htrans y h)

end Order

theorem servedBefore_iff (a b : Nat × Node) :
    servedBefore a b = true ↔ b.2.prio < a.2.prio ∨ a.2.prio = b.2.prio ∧ a.2.ready.getD 0 < b.2.ready.getD 0 := by
  simp [servedBefore]

theorem victimBefore_iff (a b : Nat × Node) :
    victimBefore a b = true ↔ a.2.prio < b.2.prio ∨ a.2.prio = b.2.prio ∧ b.2.order < a.2.order := by
  simp [victimBefore]

/-- Nodes are served level by level, and of a level in the order in which they became ready (R149, R150). -/
theorem served_pairwise (xs : List (Nat × Node)) :
    (xs.foldl (fun l e => insertNode servedBefore e l) []).Pairwise (fun a b => servedBefore b a = false) := by
  refine foldl_insertNode_pairwise (fun a b h => ?_) (fun a b c h k => ?_) xs List.Pairwise.nil
  · rw [← Bool.not_eq_true, servedBefore_iff]
    rw [servedBefore_iff] at h
    omega
  · rw [servedBefore_iff] at h k ⊢
    omega

/-- Nodes are taken lowest level first, and of a level the last dispatched first (R152). -/
theorem victims_pairwise (s : State) (lvl : Nat) : (victims s lvl).Pairwise (fun a b => victimBefore b a = false) := by
  refine foldl_insertNode_pairwise (fun a b h => ?_) (fun a b c h k => ?_) _ List.Pairwise.nil
  · rw [← Bool.not_eq_true, victimBefore_iff]
    rw [victimBefore_iff] at h
    omega
  · rw [victimBefore_iff] at h k ⊢
    omega

theorem mem_victims {s : State} {lvl : Nat} {e : Nat × Node} (h : e ∈ victims s lvl) :
    e ∈ s.dev.nodes ∧ e.2.kind = 1 ∧ e.2.st = .running ∧ e.2.prio < lvl ∧ onItsWay s e.1 = false := by
  obtain h | h := (mem_foldl_insertNode ..).1 h
  · simpa [and_assoc] using h
  · cases h

/-! ### Selection rounds (R149, R150) -/

theorem levelWaits_iff (die lvl : Nat) (t : State) : levelWaits t die lvl = true ↔ ∃ e ∈ t.dev.nodes, e.2.die = die ∧ e.2.prio = lvl ∧
    isReady t e.2 = true ∧ launchOf t e.1 e.2 false ≠ none := by
  simp only [levelWaits, readyNodes, List.any_eq_true, List.mem_filter, Bool.and_eq_true, beq_iff_eq, Option.isSome_iff_ne_none, and_assoc]

/-- A node is no younger than another: by handle, then by index. -/
def noYounger (a b : Node) : Prop := a.handle < b.handle ∨ (a.handle = b.handle ∧ a.idx ≤ b.idx)

theorem noYounger_trans {a b c : Node} (h : noYounger a b) (k : noYounger b c) : noYounger a c := by
  unfold noYounger at *
  omega

/-- The older of two nodes, the first of equals: one step of `oldestReady`. -/
def olderOf (a : Option (Nat × Node)) (e : Nat × Node) : Option (Nat × Node) :=
  match a with
  | none => some e
  | some b => if e.2.handle < b.2.handle ∨ (e.2.handle = b.2.handle ∧ e.2.idx < b.2.idx) then some e else a

theorem olderOf_spec (a : Option (Nat × Node)) (e : Nat × Node) : ∃ o, olderOf a e = some o ∧ (o = e ∨ a = some o) ∧
    noYounger o.2 e.2 ∧ ∀ b, a = some b → noYounger o.2 b.2 := by
  cases a with
  | none => exact ⟨e, rfl, .inl rfl, .inr ⟨rfl, le_rfl⟩, fun b h => by cases h⟩
  | some b =>
    by_cases h : e.2.handle < b.2.handle ∨ (e.2.handle = b.2.handle ∧ e.2.idx < b.2.idx)
    · refine ⟨e, if_pos h, .inl rfl, .inr ⟨rfl, le_rfl⟩, fun c hc => ?_⟩
      cases hc
      exact h.imp_right (And.imp_right le_of_lt)
    · refine ⟨b, if_neg h, .inr rfl, ?_, fun c hc => ?_⟩
      · unfold noYounger
        omega
      · cases hc
        exact .inr ⟨rfl, le_rfl⟩

theorem foldl_olderOf_spec (xs : List (Nat × Node)) {a : Option (Nat × Node)} {o : Nat × Node} (h : xs.foldl olderOf a = some o) :
    (o ∈ xs ∨ a = some o) ∧ (∀ y ∈ xs, noYounger o.2 y.2) ∧ ∀ b, a = some b → noYounger o.2 b.2 := by
  induction xs generalizing a with
  | nil =>
    refine ⟨.inr h, fun y hy => (by cases hy), fun b hb => ?_⟩
    cases hb.symm.trans h
    exact .inr ⟨rfl, le_rfl⟩
  | cons x xs ih =>
    obtain ⟨c, hc, hfrom, hx, ha⟩ := olderOf_spec a x
    rw [List.foldl_cons, hc] at h
    obtain ⟨hmem, hxs, hle⟩ := ih h
    have hoc := hle c rfl
    refine ⟨?_, fun y hy => ?_, fun b hb => noYounger_trans hoc (ha b hb)⟩
    · obtain hmem | hmem := hmem
      · exact .inl (List.mem_cons_of_mem _ hmem)
      · cases hmem
        refine hfrom.imp_left fun ho => ?_
        rw [ho]
        exact List.mem_cons_self
    · obtain rfl | hy := List.mem_cons.1 hy
      · exact noYounger_trans hoc hx
      · exact hxs y hy

/-- A VF's turn goes to its oldest ready node at the level (R150). -/
theorem oldestReady_spec {v die lvl : Nat} {t : State} {e : Nat × Node} (h : oldestReady t v die lvl = some e) :
    e ∈ t.dev.nodes ∧ e.2.vf = v ∧ e.2.die = die ∧ e.2.prio = lvl ∧ isReady t e.2 = true ∧
      ∀ y ∈ t.dev.nodes, y.2.vf = v → y.2.die = die → y.2.prio = lvl → isReady t y.2 = true → noYounger e.2 y.2 := by
  obtain ⟨hmem | hmem, hold, -⟩ := foldl_olderOf_spec _ h
  · simp only [List.mem_filter, Bool.and_eq_true, beq_iff_eq, and_assoc] at hmem
    obtain ⟨hn, hv, hd, hl, hr⟩ := hmem
    refine ⟨hn, hv, hd, hl, hr, fun y hy hyv hyd hyl hyr => hold y (List.mem_filter.2 ⟨hy, ?_⟩)⟩
    simp [hyv, hyd, hyl, hyr]
  · cases hmem

section Serve

variable {v die lvl n : Nat} {t : State}

theorem serveVf_of_none (h : oldestReady t v die lvl = none) : serveVf die lvl v (n + 1) t = setDeficit v lvl 0 t := by
  rw [serveVf, h]

variable {e : Nat × Node} (h : oldestReady t v die lvl = some e)
include h

theorem serveVf_of_noPlace (hl : launchOf t e.1 e.2 false = none) : serveVf die lvl v (n + 1) t = t := by
  rw [serveVf, h]
  simp only [hl]

variable {c k : Nat} {gs : List Grp} (hl : launchOf t e.1 e.2 false = some (c, k, gs))
include hl

theorem serveVf_of_dear (hc : deficitOf t v lvl < c) : serveVf die lvl v (n + 1) t = t := by
  rw [serveVf, h]
  simp only [hl, not_le.2 hc, if_false]

theorem serveVf_of_served (hc : c ≤ deficitOf t v lvl) : serveVf die lvl v (n + 1) t = serveVf die lvl v n (onDev (fun d => setDie die
    { getDie d die with served := tabSet 0 (getDie d die).served lvl (v + 1) } d)
    (launchNode e.1 e.2 k gs (setDeficit v lvl (deficitOf t v lvl - c) t))) := by
  rw [serveVf, h]
  simp only [hl, hc, if_true]

end Serve

/-! ### The gang token (R148, log 31) -/

section Token

variable {s : State}

theorem execGangToken_of_none (h : (waitingGangs s s.dev.token).foldl (fun l e => insertNode servedBefore e l) [] = []) :
    execGangToken s = .next (onDev (fun d => { d with token := (d.token + 1) % 8 }) s) := by
  simp only [execGangToken, h]

variable {e : Nat × Node} {es : List (Nat × Node)}
  (h : (waitingGangs s s.dev.token).foldl (fun l e => insertNode servedBefore e l) [] = e :: es)
include h

theorem execGangToken_of_higher (hw : (List.range 8).any (fun l => decide (e.2.prio < l) && levelWaits s s.dev.token l) = true) :
    execGangToken s = .next (onDev (fun d => { d with token := (d.token + 1) % 8 }) s) := by
  simp only [execGangToken, h, hw, if_true]

theorem execGangToken_of_tried (hw : (List.range 8).any (fun l => decide (e.2.prio < l) && levelWaits s s.dev.token l) = false) :
    execGangToken s = .next (onDev (fun d => { d with token := (d.token + 1) % 8 }) (placeGang s.dev.token e s)) := by
  simp only [execGangToken, h, hw, Bool.false_eq_true, if_false]

end Token

/-! ### Pre-emption (R152) -/

/-- What a set of nodes to pre-empt is: with its columns the starved node has a place, and each of its nodes holds columns that it can use. -/
theorem evictSet_spec {s : State} {id : Nat} {x : Node} (es : List (Nat × Node)) {ids₀ ids cols₀ cols : List Nat}
    (h : evictSet s id x es ids₀ cols₀ = some (ids, cols)) : findPlace s id x cols true ≠ none ∧
      ∀ i ∈ ids, i ∈ ids₀ ∨ ∃ e ∈ es, e.1 = i ∧ usable s id x (runningCols s i) = true := by
  induction es generalizing ids₀ cols₀ with
  | nil => cases h
  | cons e es ih =>
    have hlater {i : Nat} : (∃ y ∈ es, y.1 = i ∧ usable s id x (runningCols s i) = true) →
        ∃ y ∈ e :: es, y.1 = i ∧ usable s id x (runningCols s i) = true :=
      fun ⟨y, hy, hu⟩ => ⟨y, List.mem_cons_of_mem _ hy, hu⟩
    rw [evictSet] at h
    split at h
    · obtain ⟨hp, hids⟩ := ih h
      exact ⟨hp, fun i hi => (hids i hi).imp_right hlater⟩
    · next hu =>
      have hmine {i : Nat} (hi : i ∈ ids₀ ++ [e.1]) : i ∈ ids₀ ∨ ∃ y ∈ e :: es, y.1 = i ∧ usable s id x (runningCols s i) = true := by
        obtain hi | hi := List.mem_append.1 hi
        · exact .inl hi
        · obtain rfl := List.mem_singleton.1 hi
          exact .inr ⟨e, List.mem_cons_self, rfl, by simpa using hu⟩
      split at h
      · next hp =>
        cases h
        exact ⟨Option.isSome_iff_ne_none.1 hp, fun i hi => hmine hi⟩
      · obtain ⟨hp, hids⟩ := ih h
        exact ⟨hp, fun i hi => (hids i hi).elim hmine (fun hy => .inr (hlater hy))⟩

section Evict

variable {id : Nat} {x : Node} {s : State} (hx : tabFind s.dev.nodes id = some x)
include hx

theorem evictFor_of_place (hp : findPlace s id x [] true ≠ none) : evictFor id s = s := by
  rw [evictFor, hx]
  exact if_pos (Option.isSome_iff_ne_none.2 hp)

theorem evictFor_of_noSet (he : evictSet s id x (victims s x.prio) [] [] = none) : evictFor id s = s := by
  rw [evictFor, hx]
  simp only [he, ite_self]

theorem evictFor_of_set {ids cols : List Nat} (hp : findPlace s id x [] true = none)
    (he : evictSet s id x (victims s x.prio) [] [] = some (ids, cols)) : evictFor id s =
      ids.foldl (fun s v => loupeNode 3 v ((nodeTids s v).foldl (fun s t => post t .save s) s))
        (onDev (fun d => { d with reserved := cols.foldl (fun r k => tabSet 0 r k (id + 1)) d.reserved }) s) := by
  rw [evictFor, hx]
  simp only [hp, he, Option.isSome_none, Bool.false_eq_true, if_false]

end Evict

end Sys2Proof.Machine
end

section

/-! ## Submissions, collectives and job cards (O55) -/

namespace Sys2Proof.Machine

/-! ### Submissions and cancels (R95, R96, R135) -/

section Parse

variable {v : Nat} {s : State} {sub : Submit} {rest : List Submit} (hs : (getVf s.dev v).subs = sub :: rest)
include hs

theorem execGraphParse_eq : execGraphParse v s =
    .next (worked (.graph v sub.handle) (takeImage v sub (onDev (fun d => { d with reading := false }) s)) s) := by
  rw [execGraphParse, hs]
  rfl

end Parse

section Image

variable {v : Nat} {sub : Submit} {s : State}

theorem takeImage_of_error {st : Nat} (h : (parseImage v sub.handle sub.addr s).2 = .error st) : takeImage v sub s =
    freeSlot v (report v { record0 5 with status := st, handle := sub.handle } (parseImage v sub.handle sub.addr s).1) := by
  simp only [takeImage, h]

variable {ns : List Node} {es : List (Nat × Nat)} (h : (parseImage v sub.handle sub.addr s).2 = .ok (ns, es))
include h

theorem takeImage_of_room (hr : roomFor (parseImage v sub.handle sub.addr s).1.dev v ns.length = true) (hc : sub.cancels = []) :
    takeImage v sub s = freeSlot v (enterGraph v sub.handle ns es (parseImage v sub.handle sub.addr s).1) := by
  simp only [takeImage, h, hr, hc, if_true, List.foldl_nil]

theorem takeImage_of_noRoom (hr : roomFor (parseImage v sub.handle sub.addr s).1.dev v ns.length = false) :
    takeImage v sub s = (parseImage v sub.handle sub.addr s).1 := by
  simp only [takeImage, h, hr, Bool.false_eq_true, if_false]

end Image

section Submissions

variable {v : Nat} {w : Word} {s : State}

theorem execGsub_of_credit (hv : (getVf s.dev v).state = 1 ∨ (getVf s.dev v).state = 2) (hc : 0 < (getVf s.dev v).gscred) :
    let q := getVf s.dev v
    let h := (q.glast + 1) % 2 ^ 32
    execGsub v w s = .next (wakeHome v (onDev (setVf v { q with
      gsub := w, glast := h, gscred := q.gscred - 1, subs := q.subs ++ [⟨h, w, []⟩] }) s)) := if_pos ⟨hv, hc⟩

theorem execGsub_of_refused (h : (getVf s.dev v).gscred = 0 ∨ vfLive s.dev v = false) :
    execGsub v w s = .next (onDev (setVf v { getVf s.dev v with gerr := (getVf s.dev v).gerr ||| 2#4 }) s) := by
  refine if_neg ?_
  rintro ⟨hv, hc⟩
  obtain h | h := h
  · omega
  · obtain hv | hv := hv <;> simp [vfLive, hv] at h

theorem execGcan_of_entered (h4 : (getVf s.dev v).state ≠ 4) (h5 : (getVf s.dev v).state ≠ 5) (hs : (getVf s.dev v).subs = [])
    (hg : s.dev.graphs.any (fun g => g.vf == v && g.handle == fieldN w 32 32) = true) : execGcan v w s =
      .next (cancelNodes 1 (cancelled s.dev v (fieldN w 32 32) (fieldN w 0 32)) (wakeHome v (onVf v (fun q => { q with gcan := w }) s))) := by
  simp only [execGcan, h4, h5, hs, hg, or_self, if_false, List.any_nil, Bool.false_eq_true, Bool.not_true]

theorem execCaratFlush_of_none (hc : s.dev.charges = []) (ht : s.tasks = []) : execCaratFlush s = .next s := by
  simp only [execCaratFlush, ht, hc, List.map_nil, List.foldl_nil]

theorem execCaratFlush_of_task {tid : Nat} (ht : s.tasks.map Prod.fst = [tid]) (hc : (flushTask tid s).dev.charges = []) :
    execCaratFlush s = .next (flushTask tid s) := by
  simp only [execCaratFlush, ht, hc, List.map_nil, List.foldl_nil, List.foldl_cons]

end Submissions

/-! ### The start of a collective (R66, R70, log 28) -/

theorem tell_of_local {c : Coll} (h : spread c = false) (x : Sent) (s : State) : tell c x s = s := if_neg (Bool.eq_false_iff.1 h)
theorem tell_of_spread {c : Coll} (h : spread c = true) (x : Sent) (s : State) :
    tell c x s = onDev (fun d => { d with outbox := d.outbox ++ [x] }) s := if_pos h

section Start

variable {cid : Nat} {s : State} {c : Coll} (hc : getColl s.dev cid = some c) (hs : c.started = false)
include hc hs

section First

variable (ha : c.asked = false)
include ha

theorem execCollectiveStart_of_noContext {q : Nat} (hq : takeCtxs c.key c.part c.ports s.dev = .error q) : execCollectiveStart cid s =
    .next (beginColl c false (fallBack c q (tell c (.contexts c.root cid false) s))) := by
  simp only [execCollectiveStart, hc, hs, ha, hq, Bool.false_eq_true, if_false]

variable {d : Dev} (hd : takeCtxs c.key c.part c.ports s.dev = .ok d)
include hd

theorem execCollectiveStart_of_local (hp : spread c = false) : execCollectiveStart cid s = .next (beginColl c true { s with dev := d }) := by
  simp [execCollectiveStart, hc, hs, ha, hd, hp, tell_of_local hp]

theorem execCollectiveStart_of_spread (hp : spread c = true) (ho : c.others = none) : execCollectiveStart cid s =
    .next (onDev (fun d => { d with outbox := d.outbox ++ [.contexts c.root cid true] })
      (onColl cid (fun c => { c with asked := true }) { s with dev := d })) := by
  simp [execCollectiveStart, hc, hs, ha, hd, hp, ho, tell_of_spread hp]

end First

section Answered

variable (ha : c.asked = true)
include ha

theorem execCollectiveStart_of_agreed (ho : c.others = some true) : execCollectiveStart cid s = .next (beginColl c true s) := by
  simp [execCollectiveStart, hc, hs, ha, ho]

variable (hp : spread c = true)
include hp

theorem execCollectiveStart_of_refused (ho : c.others = some false) :
    execCollectiveStart cid s = .next (beginColl c false (fellBack c (onDev (freeCtxs c.key) s))) := by
  simp [execCollectiveStart, hc, hs, ha, hp, ho]

theorem execCollectiveStart_of_waiting (ho : c.others = none) : execCollectiveStart cid s = .next s := by
  simp [execCollectiveStart, hc, hs, ha, hp, ho]

end Answered
end Start

/-! ### Contributions (R67, R69) -/

/-- The first group of a member's contribution, from a port. -/
def firstContrib (c : Coll) (port m g : Nat) (es : List Word) (r : Nat) : Contrib :=
  ⟨m, none, some port, es.zipIdx.foldl (fun t e => tabSet 0#64 t (g * groupEls c.fmt + e.2) e.1) [], [g], tabSet 0 [] g (r % 255)⟩

/-- What a collective takes up of a group: it joins those of its member, unless it is there or is none. -/
def withGroup (port m g : Nat) (es : List Word) (r : Nat) (c : Coll) : Coll :=
  let old := (c.contribs.find? (fun k => k.member == m)).getD ⟨m, none, some port, [], [], []⟩
  if !c.started || old.node.isSome || old.groups.contains g || decide (groupCount c ≤ g) then c
  else
    { c with contribs := c.contribs.filter (fun k => k.member != m) ++ [{ old with
        elems := es.zipIdx.foldl (fun t e => tabSet 0#64 t (g * groupEls c.fmt + e.2) e.1) old.elems
        groups := old.groups ++ [g]
        rhos := tabSet 0 old.rhos g (r % 255) }] }

theorem withGroup_of_first {port m g : Nat} {es : List Word} {r : Nat} {c : Coll} (hs : c.started = true) (hk : c.contribs = [])
    (hg : g < groupCount c) : withGroup port m g es r c = { c with contribs := [firstContrib c port m g es r] } := by
  have hnew : ¬(groupCount c ≤ g) := not_le.2 hg
  simp only [withGroup, hs, hk, hnew, List.find?_nil, Option.getD_none, Bool.not_true, Option.isSome_none, List.contains_nil, decide_false,
    Bool.or_self, Bool.false_eq_true, if_false, List.filter_nil, List.nil_append]
  rfl

theorem execReductionContribution_eq (port cid m g : Nat) (es : List Word) (r : Nat) (s : State) :
    execReductionContribution ⟨port, cid⟩ m g es r s = .next (onColl cid (withGroup port m g es r) s) := rfl

/-! ### The completion of a collective (R67 to R70) -/

/-- The members of this package that a completion reaches: those that have started (R70). -/
def startedMembers (s : State) (c : Coll) : List (Nat × Node) := (localNodes s c).filter (fun e => e.2.cst.phase == 1 || e.2.cst.phase ≥ 4)

/-- A collective is done: its energy is shared, and it waits until its members have their completion (R70, R157). -/
def completed (cid : Nat) (c : Coll) (s : State) : State :=
  dropColls (onColl cid (fun x => { x with
    done := true, waiting := (startedMembers s c).map Prod.fst, away := if spread x then x.away else some 0 }) (oweReduction s c))

section Complete

variable {cid : Nat} {s : State} {c : Coll} (hc : getColl s.dev cid = some c)
include hc

/-- A collective whose every contribution is in, that is withdrawn or that has a mismatch completes, in one of three ways. -/
theorem execCollectiveComplete_of_due (hd : (!collFull c && decide (c.status = 0) && !collBad c) = false) : execCollectiveComplete cid s =
    if c.status ≠ 0 then .next ((startedMembers s c).foldl (fun t e => withdrawnCard e.1 e.2 c.status t) (completed cid c s))
    else if collBad c = true then
      .next ((startedMembers s c).foldl (fun t e => cardWrite e.1 e.2 (collResult c).1 true (fun _ => false) (cardStatus (collResult c).2 1) t)
        (countBad c (completed cid c s)))
    else .next ((startedMembers s c).foldl (fun t e => cardWrite e.1 e.2 (collResult c).1 false (fun _ => false) (cardStatus (collResult c).2 0) t)
      (completed cid c s)) := by
  simp only [execCollectiveComplete, hc, hd, Bool.false_eq_true, if_false]
  rfl

theorem execCollectiveComplete_of_full (h0 : c.status = 0) (hf : collFull c = true) (hb : collBad c = false) : execCollectiveComplete cid s =
    .next ((startedMembers s c).foldl (fun t e => cardWrite e.1 e.2 (collResult c).1 false (fun _ => false) (cardStatus (collResult c).2 0) t)
      (completed cid c s)) := by
  rw [execCollectiveComplete_of_due hc (by simp [hf]), if_neg (not_not.2 h0), if_neg (Bool.eq_false_iff.1 hb)]

theorem execCollectiveComplete_of_bad (h0 : c.status = 0) (hb : collBad c = true) : execCollectiveComplete cid s =
    .next ((startedMembers s c).foldl (fun t e => cardWrite e.1 e.2 (collResult c).1 true (fun _ => false) (cardStatus (collResult c).2 1) t)
      (countBad c (completed cid c s))) := by
  rw [execCollectiveComplete_of_due hc (by simp [hb]), if_neg (not_not.2 h0), if_pos hb]

theorem execCollectiveComplete_of_withdrawn (h0 : c.status ≠ 0) : execCollectiveComplete cid s =
    .next ((startedMembers s c).foldl (fun t e => withdrawnCard e.1 e.2 c.status t) (completed cid c s)) := by
  rw [execCollectiveComplete_of_due hc (by simp [h0]), if_pos h0]

end Complete

/-! ### Job cards (R129, R133, R154) -/

@[simp] theorem cardSend_reading (node phase size : Nat) (mk : Nat → List Req) (s : State) :
    (cardSend node phase size mk s).dev.reading = s.dev.reading := onNode_reading ..

theorem startCopyCard_of_copy {x : Node} (hk : x.kind = 2) (hn : streamLen (readRegions x) ≠ 0) (id : Nat) (s : State) :
    startCopyCard id x s =
      cardSend id 1 (streamLen (readRegions x)) (fun m => streamReqs s id x m .read (readRegions x) []) s := by
  simp only [startCopyCard, hk, hn, Nat.reduceEqDiff, if_false]

theorem startCopyCard_of_drain {x : Node} (hk : x.kind = 4) (hn : streamLen (readRegions x) ≠ 0) (id : Nat) (s : State) :
    startCopyCard id x s = cardSend id 1 (streamLen (readRegions x))
      (fun m => byAddress (streamReqs (beginDrain id x s) id x m .read (readRegions x) [])) (beginDrain id x s) := by
  simp only [startCopyCard, hk, hn, if_true, if_false]

section Card

variable {id : Nat} {x : Node} {s : State} (hx : tabFind s.dev.nodes id = some x) (hr : x.st = .running)
include hx hr

section Begin

variable (hp : x.cst.phase = 0)
include hp

theorem execJobCardStart_of_refused (hk : x.kind ≠ 1) (hb : cardRefused s x = true) : execJobCardStart id s = .next (cardDone id 4 s) := by
  simp [execJobCardStart, hx, hr, hk, hp, hb]

theorem execJobCardStart_of_collective (hk : x.kind = 3) (hb : cardRefused s x = false) :
    execJobCardStart id s = .next (joinColl id x s) := by
  simp [execJobCardStart, hx, hr, hk, hp, hb]

theorem execJobCardStart_of_copies (hk : x.kind ≠ 1) (h3 : x.kind ≠ 3) (hb : cardRefused s x = false) : execJobCardStart id s =
    .next (worked (.drain id) (startCopyCard id x (onDev (fun d => { d with reading := false }) s)) s) := by
  have hgo : execJobCardStart id s = .next (attempt (.drain id) (startCopyCard id x) s) := by
    simp [execJobCardStart, hx, hr, hk, h3, hp, hb]
  exact hgo

theorem execJobCardStart_of_copy (hk : x.kind = 2) (hb : cardRefused s x = false) (hn : streamLen (readRegions x) ≠ 0) :
    let s0 := onDev (fun d => { d with reading := false }) s
    execJobCardStart id s = .next (closeJobs (.drain id) (cardSend id 1 (streamLen (readRegions x))
      (fun m => streamReqs s0 id x m .read (readRegions x) []) s0)) := by
  intro s0
  rw [execJobCardStart_of_copies hx hr hp (by omega) (by omega) hb, startCopyCard_of_copy hk hn]
  exact congrArg Host.Outcome.next (worked_done (cardSend_reading ..))

theorem execJobCardStart_of_drain (hk : x.kind = 4) (hb : cardRefused s x = false) (hn : streamLen (readRegions x) ≠ 0) :
    let s0 := onDev (fun d => { d with reading := false }) s
    execJobCardStart id s = .next (worked (.drain id) (cardSend id 1 (streamLen (readRegions x))
      (fun m => byAddress (streamReqs (beginDrain id x s0) id x m .read (readRegions x) [])) (beginDrain id x s0)) s) := by
  intro s0
  rw [execJobCardStart_of_copies hx hr hp (by omega) (by omega) hb, startCopyCard_of_drain hk hn]

end Begin

section End

variable (hk : x.kind = 2) (hp : x.cst.phase = 3) (hc : x.cancel = none)
include hk hp hc

/-- The end of a copy card that no cancel awaits (R136): its node is freed, or faults. -/
theorem execJobCardComplete_of_copy : execJobCardComplete id s = .next (worked (.drain id)
    (let s0 := onDev (fun d => { d with reading := false }) s
     if x.cst.status % 256 = 0 then freeNode id (satisfy id (report x.vf (nodeRec 4 x.cst.status x) (collDelivered id s0)))
     else endNode id [nodeRec 4 x.cst.status x] (collDelivered id s0)) s) := by
  have hm : mayComplete s x = true := by simp [mayComplete, hk]
  simp only [execJobCardComplete, hx, hr, hk, hp, hm, attempt, endCard, hc, mayRerun]
  rfl

theorem execJobCardComplete_of_done (h0 : x.cst.status % 256 = 0) : execJobCardComplete id s = .next (worked (.drain id)
    (freeNode id (satisfy id (report x.vf (nodeRec 4 x.cst.status x)
      (collDelivered id (onDev (fun d => { d with reading := false }) s))))) s) := by
  rw [execJobCardComplete_of_copy hx hr hk hp hc]
  simp only [if_pos h0]

theorem execJobCardComplete_of_faulted (h0 : x.cst.status % 256 ≠ 0) : execJobCardComplete id s = .next (worked (.drain id)
    (endNode id [nodeRec 4 x.cst.status x] (collDelivered id (onDev (fun d => { d with reading := false }) s))) s) := by
  rw [execJobCardComplete_of_copy hx hr hk hp hc]
  simp only [if_neg h0]

end End
end Card

/-- Settles O55, an event at a time. -/
theorem setterEvents : Obligations.SetterEvents := by
  intro v die w s s0
  refine ⟨?_, rfl, fun lvl t => rfl, levelWaits_iff die, fun lvl t e => oldestReady_spec,
    fun lvl n t => ⟨serveVf_of_none, fun e he => ⟨serveVf_of_noPlace he, fun c k gs hl =>
      ⟨serveVf_of_dear he hl, serveVf_of_served he hl⟩⟩⟩,
    ⟨served_pairwise _, execGangToken_of_none, fun e es he => ⟨execGangToken_of_higher he, execGangToken_of_tried he⟩⟩, rfl,
    fun lvl => ⟨victims_pairwise s lvl, fun e => mem_victims⟩,
    fun id x hx => ⟨evictFor_of_place hx, evictFor_of_noSet hx, fun ids cols hp he => ⟨(evictSet_spec _ he).1, fun i hi => ?_,
      evictFor_of_set hx hp he⟩⟩,
    execGsub_of_credit, execGsub_of_refused, execGcan_of_entered, execCaratFlush_of_none, fun tid _ => execCaratFlush_of_task,
    fun cid c hc hs => ⟨fun ha d hd => ⟨execCollectiveStart_of_local hc hs ha hd, execCollectiveStart_of_spread hc hs ha hd⟩,
      fun ha q => execCollectiveStart_of_noContext hc hs ha, fun ha hp => ⟨execCollectiveStart_of_agreed hc hs ha,
        execCollectiveStart_of_refused hc hs ha hp, execCollectiveStart_of_waiting hc hs ha hp⟩⟩,
    fun port cid m g es r => ⟨_, execReductionContribution_eq .., rfl, rfl, fun c hc hcid hd hs hk hg => ?_⟩,
    fun cid c hc => ⟨execCollectiveComplete_of_full hc, execCollectiveComplete_of_bad hc, execCollectiveComplete_of_withdrawn hc⟩,
    fun id x hx hr => ⟨fun hk hp => execJobCardStart_of_refused hx hr hp hk, fun hk hp => execJobCardStart_of_collective hx hr hp hk,
      fun hk hp => execJobCardStart_of_copy hx hr hp hk, fun hk hp => execJobCardStart_of_drain hx hr hp hk,
      execJobCardComplete_of_done hx hr, execJobCardComplete_of_faulted hx hr⟩⟩
  · intro sub rest hs r works
    have hparse {u : State} (hu : takeImage v sub s0 = u) : works u := (execGraphParse_eq hs).trans (by rw [hu])
    exact ⟨fun ns es hp hr hc => hparse (takeImage_of_room hp hr hc), fun ns es hp hr => hparse (takeImage_of_noRoom hp hr),
      fun st hp => hparse (takeImage_of_error hp)⟩
  · exact ((evictSet_spec _ he).2 i hi).resolve_left List.not_mem_nil
  · refine ⟨withGroup port m g es r c, List.mem_map.2 ⟨c, hc, if_pos ⟨hcid, by simp [hd]⟩⟩, firstContrib c port m g es r, ?_⟩
    rw [withGroup_of_first hs hk hg]
    exact ⟨rfl, rfl, rfl, rfl, rfl, rfl, tabGet_set_same ..⟩

end Sys2Proof.Machine
end

section

/-! ## The frame of every slot operation (O49) -/

namespace Sys2Proof.Machine

/-- The class of an encoded operation is the one that its row gives (R272). -/
theorem class_of_encode {g : Guard} {c : BitVec 3} {o d a b : BitVec 6} {y e : Option Byte} {w : SlotWord}
    (h : some (slotWord g c o d a b, y) = some (w, e)) : w.extractLsb' 28 3 = c := by
  cases h
  exact congrArg (·.cls) (cut_slotWord none g c o d a b)

/-- What each slot operation does at its issue: outside class 101 it keeps what `Steady` says or traps, in class 101 what `Quiet` says or
traps. -/
theorem slot_ends {i : Instr} {w : SlotWord} {x : Option Byte} (h : encode i = some (w, x)) (s : State) :
    Ends Steady s (exec i s) ∨ Ends Quiet s (exec i s) ∧ w.extractLsb' 28 3 = 5#3 := by
  cases i with
  | nop => exact .inl (ends_nop ..)
  | illegal => exact .inl (ends_illegal ..)
  | add => exact .inl (ends_add ..)
  | sub => exact .inl (ends_sub ..)
  | addi => exact .inl (ends_addi ..)
  | lih => exact .inl (ends_lih ..)
  | mul => exact .inl (ends_mul ..)
  | mulh => exact .inl (ends_mulh ..)
  | mulhn => exact .inl (ends_mulhn ..)
  | div => exact .inl (ends_div ..)
  | divn => exact .inl (ends_divn ..)
  | rem => exact .inl (ends_rem ..)
  | remn => exact .inl (ends_remn ..)
  | andS => exact .inl (ends_andS ..)
  | orS => exact .inl (ends_orS ..)
  | xorS => exact .inl (ends_xorS ..)
  | andi => exact .inl (ends_andi ..)
  | ori => exact .inl (ends_ori ..)
  | xori => exact .inl (ends_xori ..)
  | shl => exact .inl (ends_shl ..)
  | shr => exact .inl (ends_shr ..)
  | shra => exact .inl (ends_shra ..)
  | shli => exact .inl (ends_shli ..)
  | shri => exact .inl (ends_shri ..)
  | shrai => exact .inl (ends_shrai ..)
  | rotr => exact .inl (ends_rotr ..)
  | clz => exact .inl (ends_clz ..)
  | popc => exact .inl (ends_popc ..)
  | minS => exact .inl (ends_minS ..)
  | maxS => exact .inl (ends_maxS ..)
  | minn => exact .inl (ends_minn ..)
  | maxn => exact .inl (ends_maxn ..)
  | sel => exact .inl (ends_sel ..)
  | ceq => exact .inl (ends_ceq ..)
  | cne => exact .inl (ends_cne ..)
  | clt => exact .inl (ends_clt ..)
  | cle => exact .inl (ends_cle ..)
  | cltn => exact .inl (ends_cltn ..)
  | clen => exact .inl (ends_clen ..)
  | ceqi => exact .inl (ends_ceqi ..)
  | clti => exact .inl (ends_clti ..)
  | badr => exact .inl (ends_badr ..)
  | boff => exact .inl (ends_boff ..)
  | ldb => exact .inl (ends_ldb ..)
  | ldh => exact .inl (ends_ldh ..)
  | ldw => exact .inl (ends_ldw ..)
  | ldd => exact .inl (ends_ldd ..)
  | stb => exact .inl (ends_stb ..)
  | sth => exact .inl (ends_sth ..)
  | stw => exact .inl (ends_stw ..)
  | std => exact .inl (ends_std ..)
  | ldl => exact .inl (ends_ldl ..)
  | stl => exact .inl (ends_stl ..)
  | aadd => exact .inl (ends_aadd ..)
  | amin => exact .inl (ends_amin ..)
  | amax => exact .inl (ends_amax ..)
  | aor => exact .inl (ends_aor ..)
  | axch => exact .inl (ends_axch ..)
  | acas => exact .inl (ends_acas ..)
  | qmov => exact .inl (ends_qmov ..)
  | movq => exact .inl (ends_movq ..)
  | qlog => exact .inl (ends_qlog ..)
  | pbr => exact .inr ⟨ends_pbr .., class_of_encode h⟩
  | pbrr => exact .inr ⟨ends_pbrr .., class_of_encode h⟩
  | br => exact .inr ⟨ends_br .., class_of_encode h⟩
  | brc => exact .inr ⟨ends_brc .., class_of_encode h⟩
  | call => exact .inr ⟨ends_call .., class_of_encode h⟩
  | ret => exact .inr ⟨ends_ret .., class_of_encode h⟩
  | loop => exact .inr ⟨ends_loop .., class_of_encode h⟩
  | loopi => exact .inr ⟨ends_loopi .., class_of_encode h⟩
  | lstr => exact .inr ⟨ends_lstr .., class_of_encode h⟩
  | lidx => exact .inl (ends_lidx ..)
  | lbrk => exact .inr ⟨ends_lbrk .., class_of_encode h⟩
  | spawn => exact .inr ⟨ends_spawn .., class_of_encode h⟩
  | joinK => exact .inr ⟨ends_joinK .., class_of_encode h⟩
  | safe => exact .inr ⟨ends_safe .., class_of_encode h⟩
  | halt => exact .inr ⟨ends_halt .., class_of_encode h⟩
  | trap => exact .inr ⟨ends_trap .., class_of_encode h⟩
  | vany => exact .inl (ends_vany ..)
  | vall => exact .inl (ends_vall ..)
  | waitt => exact .inr ⟨ends_waitt .., class_of_encode h⟩
  | waitl => exact .inr ⟨ends_waitl .., class_of_encode h⟩
  | psel => exact .inr ⟨ends_psel .., class_of_encode h⟩
  | brk => exact .inr ⟨ends_brk .., class_of_encode h⟩
  | tret => exact .inr ⟨ends_tret .., class_of_encode h⟩
  | phase => exact .inl (ends_phase ..)
  | bar => exact .inl (ends_bar ..)
  | send => exact .inl (ends_send ..)
  | recv => exact .inl (ends_recv ..)
  | sends => exact .inl (ends_sends ..)
  | recvs => exact .inl (ends_recvs ..)
  | bacq => exact .inl (ends_bacq ..)
  | brel => exact .inl (ends_brel ..)
  | precW => exact .inl (ends_precW ..)
  | preci => exact .inl (ends_preci ..)
  | shape => exact .inl (ends_shape ..)
  | shapq => exact .inl (ends_shapq ..)
  | view => exact .inl (ends_view ..)
  | viewq => exact .inl (ends_viewq ..)
  | getc => exact .inl (ends_getc ..)
  | setc => exact .inl (ends_setc ..)
  | stat => exact .inl (ends_stat ..)
  | engy => exact .inl (ends_engy ..)
  | gtc => exact .inl (ends_gtc ..)
  | lcr => exact .inl (ends_lcr ..)
  | fence => exact .inl (ends_fence ..)
  | invq => exact .inl (ends_invq ..)
  | svcYield => exact .inl (ends_svcYield ..)
  | svcFlush => exact .inl (ends_svcFlush ..)
  | cdsc => exact .inl (ends_cdsc ..)
  | kzero => exact .inl (ends_kzero ..)
  | scrb => exact .inl (ends_scrb ..)
  | scrq => exact .inl (ends_scrq ..)
  | frel => exact .inl (ends_frel ..)
  | plwr => exact .inl (ends_plwr ..)
  | btwr => exact .inl (ends_btwr ..)
  | qwrt => exact .inl (ends_qwrt ..)
  | mma => exact .inl (ends_mma ..)
  | mmaz => exact .inl (ends_mmaz ..)
  | mdrn => exact .inl (ends_mdrn ..)
  | mclr => exact .inl (ends_mclr ..)
  | mscl => exact .inl (ends_mscl ..)
  | mvcn => exact .inl (ends_mvcn ..)
  | msta => exact .inl (ends_msta ..)
  | mmat => exact .inl (ends_mmat ..)
  | cpl => exact .inl (ends_cpl ..)
  | cpi => exact .inl (ends_cpi ..)
  | cpo => exact .inl (ends_cpo ..)
  | cpdi => exact .inl (ends_cpdi ..)
  | cpdo => exact .inl (ends_cpdo ..)
  | cps => exact .inl (ends_cps ..)
  | cpg => exact .inl (ends_cpg ..)
  | cpst => exact .inl (ends_cpst ..)
  | cpb => exact .inl (ends_cpb ..)
  | cpr => exact .inl (ends_cpr ..)
  | vaddVa => exact .inl (ends_vaddVa ..)
  | vaddVb => exact .inl (ends_vaddVb ..)
  | vsubVa => exact .inl (ends_vsubVa ..)
  | vsubVb => exact .inl (ends_vsubVb ..)
  | vmulVa => exact .inl (ends_vmulVa ..)
  | vmulVb => exact .inl (ends_vmulVb ..)
  | vfmaVa => exact .inl (ends_vfmaVa ..)
  | vfmaVb => exact .inl (ends_vfmaVb ..)
  | vfmsVa => exact .inl (ends_vfmsVa ..)
  | vfmsVb => exact .inl (ends_vfmsVb ..)
  | vfnmaVa => exact .inl (ends_vfnmaVa ..)
  | vfnmaVb => exact .inl (ends_vfnmaVb ..)
  | vminVa => exact .inl (ends_vminVa ..)
  | vminVb => exact .inl (ends_vminVb ..)
  | vmaxVa => exact .inl (ends_vmaxVa ..)
  | vmaxVb => exact .inl (ends_vmaxVb ..)
  | vabsVa => exact .inl (ends_vabsVa ..)
  | vabsVb => exact .inl (ends_vabsVb ..)
  | vnegVa => exact .inl (ends_vnegVa ..)
  | vnegVb => exact .inl (ends_vnegVb ..)
  | vrcpeVa => exact .inl (ends_vrcpeVa ..)
  | vrcpeVb => exact .inl (ends_vrcpeVb ..)
  | vrsqeVa => exact .inl (ends_vrsqeVa ..)
  | vrsqeVb => exact .inl (ends_vrsqeVb ..)
  | vdiv => exact .inl (ends_vdiv ..)
  | vsqrt => exact .inl (ends_vsqrt ..)
  | vexp2 => exact .inl (ends_vexp2 ..)
  | vlog2 => exact .inl (ends_vlog2 ..)
  | viaddVa => exact .inl (ends_viaddVa ..)
  | viaddVb => exact .inl (ends_viaddVb ..)
  | visubVa => exact .inl (ends_visubVa ..)
  | visubVb => exact .inl (ends_visubVb ..)
  | vimulVa => exact .inl (ends_vimulVa ..)
  | vimulVb => exact .inl (ends_vimulVb ..)
  | vimacVa => exact .inl (ends_vimacVa ..)
  | vimacVb => exact .inl (ends_vimacVb ..)
  | vandVa => exact .inl (ends_vandVa ..)
  | vandVb => exact .inl (ends_vandVb ..)
  | vorVa => exact .inl (ends_vorVa ..)
  | vorVb => exact .inl (ends_vorVb ..)
  | vxorVa => exact .inl (ends_vxorVa ..)
  | vxorVb => exact .inl (ends_vxorVb ..)
  | vshlVa => exact .inl (ends_vshlVa ..)
  | vshlVb => exact .inl (ends_vshlVb ..)
  | vshrVa => exact .inl (ends_vshrVa ..)
  | vshrVb => exact .inl (ends_vshrVb ..)
  | vshraVa => exact .inl (ends_vshraVa ..)
  | vshraVb => exact .inl (ends_vshraVb ..)
  | vfceqVa => exact .inl (ends_vfceqVa ..)
  | vfceqVb => exact .inl (ends_vfceqVb ..)
  | vfcltVa => exact .inl (ends_vfcltVa ..)
  | vfcltVb => exact .inl (ends_vfcltVb ..)
  | vfcleVa => exact .inl (ends_vfcleVa ..)
  | vfcleVb => exact .inl (ends_vfcleVb ..)
  | viceqVa => exact .inl (ends_viceqVa ..)
  | viceqVb => exact .inl (ends_viceqVb ..)
  | vicltVa => exact .inl (ends_vicltVa ..)
  | vicltVb => exact .inl (ends_vicltVb ..)
  | vicleVa => exact .inl (ends_vicleVa ..)
  | vicleVb => exact .inl (ends_vicleVb ..)
  | vselVa => exact .inl (ends_vselVa ..)
  | vselVb => exact .inl (ends_vselVb ..)
  | vmovVa => exact .inl (ends_vmovVa ..)
  | vmovVb => exact .inl (ends_vmovVb ..)
  | vbcstVa => exact .inl (ends_vbcstVa ..)
  | vbcstVb => exact .inl (ends_vbcstVb ..)
  | vlaneVa => exact .inl (ends_vlaneVa ..)
  | vlaneVb => exact .inl (ends_vlaneVb ..)
  | vextVa => exact .inl (ends_vextVa ..)
  | vextVb => exact .inl (ends_vextVb ..)
  | vcvtVa => exact .inl (ends_vcvtVa ..)
  | vcvtVb => exact .inl (ends_vcvtVb ..)
  | vpackVa => exact .inl (ends_vpackVa ..)
  | vpackVb => exact .inl (ends_vpackVb ..)
  | vunpkVa => exact .inl (ends_vunpkVa ..)
  | vunpkVb => exact .inl (ends_vunpkVb ..)
  | vperm => exact .inl (ends_vperm ..)
  | vrotlVa => exact .inl (ends_vrotlVa ..)
  | vrotlVb => exact .inl (ends_vrotlVb ..)
  | vrsum => exact .inl (ends_vrsum ..)
  | vrmax => exact .inl (ends_vrmax ..)
  | vldxVa => exact .inl (ends_vldxVa ..)
  | vldxVb => exact .inl (ends_vldxVb ..)
  | vstxVa => exact .inl (ends_vstxVa ..)
  | vstxVb => exact .inl (ends_vstxVb ..)
  | vtrdVa => exact .inl (ends_vtrdVa ..)
  | vtrdVb => exact .inl (ends_vtrdVb ..)
  | vtcd => exact .inl (ends_vtcd ..)
  | vtrwVa => exact .inl (ends_vtrwVa ..)
  | vtrwVb => exact .inl (ends_vtrwVb ..)
  | vtcw => exact .inl (ends_vtcw ..)
  | vmskVa => exact .inl (ends_vmskVa ..)
  | vmskVb => exact .inl (ends_vmskVb ..)
  | viotaVa => exact .inl (ends_viotaVa ..)
  | viotaVb => exact .inl (ends_viotaVb ..)
  | _ => cases h

section Issue

variable {s t : State}

/-- A slot operation changes no more of the world than the alarm of its trap, and without a trap no trap register. -/
theorem Ends.frame (h : Ends Quiet s (.next t)) :
    sameWorld s t ∧ (t.dev = s.dev ∨ t.dev = { s.dev with alarms := s.dev.alarms ++ [4] }) ∧ sameRegisters s.sq t.sq ∧
      (noTrap t → t.dev = s.dev ∧ t.sq.tcause = s.sq.tcause ∧ t.sq.tinfo = s.sq.tinfo) := by
  obtain ⟨u, hu, hq | ⟨x, rfl⟩⟩ := h <;> cases hu
  · exact ⟨hq.world, .inl hq.dev, hq.regs, fun _ => ⟨hq.dev, hq.tcause, hq.tinfo⟩⟩
  · obtain ⟨hworld, hregs, hdev, htrap⟩ := takeTrap_kept x s
    exact ⟨hworld, hdev, hregs, fun hno => absurd hno htrap⟩

/-- Without a trap an operation outside class 101 leaves the flow of control and the handler's return state alone. -/
theorem Ends.flow (h : Ends Steady s (.next t)) (hno : noTrap t) : sameFlow s.sq t.sq ∧ t.sq.hret = s.sq.hret := by
  obtain ⟨u, hu, hs | ⟨x, rfl⟩⟩ := h <;> cases hu
  · exact ⟨hs.flow, hs.hret⟩
  · exact absurd hno (takeTrap_kept x s).2.2.2

end Issue

/-- Settles O49: each slot operation keeps the frame of its class or takes a trap, and a trap changes only the trap registers, the flow and
the alarms. -/
theorem slotOpsFrame : Obligations.SlotOpsFrame := by
  intro i w x s t hi hrun
  obtain h | ⟨h, hc⟩ := slot_ends hi s <;> rw [hrun] at h
  · obtain ⟨hworld, hdev, hregs, htrap⟩ := h.quiet.frame
    refine ⟨hworld, hdev, hregs, fun hno => ?_⟩
    obtain ⟨hd, hcause, hinfo⟩ := htrap hno
    exact ⟨hd, hcause, hinfo, fun _ => h.flow hno⟩
  · obtain ⟨hworld, hdev, hregs, htrap⟩ := h.frame
    refine ⟨hworld, hdev, hregs, fun hno => ?_⟩
    obtain ⟨hd, hcause, hinfo⟩ := htrap hno
    exact ⟨hd, hcause, hinfo, fun hc' => absurd hc hc'⟩

end Sys2Proof.Machine
end

section

/-! ## Launch, save, resume, restart and retirement of a node (O56) -/

namespace Sys2Proof.Machine

/-- The state on which a piece of work begins: no work awaits a read. -/
def unread (s : State) : State := onDev (fun d => { d with reading := false }) s

theorem attempt_eq (why : JobFor) (f : State → State) (s : State) : attempt why f s = worked why (f (unread s)) s := rfl

/-! ### Launch (R138, R139) -/

theorem readArgs_of_noArgs {id : Nat} {x : Node} {s : State} (hr : x.resume = false) (ha : x.task.args = 0#64) :
    readArgs id x s = (s, .ok []) := by
  simp [readArgs, hr, ha]

theorem dispatched_nodes {id : Nat} {x : Node} {t : State} (hx : tabFind t.dev.nodes id = some x) : (dispatched id t).dev.nodes =
    tabPut t.dev.nodes id { x with st := .running, resume := false, restart := false, order := t.dev.order } := by
  rw [dispatched, onNode_of_found hx]
  rfl

@[simp] theorem onNode_vfs (id : Nat) (f : Node → Node) (s : State) : (onNode id f s).dev.vfs = s.dev.vfs := by
  unfold onNode
  split <;> rfl

@[simp] theorem placeTask_vfs (id i : Nat) (t : Machine.Task) (s : State) : (placeTask id i t s).dev.vfs = s.dev.vfs := onNode_vfs ..

@[simp] theorem phaseMark_vfs (tid : Nat) (s : State) : (phaseMark tid s).dev.vfs = s.dev.vfs := by
  unfold phaseMark
  split
  · rfl
  · exact onNode_vfs ..

section Members

variable {id k : Nat} {x : Node} {o : Obj} {v : Variant}

/-- A member's task takes nothing of the device but its VF's place of saved contexts and whether it is a custodian. -/
theorem launchTask_congr {d d' : Dev} (hc : (getVf d x.vf).cust = (getVf d' x.vf).cust)
    (hs : (getVf d x.vf).svStack = (getVf d' x.vf).svStack) (hf : (getVf d x.vf).svFrame = (getVf d' x.vf).svFrame) (i : Nat) (m : Member) :
    launchTask d id x o k v i m = launchTask d' id x o k v i m := by
  simp only [launchTask, slotPlaces, hc, hs, hf]

theorem launchTask_of_vfs {d d' : Dev} (h : d.vfs = d'.vfs) (i : Nat) (m : Member) :
    launchTask d id x o k v i m = launchTask d' id x o k v i m := by
  have hv : getVf d x.vf = getVf d' x.vf := congrArg (fun t => tabGet vfAbsent t x.vf) h
  exact launchTask_congr (by rw [hv]) (by rw [hv]) (by rw [hv]) i m

/-- The measurement of an object changes no task that its node launches. -/
theorem launchTask_measure (digest : List Byte) (s : State) (i : Nat) (m : Member) :
    launchTask (measure x.vf digest s).dev id x o k v i m = launchTask s.dev id x o k v i m := by
  refine launchTask_congr ?_ ?_ ?_ i m <;> rw [measure, getVf_onVf_same]

/-- The members' tasks are those of the device before the first of them is placed. -/
theorem foldl_placeTask_eq {d : Dev} (ms : List (Member × Nat)) {u : State}
    (h : ∀ i m, launchTask u.dev id x o k v i m = launchTask d id x o k v i m) :
    ms.foldl (fun s e => phaseMark s.nextId (placeTask id e.2 (launchTask s.dev id x o k v e.2 e.1) s)) u =
      ms.foldl (fun s e => phaseMark s.nextId (placeTask id e.2 (launchTask d id x o k v e.2 e.1) s)) u := by
  induction ms generalizing u with
  | nil => rfl
  | cons e ms ih =>
    rw [List.foldl_cons, List.foldl_cons, h]
    exact ih fun i m => (launchTask_of_vfs (by simp) i m).trans (h i m)

end Members

section Start

variable {id : Nat} {x : Node} {o : Obj} {v : Variant} {b : List Byte} {s : State}

theorem startNode_of_unsigned (hc : (getVf s.dev x.vf).cust = true) (hs : o.signed = false) :
    startNode id x o v b s = alarm 3 (endNode id [nodeRec 16 0 x] s) := by
  simp [startNode, hc, hs]

theorem startNode_of_signed (h : (getVf s.dev x.vf).cust = true → o.signed = true) : startNode id x o v b s =
    dispatched id (x.members.zipIdx.foldl (fun t e =>
      phaseMark t.nextId (placeTask id e.2 (launchTask s.dev id { x with argv := b } o x.vidx v e.2 e.1) t))
      (measure x.vf o.digest (onNode id (fun z => { z with argv := b }) s))) := by
  have hgo : ((getVf s.dev x.vf).cust && !o.signed) = false := by
    cases hc : (getVf s.dev x.vf).cust
    · rfl
    · rw [h hc]
      rfl
  rw [startNode, hgo]
  exact congrArg (dispatched id) (foldl_placeTask_eq _ fun i m =>
    (launchTask_measure (x := { x with argv := b }) o.digest _ i m).trans (launchTask_of_vfs (onNode_vfs ..) i m))

end Start

section Placed

variable {id : Nat} {x : Node} {s : State} (hx : tabFind s.dev.nodes id = some x) (hp : x.st = .placed) (hm : mayStart s id x = true)
  {o : Obj} {v : Variant} (hv : placedVariant x = some (o, v))
include hx hp hm hv

section Args

variable (hr : x.resume = false)
include hr

theorem execDispatch_of_args {b : List Byte} {u : State} (hb : (readArgs id x (unread s)).2 = .ok b)
    (hu : startNode id x o v b (readArgs id x (unread s)).1 = u) : execDispatch id s = .next (worked (.node id) u s) := by
  simp [execDispatch, hx, hp, hm, hv, hr, attempt_eq, hb, hu]

theorem execDispatch_of_trap {t : Trap} (ht : (readArgs id x (unread s)).2 = .error t) :
    execDispatch id s = .next (worked (.node id) (faultEarly id t (readArgs id x (unread s)).1) s) := by
  simp [execDispatch, hx, hp, hm, hv, hr, attempt_eq, ht]

end Args

theorem execContextRestore_of_placed (hr : x.resume = true) (hn : x.restart = false) :
    let s0 := unread s
    let a := askSlots (.image id) [0] x.vf ((savedTasks s0.dev id x o v []).map (fun e => headerSpan e.2 hdrOff)) s0
    execContextRestore id s = .next (worked (.image id)
      (if a.2.2 then resumeNode id x o v a.2.1 a.1 else faultNode id x (lostImage x) a.1) s) := by
  intro s0 a
  have hgo : execContextRestore id s = .next (worked (.image id)
      (if !a.2.2 then faultNode id x (lostImage x) a.1 else resumeNode id x o v a.2.1 a.1) s) := by
    simp [execContextRestore, hx, hp, hm, hv, hr, hn, attempt_eq, s0, a]
  rw [hgo]
  cases a.2.2 <;> rfl

theorem execPhaseRestart_of_placed (hr : x.resume = true) (hn : x.restart = true) : execPhaseRestart id s =
    .next (worked (.image id) (restartPlaced id x o v (unread s)) s) := by
  simp [execPhaseRestart, hx, hp, hm, hv, hr, hn, attempt_eq]

end Placed

/-! ### What a save and a phase restart leave of the tasks -/

/-- The state in which a node is suspended, its members' tasks gone. -/
def suspended (id : Nat) (s : State) : State :=
  onNode id (fun y => { y with st := .suspended, resume := true, members := y.members.map (fun m => { m with tid := 0 }) })
    (onDev (fun d => { d with freed := true }) (removeTasks (nodeTids s id) s))

/-- The state in which a node's tasks stand still for a phase restart: as it is where the reading of their images is under way. -/
def standing (id : Nat) (s : State) : State := if readsImage s.dev id then s else stopTasks id s

section Running

variable {id : Nat} {x : Node} {s : State} (hx : tabFind s.dev.nodes id = some x)
include hx

/-! ### Save (R179, R270) -/

section Saved

variable (hr : x.st = .running) (hk : x.kind = 1) (hd : membersDone x = true) (hs : x.members.any (fun m => m.saved) = true)
  (hc : x.members.any (fun m => m.cut) = false) (hm : sentAll s.dev id = true)
include hr hk hd hs hc hm

theorem execSaveComplete_of_kept (hn : x.cancel = none) : execSaveComplete id s = .next (suspended id s) := by
  simp [execSaveComplete, hx, hr, hk, hd, hs, hc, hm, hn, suspended]

theorem execSaveComplete_of_cancelled {st : Nat} (hn : x.cancel = some st) :
    execSaveComplete id s = .next (endNode id [nodeRec 3 st x] (suspended id s)) := by
  simp [execSaveComplete, hx, hr, hk, hd, hs, hc, hm, hn, suspended]

end Saved

/-! ### Retirement (R153, R183) -/

section Retire

variable (hb : tasksBusy s (nodeTids s id) = false)
include hb

theorem execNodeRetire_of_closing {recs : List Record} (hc : x.closing = some recs) : execNodeRetire id s = .next (endNode id recs s) := by
  simp [execNodeRetire, hx, hb, hc]

variable (hr : x.st = .running) (hk : x.kind = 1) (hc : x.closing = none) (hd : membersDone x = true)
include hr hk hc hd

theorem execNodeRetire_of_cut (hcut : x.members.any (fun m => m.cut) = true) :
    execNodeRetire id s = .next (endNode id [nodeRec 3 (x.cancel.getD 1) x] s) := by
  simp only [execNodeRetire, hx, hb, hc, hr, hk, hd, hcut]
  rfl

theorem execNodeRetire_of_done (hs : x.members.any (fun m => m.saved) = false) (hcut : x.members.any (fun m => m.cut) = false) :
    let lc := (s.tasks.filter (fun e => e.2.node == id)).foldl (fun a e => max a (((tabFind e.2.seqs 0).map (·.haltLC)).getD 0)) 0
    let s1 := correctDeficit x lc (removeTasks (nodeTids s id) s)
    ∀ y, tabFind s1.dev.nodes id = some y →
      execNodeRetire id s = .next (freeNode id (satisfy id (report x.vf (nodeRec 1 0 y) s1))) := by
  intro lc s1 y hy
  simp only [s1, lc] at hy
  simp [execNodeRetire, hx, hb, hc, hr, hk, hd, hs, hcut, hy, s1, lc]

end Retire

/-! ### Phase restart of a running node (R267, log 67) -/

section Restart

variable (hr : x.st = .running)
include hr

theorem execPhaseRestart_of_stillPlaced (hp : stillPlaced id x (standing id s) = true) : execPhaseRestart id s = .next (worked (.image id)
    (restartRunning id x (unread (standing id s))) (standing id s)) := by
  rw [standing] at hp ⊢
  simp only [execPhaseRestart, hx, hr, hp, if_true, attempt_eq]

theorem execPhaseRestart_of_displaced (hp : stillPlaced id x (standing id s) = false) :
    execPhaseRestart id s = .next (closeJobs (.image id) (restartElsewhere id x (standing id s))) := by
  rw [standing] at hp ⊢
  simp only [execPhaseRestart, hx, hr, hp, if_true, Bool.false_eq_true, if_false]

end Restart
end Running

section Marks

/-- The reading of the phase marks of a running node's tasks. -/
def askMarks (id : Nat) (x : Node) (u : State) : State × Tab Byte × Bool :=
  askSlots (.image id) [2] x.vf (((nodeTids u id).filterMap (tabFind u.tasks)).map (fun t => headerSpan t markOff)) u

variable {id : Nat} {x : Node} {u : State}

theorem restartRunning_of_read (h : (askMarks id x u).2.2 = true) : restartRunning id x u = onNode id (fun y => { y with
      restart := x.members.any (fun m => m.saved)
      members := y.members.map (fun m => if (nodeTids u id).contains m.tid then { m with done := false, cut := false } else m) })
    ((nodeTids u id).foldl (fun t tid => onTask tid (rerun t (askMarks id x u).2.1) t) (askMarks id x u).1) := by
  unfold askMarks at h ⊢
  simp only [restartRunning, h, Bool.not_true, Bool.false_eq_true, if_false]

theorem restartRunning_of_lost (h : (askMarks id x u).2.2 = false) :
    restartRunning id x u = faultNode id x (lostImage x) (askMarks id x u).1 := by
  unfold askMarks at h ⊢
  simp only [restartRunning, h, Bool.not_false, if_true]

end Marks

/-! ### Resume (R270, log 26, log 36, log 54) -/

section Resume

/-- The header of a task's saved image. -/
def savedHeader (im : Tab Byte) (t : Machine.Task) : Tab Byte := headerOfSlot im t hdrOff

/-- Whether a task's saved image begins with the mark of one. -/
def imageMarked (im : Tab Byte) (e : (Member × Nat) × Machine.Task) : Prop := imgGet (savedHeader im e.2) 0 8 = 0x45584358

/-- Whether a task's saved image is of its column count. -/
def imageFits (im : Tab Byte) (e : (Member × Nat) × Machine.Task) : Prop := imgGet (savedHeader im e.2) 8 8 / 4 % 4 = natCode e.2.g

/-- The reading of the rest of a node's saved images, past the headers `im`. -/
def askContents (id : Nat) (x : Node) (o : Obj) (v : Variant) (im : Tab Byte) (u : State) : State × Tab Byte × Bool :=
  askSlots (.image id) [1] x.vf ((savedTasks u.dev id x o v im).flatMap (fun e => imageSpans u e.2 (savedHeader im e.2))) u

variable {id : Nat} {x : Node} {o : Obj} {v : Variant} {im : Tab Byte} {u : State}

theorem resumeNode_of_unmarked {e : (Member × Nat) × Machine.Task} {es : List ((Member × Nat) × Machine.Task)}
    (hs : savedTasks u.dev id x o v im = e :: es) (he : ¬ imageMarked im e) : resumeNode id x o v im u = faultNode id x
      { earlyRecord x (imageTrap (slotOf e.2 0 0)) with
        place := w64 e.1.2, lc := imgGet (savedHeader im e.2) 0x18 8, pc := (posOf (imgGet (savedHeader im e.2) 0x10 8)).bundle } u := by
  have he' : (imgGet (headerOfSlot im e.2 hdrOff) 0 8 != 0x45584358) = true := bne_iff_ne.2 he
  simp only [resumeNode, hs, List.find?_cons, he']
  rfl

variable (hm : ∀ e ∈ savedTasks u.dev id x o v im, imageMarked im e)
include hm

theorem find_unmarked : (savedTasks u.dev id x o v im).find? (fun e => imgGet (headerOfSlot im e.2 hdrOff) 0 8 != 0x45584358) = none :=
  List.find?_eq_none.2 fun e he hn => bne_iff_ne.1 hn (hm e he)

theorem resumeNode_of_unfit (hf : ∃ e ∈ savedTasks u.dev id x o v im, ¬ imageFits im e) (hk : ∀ m ∈ x.members, m.k01 = false) :
    resumeNode id x o v im u = onNode id (fun y => { y with restart := true }) (loupeNode 1 id u) := by
  have hany : (savedTasks u.dev id x o v im).any (fun e => imgGet (headerOfSlot im e.2 hdrOff) 8 8 / 4 % 4 != natCode e.2.g) = true :=
    List.any_eq_true.2 (hf.imp fun e ⟨he, hn⟩ => ⟨he, bne_iff_ne.2 hn⟩)
  have hlive : (liveMembers x).any (fun e => e.1.k01) = false :=
    List.any_eq_false.2 fun e he => Bool.eq_false_iff.1 (hk e.1 (List.fst_mem_of_mem_zipIdx (List.mem_of_mem_filter he)))
  simp only [resumeNode, find_unmarked hm, hany, hlive, if_true, Bool.false_eq_true, if_false]

variable (hf : ∀ e ∈ savedTasks u.dev id x o v im, imageFits im e)
include hf

theorem resumeNode_of_fit : resumeNode id x o v im u =
    if !(askContents id x o v im u).2.2 then faultNode id x (lostImage x) (askContents id x o v im u).1
    else resumeMembers id (savedTasks u.dev id x o v im)
      ((askContents id x o v im u).2.1.foldl (fun m e => tabSet 0#8 m e.1 e.2) im) (askContents id x o v im u).1 := by
  have hany : (savedTasks u.dev id x o v im).any (fun e => imgGet (headerOfSlot im e.2 hdrOff) 8 8 / 4 % 4 != natCode e.2.g) = false :=
    List.any_eq_false.2 fun e he hn => bne_iff_ne.1 hn (hf e he)
  simp only [resumeNode, find_unmarked hm, hany, Bool.false_eq_true, if_false]
  rfl

theorem resumeNode_of_read (ha : (askContents id x o v im u).2.2 = true) : resumeNode id x o v im u =
    resumeMembers id (savedTasks u.dev id x o v im)
      ((askContents id x o v im u).2.1.foldl (fun m e => tabSet 0#8 m e.1 e.2) im) (askContents id x o v im u).1 := by
  rw [resumeNode_of_fit hm hf, ha]
  rfl

theorem resumeNode_of_lost (ha : (askContents id x o v im u).2.2 = false) :
    resumeNode id x o v im u = faultNode id x (lostImage x) (askContents id x o v im u).1 := by
  rw [resumeNode_of_fit hm hf, ha]
  rfl

end Resume

/-- Settles O56, an event of a node at a time.  The launch alone takes an induction: the members' tasks are those of the device before the
first of them is placed. -/
theorem nodeEvents : Obligations.NodeEvents := by
  intro id x s hx s0
  exact ⟨fun o v hp hr hm hv => ⟨readArgs_of_noArgs hr,
      fun b hb hs => execDispatch_of_args hx hp hm hv hr hb (startNode_of_signed hs),
      fun b hb hc hs => execDispatch_of_args hx hp hm hv hr hb (startNode_of_unsigned hc hs),
      fun t => execDispatch_of_trap hx hp hm hv hr⟩,
    fun t => dispatched_nodes,
    fun hr hk hd hs hc hm => ⟨execSaveComplete_of_kept hx hr hk hd hs hc hm,
      fun st => execSaveComplete_of_cancelled hx hr hk hd hs hc hm⟩,
    fun o v hp hr hn hm hv => execContextRestore_of_placed hx hp hm hv hr hn,
    fun o v im u => ⟨fun hm hf => ⟨resumeNode_of_read hm hf, resumeNode_of_lost hm hf⟩, resumeNode_of_unfit,
      fun e es => resumeNode_of_unmarked⟩,
    fun hr => ⟨execPhaseRestart_of_stillPlaced hx hr, execPhaseRestart_of_displaced hx hr⟩,
    fun u => ⟨restartRunning_of_read, restartRunning_of_lost⟩,
    fun o v hp hr hn hm hv => execPhaseRestart_of_placed hx hp hm hv hr hn,
    fun hb => ⟨fun recs => execNodeRetire_of_closing hx hb, fun hr hk hc hd => ⟨execNodeRetire_of_cut hx hb hr hk hc hd,
      execNodeRetire_of_done hx hb hr hk hc hd⟩⟩⟩

end Sys2Proof.Machine
end

section

/-! ## The events of a tile (O52) -/

namespace Sys2Proof.Machine

/-! ### A task, and a sequencer, that the tables hold -/

section Found

variable {tid : Nat} {t : Machine.Task} {s : State} (ht : tabFind s.tasks tid = some t)
include ht

theorem onTask_of_found (f : Machine.Task → Machine.Task) : onTask tid f s = { s with tasks := tabPut s.tasks tid (f t) } := by
  rw [onTask, ht]

variable {k : Nat} {q : Machine.Seq} (hq : tabFind t.seqs k = some q)
include hq

theorem onSeq_of_found (f : Machine.Seq → Machine.Seq) :
    onSeq tid k f s = { s with tasks := tabPut s.tasks tid { t with seqs := tabPut t.seqs k (f q) } } := by
  rw [onSeq, onTask_of_found ht, hq]

/-- Two changes of a sequencer that agree on it as it stands are one. -/
theorem onSeq_congr {f g : Machine.Seq → Machine.Seq} (h : f q = g q) : onSeq tid k f s = onSeq tid k g s := by
  rw [onSeq_of_found ht hq, onSeq_of_found ht hq, h]

end Found

/-! ### Landings leave the state of a sequencer alone (R167) -/

theorem foldl_st {α : Type} {f : Machine.Seq → α → Machine.Seq} (h : ∀ q x, (f q x).st = q.st) (l : List α) (q : Machine.Seq) :
    (l.foldl f q).st = q.st :=
  List.foldlRecOn (motive := fun u => u.st = q.st) l f rfl fun u hu x _ => (h u x).trans hu

@[simp] theorem dirtyViews_st (g x : Nat) (q : Machine.Seq) : (dirtyViews g x q).st = q.st := rfl
@[simp] theorem lrsPut_st (ws : List (Nat × Byte)) (q : Machine.Seq) : (lrsPut ws q).st = q.st := rfl
@[simp] theorem putFlags_st (fl : BitVec 5) (q : Machine.Seq) : (putFlags fl q).st = q.st := rfl
@[simp] theorem putCtrl_st (i : Nat) (v : Word) (q : Machine.Seq) : (putCtrl i v q).st = q.st := by
  unfold putCtrl
  (repeat' split) <;> rfl

@[simp] theorem landOne_st (s : State) (g : Nat) (l : Landing) (q : Machine.Seq) : (landOne s g l q).st = q.st := by
  unfold landOne
  cases l.dst with
  | load | scale | stat => dsimp only; split <;> rfl
  | mask => dsimp only; rw [putFlags_st]; split <;> rfl
  | slice => exact foldl_st (fun u x => dirtyViews_st g x u) ..
  | copyRow => exact foldl_st (fun u j => lrsPut_st _ u) ..
  | drain => exact foldl_st (fun u (y : Nat × BitVec 4) => dirtyViews_st g y.1 u) ..
  | ctrl => exact putCtrl_st ..
  | _ => rfl

theorem landSeq_st (s : State) (tid k g c : Nat) (q : Machine.Seq) : (landSeq s tid k g c q).st = q.st := by
  unfold landSeq
  extract_lets ls q1 q2 q3
  have h1 : q1.st = q.st := foldl_st (fun u l => landOne_st s g l u) ..
  have h2 : q2.st = q1.st := by simp only [q2]; split <;> rfl
  exact h2.trans h1

/-! ### A task's landings charge its meter, and change nothing else of it (R221) -/

theorem landCharge_eq (g : Nat) (l : Landing) (t : Machine.Task) : ∃ m, landCharge g l t = { t with meter := m } := by
  unfold landCharge
  cases l.dst <;> exact ⟨_, rfl⟩

theorem foldl_landCharge_eq (ls : List Landing) (t : Machine.Task) :
    ∃ m, ls.foldl (fun t l => landCharge t.g l t) t = { t with meter := m } :=
  List.foldlRecOn (motive := fun u => ∃ m, u = { t with meter := m }) ls _ ⟨t.meter, rfl⟩ fun u hu l _ => by
    obtain ⟨m, rfl⟩ := hu
    exact landCharge_eq ..

/-! ### The end of a LC, and a LC that is held (R167 to R169, R245) -/

section Landing

variable {tid : Nat} {t : Machine.Task} {s : State} (ht : tabFind s.tasks tid = some t)
include ht

theorem sendKept_of_none (hk : t.kept = []) : sendKept tid s = { s with tasks := tabPut s.tasks tid t } := by
  rw [sendKept, ht]
  simp only [hk, List.foldl_nil]
  rw [onTask_of_found ht, ← hk]

section Held

variable (ha : t.alive = true) (hd : dueSeqs t ≠ [])
include ha hd

theorem execResultLanding_of_due : execResultLanding tid s =
    .next (onTask tid (heldOn t.lc (preCond s tid))
      (if preCond s tid = 5 then sendKept tid s else if preCond s tid = 8 then heldSplits tid s else s)) := by
  rw [execResultLanding, ht]
  simp [ha, hd]

theorem execResultLanding_of_held (h5 : preCond s tid ≠ 5) (h8 : preCond s tid ≠ 8) : execResultLanding tid s =
    .next { s with tasks := tabPut s.tasks tid (heldOn t.lc (preCond s tid) t) } := by
  rw [execResultLanding_of_due ht ha hd, if_neg h5, if_neg h8, onTask_of_found ht]

theorem execResultLanding_of_barrier (h5 : preCond s tid = 5) :
    execResultLanding tid s = .next (onTask tid (heldOn t.lc 5) (sendKept tid s)) := by
  rw [execResultLanding_of_due ht ha hd, h5, if_pos rfl]

theorem execResultLanding_of_split (h8 : preCond s tid = 8) :
    execResultLanding tid s = .next (onTask tid (heldOn t.lc 8) (heldSplits tid s)) := by
  rw [execResultLanding_of_due ht ha hd, h8, if_neg (by decide), if_pos rfl]

end Held

theorem execResultLanding_of_issued (ha : t.alive = true) (hd : dueSeqs t = []) (he : t.ending = none) :
    execResultLanding tid s = .next (endOfLc tid (sendKept tid s)) := by
  rw [execResultLanding, ht]
  simp [ha, hd, endsBefore, he]

end Landing

/-- What is freed with a HALT starts a selection round, and changes no more than the device (R149). -/
theorem freeColumns_eq (tid : Nat) (t : Machine.Task) (s : State) : ∃ d, freeColumns tid t s = { s with dev := d } := by
  unfold freeColumns
  split
  · split
    · exact ⟨_, rfl⟩
    · exact ⟨s.dev, rfl⟩
  · exact ⟨s.dev, rfl⟩

theorem wake_of_running {q : Machine.Seq} (t : Machine.Task) (hr : q.st = .running) : wake t q = q := by
  rw [wake, hr]

/-- The clock of a task counts a LC; its sequencers stay as they are. -/
theorem tickTask_eq (t : Machine.Task) : (tickTask t).lc = t.lc + 1 ∧ (tickTask t).cond = 0 ∧ (tickTask t).seqs = t.seqs := by
  unfold tickTask
  extract_lets u
  have hu : u.lc = t.lc ∧ u.seqs = t.seqs := by
    simp only [u]
    split <;> exact ⟨rfl, rfl⟩
  exact ⟨congrArg (· + 1) hu.1, rfl, hu.2⟩

/-- A task with one sequencer once the results due at its LC have landed in `s`, its meter at `m`. -/
def landedTask (s : State) (tid : Nat) (t : Machine.Task) (q : Machine.Seq) (m : Nat) : Machine.Task :=
  { t with seqs := [(0, landSeq s tid 0 t.g t.lc q)], meter := m }

/-- Its sequencer runs on. -/
theorem landedTask_wake {q : Machine.Seq} (hr : q.st = .running) (s : State) (tid : Nat) (t : Machine.Task) (m : Nat) :
    (landedTask s tid t q m).seqs.map (fun e => (e.1, wake (landedTask s tid t q m) e.2)) =
    (landedTask s tid t q m).seqs := by
  simp only [landedTask, List.map_cons, List.map_nil, wake_of_running _ ((landSeq_st ..).trans hr)]

section Lone

variable {tid : Nat} {t : Machine.Task} {q : Machine.Seq} (hq : t.seqs = [(0, q)])
include hq

/-- The landings of a task's one sequencer, with nothing of them kept back for a save. -/
theorem exists_landedTask (s : State) (tid : Nat) (ls : List Landing) {back : Nat → List Landing} (hb : back 0 = []) :
    ∃ m, ls.foldl (fun t l => landCharge t.g l t) { t with seqs := t.seqs.map (fun e =>
      let q := landSeq s tid e.1 t.g t.lc e.2
      (e.1, { q with land := back e.1 ++ q.land })) } = landedTask s tid t q m := by
  obtain ⟨m, hm⟩ := foldl_landCharge_eq ls (landedTask s tid t q t.meter)
  refine ⟨m, Eq.trans ?_ hm⟩
  simp only [hq, List.map_cons, List.map_nil, hb, List.nil_append]
  rfl

variable (hr : q.st = .running)
include hr

theorem haltedBefore_of_running : haltedBefore t = false := by
  simp [haltedBefore, hq, hr, tabFind]

theorem haltTrap_of_running : haltTrap t = [] := by
  unfold haltTrap
  rw [hq]
  cases t.serr with
  | none => rfl
  | some e => exact if_neg (by simp [hr])

theorem trimmed_of_running (hn : t.taken = none) : trimmed t q = q := by
  simp [trimmed, haltedBefore_of_running hq hr, shadows, hn]

variable {s : State} (ht : tabFind s.tasks tid = some t) (hc : q.copies = []) (ho : t.out = []) (he : t.ending = none) (hn : t.taken = none)
  (hw : landWait s t = 0) (hx : seqTraps s tid 0 t.lc t q = [])
include ht hc ho he hn hw hx

/-- The end of a LC for a task with one running sequencer, of which nothing is left to send, no copy runs and no result waits or traps: the
steps of the end of a LC in their order, of which the landings, the replies they have used, the leakage and the clock's tick remain. -/
theorem endOfLc_of_running : ∃ u t', endOfLc tid s = settle tid u ∧ tabFind u.tasks tid = some t' ∧ t'.lc = t.lc + 1 ∧ t'.cond = 0 ∧
    t'.seqs = [(0, landSeq { s with tasks := tabPut s.tasks tid t } tid 0 t.g t.lc q)] ∧ u.mem = s.mem ∧ u.reqs = s.reqs ∧
    u.agenda = s.agenda := by
  have htrim : t = { t with seqs := t.seqs.map (fun e => (e.1, trimmed t e.2)) } := by
    simp only [hq, List.map_cons, List.map_nil, trimmed_of_running hq hr hn]
    rw [← hq]
  unfold endOfLc
  split
  case h_1 hf => exact absurd (hf.symm.trans ht) nofun
  case h_2 t0 hf =>
  obtain rfl : t0 = t := Option.some.inj (hf.symm.trans ht)
  -- neither a trim of what lands nor a trap changes the task
  extract_lets t1 w c traps t2 s0 ls back s1 s2 s3 s4 s5 s6
  have h1 : t0 = t1 := htrim
  clear_value t1
  subst h1
  rw [if_neg (not_and_of_not_left _ (not_not.2 hw))]
  have htraps : traps = [] := by
    simp only [traps, c, hq, List.flatMap_cons, List.flatMap_nil, hx, haltTrap_of_running hq hr]
    simp
  have h2 : t0 = t2 := by
    simp only [t2, htraps, List.foldl_nil]
  clear_value t2
  subst h2
  rw [if_neg (by simp [he])]
  -- its results land, nothing else leaves, and its clock ticks
  have hback : back 0 = [] := by
    simp [back, hq, tabFind, shadows, hn]
  obtain ⟨m, hm⟩ := exists_landedTask hq s0 tid ls hback
  have hs1 : s1 = { s0 with tasks := tabPut s0.tasks tid (landedTask s0 tid t0 q m) } := by
    rw [← hm]
    exact onTask_of_found (tabFind_put_same ..) _
  have hs4 : s4 = { s1 with replies := usedReplies ls s1.replies } := by
    simp [s4, s3, s2, ho, hq, hc, copyCycle]
  have hf4 : tabFind s4.tasks tid = some (landedTask s0 tid t0 q m) := by
    rw [hs4, hs1]
    exact tabFind_put_same ..
  have hs5 : s5 = onDev (chargeLeak t0) { s4 with tasks := tabPut s4.tasks tid (tickTask (landedTask s0 tid t0 q m)) } := by
    refine (congrArg (onDev (chargeLeak t0)) (onTask_of_found hf4 _)).trans ?_
    rw [landedTask_wake hr]
  have hs6 : s6 = s5 := if_neg (by simp [ho])
  obtain ⟨d, hd⟩ := freeColumns_eq tid t0 s6
  obtain ⟨hlc, hcond, hseqs⟩ := tickTask_eq (landedTask s0 tid t0 q m)
  refine ⟨_, _, rfl, ?_, hlc, hcond, hseqs, ?_⟩ <;> rw [hd, hs6, hs5]
  · exact tabFind_put_same ..
  · rw [hs4, hs1]
    exact ⟨rfl, rfl, rfl⟩

end Lone

theorem execResultLanding_of_running {tid : Nat} {t : Machine.Task} {q : Machine.Seq} {s : State} (ht : tabFind s.tasks tid = some t)
    (ha : t.alive = true) (hd : dueSeqs t = []) (hq : t.seqs = [(0, q)]) (hr : q.st = .running) (hc : q.copies = []) (ho : t.out = [])
    (hk : t.kept = []) (he : t.ending = none) (hn : t.taken = none) (hw : landWait (sendKept tid s) t = 0)
    (hx : seqTraps (sendKept tid s) tid 0 t.lc t q = []) :
    ∃ u t', execResultLanding tid s = .next (settle tid u) ∧ tabFind u.tasks tid = some t' ∧ t'.lc = t.lc + 1 ∧ t'.cond = 0 ∧
      t'.seqs = [(0, landSeq { s with tasks := tabPut (tabPut s.tasks tid t) tid t } tid 0 t.g t.lc q)] ∧ u.mem = s.mem ∧
      u.reqs = s.reqs ∧ u.agenda = s.agenda := by
  rw [execResultLanding_of_issued ht ha hd he]
  rw [sendKept_of_none ht hk] at hw hx ⊢
  obtain ⟨u, t', hu, hrest⟩ := endOfLc_of_running hq hr (tabFind_put_same ..) hc ho he hn hw hx
  exact ⟨u, t', congrArg _ hu, hrest⟩

/-! ### Custodian instructions at their targets (R397 to R407) -/

@[simp] theorem custReply_dev (id : Nat) (w : Word) (errs : List ReplyErr) (s : State) : (custReply id w errs s).dev = s.dev := by
  unfold custReply
  split <;> rfl

/-- A FREL that looks at its frames awaits no read. -/
theorem frelWait_reading (c : CustOp) (value : Nat) (fs : List (Nat × Nat)) (s : State) :
    (frelWait c value fs s).dev.reading = s.dev.reading := by
  unfold frelWait
  extract_lets left
  split
  · rw [custReply_dev]
  · rfl

/-- The state on which a custodian instruction is performed: it has left the list of those under way, and no work awaits a read. -/
def atTarget (id : Nat) (s : State) : State := onDev (fun d => { d with reading := false, custs := d.custs.filter (fun x => x.reply != id) }) s

section Custodian

variable {id : Nat} {s : State} {c : CustOp}

section Due

variable (hc : s.dev.custs.find? (fun c => c.reply == id) = some c) (hd : c.due ≤ s.cyc)
include hc hd

theorem execCustodianResult_of_new (hp : c.passed = none) :
    execCustodianResult id s = .next (worked (.cust id) (performCust c (atTarget id s)) s) := by
  rw [execCustodianResult, hc]
  simp only [if_neg (not_lt.2 hd), attempt_eq, hp]
  rfl

theorem execCustodianResult_of_passed {v : Nat} (hp : c.passed = some v) :
    execCustodianResult id s = .next (closeJobs (.cust id) (frelWait c v c.wait (atTarget id s))) := by
  have hread : (frelWait c v c.wait (atTarget id s)).dev.reading = false := frelWait_reading ..
  rw [execCustodianResult, hc, ← worked_done (s := s) hread]
  simp only [if_neg (not_lt.2 hd), attempt_eq, hp]
  rfl

end Due

theorem performCust_kzero (h : c.op = 25) :
    performCust c s = settleCust c.reply s (kzero (getVf s.dev c.vf).part c.a c.overtaken s) := by
  simp [performCust, h]

theorem performCust_scrb (h : c.op = 26) :
    let r := askEntries (.cust c.reply) [] c.vf (setEntries s (getVf s.dev c.vf).part c.a c.b) s
    performCust c s = settleCust c.reply r.1 (scrb (getVf s.dev c.vf).part c.a c.b r.2 r.1) := by
  simp [performCust, h]

theorem performCust_scrq (h : c.op = 27) : performCust c s = settleCust c.reply s (scrq (getVf s.dev c.vf).part c.a c.b s) := by
  simp [performCust, h]

theorem performCust_plwr (h : c.op = 29) : performCust c s = settleCust c.reply s (plwr (getVf s.dev c.vf).part c.a c.b s) := by
  simp [performCust, h]

theorem performCust_qwrt (h : c.op = 31) : performCust c s = settleCust c.reply s (qwrt (getVf s.dev c.vf).part c.a c.b s) := by
  simp [performCust, h]

section Frel

variable (h : c.op = 28)
include h

theorem performCust_frel_of_error {e : Nat × Nat} :
    let r := askEntries (.cust c.reply) [] c.vf (setEntries s (getVf s.dev c.vf).part c.a c.b) s
    frel (getVf s.dev c.vf).part c.a c.b r.2 r.1 = .error e → performCust c s = custRefuse c.reply e.1 e.2 r.1 := by
  intro r he
  simp only [performCust, h, he, r, Nat.reduceEqDiff, if_false, if_true]

theorem performCust_frel_of_ok {x : State × Nat × List (Nat × Nat)} :
    let r := askEntries (.cust c.reply) [] c.vf (setEntries s (getVf s.dev c.vf).part c.a c.b) s
    frel (getVf s.dev c.vf).part c.a c.b r.2 r.1 = .ok x → performCust c s = frelWait c x.2.1 x.2.2 x.1 := by
  intro r hx
  simp only [performCust, h, hx, r, Nat.reduceEqDiff, if_false, if_true]

end Frel

/-- What an instruction that settles a verdict answers. -/
theorem settleCust_spec {u : State} {v : Verdict} {t : State} (h : t = settleCust id u v) :
    (∀ w, v = .ok w → t = custReply id (resultWord 0 0 w.2) [] w.1) ∧ ∀ e, v = .error e → t = custRefuse id e.1 e.2 u := by
  subst h
  exact ⟨fun w hv => by rw [hv]; rfl, fun e hv => by rw [hv]; rfl⟩

section Btwr

variable (h : c.op = 30)
include h

theorem performCust_btwr : performCust c s = performBtwr c s := by
  simp [performCust, h]

theorem performCust_btwr_of_refused {code : Nat} (hb : btwrCode s c = some code) :
    performCust c s = custRefuse c.reply code 0 { s with replies := tabDel s.replies c.src } := by
  rw [performCust_btwr h, performBtwr, hb]

variable {x : Reply} (hb : btwrCode s c = none) (hf : tabFind s.replies c.src = some x) (hl : x.left = 0)
include hb hf hl

theorem performCust_btwr_of_lost {e : ReplyErr} {es : List ReplyErr} (he : x.errs = e :: es) :
    performCust c s = custReply c.reply 0#64 [{ e with off := 0, kind := 1 }] { s with replies := tabDel s.replies c.src } := by
  rw [performCust_btwr h, performBtwr, hb, hf]
  simp only [hl, he, ne_eq, not_true_eq_false, if_false]

theorem performCust_btwr_of_read (he : x.errs = []) :
    let r := btwrWrite c (tabBytes x.data 0 32) s
    let u := { r.1 with replies := tabDel r.1.replies c.src }
    (∀ v, r.2 = .ok v → performCust c s = custReply c.reply (resultWord 0 0 v) [] u) ∧
    (∀ e, r.2 = .error e → performCust c s = custRefuse c.reply e.1 e.2 u) := by
  intro r u
  rw [performCust_btwr h, performBtwr, hb, hf]
  simp only [hl, he, ne_eq, not_true_eq_false, if_false]
  exact ⟨fun v hv => by rw [hv], fun e hv => by rw [hv]⟩

end Btwr
end Custodian

/-! ### Replies and copies (R169, R373) -/

theorem execCopyComplete_of_done {id : Nat} {s : State} {r : Reply} (hr : tabFind s.replies (id + 1) = some r) (hl : r.left = 0)
    (hw : s.tasks.any (fun e => e.2.seqs.any (fun q => q.2.copies.any (fun c => c.id == id && c.wrote))) = true) :
    execCopyComplete id s = .next { s with replies := tabPut s.replies (id + 1) { r with ok := true } } := by
  rw [execCopyComplete, hr]
  exact if_pos ⟨hl, hw⟩

/-- With no error in a reply, every row that it carries goes on. -/
theorem filter_replyErr_of_noErrs {s : State} {id : Nat} {r : Reply} (hr : tabFind s.replies id = some r) (he : r.errs = [])
    (rows : List (Nat × Nat)) : rows.filter (fun j => (replyErr s id (128 * j.1) 128).isNone) = rows :=
  List.filter_eq_self.2 fun j _ => by simp [replyErr, hr, he]

section Reply

variable {id tid k : Nat} {s : State} {r : Reply} {t : Machine.Task} {q : Machine.Seq} (ht : tabFind s.tasks tid = some t)
  (hr : tabFind s.replies id = some r) (hl : r.left = 0) (hz : r.size ≠ 0) (ho : r.ok = false) (hw : r.who = .task tid k)
  (hq : tabFind t.seqs k = some q)
include ht hr hl hz ho hw hq

theorem execEndpointReply_of_access (hc : q.copies.find? (fun c => c.id == id && c.kind == 4) = none) :
    execEndpointReply id s = .next { s with replies := tabPut s.replies id { r with ok := true } } := by
  have hopen : ¬(r.left ≠ 0 ∨ r.size = 0 ∨ r.ok = true) := by simp [hl, hz, ho]
  rw [execEndpointReply, hr]
  simp only [if_neg hopen, hw, ht, hq, Option.getD_some, hc]

theorem execEndpointReply_of_copy {c : Copy} (hc : q.copies.find? (fun c => c.id == id && c.kind == 4) = some c) (he : r.errs = []) :
    let s1 := { s with replies := tabPut s.replies id { r with ok := true } }
    execEndpointReply id s = .next (onCopy tid k id (fun c => { c with wrote := true })
      (onTask tid (chargeTask 6 (128 * (writeOffs c).length)) (dropPlaces (id + 1) (sendWrites (id + 1)
        ((writeOffs c).flatMap (fun j => rowReqs tid k t (id + 1) j.1 c.entry2 c.index2 j.2 .write (replyData s1 id (128 * j.1) 128))) s1)))) := by
  intro s1
  have hopen : ¬(r.left ≠ 0 ∨ r.size = 0 ∨ r.ok = true) := by simp [hl, hz, ho]
  rw [execEndpointReply, hr]
  dsimp -zeta only
  rw [if_neg hopen]
  extract_lets
  have hs1 : tabFind s1.tasks tid = some t := ht
  have hrows := filter_replyErr_of_noErrs (s := s1) (tabFind_put_same s.replies id { r with ok := true }) he (writeOffs c)
  simp only [hw, hs1, hq, Option.getD_some, hc, hrows]

end Reply

/-! ### Waits, banks and checks of a task (R175, R177, R183, R187, R188, R237, R322, R385) -/

/-- The definition is opened as `waittDone_cases` opens it. -/
theorem waittDone_of_target {tid k a : Nat} {s : State} (hw : waittTarget s tid k = some a) : waittDone tid k s =
    if a ≤ s.dev.gtci then onTask tid (fun t => { t with waits := { t.waits with waitOk := tabSet 0 t.waits.waitOk k (t.lc + 1) } }) s
    else s := by
  have body : waittDone = waittDone := rfl
  conv at body => rhs; delta waittDone
  rw [body]
  beta_reduce
  generalize waittTarget s tid k = o at hw
  subst hw
  rfl

section Waits

variable {tid k : Nat} {t : Machine.Task} {s : State} (ht : tabFind s.tasks tid = some t)
include ht

theorem execPhaseComplete_of_arrived (hd : 0 < duePhases s tid) (hm : allMembers s t (atPhase s (t.phn + 1)) = true) :
    execPhaseComplete tid s =
      .next { s with tasks := tabPut s.tasks tid { t with waits := { t.waits with phOk := t.phn + 1 } } } := by
  rw [execPhaseComplete, phaseDone, ht]
  simp only [gt_iff_lt, hd, hm, and_self, if_true, onTask_of_found ht]

theorem execBarComplete_of_arrived (hd : 0 < dueBars s tid) (hm : allMembers s t (atBar s (t.waits.bars + dueBars s tid)) = true) :
    execBarComplete tid s =
      .next { s with tasks := tabPut s.tasks tid { t with waits := { t.waits with barOk := t.waits.bars + dueBars s tid } } } := by
  rw [execBarComplete, barDone, ht]
  simp only [gt_iff_lt, hd, hm, and_self, if_true, onTask_of_found ht]

theorem execWaittRelease_of_reached {a : Nat} (hw : waittTarget s tid k = some a) (ha : a ≤ s.dev.gtci) : execWaittRelease tid k s =
    .next { s with tasks := tabPut s.tasks tid { t with waits := { t.waits with waitOk := tabSet 0 t.waits.waitOk k (t.lc + 1) } } } := by
  rw [execWaittRelease, waittDone_of_target hw, if_pos ha, onTask_of_found ht]

theorem execBankCleared_of_free {q : Machine.Seq} {b : Nat} (hq : tabFind t.seqs k = some q) (hb : q.clearing.getLsbD b = true)
    (hc : q.copies.any (fun c => c.rel && decide (c.start ≤ t.lc) && (heldBanks c).getLsbD b) = false) : execBankCleared tid k b s =
    .next { s with tasks := tabPut s.tasks tid { t with seqs := tabPut t.seqs k { q with
      clearing := q.clearing &&& ~~~(1#6 <<< b), lrs := q.lrs.filter (fun e => e.1 / (128 * t.g) % 6 != b) } } } := by
  rw [execBankCleared, ht]
  simp only [hq, Option.getD_some, hb, hc, Bool.not_true, Bool.or_self, Bool.false_eq_true, if_false, onSeq_of_found ht hq]

theorem execStallTimeout_of_over (h : 2 ^ 26 ≤ t.hold) : execStallTimeout tid s =
    .next { s with tasks := tabPut s.tasks tid (addTrap 0 { looseTiming 0x06 0#64 never 0#64 with ti3 := w64 t.cond } t) } := by
  rw [execStallTimeout, ht]
  simp only [if_neg (not_lt.2 h), onTask_of_found ht]

theorem execStallTimeout_of_within (h : t.hold < 2 ^ 26) : execStallTimeout tid s = .next s := by
  rw [execStallTimeout, ht]
  exact if_pos h

theorem execSafeBoundOverrun_of_late (hl : t.lc = t.sref + t.safeb + 1) (hd : draining t = false) (he : t.ending = none)
    (hp : preCond s tid = 0) : execSafeBoundOverrun tid s =
    .next { s with tasks := tabPut s.tasks tid (addTrap 0 (looseTiming 0x07 0#64 never 0#64) t) } := by
  rw [execSafeBoundOverrun, ht]
  simp [hl, hd, he, hp, onTask_of_found ht]

/-- A residue that differs in an operation with one or two extents traps at the last cycle of its window (R237). -/
theorem execMatrixCheck_of_window {q : Machine.Seq} {b m c r x : Nat} (hq : tabFind t.seqs k = some q) (h1 : q.win.1 ≤ t.lc)
    (h2 : t.lc < q.win.2) (h3 : q.winExt.length < 3) : execMatrixCheck tid k b m c r x s =
    .next (onSeq tid k (fun q => { q with land := q.land ++ [⟨q.opLc, q.win.2 - 1,
      .trap ⟨0x09, 0x01, 0, w64 b, w64 (m % 256 + 256 * (c % 256)), w64 (x % 256 + 256 * (r % 256)), w64 q.opLc, none⟩⟩] }) s) := by
  have hin : ¬(t.lc < q.win.1 ∨ q.win.2 ≤ t.lc) := by omega
  rw [execMatrixCheck, ht]
  simp only [hq, Option.getD_some, if_neg hin, if_pos h3]
  exact congrArg _ (onSeq_congr ht hq rfl)

theorem execPreemptionRequestArrival_of_first (kind : PreemptKind) (hp : t.preempt = none) :
    execPreemptionRequestArrival tid kind s = .next { s with tasks := tabPut s.tasks tid { t with preempt := some kind, preAt := s.cyc } } := by
  rw [execPreemptionRequestArrival, onTask_of_found ht, arrive, hp]

end Waits

theorem execWaittRelease_of_early {tid k a : Nat} {s : State} (hw : waittTarget s tid k = some a) (ha : s.dev.gtci < a) :
    execWaittRelease tid k s = .next s := by
  rw [execWaittRelease, waittDone_of_target hw, if_neg (not_le.2 ha)]

/-! ### Range registers (R115) -/

/-- The range registers of a sequencer change its task, and nothing beside the tasks. -/
theorem touchRange_eq (tid k : Nat) (s : State) : ∃ ts, touchRange tid k s = { s with tasks := ts } := by
  unfold touchRange
  split
  case h_1 t ht => exact ⟨_, onTask_of_found ht _⟩
  case h_2 => exact ⟨s.tasks, rfl⟩

section Fill

variable {tid k : Nat} {t : Machine.Task} {s : State} (ht : tabFind s.tasks tid = some t) (hm : missedIndices (unread s) tid k ≠ [])
include ht hm

theorem execRangeRegisterFill_of_missed :
    let is := missedIndices (unread s) tid k
    execRangeRegisterFill tid k s = .next (worked (.fill tid k) (touchRange tid k
      (askRead (.fill tid k) is (32 * is.length) (fillReqs s.dev tid k t.vf is) (unread s)).1) s) := by
  intro is
  rw [execRangeRegisterFill, ht]
  simp only [attempt_eq]
  rw [if_neg (by simpa using hm)]
  rfl

theorem execRangeRegisterFill_of_reply {j : Job} {r : Reply} (hj : findJob s.dev (.fill tid k) (missedIndices (unread s) tid k) = some j)
    (hr : tabFind s.replies j.id = some r) (hl : r.left = 0) :
    execRangeRegisterFill tid k s = .next (closeJobs (.fill tid k) (touchRange tid k (unread s))) := by
  have hask (n : Nat) (mk : Nat → List Req) : askRead (.fill tid k) (missedIndices (unread s) tid k) n mk (unread s) = (unread s, some r) := by
    have hj' : findJob (unread s).dev (.fill tid k) (missedIndices (unread s) tid k) = some j := hj
    have hr' : tabFind (unread s).replies j.id = some r := hr
    simp only [askRead, hj', hr', hl, if_true]
  obtain ⟨ts, hts⟩ := touchRange_eq tid k (unread s)
  rw [execRangeRegisterFill_of_missed ht hm, hask, worked_done (by rw [hts]; rfl)]

theorem execRangeRegisterFill_of_noJob (hj : findJob s.dev (.fill tid k) (missedIndices (unread s) tid k) = none) :
    let is := missedIndices (unread s) tid k
    execRangeRegisterFill tid k s =
      .next (keepAsked (openJob (.fill tid k) is (32 * is.length) (fillReqs s.dev tid k t.vf is) (unread s)) s) := by
  intro is
  have hask (n : Nat) (mk : Nat → List Req) :
      askRead (.fill tid k) is n mk (unread s) = (notYet (openJob (.fill tid k) is n mk (unread s)), none) := by
    have hj' : findJob (unread s).dev (.fill tid k) is = none := hj
    have hread : (unread s).dev.reading = false := rfl
    simp only [askRead, hj', hread, Bool.false_eq_true, if_false]
  have hrun := execRangeRegisterFill_of_missed ht hm
  obtain ⟨ts, hts⟩ := touchRange_eq tid k (notYet (openJob (.fill tid k) is (32 * is.length) (fillReqs s.dev tid k t.vf is) (unread s)))
  rw [hrun, hask, worked_waits (by rw [hts]; rfl), hts]
  rfl

end Fill

/-- Settles O52, an event at a time. -/
theorem tileEvents : Obligations.TileEvents := by
  intro tid k id t q s ht put
  refine ⟨execResultLanding_of_running ht, fun ha hd => ⟨execResultLanding_of_held ht ha hd, execResultLanding_of_barrier ht ha hd,
      execResultLanding_of_split ht ha hd⟩, ?custodian, fun u => ⟨rfl, rfl, rfl⟩,
    fun b m c r x => execMatrixCheck_of_window ht, fun r => execCopyComplete_of_done, fun r => execEndpointReply_of_access ht,
    fun r c hr hl hz ho hw hq hc he => execEndpointReply_of_copy ht hr hl hz ho hw hq hc he,
    execPhaseComplete_of_arrived ht, execBarComplete_of_arrived ht,
    fun a hw => ⟨execWaittRelease_of_reached ht hw, execWaittRelease_of_early hw⟩, fun b => execBankCleared_of_free ht,
    execStallTimeout_of_over ht, execStallTimeout_of_within ht, execSafeBoundOverrun_of_late ht,
    ⟨fun j r hm => execRangeRegisterFill_of_reply ht hm, execRangeRegisterFill_of_noJob ht⟩,
    execPreemptionRequestArrival_of_first ht⟩
  intro c hc hd
  obtain rfl : c.reply = id := by simpa using List.find?_some hc
  exact ⟨fun v => execCustodianResult_of_passed hc hd, execCustodianResult_of_new hc hd,
    fun h => settleCust_spec (performCust_kzero h), fun h => settleCust_spec (performCust_scrb h),
    fun h => settleCust_spec (performCust_scrq h),
    fun h => ⟨fun e => performCust_frel_of_error h, fun x => performCust_frel_of_ok h⟩,
    fun h => settleCust_spec (performCust_plwr h),
    fun h => ⟨fun code => performCust_btwr_of_refused h, fun x hb hf hl =>
      ⟨fun e es => performCust_btwr_of_lost h hb hf hl, performCust_btwr_of_read h hb hf hl⟩⟩,
    fun h => settleCust_spec (performCust_qwrt h)⟩

end Sys2Proof.Machine
end

section

/-! ## Every state has a next state (O44) -/

namespace Sys2Proof.Machine

/-- An outcome that is a next state: no fault and no refusal. -/
def Completes (o : Host.Outcome State Fault Refusal) : Prop := ∃ t, o = .next t

theorem completes_next (t : State) : Completes (.next t) := ⟨t, rfl⟩

theorem Ends.completes {R : State → State → Prop} {s : State} {o : Host.Outcome State Fault Refusal} (h : Ends R s o) : Completes o := by
  obtain ⟨t, ht, -⟩ := h
  exact ⟨t, ht⟩

/-- An event has one answer, or it has conditions of its own, each of whose branches is an answer. -/
theorem runEv_completes (e : Ev) (s : State) : Completes (runEv e s) := by
  cases e with
  | phaseComplete | barComplete | waittRelease | moduleDisabled | pcreate | pdestroy | colassign | dsmBankClearDone | pooladd | poolrem
  | uashare | vcreate | vdestroy | credit | idcert | packagePowerOn | plimWrite | ltolWrite | scrubctlWrite | uarctxWrite | gtcincWrite
  | gtcadjWrite | gtcsetWrite | gtcSlewDone | gtcHoldover | loupeArm | tampctlWrite | vfstatDegWrite | eqctlWrite | eqheadWrite
  | arbiterEpoch | fastLimiter | sensorUpdate | supplyExcursion | meshBreak | rowRefresh | activationWindow | patrolPeriodEnd
  | leaseReply | linkTraining | linkReplay | messageLanding | reductionContribution | selectionRound | priorityPreemption | caratFlush
  | creditReturn | preemptionRequestArrival =>
    exact completes_next _
  | _ =>
    dsimp only [runEv, execCustodianResult, execMatrixCheck, execCopyComplete, execResultLanding, execEndpointReply, execBankCleared,
      execStallTimeout, execSafeBoundOverrun, execHlpRrd, execRegisterWrite, execHlpMrd, execHlpMwr, execHlpCpld, execHlpCpl,
      execHostReadTimeout, execDsmassign, execVreset, execVresetComplete, execKeyload, execAttest, execDeviceReset, execSidebandReset,
      execFirmwareVerify, execBinningComplete, execGsub, execGcan, execEventRecordWrite, execEqInterruptTimer, execPowerStateEntry,
      execWakeComplete, execPortAdmit, execPatrolScrubStep, execHotScrubStep, execRetirementCopyDone, execLeaseIncrement,
      execLeaseRelease, execPullReadReply, execPullTimeout, execRemoteRequest, execInvalidationDone, execInvalidationTimeout,
      execPolisherClearBlock, execLaneLoss, execSkidSend, execCollectiveStart, execCollectiveComplete, execGraphParse, execGangToken,
      execDispatch, execSaveComplete, execContextRestore, execPhaseRestart, execNodeRetire, execJobCardStart, execJobCardComplete,
      execDsmBankRequest, execRangeRegisterFill]
    (repeat' split) <;> exact completes_next _

theorem exec_completes (i : Instr) (s : State) : Completes (exec i s) := by
  obtain h | ⟨e, he⟩ := exec_cases i s
  · exact h.completes
  · rw [he]
    exact runEv_completes e s

/-! ### Groups and steps (R260) -/

section Group

variable {run : Run} (hrun : ∀ i u, Completes (run i u))
include hrun

/-- The slots of a group answer with a state and the traps met, if each operation answers with a state. -/
theorem runSlots_answers (base : State) (pos : Pos) (xs : List Slot) (s : State) (ts : List Trap) :
    ∃ r, runSlots run base pos xs s ts = .next r := by
  induction xs generalizing s ts with
  | nil => exact ⟨_, rfl⟩
  | cons x xs ih =>
    cases hi : slotInstr x with
    | error _ =>
      rw [runSlots, hi]
      exact ih ..
    | ok i =>
      obtain ⟨t, ht⟩ := hrun i (atSlot (slotOff base x) pos x s)
      cases htrap : t.ix.trap with
      | none =>
        rw [runSlots_cons_of_noTrap hi ht htrap]
        exact ih ..
      | some r =>
        rw [runSlots_cons_of_trap hi ht htrap]
        exact ih ..

theorem issueGroup_completes (s : State) : Completes (issueGroup run s) := by
  cases h : fetchTrap (groupStart s) (groupStart s).sq.pos with
  | some t => exact ⟨_, issueGroup_of_fetchTrap h⟩
  | none =>
    obtain ⟨⟨v, ts⟩, hr⟩ := runSlots_answers hrun (groupState (groupStart s)) (groupStart s).sq.pos
      (runOrder (groupAt (groupState (groupStart s)) (groupStart s).sq.pos)) (groupState (groupStart s)) []
    rw [issueGroup_of_ran h hr]
    split <;> exact completes_next _

theorem issueAct_completes (tid k : Nat) (s : State) : Completes (issueAct run tid k s) := by
  obtain ⟨u, hu⟩ := issueGroup_completes hrun (fetchCode (focus tid k (touchRange tid k s)))
  unfold issueAct
  split
  · exact completes_next _
  · split
    · exact completes_next _
    · rw [hu]
      exact completes_next _

end Group

theorem takeInput_completes (i : Input) (s : State) : Completes (takeInput i s) := by
  unfold takeInput
  split
  · exact completes_next _
  · cases i with
    | event e => exact runEv_completes e s
    | _ => exact completes_next _

theorem step_completes (s : State) : Completes (step s) := by
  unfold step
  split
  · exact issueAct_completes exec_completes ..
  · exact runEv_completes ..
  · split
    · exact completes_next _
    · split
      · exact completes_next _
      · exact takeInput_completes ..

/-- Settles O44: an instruction is a slot operation, whose checks end in an effect or in a trap, or an event; a step issues a group, runs an
event, takes an input or ticks. -/
theorem alwaysCompletes : Obligations.AlwaysCompletes := ⟨exec_completes, step_completes⟩

end Sys2Proof.Machine
end

section

/-! ## What each landing writes (O50) -/

namespace Sys2Proof.Machine

/-! ### Tables after several writes -/

section Tables

variable {α : Type} [DecidableEq α] {d : α}

/-- A key that none of the writes names reads as before. -/
theorem tabGet_sets_other {ws : List (Nat × α)} {k : Nat} (h : ∀ e ∈ ws, e.1 ≠ k) (t : Tab α) :
    tabGet d (tabSets d t ws) k = tabGet d t k := by
  induction ws generalizing t with
  | nil => rfl
  | cons w ws ih =>
    obtain ⟨hw, hws⟩ := List.forall_mem_cons.1 h
    exact (ih hws _).trans (tabGet_set_other _ _ _ hw.symm)

/-- A key that is written reads as the value on which all its writes agree. -/
theorem tabGet_sets_of_agree {ws : List (Nat × α)} {k : Nat} {v : α} (hk : (k, v) ∈ ws) (h : ∀ e ∈ ws, e.1 = k → e.2 = v) (t : Tab α) :
    tabGet d (tabSets d t ws) k = v := by
  induction ws generalizing t with
  | nil => cases hk
  | cons w ws ih =>
    obtain ⟨hw, hws⟩ := List.forall_mem_cons.1 h
    by_cases hin : (k, v) ∈ ws
    · exact ih hin hws _
    · obtain rfl : (k, v) = w := (List.mem_cons.1 hk).resolve_right hin
      have hother : ∀ e ∈ ws, e.1 ≠ k := fun e he hek => hin (by
        rw [← hek, ← hws e he hek]
        exact he)
      exact (tabGet_sets_other hother _).trans (tabGet_set_same ..)

omit [DecidableEq α] in
/-- A change of every value that leaves the default alone. -/
theorem tabGet_map {f : α → α} (hf : f d = d) (t : Tab α) (k : Nat) : tabGet d (t.map (fun e => (e.1, f e.2))) k = f (tabGet d t k) := by
  induction t with
  | nil => exact hf.symm
  | cons e t ih =>
    simp only [List.map_cons, tabGet]
    split
    · rfl
    · exact ih

end Tables

/-! ### D of the tile views (R204) -/

/-- The fields of a view (R202) lie below D. -/
theorem fieldN_or_dirty {lo n : Nat} (h : lo + n ≤ 63) (v : Word) : fieldN (v ||| 0x8000000000000000#64) lo n = fieldN v lo n := by
  have hbit : (0x8000000000000000#64) = BitVec.twoPow 64 63 := rfl
  refine congrArg BitVec.toNat (BitVec.eq_of_getLsbD_eq fun i hi => ?_)
  have hlow : (63 = lo + i) = False := eq_false (by omega)
  simp [hbit, hlow]

@[simp] theorem inExtent_or_dirty (g : Nat) (v : Word) (x : Nat) : inExtent g (v ||| 0x8000000000000000#64) x = inExtent g v x := by
  unfold inExtent vSpan vBase vNrow vNcol vW vPitch
  iterate 5 rw [fieldN_or_dirty]
  all_goals decide

/-- A view that is not configured holds no row. -/
@[simp] theorem inExtent_zero (g x : Nat) : inExtent g 0#64 x = false := rfl

/-- The value of a view register once the rows `rows` have landed. -/
def dirtied (g : Nat) (rows : List Nat) (v : Word) : Word := if rows.any (inExtent g v) then v ||| 0x8000000000000000#64 else v

theorem dirtied_zero (g : Nat) (rows : List Nat) : dirtied g rows 0#64 = 0#64 := by
  simp [dirtied]

theorem dirtied_dirtied (g x : Nat) (rows : List Nat) (v : Word) : dirtied g rows (dirtied g [x] v) = dirtied g (x :: rows) v := by
  by_cases hx : inExtent g v x = true
  · simp [dirtied, hx, BitVec.or_assoc]
  · simp [dirtied, hx]

/-- The tile views once the rows `rows` have landed. -/
def dirtiedViews (g : Nat) (rows : List Nat) (t : Tab Word) : Tab Word := t.map (fun e => (e.1, dirtied g rows e.2))

theorem tabGet_dirtiedViews (g : Nat) (rows : List Nat) (t : Tab Word) (n : Nat) :
    tabGet 0#64 (dirtiedViews g rows t) n = dirtied g rows (tabGet 0#64 t n) := tabGet_map (dirtied_zero g rows) t n

theorem dirtyViews_eq (g x : Nat) (q : Machine.Seq) : dirtyViews g x q = { q with td := dirtiedViews g [x] q.td } := by
  have hrow : (fun e : Nat × Word => if inExtent g e.2 x then (e.1, e.2 ||| 0x8000000000000000#64) else e) =
      fun e => (e.1, dirtied g [x] e.2) := by
    funext e
    by_cases hx : inExtent g e.2 x = true <;> simp [dirtied, hx]
  rw [dirtyViews, hrow]
  rfl

theorem foldl_dirtyViews (g : Nat) (rows : List Nat) (q : Machine.Seq) :
    rows.foldl (fun q x => dirtyViews g x q) q = { q with td := dirtiedViews g rows q.td } := by
  induction rows generalizing q with
  | nil => simp [dirtiedViews, dirtied]
  | cons x rows ih =>
    rw [List.foldl_cons, ih, dirtyViews_eq]
    simp only [dirtiedViews, List.map_map, Function.comp_def, dirtied_dirtied]

/-! ### A row of a copy (R167) -/

theorem replyData_length (s : State) (id off n : Nat) : (replyData s id off n).length = n := by
  unfold replyData
  split
  · exact tabBytes_length ..
  · exact List.length_replicate

theorem foldl_lrsPut {α : Type} (f : α → List (Nat × Byte)) (js : List α) (q : Machine.Seq) :
    js.foldl (fun q j => lrsPut (f j) q) q = lrsPut (js.flatMap f) q := by
  induction js generalizing q with
  | nil => rfl
  | cons j js ih =>
    rw [List.foldl_cons, ih]
    simp [lrsPut, tabSets]

/-- The bytes that a row of a copy writes, column by column. -/
def copyRowWrites (g x : Nat) (cols : BitVec 4) (bs : List Byte) : List (Nat × Byte) :=
  ((List.range g).filter (fun j => cols.getLsbD j)).flatMap (fun j => bs.zipIdx.map (fun b => (rowByte g x (128 * j + b.2), b.1)))

theorem mem_copyRowWrites {g x : Nat} {cols : BitVec 4} {bs : List Byte} {e : Nat × Byte} :
    e ∈ copyRowWrites g x cols bs ↔ ∃ j < g, cols.getLsbD j = true ∧ ∃ b, bs[b]? = some e.2 ∧ e.1 = rowByte g x (128 * j + b) := by
  simp only [copyRowWrites, List.mem_flatMap, List.mem_filter, List.mem_range, List.mem_map, Prod.exists, List.mem_zipIdx_iff_getElem?]
  constructor
  · rintro ⟨j, ⟨hj, hc⟩, v, b, hb, rfl⟩
    exact ⟨j, hj, hc, b, hb, rfl⟩
  · rintro ⟨j, hj, hc, b, hb, he⟩
    exact ⟨j, ⟨hj, hc⟩, e.2, b, hb, by rw [← he]⟩

/-- Bytes of different columns, and different bytes of a column, lie apart. -/
theorem rowByte_inj {g x i j a b : Nat} (ha : a < 128) (hb : b < 128) (h : rowByte g x (128 * i + a) = rowByte g x (128 * j + b)) :
    i = j ∧ a = b := by
  unfold rowByte at h
  omega

section CopyRow

variable {g x : Nat} {cols : BitVec 4} {bs : List Byte} (hbs : bs.length = 128) (t : Tab Byte)
include hbs

theorem tabGet_copyRowWrites {j b : Nat} (hj : j < g) (hc : cols.getLsbD j = true) (hb : b < 128) :
    tabGet 0#8 (tabSets 0#8 t (copyRowWrites g x cols bs)) (rowByte g x (128 * j + b)) = bs.getD b 0#8 := by
  have hget : bs[b]? = some (bs.getD b 0#8) := by
    rw [List.getD_eq_getElem?_getD, List.getElem?_eq_getElem (by omega), Option.getD_some]
  refine tabGet_sets_of_agree (mem_copyRowWrites.2 ⟨j, hj, hc, b, hget, rfl⟩) (fun e he hk => ?_) t
  obtain ⟨i, -, -, a, ha, hea⟩ := mem_copyRowWrites.1 he
  have ha' : a < 128 := hbs ▸ (List.getElem?_eq_some_iff.1 ha).1
  obtain ⟨-, rfl⟩ := rowByte_inj ha' hb (hea.symm.trans hk)
  exact Option.some.inj (ha.symm.trans hget)

theorem tabGet_copyRowWrites_other {y : Nat} (hy : ∀ j < g, cols.getLsbD j = true → ∀ b < 128, y ≠ rowByte g x (128 * j + b)) :
    tabGet 0#8 (tabSets 0#8 t (copyRowWrites g x cols bs)) y = tabGet 0#8 t y := by
  refine tabGet_sets_other (fun e he hk => ?_) t
  obtain ⟨j, hj, hc, b, hb, heb⟩ := mem_copyRowWrites.1 he
  exact hy j hj hc b (hbs ▸ (List.getElem?_eq_some_iff.1 hb).1) (hk.symm.trans heb)

end CopyRow

theorem landOne_copyRow (s : State) (g c t x : Nat) (cols : BitVec 4) (id off : Nat) (q : Machine.Seq) :
    landOne s g ⟨c, t, .copyRow x cols id off⟩ q = { q with
      td := dirtiedViews g [x] q.td, lrs := tabSets 0#8 q.lrs (copyRowWrites g x cols (replyData s id off 128)) } := by
  simp only [landOne, dirtyViews_eq, foldl_lrsPut]
  rfl

/-! ### The rows of a drain (R355, R356) -/

theorem getLsbD_foldl_or_bit {α : Type} {w n : Nat} (hn : n < w) (p : α → Bool) (k : α → Nat) (es : List α) (a : BitVec w) :
    (es.foldl (fun a e => if p e then a ||| (1#w <<< k e) else a) a).getLsbD n = (a.getLsbD n || es.any (fun e => p e && k e == n)) := by
  induction es generalizing a with
  | nil => simp
  | cons e es ih =>
    rw [List.foldl_cons, ih, List.any_cons, ← Bool.or_assoc]
    congr 1
    cases hp : p e
    · simp
    · have hbit : (1#w <<< k e).getLsbD n = (k e == n) := by
        rw [BitVec.getLsbD_shiftLeft, BitVec.getLsbD_one, Bool.eq_iff_iff]
        simp
        omega
      simp [hbit]

theorem dirtied_eraseDups (g : Nat) (rows : List Nat) (v : Word) : dirtied g rows.eraseDups v = dirtied g rows v := by
  have hany : rows.eraseDups.any (inExtent g v) = rows.any (inExtent g v) := by
    rw [Bool.eq_iff_iff, List.any_eq_true, List.any_eq_true]
    simp only [List.mem_eraseDups]
  rw [dirtied, hany]
  rfl

section Drain

variable (s : State) (g c t x : Nat) (f rm : BitVec 2) (add mm : Bool) (es : List DrainElem) (q : Machine.Seq)

theorem landOne_drain : landOne s g ⟨c, t, .drain x f rm add mm es⟩ q = { q with
    td := dirtiedViews g (es.map (fun e => x + e.bit / (1024 * g))) q.td
    ov := q.ov ||| (drainBytes g q.lrs x f rm add es).2
    lrs := tabSets 0#8 q.lrs (drainBytes g q.lrs x f rm add es).1 } := by
  simp only [landOne, landRows, List.foldl_map, foldl_dirtyViews, dirtiedViews, dirtied_eraseDups]
  rfl

theorem drainBytes_columns (lrs : Tab Byte) {n : Nat} (hn : n < 4) : (drainBytes g lrs x f rm add es).2.getLsbD n =
    es.any (fun e => (add && addOverflow e.acc (rowBits g lrs x e.bit (drainW f)) f rm) && e.quad / 4 == n) := by
  cases add with
  | false => simp [drainBytes]
  | true =>
    have h := getLsbD_foldl_or_bit hn (fun e : DrainElem => addOverflow e.acc (rowBits g lrs x e.bit (drainW f)) f rm)
      (fun e => e.quad / 4) es 0#4
    simpa [drainBytes] using h

theorem drainBytes_writes (lrs : Tab Byte) : (drainBytes g lrs x f rm add es).1 = es.flatMap (fun e =>
    (natLe (drainW f / 8) (if add then drainAddValue e.acc (rowBits g lrs x e.bit (drainW f)) f rm else drainValue e.acc f rm).1).zipIdx.map
      (fun b => (rowByte g x (e.bit / 8 + b.2), b.1))) := by
  simp only [drainBytes, List.flatMap_map]

end Drain

/-! ### Predicates, masks and control registers (R167, R222) -/

theorem getLsbD_setBit (a : BitVec 8) (n m : BitVec 3) (v : Bool) :
    (if v then a ||| (1#8 <<< n.toNat) else a &&& ~~~(1#8 <<< n.toNat)).getLsbD m.toNat = if m = n then v else a.getLsbD m.toNat := by
  have hbit : (1#8 <<< n.toNat).getLsbD m.toNat = decide (m = n) := by decide +revert
  have hm : m.toNat < 8 := m.isLt
  cases v with
  | true => simp only [if_true, BitVec.getLsbD_or, hbit]; split <;> simp [*]
  | false => simp only [Bool.false_eq_true, if_false, BitVec.getLsbD_and, BitVec.getLsbD_not, hbit, hm]; split <;> simp [*]

theorem getLsbD_merge {l : Nat} (hl : l < 128) (en v m : BitVec 128) :
    ((m &&& ~~~en) ||| (v &&& en)).getLsbD l = if en.getLsbD l then v.getLsbD l else m.getLsbD l := by
  rw [BitVec.getLsbD_or, BitVec.getLsbD_and, BitVec.getLsbD_and, BitVec.getLsbD_not, decide_eq_true hl]
  cases en.getLsbD l <;> simp

section Ctrl

variable {n : Nat} (v : Word) (q : Machine.Seq)

theorem putCtrl_tile (hn : n < 8) : putCtrl (0x10 + n) v q =
    { q with td := tabSet 0#64 q.td n (v ||| (tabGet 0#64 q.td n &&& 0x8000000000000000#64)) } := by
  unfold putCtrl
  repeat rw [if_neg (by omega)]
  rw [if_pos (by omega), Nat.add_sub_cancel_left]

theorem putCtrl_acc (hn : n < 4) : putCtrl (0x18 + n) v q = { q with av := tabSet 0#64 q.av n v } := by
  unfold putCtrl
  repeat rw [if_neg (by omega)]
  rw [if_pos (by omega), Nat.add_sub_cancel_left]

theorem putCtrl_shape (hn : n < 4) : putCtrl (0x1C + n) v q = { q with sh := tabSet 0#64 q.sh n v } := by
  unfold putCtrl
  repeat rw [if_neg (by omega)]
  rw [if_pos (by omega), Nat.add_sub_cancel_left]

end Ctrl

/-! ### What the end of the cycle does with a link and with a matrix operation (R215, R312) -/

section Lone

variable {s : State} {tid k g c i : Nat} {q : Machine.Seq}

theorem dueLandings_of_lone {d : Dst} (h : q.land = [⟨i, c, d⟩]) : dueLandings c q = [⟨i, c, d⟩] := by
  rw [dueLandings, h]
  exact List.filter_cons_of_pos (beq_self_eq_true c)

theorem landSeq_link (h : q.land = [⟨i, c, .link⟩]) :
    (landSeq s tid k g c q).s = tabSet 0#64 q.s 63 (linkValue (focus tid k s) q) := by
  rw [landSeq, dueLandings_of_lone h]
  rfl

theorem landSeq_matrix {x : MatOp} (h : q.land = [⟨i, c, .matrix x⟩]) :
    (landSeq s tid k g c q).land = (matLands g i x q.lrs q.acc).filter (fun l => l.lc != c) := by
  have hread : (landSeq s tid k g c q).land = (q.land ++ (matLands g i x q.lrs q.acc ++ [])).filter (fun l => l.lc != c) := by
    rw [landSeq, dueLandings_of_lone h]
    rfl
  rw [hread, h]
  simp

theorem mem_seqTraps {t : Task} {x : Trap} (h : ⟨i, c, .trap x⟩ ∈ q.land) : x ∈ seqTraps s tid k c t q := by
  have hdue : ⟨i, c, .trap x⟩ ∈ dueLandings c q := List.mem_filter.2 ⟨h, beq_self_eq_true c⟩
  have htrap : x ∈ landTrap s t k c q ⟨i, c, .trap x⟩ := by simp [landTrap]
  have hall := List.mem_flatMap.2 ⟨_, hdue, htrap⟩
  simp only [seqTraps, List.mem_append]
  exact .inl (.inl (.inl (.inr hall)))

end Lone

/-- Settles O50, a kind of result at a time. -/
theorem landingWrites : Obligations.LandingWrites := by
  intro s g c t q f bit marks
  have marked (rows : List Nat) : marks rows (dirtiedViews g rows q.td) := tabGet_dirtiedViews g rows q.td
  refine ⟨?sreg, ?load, ?pred, ?mask, ?row, ?slice, ?copyRow, ?drain, ?stat, ?late, ?ctrl, ?desc, ?accs, ?scale, ?banks⟩
  case sreg => exact fun n v => ⟨_, rfl, tabGet_set_same .., fun m hm => tabGet_set_other _ _ _ hm⟩
  case load =>
    intro n id kind
    by_cases hn : n = 0#6
    · exact ⟨q.s, if_pos hn, fun h => absurd hn h, fun m _ => rfl⟩
    · exact ⟨_, if_neg hn, fun _ => tabGet_set_same .., fun m hm => tabGet_set_other _ _ _ (hm.resolve_right hn)⟩
  case pred =>
    intro n v
    refine ⟨_, rfl, ?_, fun m hm => ?_⟩
    · rw [getLsbD_setBit, if_pos rfl]
    · rw [getLsbD_setBit, if_neg hm]
  case mask =>
    intro n en v fl
    by_cases hn : n = 0#3
    · exact ⟨q.m, congrArg (putFlags fl) (if_pos hn), fun h => absurd hn h, fun m _ => rfl⟩
    · refine ⟨tabSet 0#128 q.m n.toNat _, congrArg (putFlags fl) (if_neg hn), fun _ l hl => ?_,
        fun m hm => tabGet_set_other _ _ _ (hm.resolve_right hn)⟩
      rw [tabGet_set_same, getLsbD_merge hl]
  case row =>
    intro x cols ws fl
    exact ⟨_, dirtyViews_eq .., fun b hb => tabGet_sets_other hb _, marked [x]⟩
  case slice => exact fun rows ws => ⟨_, foldl_dirtyViews .., marked rows⟩
  case copyRow =>
    intro x cols id off
    have hlen := replyData_length s id off 128
    exact ⟨_, _, landOne_copyRow .., marked [x], fun j hj hc b hb => tabGet_copyRowWrites hlen _ hj hc hb,
      fun y hy => tabGet_copyRowWrites_other hlen _ hy⟩
  case drain =>
    intro x fm rm add mm es old value ovf
    refine ⟨_, _, ?_, marked _, fun n hn => (drainBytes_columns g x fm rm add es q.lrs hn).trans ?_⟩
    · rw [← drainBytes_writes]
      exact landOne_drain ..
    · simp only [ovf, addOverflow, Bool.and_assoc]
      rfl
  case stat => exact fun nan ov => ⟨rfl, rfl⟩
  case late =>
    intro tid k tk i
    exact ⟨rfl, landSeq_link, fun x => ⟨rfl, landSeq_matrix⟩, fun x => ⟨rfl, mem_seqTraps⟩, fun b r => ⟨rfl, rfl⟩⟩
  case ctrl =>
    exact fun v => ⟨rfl, rfl, rfl, rfl, rfl, fun n => ⟨putCtrl_tile v q, fun hn => ⟨putCtrl_acc v q hn, putCtrl_shape v q hn⟩⟩⟩
  case desc => exact fun n v => rfl
  case accs => exact fun a => rfl
  case scale => exact fun a => ⟨rfl, rfl⟩
  case banks => exact fun set clr => rfl

end Sys2Proof.Machine
end

section

/-! ## SPAWN and JOIN (O14) -/

namespace Sys2Proof.Machine

/-! ### Checks before the predicate (R165, R166, R318) -/

section Check

variable {s : State} {k : BitVec 2} {bad : Bool}

theorem sibCheck_of_sibling (h : s.k ≠ 0) : sibCheck s k bad = .error (illegal s 0x0B) := if_pos h

theorem sibCheck_of_range (hs : s.k = 0) (h : (k = 0#2 ∨ s.tk.nsib < k.toNat) ∨ bad = true) :
    sibCheck s k bad = .error (illegal s 0x0C) := by
  rw [sibCheck, if_neg (not_not.2 hs), if_pos]
  simpa using h

theorem sibCheck_of_ok (hs : s.k = 0) (hk : k ≠ 0#2) (hn : k.toNat ≤ s.tk.nsib) : sibCheck s k false = .ok () := by
  rw [sibCheck, if_neg (not_not.2 hs), if_neg]
  simpa [hk] using hn

end Check

/-! ### SPAWN (R165, R311, R318) -/

section Spawn

variable {g : Guard} {k t : BitVec 2} {a : BitVec 6} {s : State}

/-- The register of the first argument is one that SPAWN refuses. -/
theorem argBad_iff : (a == 0#6 || decide (a.toNat > 56)) = true ↔ a = 0#6 ∨ 56 < a.toNat := by
  simp

theorem execSpawn_of_refused {x : Trap} (h : sibCheck s k (a == 0#6 || decide (a.toNat > 56)) = .error x) :
    execSpawn g k a t s = .next (takeTrap x s) := by
  rw [execSpawn, h]
  rfl

variable {q : Seq} (hs : s.k = 0) (hp : predOn g s = true) (hk : k ≠ 0#2) (hn : k.toNat ≤ s.tk.nsib)
  (hq : tabFind s.tk.seqs k.toNat = some q) (ha : a ≠ 0#6) (ha' : a.toNat ≤ 56)
include hs hp hk hn hq ha ha'

/-- A SPAWN that passes the checks, by whether the sibling is executing or halts in this very LC. -/
theorem execSpawn_of_found : execSpawn g k a t s = finishOp s
    (if seqBusy q || (q.haltLC == s.ix.c && q.startLC ≤ s.ix.c && s.ix.c != 0) then
      .error (trapOf s 0x07 0x01 (w64 k.toNat) (w64 q.startLC) 0#64)
    else do .ok (putSeq k.toNat (spawned s a (← readBt s t) q) s)) := by
  have hbad : (a == 0#6 || decide (a.toNat > 56)) = false := Bool.eq_false_iff.2 fun h => (argBad_iff.1 h).elim ha (by omega)
  rw [execSpawn, hbad, sibCheck_of_ok hs hk hn, guarded, if_pos hp, hq]
  rfl

theorem execSpawn_of_busy (h : seqBusy q = true ∨ (q.haltLC = s.ix.c ∧ q.startLC ≤ s.ix.c ∧ s.ix.c ≠ 0)) :
    execSpawn g k a t s = .next (takeTrap (trapOf s 0x07 0x01 (w64 k.toNat) (w64 q.startLC) 0#64) s) := by
  rw [execSpawn_of_found hs hp hk hn hq ha ha', if_pos (by simpa [and_assoc] using h)]
  rfl

theorem execSpawn_of_idle (hb : seqBusy q = false) (hh : ¬(q.haltLC = s.ix.c ∧ q.startLC ≤ s.ix.c ∧ s.ix.c ≠ 0)) :
    execSpawn g k a t s = finishOp s (do .ok (putSeq k.toNat (spawned s a (← readBt s t) q) s)) := by
  rw [execSpawn_of_found hs hp hk hn hq ha ha', if_neg (by simpa [hb, and_assoc] using hh)]

end Spawn

/-- A target written three groups ago or earlier (R311). -/
theorem readBt_of_old {s : State} {t : BitVec 2} {b : Bt} (h : tabFind s.sq.bt t.toNat = some b) (hb : b.grp + 3 ≤ s.sq.grp) :
    readBt s t = .ok b.bundle := by
  rw [readBt, h]
  exact if_pos hb

theorem readBt_of_empty {s : State} {t : BitVec 2} (h : tabFind s.sq.bt t.toNat = none) :
    readBt s t = .error (timing s 0x01 9 (0x80 + t.toNat) (seqCol s) never (w64 t.toNat)) := by
  rw [readBt, h]

/-! ### JOIN (R166) -/

section Join

variable {g : Guard} {k : BitVec 2} {s : State}

theorem execJoin_of_refused {x : Trap} (h : sibCheck s k false = .error x) : execJoin g k s = .next (takeTrap x s) := by
  rw [execJoin, h]
  rfl

variable {q : Seq} (hs : s.k = 0) (hp : predOn g s = true) (hk : k ≠ 0#2) (hn : k.toNat ≤ s.tk.nsib)
  (hq : tabFind s.tk.seqs k.toNat = some q)
include hs hp hk hn hq

theorem execJoin_of_idle (hb : seqBusy q = false) : execJoin g k s = .next (charge 5 1 s) := by
  rw [execJoin, sibCheck_of_ok hs hk hn, guarded, if_pos hp, hq]
  simp only [hb]
  rfl

theorem execJoin_of_busy (hb : seqBusy q = true) :
    execJoin g k s = .next (charge 5 1 { s with sq := { s.sq with st := .joining k.toNat } }) := by
  rw [execJoin, sibCheck_of_ok hs hk hn, guarded, if_pos hp, hq]
  simp only [hb]
  rfl

end Join

/-! ### The registers of a sibling as it starts (R165) -/

section Start

variable (s : State) (a : BitVec 6) (target : Nat) (q : Seq)

/-- The arguments of a SPAWN: what s1 to s8 of the sibling hold. -/
def spawnArgs : List (Nat × Word) := (List.range 8).map (fun i => (i + 1, tabGet 0#64 s.sq.s (a.toNat + i)))

theorem spawned_s : (spawned s a target q).s = tabSets 0#64 [] (spawnArgs s a) := by
  rw [spawnArgs, tabSets, List.foldl_map]
  rfl

theorem mem_spawnArgs {e : Nat × Word} : e ∈ spawnArgs s a ↔ ∃ i < 8, e = (i + 1, tabGet 0#64 s.sq.s (a.toNat + i)) := by
  simp only [spawnArgs, List.mem_map, List.mem_range, eq_comm]

theorem spawned_arg {i : Nat} (hi : i < 8) : tabGet 0#64 (spawned s a target q).s (i + 1) = tabGet 0#64 s.sq.s (a.toNat + i) := by
  rw [spawned_s]
  refine tabGet_sets_of_agree ((mem_spawnArgs s a).2 ⟨i, hi, rfl⟩) (fun e he hk => ?_) []
  obtain ⟨j, -, rfl⟩ := (mem_spawnArgs s a).1 he
  obtain rfl : j = i := Nat.succ.inj hk
  rfl

theorem spawned_other {n : Nat} (hn : 8 < n) : tabGet 0#64 (spawned s a target q).s n = 0#64 := by
  rw [spawned_s]
  refine tabGet_sets_other (fun e he hk => ?_) []
  obtain ⟨j, hj, rfl⟩ := (mem_spawnArgs s a).1 he
  exact absurd hk (by omega : j + 1 ≠ n)

end Start

/-- Settles O14: by the checks of SPAWN and JOIN in their order, and by the registers that a start writes. -/
theorem siblings : Obligations.Siblings := by
  refine ⟨fun g k t a s => ⟨fun hs hp hk hn => ⟨fun q hq ha ha' => ⟨fun b hb hold hidle hh => ?_, fun hbusy => ?_, fun hidle hh hb => ?_⟩,
    fun q => execJoin_of_idle hs hp hk hn, fun q => execJoin_of_busy hs hp hk hn⟩, fun hs => ?_, fun hs hr => ?_, fun hs hr => ?_⟩,
    fun s a target q _ => ⟨fun i => spawned_arg s a target q, fun n => spawned_other s a target q, ?_⟩⟩
  · refine (execSpawn_of_idle hs hp hk hn hq ha ha' hidle hh).trans ?_
    rw [readBt_of_old hb hold]
    rfl
  · exact execSpawn_of_busy hs hp hk hn hq ha ha' hbusy
  · refine (execSpawn_of_idle hs hp hk hn hq ha ha' hidle hh).trans ?_
    rw [readBt_of_empty hb]
    rfl
  · exact ⟨execSpawn_of_refused (sibCheck_of_sibling hs), execJoin_of_refused (sibCheck_of_sibling hs)⟩
  · exact ⟨execSpawn_of_refused (sibCheck_of_range hs (.inl hr)), execJoin_of_refused (sibCheck_of_range hs (.inl hr))⟩
  · exact execSpawn_of_refused (sibCheck_of_range hs (.inr (argBad_iff.2 hr)))
  · and_intros <;> rfl

end Sys2Proof.Machine
end

section

/-! ## PSEL (O21) -/

namespace Sys2Proof.Machine

/-- The first entry whose bound suffices, after entries whose bounds do not. -/
theorem find?_bound_of_first {es : List (Nat × Nat)} {v n : Nat} {e : Nat × Nat} (hn : es[n]? = some e) (he : v ≤ e.1)
    (hbefore : ∀ m < n, ∀ f, es[m]? = some f → f.1 < v) : es.find? (fun e => decide (v ≤ e.1)) = some e := by
  rw [List.find?_eq_some_iff_getElem]
  obtain ⟨hlt, hget⟩ := List.getElem?_eq_some_iff.1 hn
  refine ⟨decide_eq_true he, n, hlt, hget, fun m hm => ?_⟩
  have hm' := hbefore m hm _ (List.getElem?_eq_getElem (hm.trans hlt))
  simpa using hm'

theorem find?_bound_of_none {es : List (Nat × Nat)} {v : Nat} (h : ∀ e ∈ es, e.1 < v) :
    es.find? (fun e => decide (v ≤ e.1)) = none := by
  rw [List.find?_eq_none]
  intro e he
  simpa using h e he

section Transfer

variable {target drop : Nat} {s : State}

/-- A transfer that meets no other is pending with two delay groups (R312). -/
theorem takeTransfer_of_none (h : s.sq.pend = none) :
    takeTransfer target drop s = .ok { s with sq := { s.sq with pend := some ⟨target, 2, drop⟩ } } := by
  rw [takeTransfer, h]

theorem takeTransfer_of_some {p : Pend} (h : s.sq.pend = some p) :
    takeTransfer target drop s = .error (timing s 0x02 9 0x84 (seqCol s) (w64 (s.ix.c + p.left)) 0#64) := by
  rw [takeTransfer, h]

end Transfer

section Psel

variable {g : Guard} {t : BitVec 8} {a : BitVec 6} {s : State}

theorem execPsel_of_noTable (h : s.tk.obj.sched[t.toNat]? = none) : execPsel g t a s = .next (takeTrap (illegal s 0x11) s) := by
  rw [execPsel, h]
  rfl

variable {es : List (Nat × Nat)} (h : s.tk.obj.sched[t.toNat]? = some es)
include h

theorem execPsel_of_found {e : Nat × Nat} (hf : es.find? (fun e => decide ((readS s a).toNat ≤ e.1)) = some e) :
    execPsel g t a s = finishOp s (guarded (predOn g s) s (takeTransfer e.2 6 s)) := by
  simp only [execPsel, h, hf]

theorem execPsel_of_noVariant (hf : es.find? (fun e => decide ((readS s a).toNat ≤ e.1)) = none) :
    execPsel g t a s = finishOp s (guarded (predOn g s) s (.error (trapOf s 0x0A 0x02 (w64 t.toNat) (readS s a) 0#64))) := by
  simp only [execPsel, h, hf]

end Psel

/-- Settles O21, by the entry that PSEL finds: its transfer, taken or refused, or none. -/
theorem scheduleSelection : Obligations.ScheduleSelection := by
  intro g t a s
  refine ⟨fun es hes hp => ⟨fun n e hn he hbefore => ?_, fun hnone => ?_⟩, execPsel_of_noTable⟩
  · have hrun := execPsel_of_found (g := g) hes (find?_bound_of_first hn he hbefore)
    exact ⟨fun hq => hrun.trans (finishOp_guarded_of_ok hp (takeTransfer_of_none hq)),
      fun p hq => hrun.trans (finishOp_guarded_of_error hp (takeTransfer_of_some hq))⟩
  · exact (execPsel_of_noVariant hes (find?_bound_of_none hnone)).trans (finishOp_guarded_of_error hp rfl)

end Sys2Proof.Machine
end

section

/-! ## GETC and SETC (O26) -/

namespace Sys2Proof.Machine

/-! ### Fields and digits of a word -/

/-- A word put together from digits of `w` bits: each of its bits is one of the digit at its place. -/
theorem testBit_digits {w : Nat} {f : Nat → Nat} (hf : ∀ j, f j < 2 ^ w) (n i : Nat) :
    (List.range n).foldl (fun a j => a + f j * 2 ^ (w * j)) 0 < 2 ^ (w * n) ∧
      ((List.range n).foldl (fun a j => a + f j * 2 ^ (w * j)) 0).testBit i = (decide (i < w * n) && (f (i / w)).testBit (i % w)) := by
  induction n with
  | zero => simp
  | succ n ih =>
    obtain ⟨hlt, hbit⟩ := ih
    rw [List.range_succ, List.foldl_append, List.foldl_cons, List.foldl_nil]
    generalize (List.range n).foldl (fun a j => a + f j * 2 ^ (w * j)) 0 = a at hlt hbit
    have hsum : a + f n * 2 ^ (w * n) = 2 ^ (w * n) * f n + a := by ring
    have hn := hf n
    refine ⟨?_, ?_⟩
    · calc a + f n * 2 ^ (w * n) < 2 ^ (w * n) + f n * 2 ^ (w * n) := Nat.add_lt_add_right hlt _
        _ = (f n + 1) * 2 ^ (w * n) := by ring
        _ ≤ 2 ^ w * 2 ^ (w * n) := Nat.mul_le_mul_right _ hn
        _ = 2 ^ (w * (n + 1)) := by ring
    · rw [hsum, Nat.testBit_two_pow_mul_add _ hlt, hbit]
      have hmul : w * (n + 1) = w * n + w := by ring
      by_cases hi : i < w * n
      · simp [hi, hmul, Nat.lt_add_right]
      · rw [if_neg hi]
        by_cases hi' : i < w * n + w
        · have hw : 0 < w := by omega
          have hdiv : i / w = n := Nat.div_eq_of_lt_le (by rw [Nat.mul_comm]; omega) (by rw [Nat.mul_comm, hmul]; exact hi')
          have hmod : i % w = i - w * n := by rw [Nat.mod_def, hdiv]
          simp [hmul, hi', hdiv, hmod]
        · have hhigh : (f n).testBit (i - w * n) = false :=
            Nat.testBit_lt_two_pow (hn.trans_le (Nat.pow_le_pow_right (by decide) (by omega)))
          simp [hmul, hi', hhigh]

theorem getLsbD_w64 {i : Nat} (hi : i < 64) (n : Nat) : (w64 n).getLsbD i = n.testBit i := by
  rw [w64, BitVec.getLsbD_ofNat, decide_eq_true hi, Bool.true_and]

/-- A word put together from single bits. -/
theorem testBit_bits (b : Nat → Bool) (n i : Nat) :
    (List.range n).foldl (fun a j => a + bitN (b j) j) 0 < 2 ^ n ∧
      ((List.range n).foldl (fun a j => a + bitN (b j) j) 0).testBit i = (decide (i < n) && b i) := by
  have hterm : (fun (a j : Nat) => a + bitN (b j) j) = fun a j => a + (b j).toNat * 2 ^ (1 * j) := by
    funext a j
    cases b j <;> simp [bitN]
  have h := testBit_digits (w := 1) (f := fun j => (b j).toNat) (fun j => by cases b j <;> decide) n i
  rw [hterm]
  refine ⟨by simpa using h.1, h.2.trans ?_⟩
  cases hb : b i <;> simp [Nat.mod_one, hb]

theorem fieldN_eq {w : Nat} (v : BitVec w) (lo n : Nat) : fieldN v lo n = v.toNat / 2 ^ lo % 2 ^ n := by
  rw [fieldN, BitVec.extractLsb'_toNat, Nat.shiftRight_eq_div_pow]

/-! ### What GETC reads (R164, R182, R194, R222, R399) -/

section Getc

variable {g : Guard} {d : BitVec 6} {x : BitVec 8} {s : State}

theorem indexCheck_of_allowed (h : x.toNat < 0x40 ∨ s.tk.cust = true) : indexCheck s x.toNat = .ok () := by
  refine if_neg fun ⟨hx, hc⟩ => ?_
  obtain h | h := h
  · omega
  · simp [h] at hc

theorem indexCheck_of_custodian (h : 0x40 ≤ x.toNat) (hc : s.tk.cust = false) : indexCheck s x.toNat = .error (illegal s 0x0D) :=
  if_pos ⟨h, by simp [hc]⟩

theorem execGetc_of_allowed (h : x.toNat < 0x40 ∨ s.tk.cust = true) (hp : predOn g s = true) {y : Word} (hy : getcValue s x.toNat = y) :
    execGetc g d x s = .next (scheduled s (toS s 1 d y)) := by
  rw [execGetc, indexCheck_of_allowed h, hy, ← landS_eq]
  exact finishOp_guarded_of_ok hp rfl

theorem execGetc_of_custodian (h : 0x40 ≤ x.toNat) (hc : s.tk.cust = false) : execGetc g d x s = .next (takeTrap (illegal s 0x0D) s) := by
  rw [execGetc, indexCheck_of_custodian h hc]
  rfl

end Getc

section Values

variable (s : State)

theorem modeWord_eq : modeWord s = BitVec.ofNat 64 ((if s.tk.g = 4 then 0 else if s.tk.g = 2 then 1 else 2) + 2 ^ 2 * s.tk.cls
    + 2 ^ 4 * seqCol s + 2 ^ 6 * (s.tk.g - 1)) := rfl

theorem lbankWord_bit {i : Nat} (hi : i < 64) : (lbankWord s).getLsbD i = (decide (i < 6 * s.tk.g) && s.sq.own.getLsbD (i % 6)) :=
  (getLsbD_w64 hi _).trans (testBit_digits (fun _ => s.sq.own.isLt) _ i).2

/-- The bits of SIBST: BUSY of each sequencer, then whether it is present. -/
def sibstBit (j : Nat) : Bool := if j < 4 then (seqOf s j).any (busyAt s.ix.c) else (seqOf s (j - 4)).any (fun q => q.st != .absent)

theorem sibstWord_eq : sibstWord s = w64 ((List.range 8).foldl (fun a j => a + bitN (sibstBit s j) j) 0) := by
  refine congrArg w64 ((List.foldl_ext _ (fun a k => a + bitN ((seqOf s k).any (fun q => q.st != .absent)) (4 + k) +
    bitN ((seqOf s k).any (busyAt s.ix.c)) k) 0 fun a k _ => ?_).trans ?_)
  · cases seqOf s k with
    | none => rfl
    | some q => by_cases hst : q.st = .absent <;> simp [bitN, hst]
  · simp [List.range_succ, sibstBit]
    omega

theorem sibstWord_lt : (sibstWord s).toNat < 256 := by
  rw [sibstWord_eq]
  exact (Nat.mod_le _ _).trans_lt (testBit_bits (sibstBit s) 8 0).1

theorem sibstWord_bit {j : Nat} (hj : j < 8) : (sibstWord s).getLsbD j = sibstBit s j := by
  rw [sibstWord_eq, getLsbD_w64 (by omega), (testBit_bits (sibstBit s) 8 j).2]
  simp [hj]

theorem sibstWord_busy {k : Nat} (hk : k < 4) : (sibstWord s).getLsbD k = (seqOf s k).any (busyAt s.ix.c) :=
  (sibstWord_bit s (by omega)).trans (if_pos hk)

theorem sibstWord_present {k : Nat} (hk : k < 4) : (sibstWord s).getLsbD (4 + k) = (seqOf s k).any (fun q => q.st != .absent) := by
  rw [sibstWord_bit s (by omega), sibstBit, if_neg (by omega), Nat.add_sub_cancel_left]

variable {x n : Nat}

theorem getcValue_tinfo (hn : n < 4) : getcValue s (0x0A + n) = tabGet 0#64 s.sq.tinfo n := by interval_cases n <;> rfl
theorem getcValue_tile (hn : n < 8) : getcValue s (0x10 + n) = tabGet 0#64 s.sq.td n := by interval_cases n <;> rfl
theorem getcValue_acc (hn : n < 4) : getcValue s (0x18 + n) = tabGet 0#64 s.sq.av n := by interval_cases n <;> rfl
theorem getcValue_shape (hn : n < 4) : getcValue s (0x1C + n) = tabGet 0#64 s.sq.sh n := by interval_cases n <;> rfl

theorem getcValue_unnamed (h : 0x20 ≤ x) (h' : x < 0x40) (h30 : x ≠ 0x30) (h31 : x ≠ 0x31) (h32 : x ≠ 0x32) :
    getcValue s x = 0#64 := by
  unfold getcValue
  repeat rw [if_neg (by omega)]

theorem getcValue_custodian (h : 0x40 ≤ x) : getcValue s x = custodianReg s x := by
  unfold getcValue
  repeat rw [if_neg (by omega)]
  rw [if_pos h]

theorem custodianReg_key (hn : n < 4) {i : Nat} (hi : i < 64) : (custodianReg s (0x44 + n)).getLsbD i =
    (tabFind s.dev.trust.slots (64 * n + i)).any (fun k => k.part == (getVf s.dev s.tk.vf).part) := by
  rw [custodianReg, if_neg (by omega), if_pos (by omega), getLsbD_w64 hi, (testBit_bits _ 64 i).2, Nat.add_sub_cancel_left]
  cases tabFind s.dev.trust.slots (64 * n + i) <;> simp [hi]

theorem custodianReg_queue (hn : n < 32) : custodianReg s (0x60 + n) =
    let k := getStack s.dev n
    BitVec.ofNat 64 ((if k.clearing.isSome then 2 ^ 63 else 0) + 2 ^ 32 * min 65535 k.queue.length + 2 ^ 16 * k.clearing.getD 0
      + k.recorded) := by
  rw [custodianReg, if_neg (by omega), if_neg (by omega), if_pos (by omega), Nat.add_sub_cancel_left]
  rfl

theorem custodianReg_unnamed (h : 0x41 ≤ x) (h' : x < 0x44 ∨ (0x48 ≤ x ∧ x < 0x60) ∨ 0x80 ≤ x) : custodianReg s x = 0#64 := by
  rw [custodianReg, if_neg (by omega), if_neg (by omega), if_neg (by omega)]

end Values

/-! ### What SETC writes (R201, R203, R205, R222, R394) -/

section Setc

variable {g : Guard} {d : BitVec 6} {x : BitVec 8} {s : State}

theorem execSetc_of_custodian (h : 0x40 ≤ x.toNat) (hc : s.tk.cust = false) : execSetc g d x s = .next (takeTrap (illegal s 0x0D) s) := by
  rw [execSetc, indexCheck_of_custodian h hc]
  rfl

theorem execSetc_of_readOnly (h : x.toNat < 0x40 ∨ s.tk.cust = true) (hw : writable x.toNat = false) :
    execSetc g d x s = .next (takeTrap (illegal s 0x0E) s) := by
  rw [execSetc, indexCheck_of_allowed h, hw]
  rfl

theorem lt_of_writable {x : Nat} (h : writable x = true) : x < 0x40 := by
  simp [writable] at h
  omega

section Writable

variable (hw : writable x.toNat = true) (hp : predOn g s = true)
include hw hp

theorem execSetc_of_writable : execSetc g d x s = finishOp s (setc x.toNat (readS s d) s) := by
  rw [execSetc, indexCheck_of_allowed (.inl (lt_of_writable hw)), hw, guarded, if_pos hp]
  rfl

theorem execSetc_of_ok {l : Landing} (h : setc x.toNat (readS s d) s = .ok { s with sq := { s.sq with land := s.sq.land ++ [l] } }) :
    execSetc g d x s = .next (scheduled s [l]) := by
  rw [execSetc_of_writable hw hp, h]
  rfl

theorem execSetc_of_error {t : Trap} (h : setc x.toNat (readS s d) s = .error t) : execSetc g d x s = .next (takeTrap t s) := by
  rw [execSetc_of_writable hw hp, h]
  rfl

end Writable

variable {n : Nat} {a : Word}

theorem writable_of_range (h : 0x10 ≤ n) (h' : n ≤ 0x1F) : writable n = true := by
  simp [writable, h, h']

theorem setc_tile (h : 0x10 ≤ n) (h' : n ≤ 0x17) : setc n a s = (do .ok (shadowed n (← tileWrite s n a) s)) := by
  unfold setc
  repeat rw [if_neg (by omega)]
  rw [if_pos h']

theorem setc_acc (h : 0x18 ≤ n) (h' : n ≤ 0x1B) : setc n a s = (do .ok (shadowed n (← accViewWrite s n a) s)) := by
  unfold setc
  repeat rw [if_neg (by omega)]
  rw [if_pos h']

theorem setc_shape (h : 0x1C ≤ n) (h' : n ≤ 0x1F) : setc n a s =
    .ok (shadowed n (shWord s.tk.g (a.getLsbD 62) (a.toNat / 2 ^ 11 % 2 ^ 11) (if a.getLsbD 62 then 0 else a.toNat % 2 ^ 11)) s) := by
  have hqm : shQM a = a.toNat / 2 ^ 11 % 2 ^ 11 := fieldN_eq a 11 11
  have hqn : shQN a = a.toNat % 2 ^ 11 := (fieldN_eq a 0 11).trans (by rw [Nat.pow_zero, Nat.div_one])
  unfold setc
  repeat rw [if_neg (by omega)]
  rw [if_pos h', hqm, hqn]
  rfl

/-- A view without rows is never refused (R203). -/
theorem viewBad_of_noRows {k : Nat} {v : Word} (h : vNrow v = 0) : viewBad k v = false := by
  simp [viewBad, h]

theorem tileWrite_of_rows (h : viewBad s.tk.g (a &&& viewMask) = false) (hr : vNrow (a &&& viewMask) ≠ 0) :
    tileWrite s n a = .ok ((a &&& viewMask) ||| 0x8000000000000000#64) := by
  simp only [tileWrite, h, if_neg hr, Bool.false_eq_true, if_false]

theorem tileWrite_of_noRows (hr : vNrow (a &&& viewMask) = 0) : tileWrite s n a = .ok (a &&& viewMask) := by
  simp only [tileWrite, viewBad_of_noRows hr, if_pos hr, Bool.false_eq_true, if_false]

theorem tileWrite_of_bad (h : viewBad s.tk.g (a &&& viewMask) = true) :
    tileWrite s n a = .error (viewFault s 0x02 n a (vBase (a &&& viewMask))) := if_pos h

theorem accViewWrite_of_fit (h : viewBad s.tk.g (a &&& viewMask) = false)
    (hw : vNrow (a &&& viewMask) = 0 ∨ vW (a &&& viewMask) = 16 ∨ vW (a &&& viewMask) = 32) :
    accViewWrite s n a = .ok (a &&& viewMask) := by
  have hfit : ¬(vNrow (a &&& viewMask) ≠ 0 ∧ vW (a &&& viewMask) ≠ 16 ∧ vW (a &&& viewMask) ≠ 32) := by tauto
  simp only [accViewWrite, h, if_neg hfit, Bool.false_eq_true, if_false]

theorem accViewWrite_of_bad (h : viewBad s.tk.g (a &&& viewMask) = true) :
    accViewWrite s n a = .error (viewFault s 0x02 n a (vBase (a &&& viewMask))) := if_pos h

theorem accViewWrite_of_width (h : viewBad s.tk.g (a &&& viewMask) = false) (hr : vNrow (a &&& viewMask) ≠ 0)
    (h16 : vW (a &&& viewMask) ≠ 16) (h32 : vW (a &&& viewMask) ≠ 32) :
    accViewWrite s n a = .error (viewFault s 0x05 n a (vBase (a &&& viewMask))) := by
  simp only [accViewWrite, h, Bool.false_eq_true, if_false]
  exact if_pos ⟨hr, h16, h32⟩

theorem vwinWrite_of_row (h : a.toNat % 4096 < 2304) : vwinWrite s n a = .ok (a &&& 0xFFF#64) := by
  refine if_neg ?_
  rw [fieldN_eq, Nat.pow_zero, Nat.div_one]
  exact not_le.2 h

theorem vwinWrite_of_noRow (h : 2304 ≤ a.toNat % 4096) : vwinWrite s n a = .error (viewFault s 0x03 n a (a.toNat % 4096)) := by
  have hfield : fieldN a 0 12 = a.toNat % 4096 := (fieldN_eq a 0 12).trans (by rw [Nat.pow_zero, Nat.div_one]; rfl)
  rw [vwinWrite, hfield]
  exact if_pos h

theorem setc_vwin : setc 0x05 a s = (do .ok (shadowed 0x05 (← vwinWrite s 0x05 a) s)) := rfl

end Setc

/-! ### SETC of the registers whose value is checked (R201, R203, R205) -/

section Checked

variable {g : Guard} {d : BitVec 6} {x : BitVec 8} {s : State} {w : Word} {t : Trap} (hp : predOn g s = true)
include hp

theorem execSetc_vwin_of_ok (h : vwinWrite s 0x05 (readS s d) = .ok w) :
    execSetc g d 0x05#8 s = .next (scheduled s [⟨s.ix.c, s.ix.cl + 3, .ctrl 0x05 w⟩]) :=
  execSetc_of_ok rfl hp (setc_vwin.trans (by rw [h]; rfl))

theorem execSetc_vwin_of_error (h : vwinWrite s 0x05 (readS s d) = .error t) : execSetc g d 0x05#8 s = .next (takeTrap t s) :=
  execSetc_of_error rfl hp (setc_vwin.trans (by rw [h]; rfl))

section Tile

variable (h : 0x10 ≤ x.toNat) (h' : x.toNat ≤ 0x17)
include h h'

theorem execSetc_tile_of_ok (ht : tileWrite s x.toNat (readS s d) = .ok w) :
    execSetc g d x s = .next (scheduled s [⟨s.ix.c, s.ix.cl + 3, .ctrl x.toNat w⟩]) :=
  execSetc_of_ok (writable_of_range h (by omega)) hp ((setc_tile h h').trans (by rw [ht]; rfl))

theorem execSetc_tile_of_error (ht : tileWrite s x.toNat (readS s d) = .error t) : execSetc g d x s = .next (takeTrap t s) :=
  execSetc_of_error (writable_of_range h (by omega)) hp ((setc_tile h h').trans (by rw [ht]; rfl))

end Tile

section Acc

variable (h : 0x18 ≤ x.toNat) (h' : x.toNat ≤ 0x1B)
include h h'

theorem execSetc_acc_of_ok (ha : accViewWrite s x.toNat (readS s d) = .ok w) :
    execSetc g d x s = .next (scheduled s [⟨s.ix.c, s.ix.cl + 3, .ctrl x.toNat w⟩]) :=
  execSetc_of_ok (writable_of_range (by omega) (by omega)) hp ((setc_acc h h').trans (by rw [ha]; rfl))

theorem execSetc_acc_of_error (ha : accViewWrite s x.toNat (readS s d) = .error t) : execSetc g d x s = .next (takeTrap t s) :=
  execSetc_of_error (writable_of_range (by omega) (by omega)) hp ((setc_acc h h').trans (by rw [ha]; rfl))

end Acc

/-- A view that does not fit its LRS is refused by tile and accumulator views alike (R203, R205). -/
theorem execSetc_of_badView (h : 0x10 ≤ x.toNat) (h' : x.toNat ≤ 0x1B) (hb : viewBad s.tk.g (readS s d &&& viewMask) = true) :
    execSetc g d x s = .next (takeTrap (viewFault s 0x02 x.toNat (readS s d) (vBase (readS s d &&& viewMask))) s) := by
  by_cases hx : x.toNat ≤ 0x17
  · exact execSetc_tile_of_error hp h hx (tileWrite_of_bad hb)
  · exact execSetc_acc_of_error hp (by omega) h' (accViewWrite_of_bad hb)

end Checked

/-- Settles O26: GETC by the value of each index, SETC by the check of its index and of the value. -/
theorem controlRegisters : Obligations.ControlRegisters := by
  intro g d x s v now later reads faults
  refine ⟨fun hx hp => execGetc_of_allowed hx hp rfl, fun hp => ?values,
    fun hx hc => ⟨execGetc_of_custodian hx hc, execSetc_of_custodian hx hc⟩, execSetc_of_readOnly, fun hp => ?writes⟩
  case values =>
    have plain {y : Word} (hx : x.toNat < 0x40) (hy : getcValue s x.toNat = y) : reads y := execGetc_of_allowed (.inl hx) hp hy
    have other {y : BitVec 8} (h : x ≠ y) : x.toNat ≠ y.toNat := mt BitVec.eq_of_toNat_eq h
    refine ⟨?_, ?_, ?_, ?_, ?_, ?_, ?_, ?_, ?_, ?_, fun n hn hx => plain (by omega) (hx ▸ getcValue_tinfo s hn), ?_, ?_,
      fun n hn hx => plain (by omega) (hx ▸ getcValue_tile s hn), fun n hn hx => plain (by omega) (hx ▸ getcValue_acc s hn),
      fun n hn hx => plain (by omega) (hx ▸ getcValue_shape s hn), fun hx => ?lbank, ?_, fun hx => ?sibst,
      fun h h' h30 h31 h32 => plain h' (getcValue_unnamed s h h' (other h30) (other h31) (other h32)), fun hc => ?custodian⟩
    case lbank => exact ⟨lbankWord s, plain (by rw [hx]; decide) (by rw [hx]; rfl), fun i => lbankWord_bit s⟩
    case sibst =>
      exact ⟨sibstWord s, plain (by rw [hx]; decide) (by rw [hx]; rfl), sibstWord_lt s,
        fun k hk => ⟨sibstWord_present s hk, sibstWord_busy s hk⟩⟩
    case custodian =>
      have own {y : Word} (hx : 0x40 ≤ x.toNat) (hy : custodianReg s x.toNat = y) : reads y :=
        execGetc_of_allowed (.inr hc) hp ((getcValue_custodian s hx).trans hy)
      refine ⟨?_, fun n hn hx => ⟨_, own (by omega) rfl, fun j hj => hx ▸ custodianReg_key s hn hj⟩,
        fun n hn hx => own (by omega) (hx ▸ custodianReg_queue s hn), fun h h' => own (by omega) (custodianReg_unnamed s h h')⟩
      rintro rfl
      exact own (by decide) rfl
    all_goals
      rintro rfl
      exact plain (by decide) rfl
  case writes =>
    refine ⟨?_, ?vwin, ?_, ?_, ?_, fun h h' hb hr => execSetc_tile_of_ok hp h h' (tileWrite_of_rows hb hr),
      fun h h' hb hw => execSetc_acc_of_ok hp h h' (accViewWrite_of_fit hb hw),
      fun h h' hr => execSetc_tile_of_ok hp h h' (tileWrite_of_noRows hr), ?noVwin, fun h h' hb => execSetc_of_badView hp h h' hb,
      fun h h' hb hr h16 h32 => execSetc_acc_of_error hp h h' (accViewWrite_of_width hb hr h16 h32),
      fun h h' => execSetc_of_ok (writable_of_range (by omega) h') hp (setc_shape h h')⟩
    case vwin =>
      rintro rfl h
      exact execSetc_vwin_of_ok hp (vwinWrite_of_row h)
    case noVwin =>
      rintro rfl h
      exact execSetc_vwin_of_error hp (vwinWrite_of_noRow h)
    all_goals
      rintro rfl
      exact execSetc_of_ok rfl hp rfl

end Sys2Proof.Machine
end

section

/-! ## MMA, MMAZ and MMAT (O29) -/

namespace Sys2Proof.Machine

/-! ### The checks of R361, each where it passes -/

section Checks

variable {s : State}

theorem precMatOk_of_mode (h : pMode s.sq.prec ≠ 3) : precMatOk s = .ok () := if_neg h

theorem precMatOk_of_reserved (h : pMode s.sq.prec = 3) : precMatOk s = .error (illegal s 0x0F) := if_pos h

theorem viewReg_tile (s : State) (x : BitVec 3) : viewReg s x.toNat = tabGet 0#64 s.sq.td x.toNat := if_pos (by omega)

theorem viewReg_acc (s : State) (u : BitVec 2) : viewReg s (8 + u.toNat) = tabGet 0#64 s.sq.av u.toNat := by
  rw [viewReg, if_neg (by omega), Nat.add_sub_cancel_left]

theorem viewCfg_of_configured {n : Nat} {v : Word} (hv : viewReg s n = v) (h : vNrow v ≠ 0) : viewCfg s n = .ok v := by
  rw [viewCfg, hv, if_neg h]

theorem accView_of_fit {u f : BitVec 2} {av : Word} (hv : viewReg s (8 + u.toNat) = av) (h : vNrow av ≠ 0) (hw : vW av = drainW f) :
    accView s u f = .ok av := by
  rw [accView, viewCfg_of_configured hv h]
  exact if_neg (not_not.2 hw)

theorem kcRule_of_fit {x y : BitVec 3} {va vb : Word} (h0 : viewKC va ≠ 0) (heq : viewKC va = viewKC vb)
    (hb : pMode s.sq.prec = 0 ∨ viewKC va * blocks s.sq.prec ≤ 96) : kcRule s x y va vb = .ok () := by
  refine if_neg ?_
  rintro (h | h | ⟨hm, hlt⟩)
  · exact h0 h
  · exact h heq
  · omega

theorem matGrant_of_matrix {n : BitVec 2} {gr : Word} (hgr : tabGet 0#64 s.sq.sh n.toNat = gr) (hg : shG gr = true) (hv : shVec gr = false) :
    matGrant s n = .ok gr := by
  simp only [matGrant, hgr, hg, hv]
  rfl

/-- No cost window is open (R215). -/
theorem bmuFree_of_closed (h : s.sq.win.2 ≤ s.ix.c) : bmuFree s 0 = .ok () := if_neg fun ⟨_, hlt⟩ => by omega

theorem extentOwned_of_owned {v : Word} (h : extentUnowned s.tk.g s.sq v = none) : extentOwned s v = .ok () := by
  rw [extentOwned, h]

end Checks

/-- MMA, MMAZ and MDRN read PREC and the grants of a state that differs from theirs in nothing else. -/
theorem atLast_eq (s : State) : ∃ p sh, atLast s = { s with sq := { s.sq with prec := p, sh := sh } } := by
  unfold atLast
  split
  · exact ⟨_, _, rfl⟩
  · exact ⟨_, _, rfl⟩

theorem atLast_of_single {s : State} (h : s.ix.cl = s.ix.c) : atLast s = s := if_pos h

theorem illegal_atLast (s : State) (sub : Nat) : illegal (atLast s) sub = illegal s sub := by
  obtain ⟨p, sh, h⟩ := atLast_eq s
  rw [h]
  rfl

/-! ### The reserved MMODE (R350) -/

section Reserved

variable {g : Guard} {f u sh : BitVec 2} {x y : BitVec 3} {s : State} (hon : maskOn g s = true)
include hon

theorem mmaOp_of_reserved (zero : Bool) (h : pMode (atLast s).sq.prec = 3) :
    mmaOp zero g sh x y s = .next (takeTrap (illegal s 0x0F) s) := by
  rw [mmaOp, hon, precMatOk_of_reserved h, illegal_atLast]
  rfl

theorem execMdrn_of_reserved (add : Bool) (h : pMode (atLast s).sq.prec = 3) :
    execMdrn g f u sh add s = .next (takeTrap (illegal s 0x0F) s) := by
  rw [execMdrn, hon, precMatOk_of_reserved h, illegal_atLast]
  rfl

theorem execMmat_of_reserved (h : pMode s.sq.prec = 3) : execMmat g f u sh x y s = .next (takeTrap (illegal s 0x0F) s) := by
  rw [execMmat, hon, precMatOk_of_reserved h]
  rfl

end Reserved

/-! ### What fits (R350, R351, R353, R361) -/

/-- The operands, PREC and a grant that MMA, MMAZ and MMAT all ask for. -/
structure MatFit (s : State) (p gr va vb : Word) : Prop where
  mode : pMode p ≠ 3
  rowsA : vNrow va ≠ 0
  rowsB : vNrow vb ≠ 0
  chunks : viewKC va ≠ 0
  sameChunks : viewKC va = viewKC vb
  blocks : pMode p = 0 ∨ viewKC va * blocks p ≤ 96
  granted : shG gr = true
  matrix : shVec gr = false
  coversA : shGM gr ≤ vNrow va
  coversB : shGN gr ≤ vNrow vb
  closed : s.sq.win.2 ≤ s.ix.c
  ownedA : extentUnowned s.tk.g s.sq va = none
  ownedB : extentUnowned s.tk.g s.sq vb = none

section Fit

variable {g : Guard} {f u sh : BitVec 2} {x y : BitVec 3} {s : State} {gr va vb : Word} (hon : maskOn g s = true)
  (hva : tabGet 0#64 s.sq.td x.toNat = va) (hvb : tabGet 0#64 s.sq.td y.toNat = vb)
include hon hva hvb

/-- MMA and MMAZ under a grant of one native tile. -/
theorem mmaOp_of_fit (zero : Bool) (h : MatFit s (atLast s).sq.prec gr va vb) (hgr : tabGet 0#64 (atLast s).sq.sh sh.toNat = gr)
    (hm : shGM gr = natM s.tk.g) (hn : shGN gr = natN s.tk.g) :
    mmaOp zero g sh x y s = .next (mmaEffect zero (atLast s).sq.prec va vb gr s) := by
  have hcovers : ¬(shGM gr ≠ natM s.tk.g ∨ shGN gr ≠ natN s.tk.g ∨ shGM gr > vNrow va ∨ shGN gr > vNrow vb) := by
    simp only [not_or, not_not, not_lt]
    exact ⟨hm, hn, h.coversA, h.coversB⟩
  simp only [mmaOp, hon, Bool.not_true, Bool.false_eq_true, if_false, precMatOk_of_mode h.mode,
    viewCfg_of_configured ((viewReg_tile s x).trans hva) h.rowsA, viewCfg_of_configured ((viewReg_tile s y).trans hvb) h.rowsB,
    kcRule_of_fit h.chunks h.sameChunks h.blocks, matGrant_of_matrix hgr h.granted h.matrix, bmuFree_of_closed h.closed,
    extentOwned_of_owned h.ownedA, extentOwned_of_owned h.ownedB, bind, Except.bind, if_neg hcovers]
  rfl

/-- MMAT under a grant that its accumulator view covers as well. -/
theorem execMmat_of_fit {av : Word} (h : MatFit s s.sq.prec gr va vb) (hgr : tabGet 0#64 s.sq.sh sh.toNat = gr)
    (hav : tabGet 0#64 s.sq.av u.toNat = av) (hr : vNrow av ≠ 0) (hw : vW av = drainW f) (hm : shGM gr ≤ vNrow av) (hn : shGN gr ≤ vNcol av)
    (ho : extentUnowned s.tk.g s.sq av = none) : execMmat g f u sh x y s = .next (mmatEffect f va vb av gr s) := by
  have hcovers : ¬(shGM gr > vNrow va ∨ shGN gr > vNrow vb) := by
    simp only [not_or, not_lt]
    exact ⟨h.coversA, h.coversB⟩
  have hacc : ¬(shGM gr > vNrow av ∨ shGN gr > vNcol av) := by
    simp only [not_or, not_lt]
    exact ⟨hm, hn⟩
  simp only [execMmat, hon, Bool.not_true, Bool.false_eq_true, if_false, precMatOk_of_mode h.mode,
    viewCfg_of_configured ((viewReg_tile s x).trans hva) h.rowsA, viewCfg_of_configured ((viewReg_tile s y).trans hvb) h.rowsB,
    kcRule_of_fit h.chunks h.sameChunks h.blocks, accView_of_fit ((viewReg_acc s u).trans hav) hr hw,
    matGrant_of_matrix hgr h.granted h.matrix, bmuFree_of_closed h.closed, extentOwned_of_owned h.ownedA, extentOwned_of_owned h.ownedB,
    extentOwned_of_owned ho, bind, Except.bind, if_neg hcovers, if_neg hacc]
  rfl

end Fit

/-- Settles O29: what fits passes every check of R361, in their order, and the reserved MMODE fails the first. -/
theorem matrixCompute : Obligations.MatrixCompute := by
  intro g f u sh x y s hon va vb av fit
  have ofFit {p gr : Word} (h : fit p gr) : MatFit s p gr va vb := by
    obtain ⟨hmode, hra, hrb, hkc, hsame, hblocks, hg, hv, hm, hn, hwin, hoa, hob⟩ := h
    exact ⟨hmode, hra, hrb, hkc, hsame, hblocks, hg, hv, hm, hn, hwin, hoa, hob⟩
  refine ⟨⟨fun h hm hn => ⟨?_, ?_⟩, fun h => ⟨mmaOp_of_reserved hon false h, mmaOp_of_reserved hon true h,
    fun add => execMdrn_of_reserved hon add h⟩, fun h => ?_⟩, fun h hr hw hm hn ho => ?_, execMmat_of_reserved hon⟩
  · exact mmaOp_of_fit hon rfl rfl false (ofFit h) rfl hm hn
  · exact mmaOp_of_fit hon rfl rfl true (ofFit h) rfl hm hn
  · rw [atLast_of_single h]
    exact ⟨rfl, rfl⟩
  · exact execMmat_of_fit hon rfl rfl (ofFit h) rfl rfl hr hw hm hn ho

end Sys2Proof.Machine
end

section

/-! ## Grants of a shape request (O24) -/

namespace Sys2Proof.Machine

section Grant

variable {req native max : Nat}

theorem grant_of_refused (native : Nat) (h : req = 0 ∨ max < req) : grant req native max = 0 := if_pos h

theorem grant_of_fit (native : Nat) (h1 : 1 ≤ req) (h2 : req ≤ max) : grant req native max = native * (req ⌈/⌉ native) :=
  if_neg (by omega)

/-- Both halves of "least multiple that holds the request" (R206) at once. -/
theorem grant_le_mul_iff (hn : 0 < native) (h1 : 1 ≤ req) (h2 : req ≤ max) (j : Nat) :
    grant req native max ≤ native * j ↔ req ≤ native * j := by
  rw [grant_of_fit native h1 h2, Nat.mul_le_mul_left_iff hn, ceilDiv_le_iff_le_mul hn]

theorem dvd_grant (h1 : 1 ≤ req) (h2 : req ≤ max) : native ∣ grant req native max :=
  ⟨_, grant_of_fit native h1 h2⟩

theorem le_grant (hn : 0 < native) (h1 : 1 ≤ req) (h2 : req ≤ max) : req ≤ grant req native max := by
  obtain ⟨j, hj⟩ := dvd_grant (native := native) h1 h2
  rw [hj, ← grant_le_mul_iff hn h1 h2, hj]

end Grant

/-- Settles O24: `grant_le_mul_iff` at the multiples of the native length. -/
theorem grants : Obligations.Grants := by
  intro req native max hn
  refine ⟨⟨fun h0 => ?_, grant_of_refused native⟩, fun h1 h2 => ⟨dvd_grant h1 h2, le_grant hn h1 h2, ?_⟩⟩
  · by_contra hfit
    have := le_grant (req := req) (max := max) hn (by omega) (by omega)
    omega
  · rintro _ ⟨j, rfl⟩ hj
    exact (grant_le_mul_iff hn h1 h2 j).2 hj

end Sys2Proof.Machine
end

section

/-! ## What scalar stores, loads and atomics start (O48) -/

namespace Sys2Proof.Machine

/-! ### Index and offset of a buffer address (R111) -/

theorem fieldN_offset (ba : Word) : fieldN ba 0 48 = (ba &&& 0xFFFFFFFFFFFF#64).toNat := by
  rw [fieldN_eq, BitVec.toNat_and, Nat.pow_zero, Nat.div_one]
  exact (Nat.and_two_pow_sub_one_eq_mod ba.toNat 48).symm

theorem fieldN_index (ba : Word) : fieldN ba 48 16 = ba.toNat / 2 ^ 48 := by
  rw [fieldN_eq]
  have := ba.isLt
  omega

/-! ### Pieces of an access follow one another -/

/-- Of two pieces, the second begins at or after the end of the first. -/
def follows (p q : Nat × Nat × Nat) : Prop := p.1 + p.2.2 ≤ q.1

theorem le_of_mem_pieces {p : Nat × Nat × Nat} {fuel rel off n : Nat} (h : p ∈ pieces fuel rel off n) : rel ≤ p.1 := by
  induction fuel generalizing rel off n with
  | zero => cases h
  | succ fuel ih =>
    rw [pieces] at h
    split at h
    · cases h
    · obtain rfl | h := List.mem_cons.1 h
      · exact le_rfl
      · exact (Nat.le_add_right ..).trans (ih h)

theorem pairwise_pieces (fuel rel off n : Nat) : (pieces fuel rel off n).Pairwise follows := by
  induction fuel generalizing rel off n with
  | zero => exact .nil
  | succ fuel ih =>
    rw [pieces]
    split
    · exact .nil
    · exact .cons (fun q hq => le_of_mem_pieces hq) (ih ..)

theorem pairwise_piecesIn (e : BitVec 256) (off n : Nat) : (piecesIn e off n).Pairwise follows :=
  List.pairwise_map.2 (pairwise_pieces ..)

/-! ### Requests of a group (R242, R260) -/

/-- Outputs that do not depend on those before them leave together. -/
theorem foldl_emit {α : Type} {f : State → α → Out} (hf : ∀ o s a, f (emit o s) a = f s a) (l : List α) (s : State) :
    l.foldl (fun t a => emit (f t a) t) s = { s with tk := { s.tk with out := s.tk.out ++ l.map (f s) } } := by
  induction l generalizing s with
  | nil => simp
  | cons a l ih =>
    rw [List.foldl_cons, ih, funext (hf _ s), emit]
    simp

/-- The request of one piece of a scalar access. -/
def pieceReq (id : Nat) (e : BitVec 256) (idx : Nat) (op : MemOp) (data : List Byte) (sc : Bool) (s : State)
    (p : Nat × Nat × Nat) : Out :=
  .req ⟨id, p.1, .task s.tid s.k, s.tk.vf, locate e p.2.1, p.2.2, op, data, w64 (idx * 2 ^ 48 + p.2.1), false, sc⟩

theorem emitReqs_eq (id : Nat) (e : BitVec 256) (idx off n : Nat) (op : MemOp) (data : List Byte) (s : State) :
    emitReqs id 0 e idx off n op data s = { s with tk := { s.tk with out := s.tk.out ++ (piecesIn e off n).map (fun p =>
      pieceReq id e idx op ((data.drop p.1).take p.2.2) false s p) } } := by
  simp only [emitReqs, Nat.zero_add]
  exact foldl_emit (f := fun t p => pieceReq id e idx op ((data.drop p.1).take p.2.2) false t p) (fun _ _ _ => rfl) _ s

/-! ### Changes of the read caches (R218) -/

theorem updateLine_land (l : Loc) (bs : List Byte) (q : Seq) : (updateLine l bs q).land = q.land := by
  unfold updateLine
  split <;> rfl

theorem dropLine_land (l : Loc) (q : Seq) : (dropLine l q).land = q.land := by
  unfold dropLine
  split <;> rfl

theorem dropLine_rcache (l : Loc) (q : Seq) :
    (dropLine l q).rcache = q.rcache.filter (fun x => lineTag l != some (x.vf, x.blk)) := by
  cases h : lineTag l with
  | none =>
    rw [dropLine, h]
    exact (List.filter_eq_self.2 fun _ _ => rfl).symm
  | some t =>
    rw [dropLine, h]
    refine List.filter_congr fun x _ => Bool.eq_iff_iff.2 ?_
    grind

/-! ### Stores (R308) -/

section Store

variable (z : Nat) (v ba : Word) (e : BitVec 256) (s : State)

/-- What the read caches' changes leave of a state, a store leaves as its requests do. -/
theorem storeEffect_keeps {β : Type} {g : State → β} (hg : ∀ l bs t, g (onCaches (updateLine l bs) t) = g t) :
    g (storeEffect z v ba e s) = g (emitReqs 0 0 e (fieldN ba 48 16) (fieldN ba 0 48) z .write (natLe z v.toNat) s) :=
  foldl_keeps (fun _ _ => hg ..) _ _

theorem storeEffect_out : (storeEffect z v ba e s).tk.out = s.tk.out ++ (piecesIn e (fieldN ba 0 48) z).map (fun p =>
    pieceReq 0 e (fieldN ba 48 16) .write (((natLe z v.toNat).drop p.1).take p.2.2) false s p) := by
  rw [storeEffect_keeps (g := fun t => t.tk.out) (hg := fun _ _ _ => rfl), emitReqs_eq]

theorem storeEffect_land : (storeEffect z v ba e s).sq.land = s.sq.land := by
  rw [storeEffect_keeps (g := fun t => t.sq.land) (hg := fun l bs t => updateLine_land l bs t.sq), emitReqs_eq]

theorem storeEffect_replies : (storeEffect z v ba e s).replies = s.replies := by
  rw [storeEffect_keeps (g := fun t => t.replies) (hg := fun _ _ _ => rfl), emitReqs_eq]

end Store

/-! ### Bytes that a load takes from the read cache (R218) -/

/-- The bytes of a piece that the read cache holds. -/
def cachedBytes (q : Seq) (e : BitVec 256) (p : Nat × Nat × Nat) : List Byte :=
  match cachedLine q (locate e p.2.1) with
  | some x => (x.data.drop (lineByte (locate e p.2.1))).take p.2.2
  | none => []

/-- A reply's bytes after those of the pieces that the read cache holds. -/
def fillCached (q : Seq) (e : BitVec 256) (ps : List (Nat × Nat × Nat)) (data : Tab Byte) : Tab Byte :=
  ps.foldl (fun a p => tabSetBytes a p.1 (cachedBytes q e p)) data

section Cached

variable {q : Seq} {e : BitVec 256} {p : Nat × Nat × Nat}

theorem cachedBytes_of_hit {x : Line} (h : cachedLine q (locate e p.2.1) = some x) :
    cachedBytes q e p = (x.data.drop (lineByte (locate e p.2.1))).take p.2.2 := by
  simp [cachedBytes, h]

theorem cachedBytes_of_miss (h : cachedLine q (locate e p.2.1) = none) : cachedBytes q e p = [] := by
  simp [cachedBytes, h]

theorem length_cachedBytes_le : (cachedBytes q e p).length ≤ p.2.2 := by
  unfold cachedBytes
  split
  · exact List.length_take_le ..
  · exact Nat.zero_le _

/-- The bytes written read back, and past their end the table does as before. -/
theorem tabGet_setBytes_at (t : Tab Byte) (a : Nat) (bs : List Byte) (i : Nat) :
    tabGet 0#8 (tabSetBytes t a bs) (a + i) = bs.getD i (tabGet 0#8 t (a + i)) := by
  induction bs generalizing t a i with
  | nil => rfl
  | cons b bs ih =>
    cases i with
    | zero => exact (tabGet_setBytes_below _ _ _ (Nat.lt_succ_self a)).trans (tabGet_set_same ..)
    | succ i =>
      rw [tabSetBytes, show a + (i + 1) = a + 1 + i by omega, ih, tabGet_set_other _ _ _ (by omega), List.getD_cons_succ]

theorem tabGet_fillCached_other {k : Nat} (ps : List (Nat × Nat × Nat)) (h : ∀ p ∈ ps, k < p.1) (data : Tab Byte) :
    tabGet 0#8 (fillCached q e ps data) k = tabGet 0#8 data k := by
  induction ps generalizing data with
  | nil => rfl
  | cons p ps ih =>
    obtain ⟨hp, hps⟩ := List.forall_mem_cons.1 h
    exact (ih hps _).trans (tabGet_setBytes_below _ _ _ hp)

/-- Pieces that follow one another do not write over each other's bytes. -/
theorem tabGet_fillCached {i : Nat} {ps : List (Nat × Nat × Nat)} (hps : ps.Pairwise follows) (hp : p ∈ ps) (hi : i < p.2.2)
    (data : Tab Byte) : tabGet 0#8 (fillCached q e ps data) (p.1 + i) = (cachedBytes q e p).getD i (tabGet 0#8 data (p.1 + i)) := by
  induction hps generalizing data with
  | nil => cases hp
  | @cons a ps ha _ ih =>
    obtain rfl | hp := List.mem_cons.1 hp
    · have hafter : ∀ b ∈ ps, p.1 + i < b.1 := fun b hb => (Nat.add_lt_add_left hi p.1).trans_le (ha b hb)
      exact (tabGet_fillCached_other ps hafter _).trans (tabGet_setBytes_at ..)
    · have hend : a.1 + (cachedBytes q e a).length ≤ p.1 + i :=
        (Nat.add_le_add_left length_cachedBytes_le _).trans ((ha p hp).trans (Nat.le_add_right ..))
      exact (ih hp _).trans (congrArg _ (tabGet_setBytes_other _ _ _ (.inr hend)))

/-- The bytes of a piece of a load in its reply, as it starts: those of the line, where the read cache holds it. -/
theorem tabGet_fillCached_piece {off n i : Nat} (hp : p ∈ piecesIn e off n) (hi : i < p.2.2) :
    tabGet 0#8 (fillCached q e (piecesIn e off n) []) (p.1 + i) =
      match cachedLine q (locate e p.2.1) with
      | some x => x.data.getD (lineByte (locate e p.2.1) + i) 0#8
      | none => 0#8 := by
  rw [tabGet_fillCached (pairwise_piecesIn ..) hp hi]
  cases hx : cachedLine q (locate e p.2.1) with
  | none =>
    rw [cachedBytes_of_miss hx]
    rfl
  | some x =>
    rw [cachedBytes_of_hit hx]
    simp [List.getD_eq_getElem?_getD, hi, tabGet]

end Cached

/-! ### Pieces of a load (R218, R308) -/

/-- One piece of a load: from the read cache, else as a request. -/
def loadPiece (id : Nat) (e : BitVec 256) (idx : Nat) (t : State) (p : Nat × Nat × Nat) : State :=
  match cachedLine t.sq (locate e p.2.1), tabFind t.replies id with
  | some x, some r => { t with replies := tabPut t.replies id { r with
      left := r.left - 1, data := tabSetBytes r.data p.1 ((x.data.drop (lineByte (locate e p.2.1))).take p.2.2) } }
  | _, _ => emit (pieceReq id e idx .read [] true t p) t

theorem loadPieces_eq (id : Nat) (e : BitVec 256) (idx off n : Nat) (s : State) :
    loadPieces id e idx off n s = (piecesIn e off n).foldl (loadPiece id e idx) s := rfl

theorem loadPieces_ix (id : Nat) (e : BitVec 256) (idx off n : Nat) (s : State) : (loadPieces id e idx off n s).ix = s.ix := by
  have hstep (t : State) (p : Nat × Nat × Nat) : (loadPiece id e idx t p).ix = t.ix := by
    unfold loadPiece
    split <;> rfl
  rw [loadPieces_eq, foldl_keeps hstep]

/-- Whether a piece's line is not in the read cache. -/
def missing (q : Seq) (e : BitVec 256) (p : Nat × Nat × Nat) : Bool := (cachedLine q (locate e p.2.1)).isNone

/-- What the pieces `ps` of a load make of a state with the reply `r` under way. -/
structure PiecesLoaded (id : Nat) (e : BitVec 256) (idx : Nat) (ps : List (Nat × Nat × Nat)) (r : Reply) (s t : State) : Prop where
  out : t.tk.out = s.tk.out ++ (ps.filter (missing s.sq e)).map (pieceReq id e idx .read [] true s)
  sq : t.sq = s.sq
  reply : tabFind t.replies id =
    some { r with left := r.left - ps.countP (fun p => !missing s.sq e p), data := fillCached s.sq e ps r.data }
  others : ∀ n, n ≠ id → tabFind t.replies n = tabFind s.replies n

theorem missing_of_empty {q : Seq} (h : q.rcache = []) (e : BitVec 256) (p : Nat × Nat × Nat) : missing q e p = true := by
  unfold missing cachedLine
  split <;> simp [h]

/-- What is left of a reply's pieces when those that fail `f` are there. -/
theorem length_sub_countP_not {α : Type} (f : α → Bool) (l : List α) : l.length - l.countP (fun a => !f a) = (l.filter f).length := by
  rw [l.length_eq_countP_add_countP f, ← List.countP_eq_length_filter]
  simp

section Load

variable {id idx : Nat} {e : BitVec 256} {p : Nat × Nat × Nat} {r : Reply} {s : State}

theorem loadPiece_of_hit {x : Line} (hx : cachedLine s.sq (locate e p.2.1) = some x) (hr : tabFind s.replies id = some r) :
    loadPiece id e idx s p =
      { s with replies := tabPut s.replies id { r with
          left := r.left - 1, data := tabSetBytes r.data p.1 (cachedBytes s.sq e p) } } := by
  simp only [loadPiece, hx, hr, cachedBytes_of_hit hx]

theorem loadPiece_of_miss (hx : cachedLine s.sq (locate e p.2.1) = none) :
    loadPiece id e idx s p = emit (pieceReq id e idx .read [] true s p) s := by
  simp only [loadPiece, hx]

/-- A request leaves the reply as it is, a hit of the read cache fills its bytes in; neither changes what the next piece meets. -/
theorem foldl_loadPiece (ps : List (Nat × Nat × Nat)) (hr : tabFind s.replies id = some r) :
    PiecesLoaded id e idx ps r s (ps.foldl (loadPiece id e idx) s) := by
  induction ps generalizing s r with
  | nil => exact ⟨(List.append_nil _).symm, rfl, hr, fun _ _ => rfl⟩
  | cons p ps ih =>
    rw [List.foldl_cons]
    cases hx : cachedLine s.sq (locate e p.2.1) with
    | none =>
      have hm : missing s.sq e p = true := by simp [missing, hx]
      rw [loadPiece_of_miss hx]
      obtain ⟨hout, hsq, hreply, hothers⟩ := ih (s := emit (pieceReq id e idx .read [] true s p) s) hr
      refine ⟨?_, hsq, ?_, hothers⟩
      · rw [hout, List.filter_cons_of_pos hm]
        exact List.append_assoc ..
      · rw [hreply, List.countP_cons_of_neg (by simp [hm]), fillCached, fillCached, List.foldl_cons, cachedBytes_of_miss hx]
        rfl
    | some x =>
      have hm : missing s.sq e p = false := by simp [missing, hx]
      rw [loadPiece_of_hit hx hr]
      obtain ⟨hout, hsq, hreply, hothers⟩ := ih (s := { s with replies := _ }) (tabFind_put_same s.replies id _)
      refine ⟨?_, hsq, ?_, fun n hn => (hothers n hn).trans (tabFind_put_other _ _ hn)⟩
      · rw [hout, List.filter_cons_of_neg (by simp [hm])]
        rfl
      · rw [hreply, List.countP_cons_of_pos (by simp [hm]), Nat.add_comm, Nat.sub_add_eq]
        rfl

end Load

section LoadEffect

variable (z : Nat) (d : BitVec 6) (ba : Word) (e : BitVec 256) (s : State)

/-- What a load starts besides the landing of its value, which changes no output and no reply. -/
theorem loadEffect_pieces : PiecesLoaded s.nextId e (fieldN ba 48 16) (piecesIn e (fieldN ba 0 48) z)
    ⟨.task s.tid s.k, 8, (piecesIn e (fieldN ba 0 48) z).length, [], [], false⟩ (newReply (piecesIn e (fieldN ba 0 48) z).length s)
    (loadPieces s.nextId e (fieldN ba 48 16) (fieldN ba 0 48) z (newReply (piecesIn e (fieldN ba 0 48) z).length s)) := by
  rw [loadPieces_eq]
  exact foldl_loadPiece _ (tabFind_put_same ..)

theorem loadEffect_out : (loadEffect z d ba e s).tk.out = s.tk.out ++
    ((piecesIn e (fieldN ba 0 48) z).filter (missing s.sq e)).map (pieceReq s.nextId e (fieldN ba 48 16) .read [] true s) :=
  (loadEffect_pieces z ba e s).out

theorem loadEffect_rcache : (loadEffect z d ba e s).sq.rcache = s.sq.rcache := by
  rw [loadEffect, landAt_sq_rcache, (loadEffect_pieces z ba e s).sq]
  rfl

theorem loadEffect_land : (loadEffect z d ba e s).sq.land = s.sq.land ++
    [⟨s.ix.c, s.ix.cl + accessNominal s.tk e (fieldN ba 0 48) z - 1, .load d s.nextId kLoad⟩] := by
  rw [loadEffect, landAt_sq_land, (loadEffect_pieces z ba e s).sq, loadPieces_ix]
  rfl

theorem loadEffect_reply : tabFind (loadEffect z d ba e s).replies s.nextId =
    some ⟨.task s.tid s.k, 8, ((piecesIn e (fieldN ba 0 48) z).filter (missing s.sq e)).length,
      fillCached s.sq e (piecesIn e (fieldN ba 0 48) z) [], [], false⟩ := by
  rw [← length_sub_countP_not]
  exact (loadEffect_pieces z ba e s).reply

theorem loadEffect_others {n : Nat} (hn : n ≠ s.nextId) : tabFind (loadEffect z d ba e s).replies n = tabFind s.replies n :=
  ((loadEffect_pieces z ba e s).others n hn).trans (tabFind_put_other _ _ hn)

end LoadEffect

/-! ### Atomics (R309) -/

section Atomic

variable (op : MemOp) (d : BitVec 6) (data : List Byte) (ba : Word) (e : BitVec 256) (s : State)

theorem atomicEffect_land : (atomicEffect op d data ba e s).sq.land = s.sq.land ++
    [⟨s.ix.c, s.ix.cl + nominal s.tk (locate e (fieldN ba 0 48)) + 64 - 1, .load d s.nextId kAtomic⟩] :=
  congrArg (· ++ _) (dropLine_land (locate e (fieldN ba 0 48)) s.sq)

theorem atomicEffect_rcache : (atomicEffect op d data ba e s).sq.rcache =
    s.sq.rcache.filter (fun x => lineTag (locate e (fieldN ba 0 48)) != some (x.vf, x.blk)) :=
  dropLine_rcache (locate e (fieldN ba 0 48)) s.sq

end Atomic

/-- Settles O48: the laws of each effect, at the index and the offset of its address. -/
theorem accessRequests : Obligations.AccessRequests := by
  intro z d v ba e s off idx req
  have hoff : off = fieldN ba 0 48 := (fieldN_offset ba).symm
  have hidx : idx = fieldN ba 48 16 := (fieldN_index ba).symm
  clear_value off idx
  subst hoff hidx
  refine ⟨?store, ?load, fun op data => ?atomic⟩
  case store =>
    have hs := steady_storeEffect z v ba e s
    exact ⟨storeEffect_out .., hs.regs, hs.flow, ⟨hs.tcause, hs.tinfo, hs.hret⟩, hs.world, storeEffect_land .., storeEffect_replies ..⟩
  case load =>
    have hs := steady_loadEffect z d ba e s
    exact ⟨loadEffect_out .., hs.regs, hs.flow, ⟨hs.tcause, hs.tinfo, hs.hret⟩, hs.world, loadEffect_rcache .., loadEffect_land ..,
      ⟨_, loadEffect_reply .., fun p hp i hi => tabGet_fillCached_piece hp hi⟩,
      fun h => List.filter_eq_self.2 fun p _ => missing_of_empty h e p, fun n hn => loadEffect_others z d ba e s hn⟩
  case atomic =>
    have hs := steady_atomicEffect op d data ba e s
    exact ⟨rfl, hs.regs, hs.flow, ⟨hs.tcause, hs.tinfo, hs.hret⟩, hs.world, atomicEffect_rcache .., atomicEffect_land ..,
      tabFind_put_same .., fun n hn => tabFind_put_other _ _ hn⟩

end Sys2Proof.Machine
end

section

/-! ## The pieces of an access cover its bytes (O10) -/

namespace Sys2Proof.Machine

/-- The bytes of a piece, each with its place in the access and in the buffer. -/
def pieceBytes (p : Nat × Nat × Nat) : List (Nat × Nat) := (List.range p.2.2).map (fun k => (p.1 + k, p.2.1 + k))

/-- Bytes in a row are their first `k` and the rest. -/
theorem pieceBytes_split {k n : Nat} (h : k ≤ n) (rel off : Nat) :
    pieceBytes (rel, off, n) = pieceBytes (rel, off, k) ++ pieceBytes (rel + k, off + k, n - k) := by
  obtain ⟨m, rfl⟩ := Nat.exists_eq_add_of_le h
  simp [pieceBytes, List.range_add, Function.comp_def, Nat.add_assoc]

/-- The blocks that the fuel allows reach to the end of the access. -/
theorem flatMap_pieces {fuel rel off n : Nat} (h : n ≤ 64 * fuel - off % 64) :
    (pieces fuel rel off n).flatMap pieceBytes = pieceBytes (rel, off, n) := by
  induction fuel generalizing rel off n with
  | zero =>
    obtain rfl : n = 0 := by omega
    rfl
  | succ fuel ih =>
    rw [pieces]
    split
    case isTrue h0 =>
      subst h0
      rfl
    case isFalse =>
      have hrest : n - min n (64 - off % 64) ≤ 64 * fuel - (off + min n (64 - off % 64)) % 64 := by omega
      rw [List.flatMap_cons, ih hrest, ← pieceBytes_split (Nat.min_le_left ..)]

theorem place_of_mem_pieces {p : Nat × Nat × Nat} {fuel rel off n : Nat} (h : p ∈ pieces fuel rel off n) :
    off ≤ p.2.1 ∧ 0 < p.2.2 ∧ p.2.1 / 64 = (p.2.1 + p.2.2 - 1) / 64 := by
  induction fuel generalizing rel off n with
  | zero => cases h
  | succ fuel ih =>
    rw [pieces] at h
    split at h
    · cases h
    · obtain rfl | h := List.mem_cons.1 h
      · dsimp only
        omega
      · obtain ⟨hoff, hlen, hblock⟩ := ih h
        exact ⟨by omega, hlen, hblock⟩

theorem pieceBytes_sub {rel off n x : Nat} (h : x ≤ off) :
    pieceBytes (rel, off - x, n) = (pieceBytes (rel, off, n)).map (fun b => (b.1, b.2 - x)) := by
  simp [pieceBytes, Nat.sub_add_comm h]

theorem flatMap_piecesIn (e : BitVec 256) (off n : Nat) : (piecesIn e off n).flatMap pieceBytes = pieceBytes (0, off, n) := by
  have hfuel : n ≤ 64 * (n / 64 + 2) - (off + entryShift e) % 64 := by omega
  calc (piecesIn e off n).flatMap pieceBytes
    _ = (pieces (n / 64 + 2) 0 (off + entryShift e) n).flatMap
          (fun p => (pieceBytes p).map (fun b => (b.1, b.2 - entryShift e))) := by
        rw [piecesIn, List.flatMap_map]
        exact List.flatMap_congr fun p hp =>
          pieceBytes_sub ((Nat.le_add_left ..).trans (place_of_mem_pieces hp).1)
    _ = (pieceBytes (0, off + entryShift e, n)).map (fun b => (b.1, b.2 - entryShift e)) := by
        rw [← List.map_flatMap, flatMap_pieces hfuel]
    _ = pieceBytes (0, off, n) := by rw [← pieceBytes_sub (Nat.le_add_left ..), Nat.add_sub_cancel]

/-- Settles O10: `pieces` cuts the bytes of the home, and the buffer's offsets lie `entryShift` below them. -/
theorem piecesCover : Obligations.PiecesCover := by
  intro e off n
  constructor
  · exact (flatMap_piecesIn e off n).trans (by simp only [pieceBytes, Nat.zero_add])
  · intro p hp
    obtain ⟨q, hq, rfl⟩ := List.mem_map.1 hp
    obtain ⟨hoff, hlen, hblock⟩ := place_of_mem_pieces hq
    have hshift : entryShift e + (q.2.1 - entryShift e) = q.2.1 := by omega
    exact ⟨hlen, by rwa [hshift]⟩

end Sys2Proof.Machine
end

section

/-! ## The atomics (O9) -/

namespace Sys2Proof.Machine

/-! ### Words as bytes (R4) -/

theorem length_natLe (n v : Nat) : (natLe n v).length = n := by
  induction n generalizing v with
  | zero => rfl
  | succ n ih => rw [natLe, List.length_cons, ih]

theorem leNat_natLe (n v : Nat) : leNat (natLe n v) = v % 256 ^ n := by
  induction n generalizing v with
  | zero => exact (Nat.mod_one v).symm
  | succ n ih => rw [natLe, leNat, ih, BitVec.toNat_ofNat, pow_succ' 256, Nat.mod_mul]

theorem ofNat_leNat_natLe (x : Word) : BitVec.ofNat 64 (leNat (natLe 8 x.toNat)) = x := by
  rw [leNat_natLe, Nat.mod_eq_of_lt (show x.toNat < 256 ^ 8 from x.isLt), BitVec.ofNat_toNat, BitVec.setWidth_eq]

theorem take_natLe (x : Word) : (natLe 8 x.toNat).take 8 = natLe 8 x.toNat :=
  List.take_of_length_le (length_natLe ..).le

/-! ### At issue: the checks of R113 and R244, then the access (R309) -/

section AtIssue

variable {op : MemOp} {g : Guard} {d a b : BitVec 6} {s : State}

theorem atomicOp_of_passes {e : BitVec 256} (hon : predOn g s = true)
    (hc : check s false true true false kAtomic (readS s a &&& ~~~7#64) 8 = .ok e)
    (ho : scalarOverlap s true (readS s a &&& ~~~7#64) 8 = .ok ()) :
    atomicOp op g d a b s = .next (charge 5 1 (atomicEffect op d
      (if op = .acas then natLe 8 (readS s d).toNat ++ natLe 8 (readS s b).toNat else natLe 8 (readS s b).toNat)
      (readS s a &&& ~~~7#64) e s)) :=
  finishOp_guarded_of_ok hon (by rw [hc]; simp only [ho]; rfl)

theorem atomicOp_of_trap {t : Trap} (hon : predOn g s = true)
    (hc : check s false true true false kAtomic (readS s a &&& ~~~7#64) 8 = .error t) :
    atomicOp op g d a b s = .next (takeTrap t s) :=
  finishOp_guarded_of_error hon (by rw [hc]; rfl)

end AtIssue

/-! ### At the memory side: what is left in the atom (R249, R309) -/

section AtMemory

variable (x y d : Word)

theorem atomResult_aadd : atomResult .aadd (natLe 8 x.toNat) (natLe 8 y.toNat) = some (natLe 8 (x + y).toNat) := by
  simp only [atomResult, take_natLe, ofNat_leNat_natLe]

theorem atomResult_amin : atomResult .amin (natLe 8 x.toNat) (natLe 8 y.toNat) =
    some (if x.toInt ≤ y.toInt then natLe 8 x.toNat else natLe 8 y.toNat) := by
  simp only [atomResult, take_natLe, ofNat_leNat_natLe, apply_ite (fun w : Word => natLe 8 w.toNat)]

theorem atomResult_aor : atomResult .aor (natLe 8 x.toNat) (natLe 8 y.toNat) = some (natLe 8 (x ||| y).toNat) := by
  simp only [atomResult, take_natLe, ofNat_leNat_natLe]

theorem atomResult_axch : atomResult .axch (natLe 8 x.toNat) (natLe 8 y.toNat) = some (natLe 8 y.toNat) := by
  simp only [atomResult, take_natLe, ofNat_leNat_natLe]

theorem atomResult_acas : atomResult .acas (natLe 8 x.toNat) (natLe 8 d.toNat ++ natLe 8 y.toNat) =
    if x = d then some (natLe 8 y.toNat) else none := by
  have hfirst : (natLe 8 d.toNat ++ natLe 8 y.toNat).take 8 = natLe 8 d.toNat := List.take_left' (length_natLe ..)
  have hlast : (natLe 8 d.toNat ++ natLe 8 y.toNat).drop 8 = natLe 8 y.toNat := List.drop_left' (length_natLe ..)
  simp only [atomResult, hfirst, hlast, take_natLe, ofNat_leNat_natLe]

/-- Of two equal words either is the larger, so AMAX may be stated with the test of AMIN. -/
theorem atomResult_amax : atomResult .amax (natLe 8 x.toNat) (natLe 8 y.toNat) =
    some (if x.toInt ≤ y.toInt then natLe 8 y.toNat else natLe 8 x.toNat) := by
  simp only [atomResult, take_natLe, ofNat_leNat_natLe]
  obtain h | h | h := lt_trichotomy x.toInt y.toInt
  · rw [if_neg h.not_ge, if_pos h.le]
  · rw [if_pos h.ge, if_pos h.le, BitVec.eq_of_toInt_eq h]
  · rw [if_pos h.le, if_neg h.not_ge]

end AtMemory

/-- Settles O9: at issue the six are `atomicOp`, at the memory side `atomResult` has a law for each. -/
theorem atomics : Obligations.Atomics := by
  refine ⟨fun g d a b s hon => ⟨fun e hc ho => ?access, fun t hc => ?trap⟩, fun x y d => ?result⟩
  case access =>
    have h (op : MemOp) := atomicOp_of_passes (op := op) (d := d) (b := b) hon hc ho
    exact ⟨h .aadd, h .amin, h .amax, h .aor, h .axch, h .acas⟩
  case trap =>
    have h (op : MemOp) : atomicOp op g d a b s = .next (takeTrap t s) := atomicOp_of_trap hon hc
    exact ⟨h .aadd, h .amin, h .amax, h .aor, h .axch, h .acas⟩
  case result =>
    exact ⟨atomResult_aadd x y, atomResult_amin x y, atomResult_amax x y, atomResult_aor x y, atomResult_axch x y,
      atomResult_acas x y d⟩

end Sys2Proof.Machine
end

section

/-! ## Taking a trap (O18) -/

namespace Sys2Proof.Machine

/-! ### Levels that are dropped (R317) -/

/-- What `dropLoops` does to one level. -/
def dropLevel (d : Nat) (ls : Tab Loop) (m : Nat) : Tab Loop :=
  if d ≤ m then tabSet loopOff ls m { tabGet loopOff ls m with active := false } else ls

theorem dropLoops_eq (d : Nat) (ls : Tab Loop) : dropLoops d ls = (List.range 6).foldl (dropLevel d) ls := rfl

theorem active_dropLevel (d : Nat) (ls : Tab Loop) (m n : Nat) :
    (tabGet loopOff (dropLevel d ls m) n).active = true ↔ (tabGet loopOff ls n).active = true ∧ ¬(n = m ∧ d ≤ n) := by
  unfold dropLevel
  split
  case isTrue h =>
    by_cases hn : n = m
    · subst hn
      simp [tabGet_set_same, h]
    · simp [tabGet_set_other _ _ _ hn, hn]
  case isFalse h =>
    exact (and_iff_left fun ⟨hnm, hd⟩ => h (hnm ▸ hd)).symm

theorem active_foldl_dropLevel (d : Nat) (l : List Nat) (ls : Tab Loop) (n : Nat) :
    (tabGet loopOff (l.foldl (dropLevel d) ls) n).active = true ↔ (tabGet loopOff ls n).active = true ∧ ¬(n ∈ l ∧ d ≤ n) := by
  induction l generalizing ls with
  | nil => simp
  | cons m l ih =>
    rw [List.foldl_cons, ih, active_dropLevel, List.mem_cons]
    tauto

theorem active_dropLoops (d : Nat) (ls : Tab Loop) (n : Nat) :
    (tabGet loopOff (dropLoops d ls) n).active = true ↔ (tabGet loopOff ls n).active = true ∧ ¬(n < 6 ∧ d ≤ n) := by
  rw [dropLoops_eq, active_foldl_dropLevel, List.mem_range]

/-- A handler starts with no loop active (R261). -/
theorem inactive_dropLoops_zero (ls : Tab Loop) {n : Nat} (hn : n < 6) : (tabGet loopOff (dropLoops 0 ls) n).active = false :=
  Bool.eq_false_iff.2 fun h => ((active_dropLoops 0 ls n).1 h).2 ⟨hn, n.zero_le⟩

/-! ### The trap registers (R255, R257) -/

/-- The fields of TCAUSE do not overlap. -/
theorem toNat_tcauseWord {t : Trap} {k : Nat} (res nest : Bool) (hsub : t.sub < 256) (hcause : t.cause < 256) (hslot : t.slot < 8)
    (hk : k < 4) : (tcauseWord res nest k t).toNat = t.sub + 2 ^ 8 * t.cause + 2 ^ 16 * k + 2 ^ 24 * t.slot +
      (if nest then 2 ^ 30 else 0) + (if res then 2 ^ 31 else 0) := by
  refine (BitVec.toNat_ofNat ..).trans (Nat.mod_eq_of_lt ?_)
  cases nest <;> cases res <;> simp [bitN] <;> omega

/-- The four words of TINFO as a trap writes them. -/
theorem tabGet_tinfo (a b c d : Word) : let ti := tabSets 0#64 [] [(0, a), (1, b), (2, c), (3, d)]
    tabGet 0#64 ti 0 = a ∧ tabGet 0#64 ti 1 = b ∧ tabGet 0#64 ti 2 = c ∧ tabGet 0#64 ti 3 = d := by
  refine ⟨?_, ?_, ?_, ?_⟩ <;> exact tabGet_sets_of_agree (by simp) (by simp) []

section WithReturn

variable (t : Trap) (s : State)

/-- Of a trap's fields the return group decides TINFO3 alone (R257). -/
theorem withReturn_eq : withReturn t s = { t with ti3 := (withReturn t s).ti3 } := by
  unfold withReturn; split <;> rfl

@[simp] theorem withReturn_cause : (withReturn t s).cause = t.cause := by rw [withReturn_eq]
@[simp] theorem withReturn_sub : (withReturn t s).sub = t.sub := by rw [withReturn_eq]
@[simp] theorem withReturn_slot : (withReturn t s).slot = t.slot := by rw [withReturn_eq]
@[simp] theorem withReturn_ti0 : (withReturn t s).ti0 = t.ti0 := by rw [withReturn_eq]
@[simp] theorem withReturn_ti1 : (withReturn t s).ti1 = t.ti1 := by rw [withReturn_eq]
@[simp] theorem withReturn_ti2 : (withReturn t s).ti2 = t.ti2 := by rw [withReturn_eq]

theorem withReturn_ti3 (h : handlerCause t = true) : (withReturn t s).ti3 = w64 (trapRet t s).ret.bundle := by
  rw [withReturn, if_pos h]

/-- The return state hangs on the cause, not on TINFO3. -/
@[simp] theorem trapRet_withReturn : trapRet (withReturn t s) s = trapRet t s := by
  simp only [trapRet, withReturn_cause]

theorem toNat_tcauseWord_withReturn {k : Nat} (res nest : Bool) (hsub : t.sub < 256) (hcause : t.cause < 256) (hslot : t.slot < 8)
    (hk : k < 4) : (tcauseWord res nest k (withReturn t s)).toNat = t.sub + 2 ^ 8 * t.cause + 2 ^ 16 * k + 2 ^ 24 * t.slot +
      (if nest then 2 ^ 30 else 0) + (if res then 2 ^ 31 else 0) := by
  rw [withReturn_eq]
  exact toNat_tcauseWord res nest hsub hcause hslot hk

end WithReturn

/-! ### Which way a trap goes (R256, R261, R262) -/

section Disposition

variable {t : Trap} {s : State}

theorem handlerCause_iff : handlerCause t = true ↔ t.cause = 0x08 ∨ t.cause = 0x0C ∨ t.cause = 0x0D := by
  simp [handlerCause, or_assoc]

theorem entersHandler_iff : entersHandler t s = true ↔
    (t.cause = 0x08 ∨ t.cause = 0x0C ∨ t.cause = 0x0D) ∧ s.sq.trapv.getLsbD 63 = true ∧ s.sq.hret = none := by
  simp only [entersHandler, Bool.and_eq_true, handlerCause_iff, Option.isNone_iff_eq_none, and_assoc]

/-- The state that a trap finds: its group has it. -/
def withTrap (t : Trap) (s : State) : State := { s with ix := { s.ix with trap := some t } }

theorem takeTrap_of_enters (h : entersHandler t s = true) : takeTrap t s = enterHandler (withReturn t s) (withTrap t s) := if_pos h

theorem takeTrap_of_ends (h : ¬entersHandler t s = true) :
    takeTrap t s = endTrap s.sq.hret.isSome (withReturn t s) (withTrap t s) := if_neg h

/-- A divide returns to its own group, with what is pending there (R261). -/
theorem trapRet_of_divide (h : t.cause = 0x08) : trapRet t s = ⟨s.ix.pos, s.sq.via, s.sq.pend, s.sq.loops⟩ := if_pos h

theorem takeTrap_tinfo (t : Trap) (s : State) :
    (takeTrap t s).sq.tinfo = tabSets 0#64 [] [(0, t.ti0), (1, t.ti1), (2, t.ti2), (3, (withReturn t s).ti3)] := by
  by_cases h : entersHandler t s = true
  · rw [takeTrap_of_enters h]
    simp only [enterHandler, withReturn_ti0, withReturn_ti1, withReturn_ti2]
  · rw [takeTrap_of_ends h]
    simp only [endTrap, withReturn_ti0, withReturn_ti1, withReturn_ti2]

theorem takeTrap_land (t : Trap) (s : State) : (takeTrap t s).sq.land = s.sq.land := by
  by_cases h : entersHandler t s = true
  · rw [takeTrap_of_enters h]; rfl
  · rw [takeTrap_of_ends h]; rfl

theorem takeTrap_tcause_of_enters (h : entersHandler t s = true) :
    (takeTrap t s).sq.tcause = tcauseWord true false s.k (withReturn t s) := by
  rw [takeTrap_of_enters h]; rfl

/-- A handler starts at HANDLER, one cycle after its trap (R261). -/
theorem takeTrap_start_of_enters (h : entersHandler t s = true) : (takeTrap t s).sq.pos = ⟨s.sq.trapv.toNat % 2 ^ 32, 0⟩ ∧
    (takeTrap t s).sq.nextLC = s.ix.c + 1 ∧ (takeTrap t s).sq.pend = none ∧ (takeTrap t s).sq.loops = dropLoops 0 s.sq.loops := by
  have hfield : fieldN s.sq.trapv 0 32 = s.sq.trapv.toNat % 2 ^ 32 := by rw [fieldN_eq, pow_zero, Nat.div_one]
  rw [takeTrap_of_enters h, ← hfield]
  exact ⟨rfl, rfl, rfl, rfl⟩

theorem takeTrap_hret_of_enters (h : entersHandler t s = true) : (takeTrap t s).sq.hret = some (trapRet t s) := by
  rw [takeTrap_of_enters h, ← trapRet_withReturn]; rfl

/-- Of its task a trap that enters the handler changes what it reports alone. -/
theorem takeTrap_tk_of_enters (h : entersHandler t s = true) :
    (takeTrap t s).tk = { s.tk with out := s.tk.out ++ [.trap s.k (takeTrap t s).sq.tcause s.ix.c] } := by
  rw [takeTrap_tcause_of_enters h, takeTrap_of_enters h]; rfl

/-- Any other trap ends its task where its sequencer stands, and NEST tells whether that is in a handler (R262, R263). -/
theorem takeTrap_kept_of_ends (h : ¬entersHandler t s = true) :
    (takeTrap t s).sq.tcause = tcauseWord false s.sq.hret.isSome s.k (withReturn t s) ∧ (takeTrap t s).tk.ending.isSome = true ∧
    sameFlow s.sq (takeTrap t s).sq ∧ (takeTrap t s).sq.hret = s.sq.hret := by
  rw [takeTrap_of_ends h]
  exact ⟨rfl, rfl, ⟨rfl, rfl, rfl, rfl, rfl, rfl⟩, rfl⟩

end Disposition

/-- Settles O18: the laws of `takeTrap` for either way that `entersHandler` chooses, and those that hold for both. -/
theorem trapEntry : Obligations.TrapEntry := by
  intro t s hsub hcause hslot hk u code handler
  obtain ⟨hti0, hti1, hti2, hti3⟩ := tabGet_tinfo t.ti0 t.ti1 t.ti2 (withReturn t s).ti3
  rw [← takeTrap_tinfo t s] at hti0 hti1 hti2 hti3
  obtain ⟨hworld, hregs, -, -⟩ := takeTrap_kept t s
  have hcode (res nest : Bool) : (tcauseWord res nest s.k (withReturn t s)).toNat = code res nest :=
    toNat_tcauseWord_withReturn t s res nest hsub hcause hslot hk
  refine ⟨hti0, hti1, hti2, hregs, takeTrap_land t s, hworld, fun hh hen hout => ?enters, fun hnot => ?ends⟩
  case enters =>
    have henters : entersHandler t s = true := entersHandler_iff.2 ⟨hh, hen, hout⟩
    obtain ⟨hpos, hlc, hpend, hloops⟩ := takeTrap_start_of_enters henters
    have hword : u.sq.tcause.toNat = code true false := takeTrap_tcause_of_enters henters ▸ hcode true false
    have hinactive : ∀ n < 6, (tabGet loopOff u.sq.loops n).active = false :=
      fun n hn => hloops ▸ inactive_dropLoops_zero s.sq.loops hn
    exact ⟨hword, hpos, hlc, hpend, hinactive,
      ⟨trapRet t s, takeTrap_hret_of_enters henters, hti3.trans (withReturn_ti3 t s (handlerCause_iff.2 hh)), trapRet_of_divide⟩,
      takeTrap_tk_of_enters henters⟩
  case ends =>
    obtain ⟨hword, hending, hflow, hret⟩ := takeTrap_kept_of_ends (t := t) (s := s) (mt entersHandler_iff.1 hnot)
    exact ⟨hword ▸ hcode false s.sq.hret.isSome, hending, hflow, hret⟩

end Sys2Proof.Machine
end

section

/-! ## Decoding what the encoder writes (O39) -/

namespace Sys2Proof.Laws.RoundTrip

/-- Every row has its law: the rows in the order of the opcode table. -/
theorem statement (i : Instr) : Statement i :=
  i.casesOn (motive := Statement)
    nop illegal add sub addi lih mul mulh mulhn div divn rem remn andS orS xorS andi ori xori shl shr shra shli shri shrai rotr clz popc
    minS maxS minn maxn sel ceq cne clt cle cltn clen ceqi clti badr boff ldb ldh ldw ldd stb sth stw std ldl stl aadd amin amax aor axch
    acas qmov movq qlog pbr pbrr br brc call ret loop loopi lstr lidx lbrk spawn joinK safe halt trap vany vall waitt waitl psel brk tret
    phase bar send recv sends recvs bacq brel precW preci shape shapq view viewq getc setc stat engy gtc lcr fence invq svcYield svcFlush
    cdsc kzero scrb scrq frel plwr btwr qwrt custodianResult mma mmaz mdrn mclr mscl mvcn msta mmat matrixCheck cpl cpi cpo cpdi cpdo cps
    cpg cpst cpb cpr copyComplete vaddVa vaddVb vsubVa vsubVb vmulVa vmulVb vfmaVa vfmaVb vfmsVa vfmsVb vfnmaVa vfnmaVb vminVa vminVb
    vmaxVa vmaxVb vabsVa vabsVb vnegVa vnegVb vrcpeVa vrcpeVb vrsqeVa vrsqeVb vdiv vsqrt vexp2 vlog2 viaddVa viaddVb visubVa visubVb
    vimulVa vimulVb vimacVa vimacVb vandVa vandVb vorVa vorVb vxorVa vxorVb vshlVa vshlVb vshrVa vshrVb vshraVa vshraVb vfceqVa vfceqVb
    vfcltVa vfcltVb vfcleVa vfcleVb viceqVa viceqVb vicltVa vicltVb vicleVa vicleVb vselVa vselVb vmovVa vmovVb vbcstVa vbcstVb vlaneVa
    vlaneVb vextVa vextVb vcvtVa vcvtVb vpackVa vpackVb vunpkVa vunpkVb vperm vrotlVa vrotlVb vrsum vrmax vldxVa vldxVb vstxVa vstxVb
    vtrdVa vtrdVb vtcd vtrwVa vtrwVb vtcw vmskVa vmskVb viotaVa viotaVb resultLanding endpointReply phaseComplete barComplete waittRelease
    bankCleared stallTimeout safeBoundOverrun hlpRrd registerWrite hlpMrd hlpMwr hlpCpld hlpCpl hostReadTimeout moduleDisabled pcreate
    pdestroy colassign dsmassign dsmBankClearDone pooladd poolrem uashare vcreate vreset vresetComplete vdestroy credit keyload attest
    idcert deviceReset sidebandReset firmwareVerify packagePowerOn binningComplete plimWrite ltolWrite scrubctlWrite uarctxWrite
    gtcincWrite gtcadjWrite gtcsetWrite gtcSlewDone gtcHoldover loupeArm tampctlWrite vfstatDegWrite gsub gcan eqctlWrite eqheadWrite
    eventRecordWrite eqInterruptTimer arbiterEpoch fastLimiter sensorUpdate supplyExcursion meshBreak powerStateEntry wakeComplete
    portAdmit rowRefresh activationWindow patrolScrubStep hotScrubStep patrolPeriodEnd retirementCopyDone leaseIncrement leaseReply
    leaseRelease pullReadReply pullTimeout remoteRequest invalidationDone invalidationTimeout polisherClearBlock linkTraining laneLoss
    linkReplay skidSend messageLanding creditReturn collectiveStart reductionContribution collectiveComplete graphParse selectionRound
    gangToken priorityPreemption dispatch saveComplete contextRestore phaseRestart nodeRetire jobCardStart jobCardComplete caratFlush
    preemptionRequestArrival dsmBankRequest rangeRegisterFill

/-- Settles O39: the law of the operation's row. -/
theorem decodeEncode : Obligations.DecodeEncode :=
  fun i w x hwf henc => statement i hwf (w, x) henc

end Sys2Proof.Laws.RoundTrip
end

section

/-! ## Encoding what the decoder reads (O40) -/

namespace Sys2Proof

/-! ### Fields put together again from what is cut out of them (R272, R276, R278)

Where a field's check passes, the field is the number that the decoder cuts out of it, in the form in which the encoder writes it. -/

section Cut

variable {x : BitVec 6} {y : Byte}

theorem q3_lo3 (h : Fields.hi3 x = true) : q3 (Fields.lo3 x) = x := by decide +revert
theorem b2_lo2 (h : Fields.hi4 x = true) : b2 (Fields.lo2 x) = x := by decide +revert
theorem pad_lo4 (h : Fields.hi2 x = true) : 0#2 ++ Fields.lo4 x = x := by decide +revert
theorem pad_lo5 (h : Fields.hi1 x = true) : 0#1 ++ Fields.lo5 x = x := by decide +revert
theorem bit6_get (h : x.extractLsb' 1 5 = 0#5) : bit6 (x.getLsbD 0) = x := by decide +revert
theorem up3_lo3 (x : BitVec 6) : x.extractLsb' 3 3 ++ Fields.lo3 x = x := by decide +revert
theorem up2_lo4 (x : BitVec 6) : x.extractLsb' 4 2 ++ Fields.lo4 x = x := by decide +revert
theorem up2_mid2_lo2 (x : BitVec 6) : x.extractLsb' 4 2 ++ x.extractLsb' 2 2 ++ Fields.lo2 x = x := by decide +revert
theorem bit5_mid2_lo3 (x : BitVec 6) : b1 (x.getLsbD 5) ++ x.extractLsb' 3 2 ++ Fields.lo3 x = x := by decide +revert
theorem pad_mid2_lo3 (h : Fields.hi1 x = true) : 0#1 ++ x.extractLsb' 3 2 ++ Fields.lo3 x = x := by decide +revert
theorem pad_bit3_lo3 (h : Fields.hi2 x = true) : 0#2 ++ b1 (x.getLsbD 3) ++ Fields.lo3 x = x := by decide +revert
theorem pad_bit2_lo2 (h : Fields.hi3 x = true) : 0#3 ++ b1 (x.getLsbD 2) ++ Fields.lo2 x = x := by decide +revert
theorem even_lo4 (h : x.getLsbD 0 = false) : (Fields.lo4 x).getLsbD 0 = false := by decide +revert

/-- The extension byte of window rows: the rows' upper bits and the hold bits; where some of them must be zero, the others. -/
theorem rows_cut (y : Byte) :
    y.extractLsb' 6 2 ++ y.extractLsb' 4 2 ++ y.extractLsb' 2 2 ++ b1 (y.getLsbD 1) ++ b1 (y.getLsbD 0) = y := by decide +revert
theorem rows_cut_d (h : y &&& 0x3F#8 = 0#8) : y.extractLsb' 6 2 ++ 0#2 ++ 0#2 ++ b1 false ++ b1 false = y := by decide +revert
theorem rows_cut_a (h : y &&& 0xCF#8 = 0#8) : 0#2 ++ y.extractLsb' 4 2 ++ 0#2 ++ b1 false ++ b1 false = y := by decide +revert
theorem rows_cut_da (h : y &&& 0x0D#8 = 0#8) :
    y.extractLsb' 6 2 ++ y.extractLsb' 4 2 ++ 0#2 ++ b1 (y.getLsbD 1) ++ b1 false = y := by decide +revert
theorem rows_cut_ab (h : y &&& 0xC0#8 = 0#8) :
    0#2 ++ y.extractLsb' 4 2 ++ y.extractLsb' 2 2 ++ b1 (y.getLsbD 1) ++ b1 (y.getLsbD 0) = y := by decide +revert

end Cut

theorem b1_getLsbD {n : Nat} (v : BitVec n) (i : Nat) : b1 (v.getLsbD i) = v.extractLsb' i 1 := by
  ext j hj
  obtain rfl : j = 0 := by omega
  simp [b1]

/-- Neighbouring parts of a number, put together. -/
theorem extractLsb'_join {n : Nat} (v : BitVec n) (s l m : Nat) : v.extractLsb' (s + l) m ++ v.extractLsb' s l = v.extractLsb' s (m + l) :=
  BitVec.extractLsb'_append_extractLsb'_eq_extractLsb' rfl

/-- The upper and the middle part of three that are put together; the lowest is `BitVec.extractLsb'_append_eq_right`. -/
theorem extractLsb'_of_three {n : Nat} (u : BitVec n) (a b : BitVec 6) :
    (u ++ a ++ b).extractLsb' 12 n = u ∧ (u ++ a ++ b).extractLsb' 6 6 = a :=
  ⟨(BitVec.extractLsb'_append_eq_of_le (by decide)).trans BitVec.extractLsb'_append_eq_left,
    (BitVec.extractLsb'_append_eq_of_le (by decide)).trans BitVec.extractLsb'_append_eq_right⟩

theorem slotWord_cut (x : Option Byte) (w : SlotWord) :
    slotWord (cut x w).guard (cut x w).cls (cut x w).op (cut x w).d (cut x w).a (cut x w).b = w := by
  simp only [slotWord, cut, b1_getLsbD]
  rw [extractLsb'_join w 28 3, extractLsb'_join w 22 6, extractLsb'_join w 19 3, extractLsb'_join w 18 1, extractLsb'_join w 12 6,
    extractLsb'_join w 6 6, extractLsb'_join w 0 6]
  exact BitVec.extractLsb'_eq_self

/-! ### Immediates (R278, R290) -/

section Immediates

variable (f : Fields)

theorem imm14_v : f.imm14.v = f.e ++ f.b := by
  obtain ⟨g, c, o, d, a, b, _ | e⟩ := f <;> rfl
theorem imm20_v : f.imm20.v = f.e ++ f.a ++ f.b := by
  obtain ⟨g, c, o, d, a, b, _ | e⟩ := f <;> rfl

theorem imm14_lo : f.imm14.lo = f.b := by
  rw [Imm14.lo, imm14_v]
  exact BitVec.extractLsb'_append_eq_right
theorem imm20_lo : f.imm20.lo = f.b := by
  rw [Imm20.lo, imm20_v]
  exact BitVec.extractLsb'_append_eq_right
theorem imm20_mid : f.imm20.mid = f.a := by
  rw [Imm20.mid, imm20_v]
  exact (extractLsb'_of_three ..).2

theorem imm14_up : f.imm14.v.extractLsb' 6 8 = f.e := by
  rw [imm14_v]
  exact BitVec.extractLsb'_append_eq_left
theorem imm20_up : f.imm20.v.extractLsb' 12 8 = f.e := by
  rw [imm20_v]
  exact (extractLsb'_of_three ..).1

theorem imm14_ext : f.imm14.ext = f.ext := by
  have h := imm14_up f
  obtain ⟨g, c, o, d, a, b, _ | e⟩ := f
  · rfl
  · exact congrArg some h
theorem imm20_ext : f.imm20.ext = f.ext := by
  have h := imm20_up f
  obtain ⟨g, c, o, d, a, b, _ | e⟩ := f
  · rfl
  · exact congrArg some h

theorem imm14_ok : f.imm14.ok = true := by
  have h := imm14_up f
  obtain ⟨g, c, o, d, a, b, _ | e⟩ := f
  · exact beq_iff_eq.2 h
  · rfl
theorem imm20_ok : f.imm20.ok = true := by
  have h := imm20_up f
  obtain ⟨g, c, o, d, a, b, _ | e⟩ := f
  · exact beq_iff_eq.2 h
  · rfl

theorem wideExt14_getD (v : BitVec 14) : (wideExt14 v).getD 0#8 = v.extractLsb' 6 8 := by
  unfold wideExt14
  split
  next h => exact h.symm
  next => rfl
theorem wideExt20_getD (v : BitVec 20) : (wideExt20 v).getD 0#8 = v.extractLsb' 12 8 := by
  unfold wideExt20
  split
  next h => exact h.symm
  next => rfl

theorem wideExt14_imm14 : (wideExt14 f.imm14.v).getD 0#8 = f.e := (wideExt14_getD _).trans (imm14_up f)
theorem wideExt20_imm20 : (wideExt20 f.imm20.v).getD 0#8 = f.e := (wideExt20_getD _).trans (imm20_up f)

end Immediates

end Sys2Proof
end

section

namespace Sys2Proof

/-! ### Formats, one by one (R276): what a format accepts is what the encoder writes of it -/

/-- The word of the fields is the encoding of the operation, which meets its static checks; only ILLEGAL leaves an extension byte
unread. -/
def Encodes (f : Fields) (i : Instr) : Prop :=
  i.wf = true ∧ ∃ y, encode i = some (slotWord f.guard f.cls f.op f.d f.a f.b, y) ∧
    ((∃ stop p n o, i = .illegal stop p n o) ∨ y.getD 0#8 = f.e)

/-- An operation's row in the opcode table: class, opcode, static check, predicate, operand fields and extension byte. -/
def IsRow (c : BitVec 3) (n : Nat) (i : Instr) (wf : Bool) (g : Guard) (d a b : BitVec 6) (y : Option Byte) : Prop :=
  i.wf = wf ∧ encode i = some (slotWord g c (BitVec.ofNat 6 n) d a b, y)

theorem accept_eq_ok {reserved ext : Bool} {i j : Instr} :
    Fields.accept reserved ext i = .ok j ↔ reserved = true ∧ ext = true ∧ i = j := by
  cases reserved <;> cases ext <;> simp [Fields.accept]

theorem noExt_iff {f : Fields} : f.noExt = true ↔ f.e = 0#8 := beq_iff_eq

/-- A part of a part. -/
theorem extractLsb'_part {n s m t l : Nat} (v : BitVec n) (h : t + l ≤ m) :
    (v.extractLsb' s m).extractLsb' t l = v.extractLsb' (s + t) l := by
  ext j hj
  simp [BitVec.getElem_extractLsb', Nat.add_assoc, show t + j < m by omega]

/-- With a header the upper bits of SAFE's immediate are zero (R319), and so is the byte. -/
theorem e_of_safe {f : Fields} (h : (f.ext.isNone || f.imm20.v.extractLsb' 8 12 == 0#12) = true) : f.e = 0#8 := by
  obtain ⟨g, k, o, d, a, b, _ | y⟩ := f
  · rfl
  · rw [← imm20_up]
    have h12 : (Fields.imm20 ⟨g, k, o, d, a, b, some y⟩).v.extractLsb' 8 12 = 0#12 := beq_iff_eq.1 h
    exact (extractLsb'_part _ (by decide : 4 + 8 ≤ 12)).symm.trans (congrArg (BitVec.extractLsb' 4 8) h12)

/-- The selector of PRECI is the number in its D field (R364). -/
theorem shapePreci_ok {f : Fields} {i : Instr} {mk : Guard → PreciSel → BitVec 20 → Instr} (h : f.shapePreci mk = .ok i) :
    ∃ s : PreciSel, s.code = f.d ∧ s.fits f.imm20.v = true ∧ mk f.guard s f.imm20.v = i := by
  have hcode (s : PreciSel) (hs : f.d.toNat = s.code.toNat) (ha : Fields.accept (s.fits f.imm20.v) true (mk f.guard s f.imm20.v) = .ok i) :
      ∃ s : PreciSel, s.code = f.d ∧ s.fits f.imm20.v = true ∧ mk f.guard s f.imm20.v = i := by
    obtain ⟨hfit, -, hi⟩ := accept_eq_ok.1 ha
    exact ⟨s, (BitVec.eq_of_toNat_eq hs).symm, hfit, hi⟩
  simp only [Fields.shapePreci] at h
  split at h
  next hs => exact hcode .mat hs h
  next hs => exact hcode .acc hs h
  next hs => exact hcode .vec hs h
  next hs => exact hcode .all hs h
  next => cases h

section Formats

variable {f : Fields} {i : Instr} {c : BitVec 3} {n : Nat} (hf : f.cls = c ∧ f.op.toNat = n)
include hf

theorem IsRow.encodes {wf : Bool} {d a b : BitVec 6} {y : Option Byte} (hi : IsRow c n i wf f.guard d a b y) (hwf : wf = true)
    (hd : d = f.d) (ha : a = f.a) (hb : b = f.b) (hy : y.getD 0#8 = f.e) : Encodes f i := by
  obtain ⟨rfl, rfl⟩ := hf
  obtain ⟨hi, henc⟩ := hi
  rw [BitVec.ofNat_toNat, BitVec.setWidth_eq, hd, ha, hb] at henc
  exact ⟨hi.trans hwf, y, henc, .inr hy⟩

theorem shapeSss_encodes {mk : Guard → BitVec 6 → BitVec 6 → BitVec 6 → Instr} (h : f.shapeSss mk = .ok i)
    (hmk : ∀ g d a b, IsRow c n (mk g d a b) true g d a b none) : Encodes f i := by
  obtain ⟨-, he, rfl⟩ := accept_eq_ok.1 h
  exact (hmk ..).encodes hf rfl rfl rfl rfl (noExt_iff.1 he).symm

theorem shapeSs0_encodes {mk : Guard → BitVec 6 → BitVec 6 → Instr} (h : f.shapeSs0 mk = .ok i)
    (hmk : ∀ g d a, IsRow c n (mk g d a) true g d a 0 none) : Encodes f i := by
  simp only [Fields.shapeSs0, accept_eq_ok, noExt_iff, beq_iff_eq] at h
  obtain ⟨hb, he, rfl⟩ := h
  exact (hmk ..).encodes hf rfl rfl rfl hb.symm he.symm

theorem shapeSi6_encodes {mk : Guard → BitVec 6 → BitVec 6 → Imm14 → Instr} (h : f.shapeSi6 mk = .ok i)
    (hmk : ∀ g d a v, IsRow c n (mk g d a v) v.ok g d a v.lo v.ext) : Encodes f i := by
  cases h
  exact (hmk ..).encodes hf (imm14_ok f) rfl rfl (imm14_lo f) (congrArg (·.getD 0#8) (imm14_ext f))

theorem shapeSi12_encodes {mk : Guard → BitVec 6 → Imm20 → Instr} (h : f.shapeSi12 mk = .ok i)
    (hmk : ∀ g d v, IsRow c n (mk g d v) v.ok g d v.mid v.lo v.ext) : Encodes f i := by
  cases h
  exact (hmk ..).encodes hf (imm20_ok f) rfl (imm20_mid f) (imm20_lo f) (congrArg (·.getD 0#8) (imm20_ext f))

theorem shapeSh6_encodes {mk : Guard → BitVec 6 → BitVec 6 → BitVec 6 → Instr} (h : f.shapeSh6 mk = .ok i)
    (hmk : ∀ g d a v, IsRow c n (mk g d a v) true g d a v none) : Encodes f i := by
  obtain ⟨he, -, rfl⟩ := accept_eq_ok.1 h
  exact (hmk ..).encodes hf rfl rfl rfl rfl (noExt_iff.1 he).symm

theorem shapeQss_encodes {mk : Guard → BitVec 3 → BitVec 6 → BitVec 6 → Instr} (h : f.shapeQss mk = .ok i)
    (hmk : ∀ g q a b, IsRow c n (mk g q a b) true g (q3 q) a b none) : Encodes f i := by
  obtain ⟨hd, he, rfl⟩ := accept_eq_ok.1 h
  exact (hmk ..).encodes hf rfl (q3_lo3 hd) rfl rfl (noExt_iff.1 he).symm

theorem shapeQsi6_encodes {mk : Guard → BitVec 3 → BitVec 6 → Imm14 → Instr} (h : f.shapeQsi6 mk = .ok i)
    (hmk : ∀ g q a v, IsRow c n (mk g q a v) v.ok g (q3 q) a v.lo v.ext) : Encodes f i := by
  obtain ⟨hd, -, rfl⟩ := accept_eq_ok.1 h
  exact (hmk ..).encodes hf (imm14_ok f) (q3_lo3 hd) rfl (imm14_lo f) (congrArg (·.getD 0#8) (imm14_ext f))

theorem shapeQs0_encodes {mk : Guard → BitVec 3 → BitVec 6 → Instr} (h : f.shapeQs0 mk = .ok i)
    (hmk : ∀ g q a, IsRow c n (mk g q a) true g (q3 q) a 0 none) : Encodes f i := by
  simp only [Fields.shapeQs0, accept_eq_ok, noExt_iff, Bool.and_eq_true, beq_iff_eq] at h
  obtain ⟨⟨hd, hb⟩, he, rfl⟩ := h
  exact (hmk ..).encodes hf rfl (q3_lo3 hd) rfl hb.symm he.symm

theorem shapeS00_encodes {mk : Guard → BitVec 6 → Instr} (h : f.shapeS00 mk = .ok i)
    (hmk : ∀ g d, IsRow c n (mk g d) true g d 0 0 none) : Encodes f i := by
  simp only [Fields.shapeS00, accept_eq_ok, noExt_iff, Bool.and_eq_true, beq_iff_eq] at h
  obtain ⟨⟨ha, hb⟩, he, rfl⟩ := h
  exact (hmk ..).encodes hf rfl rfl ha.symm hb.symm he.symm

theorem shapeQlog_encodes {mk : Guard → BitVec 3 → BitVec 3 → BitVec 3 → BitVec 3 → Instr} (h : f.shapeQlog mk = .ok i)
    (hmk : ∀ g q qa qb o, IsRow c n (mk g q qa qb o) true g (q3 q) (q3 qa) (qb ++ o) none) : Encodes f i := by
  simp only [Fields.shapeQlog, accept_eq_ok, noExt_iff, Bool.and_eq_true] at h
  obtain ⟨⟨⟨hd, ha⟩, he⟩, -, rfl⟩ := h
  exact (hmk ..).encodes hf rfl (q3_lo3 hd) (q3_lo3 ha) (up3_lo3 f.b) he.symm

theorem shapePbr_encodes {mk : Guard → BitVec 2 → Imm20 → Instr} (h : f.shapePbr mk = .ok i)
    (hmk : ∀ g t v, IsRow c n (mk g t v) v.ok g (b2 t) v.mid v.lo v.ext) : Encodes f i := by
  obtain ⟨hd, -, rfl⟩ := accept_eq_ok.1 h
  exact (hmk ..).encodes hf (imm20_ok f) (b2_lo2 hd) (imm20_mid f) (imm20_lo f) (congrArg (·.getD 0#8) (imm20_ext f))

theorem shapePbrr_encodes {mk : Guard → BitVec 2 → BitVec 6 → Instr} (h : f.shapePbrr mk = .ok i)
    (hmk : ∀ g t a, IsRow c n (mk g t a) true g (b2 t) a 0 none) : Encodes f i := by
  simp only [Fields.shapePbrr, accept_eq_ok, noExt_iff, Bool.and_eq_true, beq_iff_eq] at h
  obtain ⟨⟨hd, hb⟩, he, rfl⟩ := h
  exact (hmk ..).encodes hf rfl (b2_lo2 hd) rfl hb.symm he.symm

theorem shapeBt_encodes {mk : Guard → BitVec 2 → Instr} (h : f.shapeBt mk = .ok i)
    (hmk : ∀ g t, IsRow c n (mk g t) true g (b2 t) 0 0 none) : Encodes f i := by
  simp only [Fields.shapeBt, accept_eq_ok, noExt_iff, Bool.and_eq_true, beq_iff_eq] at h
  obtain ⟨⟨⟨hd, ha⟩, hb⟩, he, rfl⟩ := h
  exact (hmk ..).encodes hf rfl (b2_lo2 hd) ha.symm hb.symm he.symm

theorem shapeZ_encodes {mk : Guard → Instr} (h : f.shapeZ mk = .ok i) (hmk : ∀ g, IsRow c n (mk g) true g 0 0 0 none) : Encodes f i := by
  simp only [Fields.shapeZ, accept_eq_ok, noExt_iff, Bool.and_eq_true, beq_iff_eq] at h
  obtain ⟨⟨⟨hd, ha⟩, hb⟩, he, rfl⟩ := h
  exact (hmk ..).encodes hf rfl hd.symm ha.symm hb.symm he.symm

theorem shapeBar_encodes {mk : Guard → Instr} (h : f.shapeBar mk = .ok i) (hmk : ∀ g, IsRow c n (mk g) true g 0 0 0 none) :
    Encodes f i := by
  simp only [Fields.shapeBar, accept_eq_ok, noExt_iff, Bool.and_eq_true, beq_iff_eq] at h
  obtain ⟨⟨⟨⟨hd, ha⟩, hb⟩, he⟩, -, rfl⟩ := h
  exact (hmk ..).encodes hf rfl hd.symm ha.symm hb.symm he.symm

theorem shapeLoop_encodes {mk : Guard → BitVec 3 → BitVec 6 → BitVec 2 → Instr} (h : f.shapeLoop mk = .ok i)
    (hmk : ∀ g l a t, IsRow c n (mk g l a t) (l.toNat ≤ 5) g (q3 l) a (b2 t) none) : Encodes f i := by
  simp only [Fields.shapeLoop, accept_eq_ok, noExt_iff, Bool.and_eq_true] at h
  obtain ⟨⟨⟨hd, hl⟩, hb⟩, he, rfl⟩ := h
  exact (hmk ..).encodes hf hl (q3_lo3 hd) rfl (b2_lo2 hb) he.symm

theorem shapeLoopi_encodes {mk : Guard → BitVec 3 → BitVec 2 → BitVec 20 → Instr} (h : f.shapeLoopi mk = .ok i)
    (hmk : ∀ g l t v, IsRow c n (mk g l t v) (l.toNat ≤ 5) g (0#1 ++ t ++ l) (Imm20.mk true v).mid (Imm20.mk true v).lo (wideExt20 v)) :
    Encodes f i := by
  simp only [Fields.shapeLoopi, accept_eq_ok, Bool.and_eq_true] at h
  obtain ⟨⟨hd, hl⟩, -, rfl⟩ := h
  exact (hmk ..).encodes hf hl (pad_mid2_lo3 hd) (imm20_mid f) (imm20_lo f) (wideExt20_imm20 f)

theorem shapeLstr_encodes {mk : Guard → BitVec 3 → BitVec 6 → Imm14 → Instr} (h : f.shapeLstr mk = .ok i)
    (hmk : ∀ g l a v, IsRow c n (mk g l a v) (v.ok && l.toNat ≤ 5) g (q3 l) a v.lo v.ext) : Encodes f i := by
  simp only [Fields.shapeLstr, accept_eq_ok, Bool.and_eq_true] at h
  obtain ⟨⟨hd, hl⟩, -, rfl⟩ := h
  exact (hmk ..).encodes hf (Bool.and_eq_true_iff.2 ⟨imm14_ok f, hl⟩) (q3_lo3 hd) rfl (imm14_lo f) (congrArg (·.getD 0#8) (imm14_ext f))

theorem shapeLidx_encodes {mk : Guard → BitVec 6 → BitVec 3 → Instr} (h : f.shapeLidx mk = .ok i)
    (hmk : ∀ g d l, IsRow c n (mk g d l) (l.toNat ≤ 5) g d (q3 l) 0 none) : Encodes f i := by
  simp only [Fields.shapeLidx, accept_eq_ok, noExt_iff, Bool.and_eq_true, beq_iff_eq] at h
  obtain ⟨⟨⟨ha, hl⟩, hb⟩, he, rfl⟩ := h
  exact (hmk ..).encodes hf hl rfl (q3_lo3 ha) hb.symm he.symm

theorem shapeLbrk_encodes {mk : Guard → BitVec 3 → Instr} (h : f.shapeLbrk mk = .ok i)
    (hmk : ∀ g l, IsRow c n (mk g l) (l.toNat ≤ 5) g (q3 l) 0 0 none) : Encodes f i := by
  simp only [Fields.shapeLbrk, accept_eq_ok, noExt_iff, Bool.and_eq_true, beq_iff_eq] at h
  obtain ⟨⟨⟨⟨hd, hl⟩, ha⟩, hb⟩, he, rfl⟩ := h
  exact (hmk ..).encodes hf hl (q3_lo3 hd) ha.symm hb.symm he.symm

theorem shapeSpawn_encodes {mk : Guard → BitVec 2 → BitVec 6 → BitVec 2 → Instr} (h : f.shapeSpawn mk = .ok i)
    (hmk : ∀ g k a t, IsRow c n (mk g k a t) true g (b2 k) a (b2 t) none) : Encodes f i := by
  simp only [Fields.shapeSpawn, accept_eq_ok, noExt_iff, Bool.and_eq_true] at h
  obtain ⟨⟨hd, hb⟩, he, rfl⟩ := h
  exact (hmk ..).encodes hf rfl (b2_lo2 hd) rfl (b2_lo2 hb) he.symm

theorem shapeSafe_encodes {mk : Guard → BitVec 12 → Instr} (h : f.shapeSafe mk = .ok i)
    (hmk : ∀ g v, IsRow c n (mk g v) true g 0 (v.extractLsb' 6 6) (v.extractLsb' 0 6) none) : Encodes f i := by
  simp only [Fields.shapeSafe, accept_eq_ok, Bool.and_eq_true (_ == _), beq_iff_eq] at h
  obtain ⟨⟨hd, he⟩, -, rfl⟩ := h
  exact (hmk ..).encodes hf rfl hd.symm BitVec.extractLsb'_append_eq_left BitVec.extractLsb'_append_eq_right (e_of_safe he).symm

theorem shapeI20_encodes {mk : Guard → BitVec 20 → Instr} (h : f.shapeI20 mk = .ok i)
    (hmk : ∀ g v, IsRow c n (mk g v) true g 0 (Imm20.mk true v).mid (Imm20.mk true v).lo (wideExt20 v)) : Encodes f i := by
  simp only [Fields.shapeI20, accept_eq_ok, beq_iff_eq] at h
  obtain ⟨hd, -, rfl⟩ := h
  exact (hmk ..).encodes hf rfl hd.symm (imm20_mid f) (imm20_lo f) (wideExt20_imm20 f)

theorem shapeTret_encodes {mk : Guard → Bool → Instr} (h : f.shapeTret mk = .ok i)
    (hmk : ∀ g v, IsRow c n (mk g v) true g 0 0 (bit6 v) none) : Encodes f i := by
  simp only [Fields.shapeTret, accept_eq_ok, noExt_iff, Bool.and_eq_true, beq_iff_eq] at h
  obtain ⟨⟨⟨⟨hd, ha⟩, he⟩, hb⟩, -, rfl⟩ := h
  exact (hmk ..).encodes hf rfl hd.symm ha.symm (bit6_get hb) he.symm

theorem shapeVote_encodes {mk : Guard → BitVec 3 → BitVec 3 → Instr} (h : f.shapeVote mk = .ok i)
    (hmk : ∀ g q m, IsRow c n (mk g q m) true g (q3 q) (q3 m) 0 none) : Encodes f i := by
  simp only [Fields.shapeVote, accept_eq_ok, noExt_iff, Bool.and_eq_true, beq_iff_eq] at h
  obtain ⟨⟨⟨hd, ha⟩, hb⟩, he, rfl⟩ := h
  exact (hmk ..).encodes hf rfl (q3_lo3 hd) (q3_lo3 ha) hb.symm he.symm

theorem shapeA_encodes {mk : Guard → BitVec 6 → Instr} (h : f.shapeA mk = .ok i)
    (hmk : ∀ g a, IsRow c n (mk g a) true g 0 a 0 none) : Encodes f i := by
  simp only [Fields.shapeA, accept_eq_ok, noExt_iff, Bool.and_eq_true, beq_iff_eq] at h
  obtain ⟨⟨hd, hb⟩, he, rfl⟩ := h
  exact (hmk ..).encodes hf rfl hd.symm rfl hb.symm he.symm

theorem shapePsel_encodes {mk : Guard → BitVec 8 → BitVec 6 → Instr} (h : f.shapePsel mk = .ok i)
    (hmk : ∀ g t a, IsRow c n (mk g t a) true g (b2 (t.extractLsb' 6 2)) a (t.extractLsb' 0 6) none) : Encodes f i := by
  obtain ⟨hd, he, rfl⟩ := accept_eq_ok.1 h
  refine (hmk ..).encodes hf rfl ?_ rfl BitVec.extractLsb'_append_eq_right (noExt_iff.1 he).symm
  rw [BitVec.extractLsb'_append_eq_left, b2_lo2 hd]

theorem shapeSend_encodes {mk : Guard → BitVec 5 → BitVec 8 → BitVec 2 → Instr} (h : f.shapeSend mk = .ok i)
    (hmk : ∀ g k v j, IsRow c n (mk g k v j) true g (0#1 ++ k) (v.extractLsb' 0 6) (b2 j) (rowExt 0 (v.extractLsb' 6 2) 0 false false)) :
    Encodes f i := by
  simp only [Fields.shapeSend, accept_eq_ok, Bool.and_eq_true, beq_iff_eq] at h
  obtain ⟨⟨hd, hb⟩, he, rfl⟩ := h
  refine (hmk ..).encodes hf rfl (pad_lo5 hd) BitVec.extractLsb'_append_eq_right (b2_lo2 hb) ?_
  rw [rowExt_e, Fields.rowA, BitVec.extractLsb'_append_eq_left]
  exact rows_cut_a he

theorem shapeRecv_encodes {mk : Guard → BitVec 8 → BitVec 5 → BitVec 2 → Instr} (h : f.shapeRecv mk = .ok i)
    (hmk : ∀ g v k j, IsRow c n (mk g v k j) true g (v.extractLsb' 0 6) (0#1 ++ k) (b2 j) (rowExt (v.extractLsb' 6 2) 0 0 false false)) :
    Encodes f i := by
  simp only [Fields.shapeRecv, accept_eq_ok, Bool.and_eq_true, beq_iff_eq] at h
  obtain ⟨⟨ha, hb⟩, he, rfl⟩ := h
  refine (hmk ..).encodes hf rfl BitVec.extractLsb'_append_eq_right (pad_lo5 ha) (b2_lo2 hb) ?_
  rw [rowExt_e, Fields.rowD, BitVec.extractLsb'_append_eq_left]
  exact rows_cut_d he

theorem shapeSends_encodes {mk : Guard → BitVec 5 → BitVec 6 → Instr} (h : f.shapeSends mk = .ok i)
    (hmk : ∀ g k a, IsRow c n (mk g k a) true g (0#1 ++ k) a 0 none) : Encodes f i := by
  simp only [Fields.shapeSends, accept_eq_ok, noExt_iff, Bool.and_eq_true, beq_iff_eq] at h
  obtain ⟨⟨hd, hb⟩, he, rfl⟩ := h
  exact (hmk ..).encodes hf rfl (pad_lo5 hd) rfl hb.symm he.symm

theorem shapeRecvs_encodes {mk : Guard → BitVec 6 → BitVec 5 → Instr} (h : f.shapeRecvs mk = .ok i)
    (hmk : ∀ g d k, IsRow c n (mk g d k) true g d (0#1 ++ k) 0 none) : Encodes f i := by
  simp only [Fields.shapeRecvs, accept_eq_ok, noExt_iff, Bool.and_eq_true, beq_iff_eq] at h
  obtain ⟨⟨ha, hb⟩, he, rfl⟩ := h
  exact (hmk ..).encodes hf rfl rfl (pad_lo5 ha) hb.symm he.symm

theorem shapeMask6_encodes {mk : Guard → BitVec 6 → Instr} (h : f.shapeMask6 mk = .ok i)
    (hmk : ∀ g m, IsRow c n (mk g m) true g 0 0 m none) : Encodes f i := by
  simp only [Fields.shapeMask6, accept_eq_ok, noExt_iff, Bool.and_eq_true, beq_iff_eq] at h
  obtain ⟨⟨⟨hd, ha⟩, he⟩, -, rfl⟩ := h
  exact (hmk ..).encodes hf rfl hd.symm ha.symm rfl he.symm

theorem shapePreci_encodes {mk : Guard → PreciSel → BitVec 20 → Instr} (h : f.shapePreci mk = .ok i)
    (hmk : ∀ g s v, IsRow c n (mk g s v) (s.fits v) g s.code (Imm20.mk true v).mid (Imm20.mk true v).lo (wideExt20 v)) : Encodes f i := by
  obtain ⟨s, hd, hs, rfl⟩ := shapePreci_ok h
  exact (hmk ..).encodes hf hs hd (imm20_mid f) (imm20_lo f) (wideExt20_imm20 f)

theorem shapeShape_encodes {mk : Guard → BitVec 2 → Bool → BitVec 6 → BitVec 6 → Instr} (h : f.shapeShape mk = .ok i)
    (hmk : ∀ g m v a b, IsRow c n (mk g m v a b) (!v || b == 0#6) g (0#3 ++ b1 v ++ m) a b none) : Encodes f i := by
  obtain ⟨hd, he, rfl⟩ := accept_eq_ok.1 h
  obtain ⟨hd, hb⟩ := Bool.and_eq_true_iff.1 hd
  exact (hmk ..).encodes hf hb (pad_bit2_lo2 hd) rfl rfl (noExt_iff.1 he).symm

theorem shapeView_encodes {mk : Guard → BitVec 5 → BitVec 6 → BitVec 6 → Instr} (h : f.shapeView mk = .ok i)
    (hmk : ∀ g v a b, IsRow c n (mk g v a b) (v.toNat ≤ 12) g (0#1 ++ v) a b none) : Encodes f i := by
  obtain ⟨hd, he, rfl⟩ := accept_eq_ok.1 h
  obtain ⟨hd, hv⟩ := Bool.and_eq_true_iff.1 hd
  exact (hmk ..).encodes hf hv (pad_lo5 hd) rfl rfl (noExt_iff.1 he).symm

theorem shapeViewq_encodes {mk : Guard → BitVec 6 → BitVec 4 → Instr} (h : f.shapeViewq mk = .ok i)
    (hmk : ∀ g d v, IsRow c n (mk g d v) (v.toNat ≤ 11) g d (0#2 ++ v) 0 none) : Encodes f i := by
  simp only [Fields.shapeViewq, accept_eq_ok, noExt_iff, Bool.and_eq_true, beq_iff_eq] at h
  obtain ⟨⟨⟨ha, hv⟩, hb⟩, he, rfl⟩ := h
  exact (hmk ..).encodes hf hv rfl (pad_lo4 ha) hb.symm he.symm

theorem shapeCr_encodes {mk : Guard → BitVec 6 → BitVec 8 → Instr} (h : f.shapeCr mk = .ok i)
    (hmk : ∀ g d x, IsRow c n (mk g d x) true g d (b2 (x.extractLsb' 6 2)) (x.extractLsb' 0 6) none) : Encodes f i := by
  simp only [Fields.shapeCr, accept_eq_ok, noExt_iff, Bool.and_eq_true] at h
  obtain ⟨⟨ha, he⟩, -, rfl⟩ := h
  refine (hmk ..).encodes hf rfl rfl ?_ BitVec.extractLsb'_append_eq_right he.symm
  rw [BitVec.extractLsb'_append_eq_left, b2_lo2 ha]

theorem shapeStat_encodes {mk : Guard → BitVec 6 → BitVec 2 → BitVec 4 → Instr} (h : f.shapeStat mk = .ok i)
    (hmk : ∀ g d j e, IsRow c n (mk g d j e) true g d 0 (j ++ e) none) : Encodes f i := by
  simp only [Fields.shapeStat, accept_eq_ok, noExt_iff, Bool.and_eq_true, beq_iff_eq] at h
  obtain ⟨⟨ha, he⟩, -, rfl⟩ := h
  exact (hmk ..).encodes hf rfl rfl ha.symm (up2_lo4 f.b) he.symm

theorem shapeCdsc_encodes {mk : Guard → BitVec 4 → BitVec 6 → BitVec 6 → Instr} (h : f.shapeCdsc mk = .ok i)
    (hmk : ∀ g k a b, IsRow c n (mk g k a b) true g (0#2 ++ k) a b none) : Encodes f i := by
  obtain ⟨hd, he, rfl⟩ := accept_eq_ok.1 h
  exact (hmk ..).encodes hf rfl (pad_lo4 hd) rfl rfl (noExt_iff.1 he).symm

theorem shapeMma_encodes {mk : Guard → BitVec 2 → BitVec 3 → BitVec 3 → Instr} (h : f.shapeMma mk = .ok i)
    (hmk : ∀ g s x y, IsRow c n (mk g s x y) (s != 3#2) g (b2 s) (q3 x) (q3 y) none) : Encodes f i := by
  simp only [Fields.shapeMma, accept_eq_ok, noExt_iff, Bool.and_eq_true] at h
  obtain ⟨⟨⟨⟨hd, hs⟩, ha⟩, hb⟩, he, rfl⟩ := h
  exact (hmk ..).encodes hf hs (b2_lo2 hd) (q3_lo3 ha) (q3_lo3 hb) he.symm

theorem shapeMdrn_encodes {mk : Guard → BitVec 2 → BitVec 2 → BitVec 2 → Bool → Instr} (h : f.shapeMdrn mk = .ok i)
    (hmk : ∀ g t u s v, IsRow c n (mk g t u s v) (s != 3#2 && t != 3#2) g (t ++ u ++ s) (bit6 v) 0 none) : Encodes f i := by
  simp only [Fields.shapeMdrn, accept_eq_ok, noExt_iff, Bool.and_eq_true, beq_iff_eq] at h
  obtain ⟨⟨⟨⟨ht, hs⟩, ha⟩, hb⟩, he, rfl⟩ := h
  exact (hmk ..).encodes hf (Bool.and_eq_true_iff.2 ⟨hs, ht⟩) (up2_mid2_lo2 f.d) (bit6_get ha) hb.symm he.symm

theorem shapeMscl_encodes {mk : Guard → Bool → BitVec 3 → Instr} (h : f.shapeMscl mk = .ok i)
    (hmk : ∀ g v x, IsRow c n (mk g v x) true g (bit6 v) (q3 x) 0 none) : Encodes f i := by
  simp only [Fields.shapeMscl, accept_eq_ok, noExt_iff, Bool.and_eq_true, beq_iff_eq] at h
  obtain ⟨⟨⟨hd, ha⟩, hb⟩, he, rfl⟩ := h
  exact (hmk ..).encodes hf rfl (bit6_get hd) (q3_lo3 ha) hb.symm he.symm

theorem shapeMvcn_encodes {mk : Guard → Bool → BitVec 16 → Instr} (h : f.shapeMvcn mk = .ok i)
    (hmk : ∀ g e v, IsRow c n (mk g e v) true g (bit6 e) (Imm20.mk true (0#4 ++ v)).mid (Imm20.mk true (0#4 ++ v)).lo
      (wideExt20 (0#4 ++ v))) : Encodes f i := by
  simp only [Fields.shapeMvcn, accept_eq_ok, Bool.and_eq_true, beq_iff_eq] at h
  obtain ⟨⟨hd, hv⟩, -, rfl⟩ := h
  have hwhole : 0#4 ++ f.imm20.v.extractLsb' 0 16 = f.imm20.v := by
    rw [← hv]
    exact BitVec.extractLsb'_append_extractLsb'
  have hrow := hmk f.guard (f.d.getLsbD 0) (f.imm20.v.extractLsb' 0 16)
  rw [hwhole] at hrow
  exact hrow.encodes hf rfl (bit6_get hd) (imm20_mid f) (imm20_lo f) (wideExt20_imm20 f)

theorem shapeMmat_encodes {mk : Guard → BitVec 2 → BitVec 2 → BitVec 2 → BitVec 3 → BitVec 3 → Instr} (h : f.shapeMmat mk = .ok i)
    (hmk : ∀ g t u s x y, IsRow c n (mk g t u s x y) (s != 3#2 && t != 3#2) g (t ++ u ++ s) (q3 x) (q3 y) none) : Encodes f i := by
  simp only [Fields.shapeMmat, accept_eq_ok, noExt_iff, Bool.and_eq_true] at h
  obtain ⟨⟨⟨⟨ht, hs⟩, ha⟩, hb⟩, he, rfl⟩ := h
  exact (hmk ..).encodes hf (Bool.and_eq_true_iff.2 ⟨hs, ht⟩) (up2_mid2_lo2 f.d) (q3_lo3 ha) (q3_lo3 hb) he.symm

/-- The static check `wf` of a copy is about its descriptor number alone. -/
theorem shapeCpy_encodes {mk : Guard → Bool → BitVec 3 → BitVec 4 → BitVec 6 → Instr} {wf : BitVec 4 → Bool} (h : f.shapeCpy mk = .ok i)
    (hwf : wf (Fields.lo4 f.a) = true)
    (hmk : ∀ g r u k b, IsRow c n (mk g r u k b) (wf k) g (0#2 ++ b1 r ++ u) (0#2 ++ k) b none) : Encodes f i := by
  simp only [Fields.shapeCpy, accept_eq_ok, noExt_iff, Bool.and_eq_true] at h
  obtain ⟨⟨hd, ha⟩, he, rfl⟩ := h
  exact (hmk ..).encodes hf hwf (pad_bit3_lo3 hd) (pad_lo4 ha) rfl he.symm

theorem shapeCpl_encodes {mk : Guard → Bool → BitVec 3 → BitVec 4 → Instr} (h : f.shapeCpl mk = .ok i)
    (hmk : ∀ g r u k, IsRow c n (mk g r u k) true g (0#2 ++ b1 r ++ u) (0#2 ++ k) 0 none) : Encodes f i := by
  simp only [Fields.shapeCpl, accept_eq_ok, noExt_iff, Bool.and_eq_true, beq_iff_eq] at h
  obtain ⟨⟨⟨hd, ha⟩, hb⟩, he, rfl⟩ := h
  exact (hmk ..).encodes hf rfl (pad_bit3_lo3 hd) (pad_lo4 ha) hb.symm he.symm

theorem shapeVvv_encodes {mk : Guard → BitVec 8 → VOp → VOp → Instr} (h : f.shapeVvv mk = .ok i)
    (hmk : ∀ g d a b, IsRow c n (mk g d a b) true g (d.extractLsb' 0 6) a.lo b.lo (rowExt (d.extractLsb' 6 2) a.hi b.hi a.hold b.hold)) :
    Encodes f i := by
  cases h
  refine (hmk ..).encodes hf rfl BitVec.extractLsb'_append_eq_right BitVec.extractLsb'_append_eq_right
    BitVec.extractLsb'_append_eq_right ?_
  rw [rowExt_e, Fields.rowD, Fields.rowA, Fields.rowB, VOp.hi, VOp.hi, BitVec.extractLsb'_append_eq_left,
    BitVec.extractLsb'_append_eq_left, BitVec.extractLsb'_append_eq_left]
  exact rows_cut f.e

theorem shapeVv0_encodes {mk : Guard → BitVec 8 → VOp → Instr} (h : f.shapeVv0 mk = .ok i)
    (hmk : ∀ g d a, IsRow c n (mk g d a) true g (d.extractLsb' 0 6) a.lo 0 (rowExt (d.extractLsb' 6 2) a.hi 0 a.hold false)) :
    Encodes f i := by
  simp only [Fields.shapeVv0, accept_eq_ok, beq_iff_eq] at h
  obtain ⟨hb, he, rfl⟩ := h
  refine (hmk ..).encodes hf rfl BitVec.extractLsb'_append_eq_right BitVec.extractLsb'_append_eq_right hb.symm ?_
  rw [rowExt_e, Fields.rowD, Fields.rowA, VOp.hi, BitVec.extractLsb'_append_eq_left, BitVec.extractLsb'_append_eq_left]
  exact rows_cut_da he

theorem shapeVcmp_encodes {mk : Guard → BitVec 3 → VOp → VOp → Instr} (h : f.shapeVcmp mk = .ok i)
    (hmk : ∀ g m a b, IsRow c n (mk g m a b) true g (q3 m) a.lo b.lo (rowExt 0 a.hi b.hi a.hold b.hold)) : Encodes f i := by
  simp only [Fields.shapeVcmp, accept_eq_ok, beq_iff_eq] at h
  obtain ⟨hd, he, rfl⟩ := h
  refine (hmk ..).encodes hf rfl (q3_lo3 hd) BitVec.extractLsb'_append_eq_right BitVec.extractLsb'_append_eq_right ?_
  rw [rowExt_e, Fields.rowA, Fields.rowB, VOp.hi, VOp.hi, BitVec.extractLsb'_append_eq_left, BitVec.extractLsb'_append_eq_left]
  exact rows_cut_ab he

theorem shapeVmsk_encodes {mk : Guard → BitVec 3 → BitVec 3 → BitVec 3 → BitVec 3 → Instr} (h : f.shapeVmsk mk = .ok i)
    (hmk : ∀ g m ma mb o, IsRow c n (mk g m ma mb o) true g (q3 m) (q3 ma) (o ++ mb) none) : Encodes f i := by
  simp only [Fields.shapeVmsk, accept_eq_ok, noExt_iff, Bool.and_eq_true] at h
  obtain ⟨⟨hd, ha⟩, he, rfl⟩ := h
  exact (hmk ..).encodes hf rfl (q3_lo3 hd) (q3_lo3 ha) (up3_lo3 f.b) he.symm

theorem shapeViota_encodes {mk : Guard → BitVec 8 → BitVec 6 → BitVec 6 → Instr} (h : f.shapeViota mk = .ok i)
    (hmk : ∀ g d a b, IsRow c n (mk g d a b) true g (d.extractLsb' 0 6) a b (rowExt (d.extractLsb' 6 2) 0 0 false false)) :
    Encodes f i := by
  simp only [Fields.shapeViota, accept_eq_ok, beq_iff_eq] at h
  obtain ⟨-, he, rfl⟩ := h
  refine (hmk ..).encodes hf rfl BitVec.extractLsb'_append_eq_right rfl rfl ?_
  rw [rowExt_e, Fields.rowD, BitVec.extractLsb'_append_eq_left]
  exact rows_cut_d he

theorem shapeVbcst_encodes {mk : Guard → BitVec 8 → BitVec 6 → Instr} (h : f.shapeVbcst mk = .ok i)
    (hmk : ∀ g d a, IsRow c n (mk g d a) true g (d.extractLsb' 0 6) a 0 (rowExt (d.extractLsb' 6 2) 0 0 false false)) : Encodes f i := by
  simp only [Fields.shapeVbcst, accept_eq_ok, beq_iff_eq] at h
  obtain ⟨hb, he, rfl⟩ := h
  refine (hmk ..).encodes hf rfl BitVec.extractLsb'_append_eq_right rfl hb.symm ?_
  rw [rowExt_e, Fields.rowD, BitVec.extractLsb'_append_eq_left]
  exact rows_cut_d he

/-- VLANE, VEXT and VROTL: an immediate of 14 bits that is zero-extended (R339, R340). -/
theorem shapeVlane_encodes {mk : Guard → BitVec 6 → BitVec 6 → BitVec 14 → Instr} (h : f.shapeVlane mk = .ok i)
    (hmk : ∀ g d a v, IsRow c n (mk g d a v) true g d a (v.extractLsb' 0 6) (wideExt14 v)) : Encodes f i := by
  cases h
  exact (hmk ..).encodes hf rfl rfl rfl (imm14_lo f) (wideExt14_imm14 f)

theorem shapeVcvt_encodes {mk : Guard → BitVec 6 → BitVec 6 → BitVec 3 → BitVec 3 → BitVec 2 → Bool → Instr}
    (h : f.shapeVcvt mk = .ok i) (hmk : ∀ g d a dst src part sat, IsRow c n (mk g d a dst src part sat) (cvtOk dst src part sat) g d a
      (src ++ dst) (wideExt14 (0#5 ++ b1 sat ++ part ++ src ++ dst))) : Encodes f i := by
  simp only [Fields.shapeVcvt, accept_eq_ok, Bool.and_eq_true (_ == _), beq_iff_eq] at h
  obtain ⟨⟨hv, hok⟩, -, rfl⟩ := h
  refine (hmk ..).encodes hf hok rfl rfl ((extractLsb'_join f.imm14.v 0 3 3).trans (imm14_lo f)) ?_
  rw [← hv, b1_getLsbD, extractLsb'_join _ 8 1, extractLsb'_join _ 6 2, extractLsb'_join _ 3 3, extractLsb'_join _ 0 3]
  exact (congrArg (fun v => (wideExt14 v).getD 0#8) BitVec.extractLsb'_eq_self).trans (wideExt14_imm14 f)

theorem shapeVpack_encodes {mk : Guard → BitVec 6 → BitVec 6 → BitVec 3 → BitVec 2 → Bool → Instr} (h : f.shapeVpack mk = .ok i)
    (hmk : ∀ g d a t y x, IsRow c n (mk g d a t y x) (packFmt t) g d a (b1 x ++ y ++ t) none) : Encodes f i := by
  simp only [Fields.shapeVpack, accept_eq_ok, noExt_iff, Bool.and_eq_true] at h
  obtain ⟨⟨he, ht⟩, -, rfl⟩ := h
  exact (hmk ..).encodes hf ht rfl rfl (bit5_mid2_lo3 f.b) he.symm

theorem shapeVunpk_encodes {mk : Guard → BitVec 6 → BitVec 6 → BitVec 3 → BitVec 2 → Instr} (h : f.shapeVunpk mk = .ok i)
    (hmk : ∀ g d a t y, IsRow c n (mk g d a t y) (packFmt t) g d a (0#1 ++ y ++ t) none) : Encodes f i := by
  simp only [Fields.shapeVunpk, accept_eq_ok, noExt_iff, Bool.and_eq_true] at h
  obtain ⟨⟨⟨he, ht⟩, hb⟩, -, rfl⟩ := h
  exact (hmk ..).encodes hf ht rfl rfl (pad_mid2_lo3 hb) he.symm

theorem shapeVtrd_encodes {mk : Guard → BitVec 6 → BitVec 3 → BitVec 6 → BitVec 8 → Instr} (h : f.shapeVtrd mk = .ok i)
    (hmk : ∀ g d t a r, IsRow c n (mk g d t a r) true g d a (r.extractLsb' 0 3 ++ t) (wideExt14 (0#3 ++ r ++ t))) : Encodes f i := by
  simp only [Fields.shapeVtrd, accept_eq_ok, beq_iff_eq] at h
  obtain ⟨hv, -, rfl⟩ := h
  have hlo : Fields.lo3 f.b = f.imm14.v.extractLsb' 0 3 := by
    rw [imm14_v, BitVec.extractLsb'_append_eq_of_add_le (by decide)]
    rfl
  refine (hmk ..).encodes hf rfl rfl rfl ?_ ?_
  · rw [hlo, extractLsb'_part _ (by decide)]
    exact (extractLsb'_join f.imm14.v 0 3 3).trans (imm14_lo f)
  · rw [← hv, hlo, extractLsb'_join _ 3 8, extractLsb'_join _ 0 3]
    exact (congrArg (fun v => (wideExt14 v).getD 0#8) BitVec.extractLsb'_eq_self).trans (wideExt14_imm14 f)

theorem shapeVtcd_encodes {mk : Guard → BitVec 6 → BitVec 3 → BitVec 6 → Instr} (h : f.shapeVtcd mk = .ok i)
    (hmk : ∀ g d t a, IsRow c n (mk g d t a) true g d a (q3 t) none) : Encodes f i := by
  simp only [Fields.shapeVtcd, accept_eq_ok, noExt_iff, Bool.and_eq_true] at h
  obtain ⟨⟨he, hb⟩, -, rfl⟩ := h
  exact (hmk ..).encodes hf rfl rfl rfl (q3_lo3 hb) he.symm

theorem shapeCpdi_encodes (h : f.shapeCpdi = .ok i)
    (hmk : ∀ g r u k b, IsRow c n (.cpdi g r u k b) (k.getLsbD 0 == false) g (0#2 ++ b1 r ++ u) (0#2 ++ k) b none) : Encodes f i := by
  simp only [Fields.shapeCpdi] at h
  split at h
  next => cases h
  next hodd => exact shapeCpy_encodes (wf := fun k => k.getLsbD 0 == false) hf h (beq_iff_eq.2 (even_lo4 (Bool.eq_false_iff.2 hodd))) hmk

theorem shapeSvc_encodes (h : f.shapeSvc = .ok i) (hyield : ∀ g, IsRow c n (.svcYield g) true g 0 0 0 none)
    (hflush : ∀ g, IsRow c n (.svcFlush g) true g 0 0 1 none) : Encodes f i := by
  simp only [Fields.shapeSvc, noExt_iff, Bool.and_eq_true, beq_iff_eq] at h
  split at h
  next hz =>
    obtain ⟨⟨⟨hd, ha⟩, he⟩, hb⟩ := hz
    cases h
    exact (hyield _).encodes hf rfl hd.symm ha.symm hb.symm he.symm
  next =>
    split at h
    next hz =>
      obtain ⟨⟨⟨hd, ha⟩, he⟩, hb⟩ := hz
      cases h
      exact (hflush _).encodes hf rfl hd.symm ha.symm hb.symm he.symm
    next => cases h

/-- NOP's predicate fields are zero (R281). -/
theorem shapeNop_encodes (h : f.shapeNop = .ok i) (hmk : ∀ stop, IsRow c n (.nop stop) true ⟨stop, 0, false⟩ 0 0 0 none) :
    Encodes f i := by
  simp only [Fields.shapeNop, accept_eq_ok, noExt_iff, Bool.and_eq_true, beq_iff_eq] at h
  obtain ⟨⟨⟨⟨⟨hp, hn⟩, hd⟩, ha⟩, hb⟩, he, rfl⟩ := h
  have hg : ⟨f.guard.stop, 0, false⟩ = f.guard := by
    rw [show (0 : BitVec 3) = f.guard.p from hp.symm, ← hn]
  exact (hg ▸ hmk _).encodes hf rfl hd.symm ha.symm hb.symm he.symm

end Formats

/-- ILLEGAL keeps its operand bits and leaves the extension byte unread (R284). -/
theorem illegal_encodes {f : Fields} (hc : f.cls = 0#3) (ho : f.op = 0#6) :
    Encodes f (.illegal f.guard.stop f.guard.p f.guard.n (f.d ++ f.a ++ f.b)) := by
  refine ⟨rfl, none, ?_, .inl ⟨_, _, _, _, rfl⟩⟩
  obtain ⟨hd, ha⟩ := extractLsb'_of_three f.d f.a f.b
  have hb : (f.d ++ f.a ++ f.b).extractLsb' 0 6 = f.b := BitVec.extractLsb'_append_eq_right
  rw [encode, hd, ha, hb, hc, ho]
  rfl

end Sys2Proof
end

section

namespace Sys2Proof

/-! ### Classes, one by one (R285): the rows of a format together -/

section Classes

variable {f : Fields} {i : Instr}

theorem decodeScalar_encodes (hc : f.cls = 0#3) (h : decodeScalar f = .ok i) : Encodes f i := by
  unfold decodeScalar at h
  split at h
  case h_1 hn => exact shapeNop_encodes ⟨hc, hn⟩ h fun _ => ⟨rfl, rfl⟩
  case h_2 hn =>
    cases h
    exact illegal_encodes hc (BitVec.eq_of_toNat_eq hn)
  case h_3 hn | h_4 hn | h_7 hn | h_8 hn | h_9 hn | h_10 hn | h_11 hn | h_12 hn | h_13 hn | h_14 hn | h_15 hn | h_16 hn | h_20 hn |
      h_21 hn | h_22 hn | h_26 hn | h_29 hn | h_30 hn | h_31 hn | h_32 hn | h_33 hn | h_42 hn | h_54 hn | h_55 hn | h_56 hn | h_57 hn |
      h_58 hn | h_59 hn =>
    exact shapeSss_encodes ⟨hc, hn⟩ h fun _ _ _ _ => ⟨rfl, rfl⟩
  case h_5 hn | h_17 hn | h_18 hn | h_19 hn | h_43 hn | h_44 hn | h_45 hn | h_46 hn | h_47 hn | h_48 hn | h_49 hn | h_50 hn | h_51 hn |
      h_52 hn | h_53 hn =>
    exact shapeSi6_encodes ⟨hc, hn⟩ h fun _ _ _ _ => ⟨rfl, rfl⟩
  case h_6 hn => exact shapeSi12_encodes ⟨hc, hn⟩ h fun _ _ _ => ⟨rfl, rfl⟩
  case h_23 hn | h_24 hn | h_25 hn => exact shapeSh6_encodes ⟨hc, hn⟩ h fun _ _ _ _ => ⟨rfl, rfl⟩
  case h_27 hn | h_28 hn => exact shapeSs0_encodes ⟨hc, hn⟩ h fun _ _ _ => ⟨rfl, rfl⟩
  case h_34 hn | h_35 hn | h_36 hn | h_37 hn | h_38 hn | h_39 hn => exact shapeQss_encodes ⟨hc, hn⟩ h fun _ _ _ _ => ⟨rfl, rfl⟩
  case h_40 hn | h_41 hn => exact shapeQsi6_encodes ⟨hc, hn⟩ h fun _ _ _ _ => ⟨rfl, rfl⟩
  case h_60 hn => exact shapeQs0_encodes ⟨hc, hn⟩ h fun _ _ _ => ⟨rfl, rfl⟩
  case h_61 hn => exact shapeS00_encodes ⟨hc, hn⟩ h fun _ _ => ⟨rfl, rfl⟩
  case h_62 hn => exact shapeQlog_encodes ⟨hc, hn⟩ h fun _ _ _ _ _ => ⟨rfl, rfl⟩
  case h_63 => cases h

theorem decodeVecA_encodes (hc : f.cls = 1#3) (h : decodeVecA f = .ok i) : Encodes f i := by
  unfold decodeVecA at h
  split at h
  case h_1 hn | h_2 hn | h_3 hn | h_4 hn | h_5 hn | h_6 hn | h_7 hn | h_8 hn | h_13 hn | h_17 hn | h_18 hn | h_19 hn | h_20 hn |
      h_21 hn | h_22 hn | h_23 hn | h_24 hn | h_25 hn | h_26 hn | h_33 hn | h_41 hn =>
    exact shapeVvv_encodes ⟨hc, hn⟩ h fun _ _ _ _ => ⟨rfl, rfl⟩
  case h_9 hn | h_10 hn | h_11 hn | h_12 hn | h_14 hn | h_15 hn | h_16 hn | h_34 hn | h_43 hn | h_44 hn =>
    exact shapeVv0_encodes ⟨hc, hn⟩ h fun _ _ _ => ⟨rfl, rfl⟩
  case h_27 hn | h_28 hn | h_29 hn | h_30 hn | h_31 hn | h_32 hn => exact shapeVcmp_encodes ⟨hc, hn⟩ h fun _ _ _ _ => ⟨rfl, rfl⟩
  case h_35 hn => exact shapeVbcst_encodes ⟨hc, hn⟩ h fun _ _ _ => ⟨rfl, rfl⟩
  case h_36 hn | h_37 hn | h_42 hn => exact shapeVlane_encodes ⟨hc, hn⟩ h fun _ _ _ _ => ⟨rfl, rfl⟩
  case h_38 hn => exact shapeVcvt_encodes ⟨hc, hn⟩ h fun _ _ _ _ _ _ _ => ⟨rfl, rfl⟩
  case h_39 hn => exact shapeVpack_encodes ⟨hc, hn⟩ h fun _ _ _ _ _ _ => ⟨rfl, rfl⟩
  case h_40 hn => exact shapeVunpk_encodes ⟨hc, hn⟩ h fun _ _ _ _ _ => ⟨rfl, rfl⟩
  case h_45 hn | h_46 hn => exact shapeSi6_encodes ⟨hc, hn⟩ h fun _ _ _ _ => ⟨rfl, rfl⟩
  case h_47 hn | h_49 hn => exact shapeVtrd_encodes ⟨hc, hn⟩ h fun _ _ _ _ _ => ⟨rfl, rfl⟩
  case h_48 hn | h_50 hn => exact shapeVtcd_encodes ⟨hc, hn⟩ h fun _ _ _ _ => ⟨rfl, rfl⟩
  case h_51 hn => exact shapeVmsk_encodes ⟨hc, hn⟩ h fun _ _ _ _ _ => ⟨rfl, rfl⟩
  case h_52 hn => exact shapeViota_encodes ⟨hc, hn⟩ h fun _ _ _ _ => ⟨rfl, rfl⟩
  case h_53 => cases h

theorem decodeVecB_encodes (hc : f.cls = 2#3) (h : decodeVecB f = .ok i) : Encodes f i := by
  unfold decodeVecB at h
  split at h
  case h_1 hn | h_2 hn | h_3 hn | h_4 hn | h_5 hn | h_6 hn | h_7 hn | h_8 hn | h_17 hn | h_18 hn | h_19 hn | h_20 hn | h_21 hn |
      h_22 hn | h_23 hn | h_24 hn | h_25 hn | h_26 hn | h_33 hn =>
    exact shapeVvv_encodes ⟨hc, hn⟩ h fun _ _ _ _ => ⟨rfl, rfl⟩
  case h_9 hn | h_10 hn | h_11 hn | h_12 hn | h_34 hn => exact shapeVv0_encodes ⟨hc, hn⟩ h fun _ _ _ => ⟨rfl, rfl⟩
  case h_13 | h_14 | h_15 | h_16 | h_41 | h_43 | h_44 | h_48 | h_50 | h_53 => cases h
  case h_27 hn | h_28 hn | h_29 hn | h_30 hn | h_31 hn | h_32 hn => exact shapeVcmp_encodes ⟨hc, hn⟩ h fun _ _ _ _ => ⟨rfl, rfl⟩
  case h_35 hn => exact shapeVbcst_encodes ⟨hc, hn⟩ h fun _ _ _ => ⟨rfl, rfl⟩
  case h_36 hn | h_37 hn | h_42 hn => exact shapeVlane_encodes ⟨hc, hn⟩ h fun _ _ _ _ => ⟨rfl, rfl⟩
  case h_38 hn => exact shapeVcvt_encodes ⟨hc, hn⟩ h fun _ _ _ _ _ _ _ => ⟨rfl, rfl⟩
  case h_39 hn => exact shapeVpack_encodes ⟨hc, hn⟩ h fun _ _ _ _ _ _ => ⟨rfl, rfl⟩
  case h_40 hn => exact shapeVunpk_encodes ⟨hc, hn⟩ h fun _ _ _ _ _ => ⟨rfl, rfl⟩
  case h_45 hn | h_46 hn => exact shapeSi6_encodes ⟨hc, hn⟩ h fun _ _ _ _ => ⟨rfl, rfl⟩
  case h_47 hn | h_49 hn => exact shapeVtrd_encodes ⟨hc, hn⟩ h fun _ _ _ _ _ => ⟨rfl, rfl⟩
  case h_51 hn => exact shapeVmsk_encodes ⟨hc, hn⟩ h fun _ _ _ _ _ => ⟨rfl, rfl⟩
  case h_52 hn => exact shapeViota_encodes ⟨hc, hn⟩ h fun _ _ _ _ => ⟨rfl, rfl⟩

theorem decodeMatrix_encodes (hc : f.cls = 3#3) (h : decodeMatrix f = .ok i) : Encodes f i := by
  unfold decodeMatrix at h
  split at h
  case h_1 hn | h_2 hn => exact shapeMma_encodes ⟨hc, hn⟩ h fun _ _ _ _ => ⟨rfl, rfl⟩
  case h_3 hn => exact shapeMdrn_encodes ⟨hc, hn⟩ h fun _ _ _ _ _ => ⟨rfl, rfl⟩
  case h_4 hn => exact shapeZ_encodes ⟨hc, hn⟩ h fun _ => ⟨rfl, rfl⟩
  case h_5 hn => exact shapeMscl_encodes ⟨hc, hn⟩ h fun _ _ _ => ⟨rfl, rfl⟩
  case h_6 hn => exact shapeMvcn_encodes ⟨hc, hn⟩ h fun _ _ _ => ⟨rfl, rfl⟩
  case h_7 hn => exact shapeSs0_encodes ⟨hc, hn⟩ h fun _ _ _ => ⟨rfl, rfl⟩
  case h_8 hn => exact shapeMmat_encodes ⟨hc, hn⟩ h fun _ _ _ _ _ _ => ⟨rfl, rfl⟩
  case h_9 => cases h

theorem decodeCopy_encodes (hc : f.cls = 4#3) (h : decodeCopy f = .ok i) : Encodes f i := by
  unfold decodeCopy at h
  split at h
  case h_1 hn => exact shapeCpl_encodes ⟨hc, hn⟩ h fun _ _ _ _ => ⟨rfl, rfl⟩
  case h_2 hn | h_3 hn | h_5 hn | h_6 hn | h_7 hn | h_8 hn | h_9 hn | h_10 hn =>
    exact shapeCpy_encodes (wf := fun _ => true) ⟨hc, hn⟩ h rfl fun _ _ _ _ _ => ⟨rfl, rfl⟩
  case h_4 hn => exact shapeCpdi_encodes ⟨hc, hn⟩ h fun _ _ _ _ _ => ⟨rfl, rfl⟩
  case h_11 => cases h

theorem decodeControl_encodes (hc : f.cls = 5#3) (h : decodeControl f = .ok i) : Encodes f i := by
  unfold decodeControl at h
  split at h
  case h_1 hn => exact shapePbr_encodes ⟨hc, hn⟩ h fun _ _ _ => ⟨rfl, rfl⟩
  case h_2 hn | h_4 hn => exact shapePbrr_encodes ⟨hc, hn⟩ h fun _ _ _ => ⟨rfl, rfl⟩
  case h_3 hn | h_5 hn | h_13 hn => exact shapeBt_encodes ⟨hc, hn⟩ h fun _ _ => ⟨rfl, rfl⟩
  case h_6 hn | h_15 hn => exact shapeZ_encodes ⟨hc, hn⟩ h fun _ => ⟨rfl, rfl⟩
  case h_7 hn => exact shapeLoop_encodes ⟨hc, hn⟩ h fun _ _ _ _ => ⟨rfl, rfl⟩
  case h_8 hn => exact shapeLoopi_encodes ⟨hc, hn⟩ h fun _ _ _ _ => ⟨rfl, rfl⟩
  case h_9 hn => exact shapeLstr_encodes ⟨hc, hn⟩ h fun _ _ _ _ => ⟨rfl, rfl⟩
  case h_10 hn => exact shapeLidx_encodes ⟨hc, hn⟩ h fun _ _ _ => ⟨rfl, rfl⟩
  case h_11 hn => exact shapeLbrk_encodes ⟨hc, hn⟩ h fun _ _ => ⟨rfl, rfl⟩
  case h_12 hn => exact shapeSpawn_encodes ⟨hc, hn⟩ h fun _ _ _ _ => ⟨rfl, rfl⟩
  case h_14 hn => exact shapeSafe_encodes ⟨hc, hn⟩ h fun _ _ => ⟨rfl, rfl⟩
  case h_16 hn | h_22 hn => exact shapeI20_encodes ⟨hc, hn⟩ h fun _ _ => ⟨rfl, rfl⟩
  case h_17 hn | h_18 hn => exact shapeVote_encodes ⟨hc, hn⟩ h fun _ _ _ => ⟨rfl, rfl⟩
  case h_19 hn | h_20 hn => exact shapeA_encodes ⟨hc, hn⟩ h fun _ _ => ⟨rfl, rfl⟩
  case h_21 hn => exact shapePsel_encodes ⟨hc, hn⟩ h fun _ _ _ => ⟨rfl, rfl⟩
  case h_23 hn => exact shapeTret_encodes ⟨hc, hn⟩ h fun _ _ => ⟨rfl, rfl⟩
  case h_24 => cases h

theorem decodeSystem_encodes (hc : f.cls = 6#3) (h : decodeSystem f = .ok i) : Encodes f i := by
  unfold decodeSystem at h
  split at h
  case h_1 hn | h_21 hn | h_22 hn => exact shapeZ_encodes ⟨hc, hn⟩ h fun _ => ⟨rfl, rfl⟩
  case h_2 hn => exact shapeBar_encodes ⟨hc, hn⟩ h fun _ => ⟨rfl, rfl⟩
  case h_3 hn => exact shapeSend_encodes ⟨hc, hn⟩ h fun _ _ _ _ => ⟨rfl, rfl⟩
  case h_4 hn => exact shapeRecv_encodes ⟨hc, hn⟩ h fun _ _ _ _ => ⟨rfl, rfl⟩
  case h_5 hn => exact shapeSends_encodes ⟨hc, hn⟩ h fun _ _ _ => ⟨rfl, rfl⟩
  case h_6 hn => exact shapeRecvs_encodes ⟨hc, hn⟩ h fun _ _ _ => ⟨rfl, rfl⟩
  case h_7 hn | h_8 hn => exact shapeMask6_encodes ⟨hc, hn⟩ h fun _ _ => ⟨rfl, rfl⟩
  case h_9 hn | h_12 hn | h_26 hn | h_27 hn | h_28 hn | h_29 hn | h_30 hn | h_31 hn =>
    exact shapeSss_encodes ⟨hc, hn⟩ h fun _ _ _ _ => ⟨rfl, rfl⟩
  case h_10 hn => exact shapePreci_encodes ⟨hc, hn⟩ h fun _ _ _ => ⟨rfl, rfl⟩
  case h_11 hn => exact shapeShape_encodes ⟨hc, hn⟩ h fun _ _ _ _ _ => ⟨rfl, rfl⟩
  case h_13 hn => exact shapeView_encodes ⟨hc, hn⟩ h fun _ _ _ _ => ⟨rfl, rfl⟩
  case h_14 hn => exact shapeViewq_encodes ⟨hc, hn⟩ h fun _ _ _ => ⟨rfl, rfl⟩
  case h_15 hn | h_16 hn => exact shapeCr_encodes ⟨hc, hn⟩ h fun _ _ _ => ⟨rfl, rfl⟩
  case h_17 hn => exact shapeStat_encodes ⟨hc, hn⟩ h fun _ _ _ _ => ⟨rfl, rfl⟩
  case h_18 hn | h_19 hn => exact shapeS00_encodes ⟨hc, hn⟩ h fun _ _ => ⟨rfl, rfl⟩
  case h_20 hn | h_25 hn => exact shapeSs0_encodes ⟨hc, hn⟩ h fun _ _ _ => ⟨rfl, rfl⟩
  case h_23 hn => exact shapeSvc_encodes ⟨hc, hn⟩ h (fun _ => ⟨rfl, rfl⟩) (fun _ => ⟨rfl, rfl⟩)
  case h_24 hn => exact shapeCdsc_encodes ⟨hc, hn⟩ h fun _ _ _ _ => ⟨rfl, rfl⟩
  case h_32 => cases h

end Classes

/-- Where the class bits give the number, the class is the literal. -/
theorem cls_of_toNat {f : Fields} {n : Nat} (h : f.cls.toNat = n) : f.cls = BitVec.ofNat 3 n := by
  rw [← h, BitVec.ofNat_toNat, BitVec.setWidth_eq]

theorem decode_encodes {x : Option Byte} {w : SlotWord} {i : Instr} (h : decode x w = .ok i) : Encodes (cut x w) i := by
  dsimp only [decode] at h
  split at h
  case h_1 hc => exact decodeScalar_encodes (cls_of_toNat hc) h
  case h_2 hc => exact decodeVecA_encodes (cls_of_toNat hc) h
  case h_3 hc => exact decodeVecB_encodes (cls_of_toNat hc) h
  case h_4 hc => exact decodeMatrix_encodes (cls_of_toNat hc) h
  case h_5 hc => exact decodeCopy_encodes (cls_of_toNat hc) h
  case h_6 hc => exact decodeControl_encodes (cls_of_toNat hc) h
  case h_7 hc => exact decodeSystem_encodes (cls_of_toNat hc) h
  case h_8 => cases h

/-- Settles O40: what decodes is encoded as the fields it was cut into, and these make up the word. -/
theorem encodeDecode : Obligations.EncodeDecode := by
  intro x w i h
  obtain ⟨hwf, y, henc, hy⟩ := decode_encodes h
  rw [slotWord_cut] at henc
  exact ⟨hwf, y, henc, hy⟩

end Sys2Proof
end

section

/-! ## Opcodes that are no instruction (O41) -/

namespace Sys2Proof

section Reserved

variable {f : Fields}

theorem decodeScalar_of_reserved (h : 62 ≤ f.op.toNat) : decodeScalar f = .error .unknownOp := by
  unfold decodeScalar
  split
  case h_63 => rfl
  all_goals omega

theorem decodeScalar_of_op_zero (h : f.op.toNat = 0) :
    ∃ stop p n o, decodeScalar f = .ok (.illegal stop p n o) := by
  simp only [decodeScalar, h]
  exact ⟨_, _, _, _, rfl⟩

theorem decodeVecA_of_reserved (h : f.op.toNat = 0 ∨ 53 ≤ f.op.toNat) : decodeVecA f = .error .unknownOp := by
  unfold decodeVecA
  split
  case h_53 => rfl
  all_goals omega

theorem decodeVecB_of_reserved (h : f.op.toNat = 0 ∨ 53 ≤ f.op.toNat) : decodeVecB f = .error .unknownOp := by
  unfold decodeVecB
  split
  case h_53 => rfl
  all_goals omega

theorem decodeVecB_of_vaOnly (h : f.op.toNat ∈ [13, 14, 15, 16, 41, 43, 44, 48, 50]) : decodeVecB f = .error .vaOnly := by
  simp only [List.mem_cons, List.not_mem_nil, or_false] at h
  rcases h with h | h | h | h | h | h | h | h | h <;> simp only [decodeVecB, h]

theorem decodeMatrix_of_reserved (h : f.op.toNat = 0 ∨ 9 ≤ f.op.toNat) : decodeMatrix f = .error .unknownOp := by
  unfold decodeMatrix
  split
  case h_9 => rfl
  all_goals omega

theorem decodeCopy_of_reserved (h : f.op.toNat = 0 ∨ 11 ≤ f.op.toNat) : decodeCopy f = .error .unknownOp := by
  unfold decodeCopy
  split
  case h_11 => rfl
  all_goals omega

theorem decodeControl_of_reserved (h : f.op.toNat = 0 ∨ 24 ≤ f.op.toNat) : decodeControl f = .error .unknownOp := by
  unfold decodeControl
  split
  case h_24 => rfl
  all_goals omega

theorem decodeSystem_of_reserved (h : f.op.toNat = 0 ∨ 32 ≤ f.op.toNat) : decodeSystem f = .error .unknownOp := by
  unfold decodeSystem
  split
  case h_32 => rfl
  all_goals omega

end Reserved

/-- The decoder of a class (R285); class 111 is a header's. -/
def decodeOfClass (n : Nat) (f : Fields) : Except DecodeError Instr :=
  match n with
  | 0 => decodeScalar f
  | 1 => decodeVecA f
  | 2 => decodeVecB f
  | 3 => decodeMatrix f
  | 4 => decodeCopy f
  | 5 => decodeControl f
  | 6 => decodeSystem f
  | _ => .error .headerSlot

theorem decode_of_class {x : Option Byte} {w : SlotWord} {n : Nat} (h : (w.extractLsb' 28 3).toNat = n) :
    decode x w = decodeOfClass n (cut x w) := by
  subst h
  rfl

/-- Settles O41: each class's decoder, on the opcodes that its table does not list. -/
theorem reservedOpcodes : Obligations.ReservedOpcodes := by
  intro x w
  refine ⟨fun hc ho => ?_, fun hc ho => ?_, fun hc ho => ?_, fun hc ho => ?_, fun hc ho => ?_, fun hc ho => ?_,
    fun hc ho => ?_, fun hc ho => ?_, fun hc ho => ?_, fun hc => ?_⟩ <;> rw [decode_of_class hc]
  · exact decodeScalar_of_reserved ho
  · exact decodeScalar_of_op_zero ho
  · exact decodeVecA_of_reserved ho
  · exact decodeVecB_of_reserved ho
  · exact decodeVecB_of_vaOnly ho
  · exact decodeMatrix_of_reserved ho
  · exact decodeCopy_of_reserved ho
  · exact decodeControl_of_reserved ho
  · exact decodeSystem_of_reserved ho
  · rfl

end Sys2Proof
end

section

/-! ## Words of the spec (O38) -/

namespace Sys2Proof

/-- Settles O38: the decoder runs on each word. -/
theorem decodeSamples : Obligations.DecodeSamples :=
  ⟨rfl, rfl, rfl, rfl, rfl, rfl, rfl, rfl, rfl, rfl, rfl, rfl, rfl⟩

end Sys2Proof
end

section

/-! ## NOP, ILLEGAL, TRAP, BRK and TRET (O17) -/

namespace Sys2Proof.Machine

section Tret

variable {g : Guard} {one : Bool} {s : State}

theorem execTret_of_outside (h : s.sq.hret = none) : execTret g one s = .next (takeTrap (illegal s 0x12) s) := by
  rw [execTret, h]
  rfl

variable {r : TrapRet} (hp : predOn g s = true) (h : s.sq.hret = some r)
include hp h

theorem execTret_to_group : execTret g false s = .next (charge 5 1 (trapReturn r.ret r.via r.pend r.loops s)) := by
  rw [execTret, h]
  exact finishOp_guarded_of_ok hp rfl

theorem execTret_past_group : let gr := groupAt s r.ret
    let a := afterGroup r.pend r.loops (groupLast r.ret gr) (groupNext r.ret gr)
    execTret g true s = .next (charge 5 1 (trapReturn a.2.2.1 a.2.2.2 a.1 a.2.1 s)) := by
  intro gr a
  rw [execTret, h]
  exact finishOp_guarded_of_ok hp rfl

end Tret

/-- Settles O17: NOP and ILLEGAL in every state, TRAP and BRK by the trap of their operand, TRET inside and outside a handler. -/
theorem trapsFromCode : Obligations.TrapsFromCode := by
  refine ⟨fun stop s => rfl, fun stop p n o s => ⟨_, rfl, rfl⟩, fun g i s hp => ⟨?_, ?_, fun r hr => ⟨?_, ?_⟩, fun hr one => ?_⟩⟩
  · exact finishOp_guarded_of_error hp rfl
  · exact finishOp_guarded_of_error hp rfl
  · exact execTret_to_group hp hr
  · exact execTret_past_group hp hr
  · exact execTret_of_outside hr

end Sys2Proof.Machine
end

section

/-! ## Operations whose predicate is off (O37) -/

namespace Sys2Proof.Machine

/-! ### The shared forms (R155, R274) -/

section Off

variable {on : Bool} {s : State} {e : Eff}

theorem finishOp_guarded_of_off (h : on = false) : finishOp s (guarded on s e) = .next (charge 5 1 s) := by
  rw [guarded, h]
  rfl

theorem finishOp_bind_guarded_of_off {chk : Except Trap Unit} (hc : chk = .ok ()) (h : on = false) :
    finishOp s (chk >>= fun _ => guarded on s e) = .next (charge 5 1 s) :=
  (finishOp_bind_of_ok hc).trans (finishOp_guarded_of_off h)

/-- The matrix operations test their predicate before all else. -/
theorem ite_not_of_off {o : Host.Outcome State Fault Refusal} (h : on = false) :
    (if !on then .next (charge 5 1 s) else o) = .next (charge 5 1 s) := by
  rw [h]
  rfl

end Off

/-! ### Control operations that check their operands first (R274, R284) -/

section Control

variable {g : Guard} {s : State} (hp : predOn g s = false)
include hp

theorem execSpawn_of_off {k t : BitVec 2} {a : BitVec 6} (hs : s.k = 0) (hk : k ≠ 0#2) (hn : k.toNat ≤ s.tk.nsib) (ha : a ≠ 0#6)
    (ha' : a.toNat ≤ 56) : execSpawn g k a t s = .next (charge 5 1 s) := by
  have hbad : (a == 0#6 || decide (a.toNat > 56)) = false := Bool.eq_false_iff.2 fun h => (argBad_iff.1 h).elim ha (by omega)
  rw [execSpawn, hbad]
  exact finishOp_bind_guarded_of_off (sibCheck_of_ok hs hk hn) hp

theorem execJoin_of_off {k : BitVec 2} (hs : s.k = 0) (hk : k ≠ 0#2) (hn : k.toNat ≤ s.tk.nsib) :
    execJoin g k s = .next (charge 5 1 s) :=
  finishOp_bind_guarded_of_off (sibCheck_of_ok hs hk hn) hp

theorem execPhase_of_off (hs : s.k = 0) : execPhase g s = .next (charge 5 1 s) := by
  rw [execPhase, if_neg (Bool.eq_false_iff.1 hp), if_neg (not_not.2 hs)]
  exact finishOp_guarded_of_off hp

theorem execSafe_of_off {i : BitVec 12} (hs : s.k = 0) (hi : i.toNat < s.tk.obj.live.length) :
    execSafe g i s = .next (charge 5 1 s) := by
  rw [execSafe, if_neg (Bool.eq_false_iff.1 hp), if_neg (not_not.2 hs), if_neg (not_le.2 hi)]
  exact finishOp_guarded_of_off hp

theorem execPsel_of_off {t : BitVec 8} {a : BitVec 6} (ht : (s.tk.obj.sched[t.toNat]?).isSome) :
    execPsel g t a s = .next (charge 5 1 s) := by
  obtain ⟨es, hes⟩ := Option.isSome_iff_exists.1 ht
  rw [execPsel, hes]
  exact finishOp_guarded_of_off hp

theorem execTret_of_off {one : Bool} (hr : s.sq.hret ≠ none) : execTret g one s = .next (charge 5 1 s) := by
  obtain ⟨r, hret⟩ := Option.ne_none_iff_exists'.1 hr
  rw [execTret, hret]
  exact finishOp_guarded_of_off hp

/-! ### Status, control registers, channels and custodian operations -/

theorem execStat_of_off {d : BitVec 6} {j : BitVec 2} {e : BitVec 4} (hj : j.toNat < s.tk.g) (he : e = 0#4 → j = 0#2) :
    execStat g d j e s = .next (charge 5 1 s) := by
  have hfit : ¬(decide (j.toNat ≥ s.tk.g) || (e == 0#4 && j != 0#2)) = true := by simpa [hj] using he
  rw [execStat, if_neg hfit]
  exact finishOp_guarded_of_off hp

theorem execGetc_of_off {d : BitVec 6} {x : BitVec 8} (hx : x.toNat < 0x40 ∨ s.tk.cust = true) :
    execGetc g d x s = .next (charge 5 1 s) :=
  finishOp_bind_guarded_of_off (indexCheck_of_allowed hx) hp

theorem execSetc_of_off {d : BitVec 6} {x : BitVec 8} (hx : x.toNat < 0x40 ∨ s.tk.cust = true) (hw : writable x.toNat = true) :
    execSetc g d x s = .next (charge 5 1 s) := by
  rw [execSetc, indexCheck_of_allowed hx, hw]
  exact finishOp_guarded_of_off hp

section Channel

variable {w : BitVec 5} (hv : (getChan s w).path ≠ 3#2)
include hv

theorem execSend_of_off {v : BitVec 8} {j : BitVec 2} (hd : (getChan s w).recv = false) (hj : j.toNat < s.tk.g) :
    execSend g w v j s = .next (charge 5 1 s) := by
  rw [execSend, if_neg (not_le.2 hj)]
  exact finishOp_bind_guarded_of_off (chanCheck_of_fit hv hd) hp

theorem execSends_of_off {a : BitVec 6} (hd : (getChan s w).recv = false) : execSends g w a s = .next (charge 5 1 s) :=
  finishOp_bind_guarded_of_off (chanCheck_of_fit hv hd) hp

theorem execRecv_of_off {v : BitVec 8} {j : BitVec 2} (hd : (getChan s w).recv = true) (hj : j.toNat < s.tk.g) :
    execRecv g v w j s = .next (charge 5 1 s) := by
  rw [execRecv, if_neg (not_le.2 hj)]
  exact finishOp_bind_guarded_of_off (chanCheck_of_fit hv hd) hp

theorem execRecvs_of_off {d : BitVec 6} (hd : (getChan s w).recv = true) : execRecvs g d w s = .next (charge 5 1 s) :=
  finishOp_bind_guarded_of_off (chanCheck_of_fit hv hd) hp

end Channel

theorem custodianOp_of_off {op : Nat} {d a b : BitVec 6} (hc : s.tk.cust = true) :
    custodianOp op g d a b s = .next (charge 5 1 s) := by
  rw [custodianOp, hc]
  exact finishOp_guarded_of_off hp

end Control

/-! ### Copies -/

theorem copyOp_of_off {op : Nat} {g : Guard} {rel : Bool} {u : BitVec 3} {n : BitVec 4} {b : Word} {s : State} (hm : maskOn g s = false)
    (hu : u.toNat < 2 * s.tk.g) : copyOp op g rel u n b s = .next (charge 5 1 s) := by
  rw [copyOp, if_neg (not_le.2 hu), hm]
  rfl

/-! ### Vector operations (R200, R274) -/

section Vector

variable {s : State}

theorem loadLatch_eq (latch n : Nat) (x : Src) : ∃ lat, loadLatch s latch n x = { s with sq := { s.sq with lat := lat } } := by
  unfold loadLatch
  split
  · split
    · exact ⟨_, rfl⟩
    · exact ⟨s.sq.lat, rfl⟩
  · exact ⟨s.sq.lat, rfl⟩

theorem latched_eq (vb : Bool) (n : Nat) (a b : Src) : ∃ lat, latched vb n a b s = { s with sq := { s.sq with lat := lat } } := by
  obtain ⟨la, ha⟩ := loadLatch_eq (s := s) (latchNo vb false) n a
  obtain ⟨lb, hb⟩ := loadLatch_eq (s := { s with sq := { s.sq with lat := la } }) (latchNo vb true) n b
  exact ⟨lb, by rw [latched, ha, hb]⟩

/-- A vector operation that is off loads its latches and is charged as one operation. -/
theorem vecFrame_of_off {on vb : Bool} {n : Nat} {a b : Src} {chk : Except Trap Unit} {eff : State → State} (h : on = false) :
    ∃ lat, vecFrame on vb n a b s chk eff = .next (charge 5 1 { s with sq := { s.sq with lat := lat } }) := by
  obtain ⟨lat, hlat⟩ := latched_eq (s := s) vb n a b
  refine ⟨lat, ?_⟩
  rw [vecFrame, h, hlat]
  rfl

end Vector

/-- Settles O37: each operation is one of the shared forms, after the checks of its operands. -/
theorem predicateOff : Obligations.PredicateOff := by
  intro g stop n p z d a b i j x y q r o m t k f w v c e l h A B ps s
  simp only [List.forall_mem_cons, List.not_mem_nil, false_imp_iff, implies_true, and_true]
  refine ⟨rfl, rfl, fun hp => ⟨?_, fun hs hk hn ha ha' hi ht hr => ?_, fun hj hv => execStat_of_off hp hj hv,
    fun hx => ⟨execGetc_of_off hp hx, execSetc_of_off hp hx⟩, fun hj hv => ⟨fun hd => ?_, fun hd => ?_⟩, fun hc => ?_⟩,
    fun hm => ⟨?_, fun hu => ?_⟩, fun hl => ?_⟩
  · and_intros <;> exact finishOp_guarded_of_off hp
  · exact ⟨execSpawn_of_off hp hs hk hn ha ha', execJoin_of_off hp hs hk hn, execPhase_of_off hp hs, execSafe_of_off hp hs hi,
      execPsel_of_off hp ht, execTret_of_off hp hr⟩
  · exact ⟨execSend_of_off hp hv hd hj, execSends_of_off hp hv hd⟩
  · exact ⟨execRecv_of_off hp hv hd hj, execRecvs_of_off hp hv hd⟩
  · and_intros <;> exact custodianOp_of_off hp hc
  · exact ⟨ite_not_of_off hm, ite_not_of_off hm, ite_not_of_off hm, ite_not_of_off hm, finishOp_guarded_of_off hm, ite_not_of_off hm,
      finishOp_guarded_of_off hm, finishOp_guarded_of_off hm⟩
  · and_intros <;> exact copyOp_of_off hm hu
  · have hoff : (laneMask g s != 0#128) = false := bne_eq_false_iff_eq.2 hl
    and_intros <;> exact vecFrame_of_off hoff

end Sys2Proof.Machine
end

section

/-! ## Vector compares, selection, masks and indices (O34) -/

namespace Sys2Proof.Machine

/-! ### The checks of an operation that is fit to run (R184, R200, R208, R216) -/

/-- A loop of checks passes where each of them does. -/
theorem forIn_ok_of_forall {α : Type} {l : List α} {f : α → PUnit → Except Trap (ForInStep PUnit)}
    (h : ∀ x ∈ l, f x ⟨⟩ = .ok (.yield ⟨⟩)) : forIn l PUnit.unit f = .ok ⟨⟩ := by
  induction l with
  | nil => rfl
  | cons x xs ih =>
    rw [List.forIn_cons, h x List.mem_cons_self]
    exact ih fun y hy => h y (List.mem_cons_of_mem x hy)

theorem sh3Form_of_ready {s : State} (h : shapeReady s) : ∃ r, sh3Form s = .ok r := by
  obtain ⟨hg, hv⟩ | ⟨hg, hv, hm, hn⟩ := h
  · exact ⟨_, by simp only [sh3Form, hg, hv, Bool.and_self, if_true]; rfl⟩
  · exact ⟨none, by simp [sh3Form, hg, hv, hm, hn]⟩

theorem operandReady_none (s : State) (n latch : Nat) : operandReady s n latch .none :=
  ⟨fun h => (nomatch h), fun _ _ _ hr => (nomatch hr)⟩

theorem rowsCheck_of_ready {s : State} {n : Nat} {srcs : List (Nat × Src)} {dst : List Nat}
    (hs : ∀ e ∈ srcs, operandReady s n e.1 e.2) (hd : rowsOwned s dst) : rowsCheck s n srcs dst = .ok () := by
  unfold rowsCheck
  rw [forIn_ok_of_forall (l := srcs), forIn_ok_of_forall (l := dst)]
  · rfl
  · intro x hx
    rw [hd x hx]
    rfl
  · intro e he
    obtain ⟨hlatch, hrows⟩ := hs e he
    have hheld : ¬(e.2 = .hold ∧ (tabFind s.sq.lat e.1).isNone = true) := by
      rintro ⟨hh, hn⟩
      exact absurd (hlatch hh) (by simp [Option.isNone_iff_eq_none.1 hn])
    rw [if_neg hheld, forIn_ok_of_forall]
    · rfl
    · intro j hj
      split
      next x hx =>
        obtain ⟨ho, hf⟩ := hrows j (List.mem_range.1 hj) x hx
        rw [lrsCheck_of_free ho hf]
        rfl
      next => rfl

/-- A vector operation that is on and passes its checks has its effect, on loaded latches (R326). -/
theorem vecFrame_of_on {on vb : Bool} {n : Nat} {a b : Src} {s : State} {chk : Except Trap Unit} {eff : State → State} (h : on = true)
    (hc : chk = .ok ()) : vecFrame on vb n a b s chk eff = .next (eff (latched vb n a b s)) := by
  rw [vecFrame, h, hc]
  rfl

section Ready

variable {s : State} (h : shapeReady s)
include h

/-- The checks shared by every vector operation: its types, SH3 and its rows. -/
theorem vecChecks_of_ready {resv : Except Trap Unit} (hr : resv = .ok ()) {n : Nat} {srcs : List (Nat × Src)} {dst : List Nat}
    (hs : ∀ e ∈ srcs, operandReady s n e.1 e.2) (hd : rowsOwned s dst) :
    (do
      resv
      let _ ← sh3Form s
      rowsCheck s n srcs dst : Except Trap Unit) = .ok () := by
  obtain ⟨r, hform⟩ := sh3Form_of_ready h
  rw [hr, hform]
  exact rowsCheck_of_ready hs hd

variable {vb fp on : Bool} {lat : Nat} {mask : BitVec 128} {resv : Except Trap Unit} {a b : Src}
  (hr : resv = .ok ())
include hr

theorem vecOp_of_ready {d : Nat} {f : Nat → Row → Row → Row → Nat → LaneRes} (hon : on = true)
    (ha : operandReady s (vecRows s) (latchNo vb false) a) (hb : operandReady s (vecRows s) (latchNo vb true) b)
    (hd : rowsOwned s (resultRows s d)) :
    vecOp vb fp lat mask on resv d a b .none f s = .next (vecEffect vb fp lat mask d a b .none f s (latched vb (vecRows s) a b s)) :=
  vecFrame_of_on hon (vecChecks_of_ready h hr (by simpa using ⟨ha, hb, operandReady_none s _ 4⟩) hd)

end Ready

theorem vftOk_of_ne {s : State} (h : pVft s.sq.prec ≠ 3) : vftOk s = .ok () := if_neg h
theorem viwOk_of_ne {s : State} (h : pViw s.sq.prec ≠ 3) : viwOk s = .ok () := if_neg h

/-! ### Compares (R337) -/

section Compare

variable {g : Guard} {m : BitVec 3} {a b : VOp} {s : State} {vb : Bool} (h : shapeReady s) (hk : laneMask g s ≠ 0#128)
  (ha : operandReady s (vecRows s) (latchNo vb false) (srcOf a)) (hb : operandReady s (vecRows s) (latchNo vb true) (srcOf b))
include h hk ha hb

theorem cmpOp_of_ready {fp : Bool} {resv : Except Trap Unit} {w : Nat} {c : Nat → Nat → Bool × BitVec 5} (hr : resv = .ok ()) :
    cmpOp vb fp resv w c g m a b s =
      .next (cmpEffect vb fp w c (laneMask g s) m a b s (latched vb (vecRows s) (srcOf a) (srcOf b) s)) :=
  vecFrame_of_on (bne_iff_ne.2 hk) (vecChecks_of_ready h hr (by simpa using ⟨ha, hb⟩) fun _ hx => nomatch hx)

end Compare

/-! ### Selection (R337) -/

/-- The predicate of a lane, as VSEL reads it. -/
theorem xor_eq_ne (p q : Bool) : ((p ^^ q) = true) = (p ≠ q) := by cases p <;> cases q <;> simp

theorem selOp_of_ready {g : Guard} {d : BitVec 8} {a b : VOp} {s : State} {vb : Bool} (h : shapeReady s) (hon : s.ix.off = false)
    (ha : operandReady s (vecRows s) (latchNo vb false) (srcOf a)) (hb : operandReady s (vecRows s) (latchNo vb true) (srcOf b))
    (hd : rowsOwned s (resultRows s d.toNat)) :
    selOp vb g d a b s = .next (vecEffect vb false 2 (lowMask (lanesOf s)) d.toNat (srcOf a) (srcOf b) .none
      (fun _ x y _ l => lane (if (readM s g.p).getLsbD l ≠ g.n then at' x l else at' y l) 0#5) s
      (latched vb (vecRows s) (srcOf a) (srcOf b) s)) := by
  simp only [← xor_eq_ne]
  exact vecOp_of_ready h rfl (by rw [hon]; rfl) ha hb hd

/-! ### Mask logic and indices (R338) -/

theorem mskOp_of_ready {g : Guard} {m ma mb o : BitVec 3} {s : State} {vb : Bool} (h : shapeReady s) (hk : laneMask g s ≠ 0#128) :
    mskOp vb g m ma mb o s = .next (mskEffect (laneMask g s) m ma mb o s s) := by
  obtain ⟨r, hform⟩ := sh3Form_of_ready h
  exact vecFrame_of_on (bne_iff_ne.2 hk) (by rw [hform]; rfl)

theorem iotaOp_of_ready {g : Guard} {d : BitVec 8} {i j : BitVec 6} {s : State} {vb : Bool} (h : shapeReady s)
    (hk : laneMask g s ≠ 0#128) (hw : pViw s.sq.prec ≠ 3) (hd : rowsOwned s (resultRows s d.toNat)) :
    iotaOp vb g d i j s = .next (vecEffect vb false 2 (laneMask g s) d.toNat .none .none .none
      (fun r _ _ _ l => lane (ofElems (viw s) ((List.range (32 / viw s)).map (fun e =>
        (readS s i).toNat + (r * lanesOf s * (32 / viw s) + l * (32 / viw s) + e) * (readS s j).toNat))) 0#5) s s) :=
  vecOp_of_ready h (viwOk_of_ne hw) (bne_iff_ne.2 hk) (operandReady_none ..) (operandReady_none ..) hd

/-- Settles O34, on either unit: each operation by its checks, and VSEL turned off by the frame of vector operations. -/
theorem vectorMasks : Obligations.VectorMasks := by
  intro g m ma mb o d a b i j s k w compared int chosen indices vb h ready
  refine ⟨fun hk hf ⟨ha, hb⟩ => ?_, fun hk hw ⟨ha, hb⟩ => ?_, fun hon ⟨ha, hb⟩ hd => ?_, fun hoff => ?_, fun hk => ?_, fun hk hw hd => ?_⟩
  · have hcmp {c : Nat → Nat → Bool × BitVec 5} := cmpOp_of_ready (c := c) h hk ha hb (fp := true) (m := m) (w := (vft s).width)
      (vftOk_of_ne hf)
    cases vb <;> exact ⟨hcmp, hcmp, hcmp⟩
  · have hcmp {c : Nat → Nat → Bool × BitVec 5} := cmpOp_of_ready (c := c) h hk ha hb (fp := false) (m := m) (w := w)
      (viwOk_of_ne hw)
    cases vb <;> exact ⟨hcmp, hcmp, hcmp⟩
  · cases vb <;> exact selOp_of_ready h hon ha hb hd
  · have hon : (!s.ix.off) = false := by rw [hoff]; rfl
    cases vb <;> exact vecFrame_of_off hon
  · cases vb <;> exact mskOp_of_ready h hk
  · cases vb <;> exact iotaOp_of_ready h hk hw hd

end Sys2Proof.Machine
end

section

/-! ## Division (O3) -/

namespace Sys2Proof.Machine

section Divide

variable {f : Word → Word → Word} {sub : Nat} {g : Guard} {d a b : BitVec 6} {s : State} (hp : predOn g s = true)
include hp

theorem divide_of_nonzero {v : Word} (hb : readS s b ≠ 0#64) (hv : f (readS s a) (readS s b) = v) :
    divide f sub g d a b s = .next (scheduled s (toS s 20 d v)) := by
  rw [← hv, ← landS_eq]
  exact finishOp_guarded_of_ok hp (if_neg hb)

theorem divide_of_zero (hb : readS s b = 0#64) : divide f sub g d a b s =
    .next (takeTrap (trapOf s 0x08 sub (readS s a) (BitVec.ofNat 64 (d.toNat + 64 * a.toNat + 4096 * b.toNat)) 0#64) s) :=
  finishOp_guarded_of_error hp (if_pos hb)

end Divide

section Values

variable (x y : Word)

theorem sdiv_eq_ofInt : x.sdiv y = BitVec.ofInt 64 (x.toInt.tdiv y.toInt) :=
  BitVec.eq_of_toInt_eq (by rw [BitVec.toInt_sdiv, BitVec.toInt_ofInt])

theorem srem_eq_ofInt : x.srem y = BitVec.ofInt 64 (x.toInt.tmod y.toInt) := by
  rw [← BitVec.toInt_srem, BitVec.ofInt_toInt]

theorem udiv_eq_ofNat : x.udiv y = BitVec.ofNat 64 (x.toNat / y.toNat) :=
  BitVec.eq_of_toNat_eq (by rw [BitVec.udiv_eq, BitVec.toNat_udiv, BitVec.toNat_ofNat, Nat.mod_eq_of_lt ((Nat.div_le_self ..).trans_lt x.isLt)])

theorem umod_eq_ofNat : x.umod y = BitVec.ofNat 64 (x.toNat % y.toNat) :=
  BitVec.eq_of_toNat_eq (by rw [BitVec.umod_eq, BitVec.toNat_umod, BitVec.toNat_ofNat, Nat.mod_eq_of_lt ((Nat.mod_le ..).trans_lt x.isLt)])

end Values

/-- Settles O3: the four divisions are `divide`, each with its operation on words. -/
theorem division : Obligations.Division := by
  intro g d a b s hp x y info
  refine ⟨fun hy => ⟨?_, ?_, ?_, ?_⟩, fun hy => ⟨?_, ?_, ?_, ?_⟩⟩
  · exact divide_of_nonzero hp hy (sdiv_eq_ofInt x y)
  · exact divide_of_nonzero hp hy (udiv_eq_ofNat x y)
  · exact divide_of_nonzero hp hy (srem_eq_ofInt x y)
  · exact divide_of_nonzero hp hy (umod_eq_ofNat x y)
  all_goals exact divide_of_zero hp hy

end Sys2Proof.Machine
end

section

/-! ## The loop-back procedure (O13) -/

namespace Sys2Proof.Machine

/-- A group whose last slot is `last` ends the body of level `l` (R315). -/
def endsBody (last : Pos) (l : Loop) : Bool := l.active && last.bundle == l.eB && last.slot == 3

theorem endsBody_of_inactive {last : Pos} {l : Loop} (h : l.active = false) : endsBody last l = false := by
  rw [endsBody, h]
  rfl

theorem endsBody_iff {last : Pos} {l : Loop} (h : l.active = true) : endsBody last l = true ↔ last.bundle = l.eB ∧ last.slot = 3 := by
  simp [endsBody, h]

section LoopBack

variable {last next : Pos} {n : Nat} {ls : Tab Loop}

theorem loopBack_succ_of_other (h : endsBody last (tabGet loopOff ls n) = false) :
    loopBack last next (n + 1) ls = loopBack last next n ls := if_neg (Bool.eq_false_iff.1 h)

/-- Levels that the group does not end are passed over. -/
theorem loopBack_of_others {k : Nat} (hk : n ≤ k) (h : ∀ m, n ≤ m → m < k → endsBody last (tabGet loopOff ls m) = false) :
    loopBack last next k ls = loopBack last next n ls := by
  induction k, hk using Nat.le_induction with
  | base => rfl
  | succ k hk ih => rw [loopBack_succ_of_other (h k hk k.lt_succ_self), ih fun m hm hlt => h m hm (hlt.trans k.lt_succ_self)]

theorem loopBack_of_none {k : Nat} (h : ∀ m < k, endsBody last (tabGet loopOff ls m) = false) :
    loopBack last next k ls = (ls, next) :=
  loopBack_of_others (Nat.zero_le k) fun m _ => h m

variable (he : endsBody last (tabGet loopOff ls n) = true)
include he

theorem loopBack_succ_of_again (hi : (tabGet loopOff ls n).iter + 1 < (tabGet loopOff ls n).count) :
    loopBack last next (n + 1) ls =
      let l := tabGet loopOff ls n
      (tabSet loopOff ls n { l with iter := l.iter + 1, idx := l.idx + l.stride }, ⟨l.sB, 0⟩) :=
  (if_pos he).trans (if_pos hi)

theorem loopBack_succ_of_done (hi : (tabGet loopOff ls n).count ≤ (tabGet loopOff ls n).iter + 1) :
    loopBack last next (n + 1) ls =
      loopBack last next n (tabSet loopOff ls n { tabGet loopOff ls n with active := false }) :=
  (if_pos he).trans (if_neg (not_lt.2 hi))

end LoopBack

end Sys2Proof.Machine

namespace Sys2Proof

open Machine

/-- Settles O13: the levels other than the active one are passed over, above it and below. -/
theorem loopBack : Obligations.LoopBack := by
  intro n ls last next hn ha hothers l r
  have hother {m : Nat} (hm : m < 6) (hne : m ≠ n) : endsBody last (tabGet loopOff ls m) = false :=
    endsBody_of_inactive (hothers m hm hne)
  have habove : r = Machine.loopBack last next (n + 1) ls := loopBack_of_others hn fun m hm hlt => hother hlt (by omega)
  refine ⟨fun hb hs hi => ?_, fun hb hs hi => ?_, fun hno => ?_⟩
  · rw [habove, loopBack_succ_of_again ((endsBody_iff ha).2 ⟨hb, hs⟩) hi]
    exact ⟨rfl, tabGet_set_same ..⟩
  · rw [habove, loopBack_succ_of_done ((endsBody_iff ha).2 ⟨hb, hs⟩) hi, loopBack_of_none]
    · exact ⟨rfl, congrArg Loop.active (tabGet_set_same ..)⟩
    · intro m hm
      rw [tabGet_set_other _ _ _ hm.ne]
      exact hother (hm.trans hn) hm.ne
  · refine loopBack_of_none fun m hm => ?_
    by_cases hne : m = n
    · rw [hne, Bool.eq_false_iff, Ne, endsBody_iff ha]
      tauto
    · exact hother hm hne

end Sys2Proof
end

section

/-! ## Integer arithmetic (O1, O2) -/

namespace Sys2Proof.Machine

section Forms

variable {g : Guard} {d a b : BitVec 6} {q : BitVec 3} {l : Nat} {i : Word} {s : State} (hp : predOn g s = true)
include hp

theorem alu_of_value {f : Word → Word → Word} {v : Word} (hv : f (readS s a) (readS s b) = v) :
    alu f l g d a b s = .next (scheduled s (toS s l d v)) := hv ▸ alu_on hp

theorem aluI_of_value {f : Word → Word → Word} {v : Word} (hv : f (readS s a) i = v) :
    aluI f g d a i s = .next (scheduled s (toS s 1 d v)) := hv ▸ aluI_on hp

theorem cmp_of_value {f : Word → Word → Bool} {v : Bool} (hv : f (readS s a) i = v) :
    Machine.cmp f g q a i s = .next (scheduled s (toQ s q v)) := hv ▸ cmp_on hp

end Forms

section Values

variable (x y : Word)

theorem cnt6_eq : cnt6 y = y.toNat % 64 := by rw [cnt6, fieldN_eq, Nat.pow_zero, Nat.div_one]; rfl

theorem ite_slt_eq_min : (if x.slt y then x else y) = BitVec.ofInt 64 (min x.toInt y.toInt) := by
  simp only [min_def_lt, apply_ite (BitVec.ofInt 64), BitVec.ofInt_toInt, BitVec.slt_iff_toInt_lt]

theorem ite_slt_eq_max : (if x.slt y then y else x) = BitVec.ofInt 64 (max x.toInt y.toInt) := by
  simp only [max_def_lt, apply_ite (BitVec.ofInt 64), BitVec.ofInt_toInt, BitVec.slt_iff_toInt_lt]

theorem ite_ult_eq_min : (if x.ult y then x else y) = BitVec.ofNat 64 (min x.toNat y.toNat) := by
  simp only [min_def_lt, apply_ite (BitVec.ofNat 64), BitVec.ofNat_toNat, BitVec.setWidth_eq, BitVec.ult_iff_lt, BitVec.lt_def]

theorem ite_ult_eq_max : (if x.ult y then y else x) = BitVec.ofNat 64 (max x.toNat y.toNat) := by
  simp only [max_def_lt, apply_ite (BitVec.ofNat 64), BitVec.ofNat_toNat, BitVec.setWidth_eq, BitVec.ult_iff_lt, BitVec.lt_def]

theorem mul_eq_ofNat : x * y = BitVec.ofNat 64 (x.toNat * y.toNat % 2 ^ 64) :=
  BitVec.eq_of_toNat_eq (by rw [BitVec.toNat_mul, BitVec.toNat_ofNat, Nat.mod_mod])

theorem popc64_eq : popc64 x = BitVec.ofNat 64 ((List.range 64).filter (fun i => x.getLsbD i)).length := by
  rw [popc64, List.countP_eq_length_filter]
  rfl

/-- The number of zero bits above the highest one bit. -/
def leadingZeros : Nat := if x = 0#64 then 64 else 63 - x.toNat.log2

theorem clz64_eq : clz64 x = BitVec.ofNat 64 (leadingZeros x) := by
  unfold clz64 leadingZeros
  split <;> rfl

theorem leadingZeros_le : leadingZeros x ≤ 64 := by
  unfold leadingZeros
  split <;> omega

variable {x}

theorem log2_lt_of_ne_zero (h : x ≠ 0#64) : x.toNat.log2 < 64 :=
  (Nat.log2_lt fun h0 => h (BitVec.eq_of_toNat_eq h0)).2 x.isLt

theorem getLsbD_of_leading {i : Nat} (h : 64 - leadingZeros x ≤ i) : x.getLsbD i = false := by
  unfold leadingZeros at h
  split at h
  case isTrue h0 => rw [h0, BitVec.getLsbD_zero]
  case isFalse h0 =>
    have := log2_lt_of_ne_zero h0
    exact Nat.testBit_lt_two_pow (Nat.lt_log2_self.trans_le (Nat.pow_le_pow_right (by decide) (by omega)))

theorem getLsbD_highest (h : leadingZeros x < 64) : x.getLsbD (63 - leadingZeros x) = true := by
  unfold leadingZeros at h ⊢
  split at h
  case isTrue => omega
  case isFalse h0 =>
    have := log2_lt_of_ne_zero h0
    rw [if_neg h0, Nat.sub_sub_self (by omega)]
    exact Nat.testBit_log2 fun h' => h0 (BitVec.eq_of_toNat_eq h')

end Values

/-- The word of a decoded operation has in its B field what the operation's encoding has there (R272). -/
theorem fieldB_of_decode {e : Option Byte} {w : SlotWord} {i : Instr} {g : Guard} {c : BitVec 3} {o d a b : BitVec 6} {y : Option Byte}
    (h : decode e w = .ok i) (hi : encode i = some (slotWord g c o d a b, y)) : w.extractLsb' 0 6 = b := by
  obtain ⟨-, y', henc, -⟩ := encodeDecode e w i h
  obtain ⟨rfl, -⟩ := Prod.mk.inj (Option.some.inj (henc.symm.trans hi))
  exact congrArg Fields.b (cut_slotWord e g c o d a b)

/-- Settles O1: each operation is `alu` with its function of the two words. -/
theorem registerArithmetic : Obligations.RegisterArithmetic := by
  intro g d a b s hp x y k
  have hk : cnt6 y = k := cnt6_eq y
  refine ⟨alu_on hp, alu_on hp, alu_on hp, alu_on hp, alu_on hp, ?shl, ?shr, ?shra, ?rotr,
    ⟨leadingZeros x, leadingZeros_le x, ?clz, fun i hi _ => getLsbD_of_leading hi, getLsbD_highest⟩,
    ?popc, ?min, ?max, ?minn, ?maxn, ?mul,
    (alu_on hp : execMulh g d a b s = _), (alu_on hp : execMulhn g d a b s = _), ?fieldB⟩
  case shl => exact (alu_of_value hp (congrArg (x <<< ·) hk) : execShl g d a b s = _)
  case shr => exact (alu_of_value hp (congrArg (x >>> ·) hk) : execShr g d a b s = _)
  case shra => exact (alu_of_value hp (congrArg x.sshiftRight hk) : execShra g d a b s = _)
  case rotr => exact (alu_of_value hp (congrArg x.rotateRight hk) : execRotr g d a b s = _)
  case clz => exact (alu_of_value hp (clz64_eq x) : execClz g d a s = _)
  case popc => exact (alu_of_value hp (popc64_eq x) : execPopc g d a s = _)
  case min => exact (alu_of_value hp (ite_slt_eq_min x y) : execMin g d a b s = _)
  case max => exact (alu_of_value hp (ite_slt_eq_max x y) : execMax g d a b s = _)
  case minn => exact (alu_of_value hp (ite_ult_eq_min x y) : execMinn g d a b s = _)
  case maxn => exact (alu_of_value hp (ite_ult_eq_max x y) : execMaxn g d a b s = _)
  case mul => exact (alu_of_value hp (mul_eq_ofNat x y) : execMul g d a b s = _)
  case fieldB => rintro e w (h | h) <;> exact fieldB_of_decode h rfl

/-! ### Immediates (R278, R301) -/

theorem cnt6_setWidth (n : BitVec 6) : cnt6 (n.setWidth 64) = n.toNat := by
  rw [cnt6_eq, BitVec.toNat_setWidth]
  omega

/-- LIH's immediate is as wide as its place in the word (R301). -/
theorem imm20_lt {j : Imm20} (h : j.ok = true) : j.v.toNat < 2 ^ immW20 j := by
  cases hh : j.hdr
  case true => rw [immW20, hh]; exact j.v.isLt
  case false =>
    have hv : j.v.extractLsb' 12 8 = 0#8 := by simpa [Imm20.ok, hh] using h
    have hhigh : j.v.toNat / 2 ^ 12 % 2 ^ 8 = 0 := by rw [← fieldN_eq, fieldN, hv]; rfl
    have := j.v.isLt
    simp only [immW20, hh, Bool.false_eq_true, if_false]
    omega

theorem lih_value {j : Imm20} (h : j.ok = true) (x : Word) : (x <<< immW20 j) + j.v.setWidth 64 =
    BitVec.ofNat 64 ((x.toNat * 2 ^ immW20 j + j.v.toNat % 2 ^ immW20 j) % 2 ^ 64) := by
  apply BitVec.eq_of_toNat_eq
  rw [BitVec.toNat_add, BitVec.toNat_shiftLeft, BitVec.toNat_setWidth, BitVec.toNat_ofNat, Nat.shiftLeft_eq,
    Nat.mod_eq_of_lt (imm20_lt h), Nat.mod_mod, ← Nat.add_mod]

/-- Settles O2: each operation is `aluI` on its immediate as a word. -/
theorem immediateArithmetic : Obligations.ImmediateArithmetic := by
  intro g d a i n j s hp hj x k w
  have hn : cnt6 (n.setWidth 64) = n.toNat := cnt6_setWidth n
  refine ⟨aluI_on hp, aluI_on hp, aluI_on hp, aluI_on hp, ?shli, ?shri, ?shrai, ?lih⟩
  case shli => exact (aluI_of_value hp (congrArg (x <<< ·) hn) : execShli g d a n s = _)
  case shri => exact (aluI_of_value hp (congrArg (x >>> ·) hn) : execShri g d a n s = _)
  case shrai => exact (aluI_of_value hp (congrArg x.sshiftRight hn) : execShrai g d a n s = _)
  case lih => exact (aluI_of_value hp (lih_value hj _) : execLih g d j s = _)

end Sys2Proof.Machine
end

section

/-! ## Predicates, selection and buffer addresses (O4, O5, O6) -/

namespace Sys2Proof.Machine

/-! ### Predicates (R303, R304) -/

theorem bne_eq_decide_ne (x y : Word) : (x != y) = decide (x ≠ y) := by rw [bne, beq_eq_decide, decide_not]

theorem execQlog_of_value {g : Guard} {q qa qb o : BitVec 3} {s : State} {v : Bool} (hp : predOn g s = true)
    (hv : logOp o (readQ s qa) (readQ s qb) = v) : execQlog g q qa qb o s = .next (scheduled s (toQ s q v)) := by
  rw [← hv, ← landQ_eq]
  exact finishOp_guarded_of_ok hp rfl

/-- MOVQ: all predicates as one word, with q0 as one (R191, R304). -/
theorem movq_bit (s : State) (n : BitVec 3) : ((s.sq.q ||| 1#8).setWidth 64).getLsbD n.toNat = readQ s n := by
  have hlt : n.toNat < 64 := n.isLt.trans (by decide)
  rw [BitVec.getLsbD_setWidth, decide_eq_true hlt, Bool.true_and, BitVec.getLsbD_or, BitVec.getLsbD_one, Bool.or_comm, readQ]
  congr 1
  rw [beq_eq_decide]
  simp [BitVec.toNat_eq, eq_comm]

theorem movq_lt (s : State) : ((s.sq.q ||| 1#8).setWidth 64).toNat < 256 := by
  rw [BitVec.toNat_setWidth]
  exact (Nat.mod_le ..).trans_lt (s.sq.q ||| 1#8).isLt

/-- Settles O4: the compares and QMOV are `cmp`, QLOG by its operation. -/
theorem predicates : Obligations.Predicates := by
  refine ⟨fun g q a b i s hp => ?_, fun g q qa qb o d a s hp => ?_⟩
  · intro x y k
    exact ⟨cmp_on hp, cmp_of_value hp (bne_eq_decide_ne ..), cmp_on hp, cmp_on hp, cmp_on hp, cmp_on hp, cmp_on hp, cmp_on hp⟩
  · intro x y z
    refine ⟨cmp_of_value hp (bne_eq_decide_ne ..), ⟨_, ?movq, movq_lt s, movq_bit s⟩, execQlog_of_value hp ?qlog⟩
    case movq =>
      rw [← landS_eq]
      exact finishOp_guarded_of_ok hp rfl
    case qlog =>
      change logOp o x y = _
      subst z
      clear_value x y
      revert o x y
      decide

/-! ### Selection (R305) -/

theorem finishOp_guarded_of_on {on : Bool} {s t : State} {e : Eff} (h : on = true) (he : e = .ok t) :
    finishOp s (guarded on s e) = .next (charge 5 1 t) := by
  rw [guarded, if_pos h, he]
  rfl

/-- Settles O5: the guard of SEL is the loop flags alone. -/
theorem select : Obligations.Select := by
  intro g d a b s
  refine ⟨fun hon => ?_, fun hoff => finishOp_guarded_of_off (by rw [hoff]; rfl)⟩
  simp only [← xor_eq_ne, ← landS_eq]
  have h : (!s.ix.off) = true := by rw [hon]; rfl
  exact finishOp_guarded_of_on h rfl

/-! ### Buffer addresses (R306, R307) -/

theorem toNat_append_eq {m n : Nat} (x : BitVec m) (y : BitVec n) : (x ++ y).toNat = x.toNat * 2 ^ n + y.toNat := by
  rw [BitVec.toNat_append, ← Nat.shiftLeft_add_eq_or_of_lt y.isLt, Nat.shiftLeft_eq]

theorem toInt_emod_offset (x : Word) : x.toInt % 2 ^ 48 = (x.toNat : Int) % 2 ^ 48 := by
  rw [BitVec.toInt_eq_toNat_cond]
  split <;> omega

section AddOff

variable (a d : Word)

theorem addOff_toNat : (addOff a d).toNat = a.toNat / 2 ^ 48 * 2 ^ 48 + (a.toNat % 2 ^ 48 + d.toNat % 2 ^ 48) % 2 ^ 48 := by
  have h16 := fieldN_eq a 48 16
  have h48 := fieldN_eq a 0 48
  have hd := fieldN_eq d 0 48
  unfold fieldN at h16 h48 hd
  rw [addOff, toNat_append_eq, BitVec.toNat_add, h16, h48, hd]
  have := a.isLt
  omega

theorem addOff_index : (addOff a d).toNat / 2 ^ 48 = a.toNat / 2 ^ 48 := by
  rw [addOff_toNat]
  omega

theorem addOff_offset : ((addOff a d).toNat : Int) % 2 ^ 48 = ((a.toNat : Int) + d.toInt) % 2 ^ 48 := by
  rw [addOff_toNat, Int.add_emod _ d.toInt, toInt_emod_offset]
  omega

end AddOff

theorem badr_toNat (a b : Word) :
    (a.extractLsb' 0 16 ++ b.extractLsb' 0 48 : BitVec 64).toNat = a.toNat % 2 ^ 16 * 2 ^ 48 + b.toNat % 2 ^ 48 := by
  have ha := fieldN_eq a 0 16
  have hb := fieldN_eq b 0 48
  rw [Nat.pow_zero, Nat.div_one] at ha hb
  rw [toNat_append_eq]
  exact congrArg₂ (fun i o => i * 2 ^ 48 + o) ha hb

/-- Settles O6: BADR joins its two fields, BOFF is `addOff`. -/
theorem bufferAddresses : Obligations.BufferAddresses := by
  intro g d a b i s hp k
  refine ⟨⟨_, (alu_on hp : execBadr g d a b s = _), ?index, ?offset⟩, ⟨_, (aluI_on hp : execBoff g d a i s = _), addOff_index .., ?_⟩⟩
  case index =>
    rw [badr_toNat]
    omega
  case offset =>
    rw [badr_toNat]
    omega
  · rw [addOff_offset, Int.add_emod, ← toInt_emod_offset, ← Int.add_emod]
    rfl

end Sys2Proof.Machine
end

section

/-! ## Memory of the LRS and of buffers (O7, O8) -/

namespace Sys2Proof.Machine

/-! ### Bytes of a word (R4) -/

theorem leNat_byte (bs : List Byte) (n : Nat) : leNat bs / 256 ^ n % 256 = (bs.getD n 0#8).toNat := by
  induction bs generalizing n with
  | nil => simp [leNat]
  | cons b bs ih =>
    have := b.isLt
    cases n with
    | zero =>
      rw [leNat, pow_zero, Nat.div_one, List.getD_cons_zero]
      omega
    | succ n =>
      rw [leNat, pow_succ', ← Nat.div_div_eq_div_mul, List.getD_cons_succ, ← ih n]
      congr 2
      omega

theorem getD_tabBytes (t : Tab Byte) (a : Nat) {m n : Nat} (h : n < m) : (tabBytes t a m).getD n 0#8 = tabGet 0#8 t (a + n) := by
  induction m generalizing a n with
  | zero => omega
  | succ m ih =>
    cases n with
    | zero => rfl
    | succ n => rw [tabBytes, List.getD_cons_succ, ih (a + 1) (by omega), Nat.add_right_comm, Nat.add_assoc]

theorem byte_of_word (x n : Nat) (h : n < 8) : (w64 x).extractLsb' (8 * n) 8 = BitVec.ofNat 8 (x / 256 ^ n) := by
  apply BitVec.eq_of_toNat_eq
  rw [BitVec.extractLsb'_toNat, Nat.shiftRight_eq_div_pow, w64, BitVec.toNat_ofNat, BitVec.toNat_ofNat, Nat.pow_mul]
  have hsplit : 2 ^ 64 = 256 ^ n * 256 ^ (8 - n) := by rw [← pow_add, Nat.add_sub_cancel' h.le]; rfl
  have hdvd : 256 ∣ 256 ^ (8 - n) := dvd_pow_self _ (by omega)
  rw [hsplit, Nat.mod_mul_right_div_self]
  exact Nat.mod_mod_of_dvd _ hdvd

theorem lrsByte_of_word (t : Tab Byte) (a : Nat) {n : Nat} (h : n < 8) :
    (w64 (leNat (tabBytes t a 8))).extractLsb' (8 * n) 8 = tabGet 0#8 t (a + n) := by
  rw [byte_of_word _ _ h, ← getD_tabBytes t a h]
  exact BitVec.eq_of_toNat_eq ((BitVec.toNat_ofNat ..).trans (leNat_byte ..))

theorem natLe_eq_map (n v : Nat) : natLe n v = (List.range n).map (fun k => BitVec.ofNat 8 (v / 256 ^ k)) := by
  induction n generalizing v with
  | zero => rfl
  | succ n ih =>
    rw [natLe, ih, List.range_succ_eq_map, List.map_cons, List.map_map, pow_zero, Nat.div_one]
    simp only [Function.comp_def, Nat.div_div_eq_div_mul, pow_succ']

/-- The bytes of a word with their addresses from `x` up. -/
theorem zip_natLe (x : Nat) (v : Word) : ((List.range 8).zip (natLe 8 v.toNat)).map (fun e => (x + e.1, e.2)) =
    (List.range 8).map (fun n => (x + n, v.extractLsb' (8 * n) 8)) := by
  have hbyte : natLe 8 v.toNat = (List.range 8).map (fun n => v.extractLsb' (8 * n) 8) := by
    rw [natLe_eq_map]
    refine List.map_congr_left fun n hn => ?_
    rw [← byte_of_word _ _ (List.mem_range.1 hn), w64, BitVec.ofNat_toNat, BitVec.setWidth_eq]
  rw [hbyte, List.zip_map_right, List.map_map]
  rfl

/-! ### LDL and STL (R310) -/

/-- The address of LDL and STL: the immediate counts 8-byte words, the sum wraps at the size of the LRS, and its low bits are dropped. -/
theorem ldlAddr_cast {g : Nat} (hg : 0 < g) (a : Word) (i : Imm14) : (ldlAddr g a i : Int) =
    ((a.toNat : Int) + (immS14 i).toInt * 8) % ((2304 * 128 * g : Nat) : Int) / 8 * 8 := by
  have h : 0 ≤ ((a.toNat : Int) + (immS14 i).toInt * 8) % ((rowCount * 128 * g : Nat) : Int) :=
    Int.emod_nonneg _ (by simp only [rowCount]; omega)
  have hround : ∀ z : Int, 0 ≤ z → ((z.toNat / 8 * 8 : Nat) : Int) = z / 8 * 8 := by omega
  exact hround _ h

theorem lrsCheck_of_unowned {s : State} {x col : Nat} (h : ownsRow s.sq x = false) :
    lrsCheck s x col = .error (timing s 0x02 6 (x % 6) (seqCol s + col) never (w64 x)) := by
  rw [lrsCheck, if_pos (by rw [h]; rfl)]

section Lrs

variable {g : Guard} {d a : BitVec 6} {i : Imm14} {s : State} (hp : predOn g s = true)
include hp

theorem execLdl_of_check {x r col : Nat} (hx : ldlAddr s.tk.g (readS s a) i = x) (hr : x / (128 * s.tk.g) = r)
    (hcol : x % (128 * s.tk.g) / 128 = col) : execLdl g d a i s = finishOp s (do
      lrsCheck s r col
      .ok (charge 1 1 (landS s 3 d (w64 (leNat (tabBytes s.sq.lrs x 8)))))) := by
  subst hx hr hcol
  rw [execLdl, guarded, if_pos hp]

theorem execStl_of_check {x r col : Nat} (hx : ldlAddr s.tk.g (readS s a) i = x) (hr : x / (128 * s.tk.g) = r)
    (hcol : x % (128 * s.tk.g) / 128 = col) : execStl g d a i s = finishOp s
      (if !ownsRow s.sq r then .error (timing s 0x02 6 (r % 6) (seqCol s + col) never (w64 r))
      else .ok (landIn s 1 (.row r (1#4 <<< col) ((List.range 8).map (fun n => (x + n, (readS s d).extractLsb' (8 * n) 8))) 0#5))) := by
  subst hx hr hcol
  rw [execStl, guarded, if_pos hp, zip_natLe]

end Lrs

/-- Settles O7: the row's owner decides, and a word's bytes are those of the LRS. -/
theorem lrsLoadStore : Obligations.LrsLoadStore := by
  intro g d a i s hp hg k x r col
  refine ⟨ldlAddr_cast hg .., fun ho hf => ⟨_, ?ldl, fun n hn => lrsByte_of_word _ _ hn⟩, fun ho => ?stl, fun hu => ⟨?ldlTrap, ?stlTrap⟩⟩
  case ldl =>
    refine (execLdl_of_check hp rfl rfl rfl).trans ?_
    rw [lrsCheck_of_free ho hf]
    rfl
  case stl =>
    refine (execStl_of_check hp rfl rfl rfl).trans ?_
    rw [if_neg (by rw [ho]; decide)]
    rfl
  case ldlTrap =>
    refine (execLdl_of_check hp rfl rfl rfl).trans ?_
    rw [lrsCheck_of_unowned hu]
    rfl
  case stlTrap =>
    refine (execStl_of_check hp rfl rfl rfl).trans ?_
    rw [if_pos (by rw [hu]; rfl)]
    rfl

/-! ### Loads and stores of buffers (R307, R308) -/

/-- The immediate of a load or store counts elements of `z` bytes. -/
theorem elemAddr_offset (a : Word) (i : Imm14) (z : Nat) :
    ((elemAddr a i z).toNat : Int) % 2 ^ 48 = ((a.toNat : Int) + (immS14 i).toInt * z) % 2 ^ 48 := by
  have hscaled : (immS14 i * w64 z).toInt % 2 ^ 48 = (immS14 i).toInt * z % 2 ^ 48 := by
    rw [toInt_emod_offset, BitVec.toNat_mul, w64, BitVec.toNat_ofNat, Int.mul_emod, toInt_emod_offset, ← Int.mul_emod]
    push_cast
    rw [Int.emod_emod_of_dvd _ (by decide), Int.mul_emod, Int.emod_emod_of_dvd _ (by decide), ← Int.mul_emod]
  rw [elemAddr, addOff_offset, Int.add_emod, hscaled, ← Int.add_emod]

section Access

variable {z : Nat} {g : Guard} {d a : BitVec 6} {i : Imm14} {s : State} (hp : predOn g s = true)
include hp

theorem loadOp_of_passes {e : BitVec 256} (hc : check s true false false false kLoad (elemAddr (readS s a) i z) z = .ok e)
    (ho : scalarOverlap s false (elemAddr (readS s a) i z) z = .ok ()) :
    loadOp z g d a i s = .next (charge 5 1 (loadEffect z d (elemAddr (readS s a) i z) e s)) :=
  finishOp_guarded_of_ok hp (by rw [hc]; simp only [ho]; rfl)

theorem loadOp_of_trap {t : Trap} (hc : check s true false false false kLoad (elemAddr (readS s a) i z) z = .error t) :
    loadOp z g d a i s = .next (takeTrap t s) :=
  finishOp_guarded_of_error hp (by rw [hc]; rfl)

theorem storeOp_of_passes {e : BitVec 256} (hc : check s false true false false kStore (elemAddr (readS s a) i z) z = .ok e)
    (ho : scalarOverlap s true (elemAddr (readS s a) i z) z = .ok ()) :
    storeOp z g d a i s = .next (charge 5 1 (storeEffect z (readS s d) (elemAddr (readS s a) i z) e s)) :=
  finishOp_guarded_of_ok hp (by rw [hc]; simp only [ho]; rfl)

theorem storeOp_of_trap {t : Trap} (hc : check s false true false false kStore (elemAddr (readS s a) i z) z = .error t) :
    storeOp z g d a i s = .next (takeTrap t s) :=
  finishOp_guarded_of_error hp (by rw [hc]; rfl)

end Access

/-- Settles O8: `loadOp` and `storeOp` at their four sizes. -/
theorem scalarMemory : Obligations.ScalarMemory := by
  intro g d a i s hp k at'
  refine ⟨fun z => ⟨addOff_index .., elemAddr_offset ..⟩, fun z e hc ho => ?load, fun z e hc ho => ?store, fun z t hc => ?loadTrap,
    fun z t hc => ?storeTrap⟩
  case load =>
    have h := loadOp_of_passes (d := d) hp hc ho
    and_intros <;> (rintro rfl; exact h)
  case store =>
    have h := storeOp_of_passes (d := d) hp hc ho
    and_intros <;> (rintro rfl; exact h)
  case loadTrap =>
    have h := loadOp_of_trap (d := d) hp hc
    and_intros <;> (rintro rfl; exact h)
  case storeTrap =>
    have h := storeOp_of_trap (d := d) hp hc
    and_intros <;> (rintro rfl; exact h)

end Sys2Proof.Machine
end

section

/-! ## Branches and loops (O11, O12) -/

namespace Sys2Proof.Machine

theorem fieldN_low {w : Nat} (v : BitVec w) (n : Nat) : fieldN v 0 n = v.toNat % 2 ^ n := by rw [fieldN_eq, Nat.pow_zero, Nat.div_one]

/-! ### Branch targets (R311) -/

theorem readBt_of_young {s : State} {t : BitVec 2} {b : Bt} (h : tabFind s.sq.bt t.toNat = some b) (hb : s.sq.grp < b.grp + 3) :
    readBt s t = .error (timing s 0x01 9 (0x80 + t.toNat) (seqCol s) (w64 b.lc) (w64 t.toNat)) := by
  rw [readBt, h]
  exact if_neg (not_le.2 hb)

/-- What PBR and PBRR leave: the target of one bt register, with the LC and the group count of its write. -/
theorem setBt_writes (t : BitVec 2) (v : Word) (s : State) : let u := charge 5 1 (setBt t v s)
    tabFind u.sq.bt t.toNat = some ⟨v.toNat % 2 ^ 32, s.ix.c, s.sq.grp⟩ ∧
      (∀ n, n ≠ t.toNat → tabFind u.sq.bt n = tabFind s.sq.bt n) ∧ u = charge 5 1 { s with sq := { s.sq with bt := u.sq.bt } } := by
  refine ⟨?_, fun n hn => tabFind_put_other _ _ hn, rfl⟩
  rw [← fieldN_low]
  exact tabFind_put_same ..

/-! ### Transfers (R312) -/

section Transfer

variable {g : Guard} {t : BitVec 2} {a : BitVec 6} {s : State} {target : Nat}

theorem takeTransfer_of_free (drop : Nat) (h : s.sq.pend = none) :
    takeTransfer target drop s = .ok { s with sq := { s.sq with pend := some ⟨target, 2, drop⟩ } } := by
  rw [takeTransfer, h]

theorem takeTransfer_of_pending {p : Pend} (drop : Nat) (h : s.sq.pend = some p) :
    takeTransfer target drop s = .error (timing s 0x02 9 0x84 (seqCol s) (w64 (s.ix.c + p.left)) 0#64) := by
  rw [takeTransfer, h]

variable (hp : predOn g s = true)
include hp

theorem execRet_eq : execRet g s = finishOp s (takeTransfer ((readS s 63#6).toNat % 2 ^ 32) 6 s) := by
  rw [execRet, guarded, if_pos hp, fieldN_low]

section Read

variable {n : Nat} (hb : readBt s t = .ok n)
include hb

theorem execBr_of_read : execBr g t s = finishOp s (takeTransfer n 6 s) := by
  rw [execBr, guarded, if_pos hp, hb]
  rfl

theorem execBrc_of_read : execBrc g t a s = finishOp s (if readS s a = 0#64 then .ok s else takeTransfer n 6 s) := by
  rw [execBrc, guarded, if_pos hp, hb]
  rfl

theorem execCall_of_read : execCall g t s = finishOp s (do .ok (landIn (← takeTransfer n 6 s) 1 .link)) := by
  rw [execCall, guarded, if_pos hp, hb]
  rfl

end Read

/-- Every operation that reads a bt register takes the fault of the read. -/
theorem exec_of_readBt_error {x : Trap} {l : BitVec 3} {i : BitVec 20} (hb : readBt s t = .error x) :
    ∀ u ∈ [Instr.br g t, .brc g t a, .call g t, .loop g l a t, .loopi g l t i], exec u s = .next (takeTrap x s) := by
  simp only [List.forall_mem_cons, List.not_mem_nil, false_imp_iff, implies_true, and_true]
  have hloop (count : Nat) : startLoop l count t s = .error x := by
    rw [startLoop, hb]
    rfl
  exact ⟨finishOp_guarded_of_error hp (by rw [hb]; rfl), finishOp_guarded_of_error hp (by rw [hb]; rfl),
    finishOp_guarded_of_error hp (by rw [hb]; rfl), finishOp_guarded_of_error hp (hloop _), finishOp_guarded_of_error hp (hloop _)⟩

end Transfer

/-- Settles O11: each operation is one of `setBt`, `takeTransfer` after a read of its target, and `afterGroup` counts the delay groups. -/
theorem branches : Obligations.Branches := by
  refine ⟨fun g t i a s hp => ?targets, fun g t a s hp => ⟨fun hn => ⟨?ret, fun b hb hold => ?free⟩, fun p hpend => ⟨?retBusy,
    fun b hb hold => ?busy⟩, fun l i lc hlc => ?missing, fun target drop ls last next => ⟨rfl, rfl, rfl⟩⟩⟩
  case targets =>
    exact ⟨⟨_, finishOp_guarded_of_ok hp rfl, setBt_writes ..⟩, ⟨_, finishOp_guarded_of_ok hp rfl, setBt_writes ..⟩⟩
  case ret =>
    refine (execRet_eq hp).trans ?_
    rw [takeTransfer_of_free 6 hn]
    rfl
  case free =>
    have hread := readBt_of_old hb hold
    refine ⟨(execBr_of_read hp hread).trans ?_, (execBrc_of_read hp hread).trans ?_, (execCall_of_read hp hread).trans ?_⟩ <;>
      rw [takeTransfer_of_free 6 hn]
    · rfl
    · split <;> rfl
    · rfl
  case retBusy =>
    refine (execRet_eq hp).trans ?_
    rw [takeTransfer_of_pending 6 hpend]
    rfl
  case busy =>
    have hread := readBt_of_old hb hold
    refine ⟨(execBr_of_read hp hread).trans ?_, (execCall_of_read hp hread).trans ?_, (execBrc_of_read hp hread).trans ?_⟩ <;>
      rw [takeTransfer_of_pending 6 hpend]
    · rfl
    · rfl
    · split <;> rfl
  case missing =>
    obtain ⟨hb, rfl⟩ | ⟨b, hb, hyoung, rfl⟩ := hlc
    · exact exec_of_readBt_error hp (readBt_of_empty hb)
    · exact exec_of_readBt_error hp (readBt_of_young hb hyoung)

/-! ### The start of a level (R314) -/

section Start

variable {g : Guard} {l : BitVec 3} {t : BitVec 2} {a : BitVec 6} {i : BitVec 20} {s : State} {e count : Nat}

/-- A loop on level `l` with end bundle `e` is valid: no level from `l` up is active, and the body has 1 to 256 bundles. -/
def loopFits (l : BitVec 3) (e : Nat) (s : State) : Prop :=
  (getLoop s l).active = false ∧ (∀ n, l.toNat < n → n < 6 → (tabGet loopOff s.sq.loops n).active = false) ∧
    s.ix.last.bundle + 1 ≤ e ∧ e ≤ s.ix.last.bundle + 1 + 255

theorem loopFits_iff : loopFits l e s ↔
    ¬((getLoop s l).active || (List.range 6).any (fun n => decide (l.toNat < n) && (tabGet loopOff s.sq.loops n).active)
      || decide (e < s.ix.last.bundle + 1) || decide (e - (s.ix.last.bundle + 1) > 255)) = true := by
  simp only [loopFits, Bool.or_eq_true, List.any_eq_true, List.mem_range, Bool.and_eq_true, decide_eq_true_eq, not_or, not_exists, not_and,
    Bool.not_eq_true, not_lt, gt_iff_lt, and_assoc]
  refine and_congr_right fun _ => and_congr ⟨fun h n hn hl => h n hl hn, fun h n hn hl => h n hl hn⟩ (and_congr_right fun _ => ?_)
  omega

theorem not_loopFits_iff : ¬loopFits l e s ↔ (getLoop s l).active = true ∨
    (∃ n, l.toNat < n ∧ n < 6 ∧ (tabGet loopOff s.sq.loops n).active = true) ∨ e < s.ix.last.bundle + 1 ∨
      s.ix.last.bundle + 1 + 255 < e := by
  simp only [loopFits, not_and_or, not_forall, Bool.not_eq_false, exists_prop, not_le]

theorem startLoop_of_fits (hb : readBt s t = .ok e) (h : loopFits l e s) : startLoop l count t s = .ok
    (if count = 0 then { s with ix := { s.ix with jump := some ⟨e + 1, 0⟩ } }
     else setLoop l { getLoop s l with
       active := true, count := count, iter := 0, idx := (getLoop s l).start, stride := (getLoop s l).next,
       sB := s.ix.last.bundle + 1, eB := e } s) := by
  rw [startLoop, hb]
  refine (if_neg (loopFits_iff.1 h)).trans ?_
  split <;> rfl

theorem startLoop_of_not_fits (hb : readBt s t = .ok e) (h : ¬loopFits l e s) : startLoop l count t s = .error (loopFault s l) := by
  rw [startLoop, hb]
  exact if_pos (not_not.1 (mt loopFits_iff.2 h))

end Start

/-! ### The end of a level (R316, R317) -/

section End

variable {g : Guard} {l : BitVec 3} {s : State} (hp : predOn g s = true)
include hp

theorem execLbrk_of_active (h : (getLoop s l).active = true) :
    execLbrk g l s = finishOp s (takeTransfer ((getLoop s l).eB + 1) l.toNat s) := by
  rw [execLbrk, guarded, if_pos hp, if_pos h]

theorem execLbrk_of_inactive (h : (getLoop s l).active = false) : execLbrk g l s = .next (takeTrap (loopFault s l) s) :=
  finishOp_guarded_of_error hp (if_neg (Bool.eq_false_iff.1 h))

end End

theorem active_dropLoops_eq {n : Nat} (hn : n < 6) (d : Nat) (ls : Tab Loop) :
    (tabGet loopOff (dropLoops d ls) n).active = (decide (n < d) && (tabGet loopOff ls n).active) := by
  rw [Bool.eq_iff_iff, active_dropLoops, Bool.and_eq_true, decide_eq_true_eq, and_comm]
  simp only [hn, true_and, not_le]

/-- Settles O12: LOOP and LOOPI by whether the loop fits, LBRK by whether its level is active and a transfer pending. -/
theorem loops : Obligations.Loops := by
  refine ⟨fun g l t a i b s hp hb hold => ?start, fun g l d a i s hp => ?other⟩
  case start =>
    have hread := readBt_of_old hb hold
    intro first old started
    refine ⟨fun hi hn h1 h2 => ?_, fun hbad => ?_⟩
    · have hfit : loopFits l b.bundle s := ⟨hi, hn, h1, h2⟩
      exact ⟨finishOp_guarded_of_ok hp (startLoop_of_fits hread hfit), finishOp_guarded_of_ok hp (startLoop_of_fits hread hfit)⟩
    · have hfit : ¬loopFits l b.bundle s := not_loopFits_iff.2 hbad
      exact ⟨finishOp_guarded_of_error hp (startLoop_of_not_fits hread hfit),
        finishOp_guarded_of_error hp (startLoop_of_not_fits hread hfit)⟩
  case other =>
    intro k
    refine ⟨finishOp_guarded_of_ok hp rfl, ?lidx, fun ha hn => ?free, fun p ha hpend => ?busy, execLbrk_of_inactive hp,
      fun ls last next n hn => active_dropLoops_eq hn ..⟩
    case lidx =>
      rw [← landS_eq]
      exact finishOp_guarded_of_ok hp rfl
    case free =>
      refine (execLbrk_of_active hp ha).trans ?_
      rw [takeTransfer_of_free _ hn]
      rfl
    case busy =>
      refine (execLbrk_of_active hp ha).trans ?_
      rw [takeTransfer_of_pending _ hpend]
      rfl

end Sys2Proof.Machine
end

section

/-! ## Votes (O19) -/

namespace Sys2Proof.Machine

theorem voteLanes_eq (s : State) : voteLanes s =
    (let sh := tabGet 0#64 s.sq.sh 3
     if shG sh = true ∧ shVec sh = true ∧ shQM sh < 32 * s.tk.g then shQM sh else 32 * s.tk.g) := by
  simp only [voteLanes, lanesOf, Bool.and_eq_true]
  by_cases hlt : shQM (tabGet 0#64 s.sq.sh 3) < 32 * s.tk.g
  · simp [hlt, min_eq_right hlt.le]
  · simp [hlt, min_eq_left (not_lt.1 hlt)]

section Vote

variable {g : Guard} {q m : BitVec 3} {s : State} {n : Nat} (hp : predOn g s = true) (hn : voteLanes s = n)
include hp hn

theorem execVany_on : execVany g q m s = .next (scheduled s (toQ s q (decide (∃ l < n, (readM s m).getLsbD l = true)))) := by
  subst hn
  rw [← landQ_eq]
  refine finishOp_guarded_of_ok hp (congrArg (fun v => Except.ok (landQ s q v)) ?_)
  rw [if_neg Bool.false_ne_true, Bool.eq_iff_iff, decide_eq_true_eq, List.any_eq_true]
  simp only [List.mem_range]

theorem execVall_on : execVall g q m s = .next (scheduled s (toQ s q (decide (∀ l < n, (readM s m).getLsbD l = true)))) := by
  subst hn
  rw [← landQ_eq]
  refine finishOp_guarded_of_ok hp (congrArg (fun v => Except.ok (landQ s q v)) ?_)
  rw [if_pos rfl, Bool.eq_iff_iff, decide_eq_true_eq, List.all_eq_true]
  simp only [List.mem_range]

end Vote

/-- The operand fields of a decoded operation's word are those of its encoding (R272). -/
theorem operands_of_decode {e : Option Byte} {w : SlotWord} {i : Instr} {g : Guard} {c : BitVec 3} {o d a b : BitVec 6} {y : Option Byte}
    (h : decode e w = .ok i) (hi : encode i = some (slotWord g c o d a b, y)) : w.extractLsb' 0 18 = d ++ a ++ b := by
  obtain ⟨-, y', henc, -⟩ := encodeDecode e w i h
  obtain ⟨rfl, -⟩ := Prod.mk.inj (Option.some.inj (henc.symm.trans hi))
  apply BitVec.eq_of_toNat_eq
  simp only [slotWord, BitVec.extractLsb'_toNat, Nat.shiftRight_zero, toNat_append_eq]
  omega

theorem voteOperands (q m : BitVec 3) : q3 q ++ q3 m ++ 0#6 = 0#3 ++ q ++ 0#3 ++ m ++ 0#6 := by decide +revert

/-- Settles O19: both votes are over `voteLanes`, and the operand fields are as the encoder writes them. -/
theorem maskVotes : Obligations.MaskVotes := by
  intro g q m s hp sh lanes
  have hlanes : voteLanes s = lanes := voteLanes_eq s
  refine ⟨execVany_on hp hlanes, execVall_on hp hlanes, ?_⟩
  rintro e w (h | h)
  · exact (operands_of_decode h rfl).trans (voteOperands q m)
  · exact (operands_of_decode h rfl).trans (voteOperands q m)

end Sys2Proof.Machine
end

section

/-! ## Vector arithmetic (O32, O33) -/

namespace Sys2Proof.Machine

/-! ### A row-wise operation that is ready (R326 to R328) -/

theorem vecOp_of_vecReady {vb fp on : Bool} {lat dst : Nat} {mask : BitVec 128} {resv : Except Trap Unit} {a b d : Src} {s : State}
    {f : Nat → Row → Row → Row → Nat → LaneRes} (h : vecReady vb on s a b d dst) (hr : resv = .ok ()) :
    vecOp vb fp lat mask on resv dst a b d f s =
      .next (vecEffect vb fp lat mask dst a b d f s (latched vb (vecRows s) a b s)) := by
  obtain ⟨hon, hshape, ha, hb, hd, hrows⟩ := h
  exact vecFrame_of_on hon (vecChecks_of_ready hshape hr (by simpa using ⟨ha, hb, hd⟩) hrows)

section Arithmetic

variable {vb : Bool} {g : Guard} {d : BitVec 8} {a b : VOp} {s : State} (hk : laneMask g s ≠ 0#128)
include hk

/-- Some lane is on, so an operation that is ready under its predicate is ready. -/
theorem vecReady_of_lanes {x y z : Src} {dst : Nat} (h : vecReady vb true s x y z dst) :
    vecReady vb (laneMask g s != 0#128) s x y z dst := ⟨bne_iff_ne.2 hk, h.2⟩

theorem fpOp_of_ready (lat : Nat) (fused : Bool) (op : Fmt → BitVec 2 → Nat → Nat → Nat → Nat × BitVec 5) (hf : pVft s.sq.prec ≠ 3)
    (h : vecReady vb true s (srcOf a) (srcOf b) (if fused then .win d.toNat else .none) d.toNat) :
    fpOp vb lat fused op g d a b s = .next (vecEffect vb true lat (laneMask g s) d.toNat (srcOf a) (srcOf b)
      (if fused then .win d.toNat else .none)
      (fun _ x y z l => fpLane (vft s) (op (vft s) (pRm s.sq.prec)) (at' x l) (at' y l) (at' z l)) s
      (latched vb (vecRows s) (srcOf a) (srcOf b) s)) :=
  vecOp_of_vecReady (vecReady_of_lanes hk h) (vftOk_of_ne hf)

theorem fpUn_of_ready (lat : Nat) (op : Fmt → BitVec 2 → Nat → Nat × BitVec 5) (hf : pVft s.sq.prec ≠ 3)
    (h : vecReady vb true s (srcOf a) .none .none d.toNat) :
    fpUn vb lat op g d a s = .next (vecEffect vb true lat (laneMask g s) d.toNat (srcOf a) .none .none
      (fun _ x _ _ l => fpLane (vft s) (fun p _ _ => op (vft s) (pRm s.sq.prec) p) (at' x l) 0#32 0#32) s
      (latched vb (vecRows s) (srcOf a) .none s)) :=
  vecOp_of_vecReady (vecReady_of_lanes hk h) (vftOk_of_ne hf)

theorem intOp_of_ready (fused : Bool) (op : Nat → Nat → Nat → Nat → Nat) (hw : pViw s.sq.prec ≠ 3)
    (h : vecReady vb true s (srcOf a) (srcOf b) (if fused then .win d.toNat else .none) d.toNat) :
    intOp vb fused op g d a b s = .next (vecEffect vb false 2 (laneMask g s) d.toNat (srcOf a) (srcOf b)
      (if fused then .win d.toNat else .none) (fun _ x y z l => intLane (viw s) op (at' x l) (at' y l) (at' z l)) s
      (latched vb (vecRows s) (srcOf a) (srcOf b) s)) :=
  vecOp_of_vecReady (vecReady_of_lanes hk h) (viwOk_of_ne hw)

theorem rawOp_of_ready {x y : Src} (lat : Nat) (op : BitVec 32 → BitVec 32 → BitVec 32) (h : vecReady vb true s x y .none d.toNat) :
    rawOp vb lat op g d x y s = .next (vecEffect vb false lat (laneMask g s) d.toNat x y .none
      (fun _ x y _ l => lane (op (at' x l) (at' y l)) 0#5) s (latched vb (vecRows s) x y s)) :=
  vecOp_of_vecReady (vecReady_of_lanes hk h) rfl

end Arithmetic

/-- Settles O32: each operation is `fpOp` or `fpUn` of its latency and its element function. -/
theorem vectorFloat : Obligations.VectorFloat := by
  intro g d a b s hk hf m rm f bin fused un x
  refine ⟨fun h => ?_, fun h => ?_, fun h => ?_, fun h => ?_, fun h => ?_, fun h => ?_⟩
  · have run (lat) (op) := fpOp_of_ready hk lat false op hf h
    exact ⟨run 4 addEl, run 4 subEl, run 4 mulEl, run 4 (minmaxEl false), run 4 (minmaxEl true), run 14 divEl⟩
  · have run (op) := fpOp_of_ready hk 4 false op hf h
    exact ⟨run addEl, run subEl, run mulEl, run (minmaxEl false), run (minmaxEl true)⟩
  · have run (op) := fpOp_of_ready hk 4 true op hf h
    exact ⟨run fmaEl, run fmsEl, run fnmaEl⟩
  · have run (op) := fpOp_of_ready hk 4 true op hf h
    exact ⟨run fmaEl, run fmsEl, run fnmaEl⟩
  · have run (lat) (op) := fpUn_of_ready hk lat op hf h
    exact ⟨run 4 (signEl false), run 4 (signEl true), run 3 (fun f _ p => rcpe f (decodeF f p)), run 3 (fun f _ p => rsqe f (decodeF f p)),
      run 14 (fun f rm p => encodeX f rm (sqrtX f (decodeF f p))), run 10 (fun f rm p => encodeX f rm (exp2X f (decodeF f p))),
      run 10 (fun f rm p => encodeX f rm (log2X f (decodeF f p)))⟩
  · have run (lat) (op) := fpUn_of_ready hk lat op hf h
    exact ⟨run 4 (signEl false), run 4 (signEl true), run 3 (fun f _ p => rcpe f (decodeF f p)), run 3 (fun f _ p => rsqe f (decodeF f p))⟩

/-! ### Shifts that keep the sign (R336) -/

theorem sextN_bounds (w x : Nat) : -2 ^ w ≤ sextN w x ∧ sextN w x < 2 ^ w := by
  have hpos : (0 : Int) < 2 ^ w := by positivity
  have hlt : ((x % 2 ^ w : Nat) : Int) < 2 ^ w := by exact_mod_cast Nat.mod_lt x (Nat.two_pow_pos w)
  unfold sextN
  split <;> constructor <;> omega

/-- A shift by the width or more leaves the sign alone. -/
theorem sextN_div_width (w x : Nat) : sextN w x / 2 ^ w = if sextN w x < 0 then -1 else 0 := by
  obtain ⟨hlo, hhi⟩ := sextN_bounds w x
  have hpos : (0 : Int) < 2 ^ w := by positivity
  split
  case isTrue h => exact (Int.ediv_eq_iff_of_pos hpos).2 ⟨by omega, by omega⟩
  case isFalse h => exact Int.ediv_eq_zero_of_lt (not_lt.1 h) hhi

theorem ishraEl_eq (w p c r : Nat) : ishraEl w p c r = intBits w (sextN w p / 2 ^ min c w) := by
  unfold ishraEl
  split
  case isTrue h => rw [min_eq_right h, sextN_div_width]
  case isFalse h => rw [min_eq_left (not_le.1 h).le]

theorem intLane_ishraEl (w : Nat) : intLane w ishraEl = intLane w (fun _ p c _ => intBits w (sextN w p / 2 ^ min c w)) := by
  funext x y z
  simp only [intLane, ishraEl_eq]

/-- Settles O33: each operation is `intOp` or `rawOp` of its element function. -/
theorem vectorInteger : Obligations.VectorInteger := by
  intro g d a b s hk hw m w el mac raw shra
  refine ⟨fun h => ?_, fun h => ?_, fun h => ?_, fun h => ?_⟩
  · have run (op) := intOp_of_ready hk false op hw h
    have bits (op) := rawOp_of_ready hk 2 op h
    have hshra := run ishraEl
    simp only [intLane_ishraEl] at hshra
    exact ⟨run iaddEl, run isubEl, run imulEl, bits (· &&& ·), bits (· ||| ·), bits (· ^^^ ·), run ishlEl, run ishrEl, hshra⟩
  · have run (op) := intOp_of_ready hk false op hw h
    have bits (op) := rawOp_of_ready hk 2 op h
    have hshra := run ishraEl
    simp only [intLane_ishraEl] at hshra
    exact ⟨run iaddEl, run isubEl, run imulEl, bits (· &&& ·), bits (· ||| ·), bits (· ^^^ ·), run ishlEl, run ishrEl, hshra⟩
  · exact intOp_of_ready hk true imacEl hw h
  · exact intOp_of_ready hk true imacEl hw h

end Sys2Proof.Machine
end

section

/-! ## Vector moves, conversions and views (O35, O36) -/

namespace Sys2Proof.Machine

/-! ### The scale of a block (R344) -/

section Scale

/-- A value that spoils its block: a NaN or an infinity. -/
def spoils (v : FV) : Bool := isNan v || v == .inf true || v == .inf false

/-- The exponent of a finite value other than zero. -/
def finExponent : FV → Option Int
  | .fin _ m e => if m = 0 then none else some (ilog2 m e)
  | _ => none

/-- The scale byte and X of a block whose elements other than zero have the exponents `es`. -/
def scaleOf (ds : BitVec 3) (es : List Int) : Nat × Option Int × Bool :=
  match es with
  | [] => (127, some 0, false)
  | h :: t =>
    let emax : Int := if ds = 3#3 then 8 else if ds = 4#3 then 15 else -1
    let x := max (-127) (min 127 (t.foldl max h - emax))
    ((x + 127).toNat, some x, false)

variable {ds : BitVec 3} {vs : List FV}

theorem blockScale_of_spoilt (h : ∃ x ∈ vs, isNan x = true ∨ x = .inf true ∨ x = .inf false) : blockScale ds vs = (255, none, true) := by
  refine if_pos (List.any_eq_true.2 ?_)
  simpa [or_assoc] using h

theorem clamp_eq (x : Int) : (if x < -127 then -127 else if x > 127 then 127 else x) = max (-127) (min 127 x) := by
  split_ifs <;> omega

theorem blockScale_of_finite (h : ∀ x ∈ vs, ∃ sg m e, x = .fin sg m e) : blockScale ds vs = scaleOf ds (vs.filterMap finExponent) := by
  have hno : ¬vs.any (fun v => isNan v || v == .inf true || v == .inf false) = true := by
    rw [List.any_eq_true]
    rintro ⟨x, hx, hs⟩
    obtain ⟨sg, m, e, rfl⟩ := h x hx
    cases hs
  refine (if_neg hno).trans ?_
  simp only [clamp_eq]
  rfl

/-- The fold of `max` is the greatest element. -/
theorem foldl_max_eq {h M : Int} {t : List Int} (hm : M ∈ h :: t) (hle : ∀ x ∈ h :: t, x ≤ M) : t.foldl max h = M := by
  induction t generalizing h with
  | nil => exact (List.mem_singleton.1 hm).symm
  | cons x t ih =>
    refine ih ?_ ?_
    · obtain rfl | hm := List.mem_cons.1 hm
      · rw [max_eq_left (hle x (by simp))]
        exact List.mem_cons_self
      · obtain rfl | hm := List.mem_cons.1 hm
        · rw [max_eq_right (hle h (by simp))]
          exact List.mem_cons_self
        · exact List.mem_cons_of_mem _ hm
    · simp only [List.forall_mem_cons] at hle ⊢
      exact ⟨max_le hle.1 hle.2.1, hle.2.2⟩

theorem scaleOf_of_greatest {es : List Int} {M : Int} (hm : M ∈ es) (hle : ∀ x ∈ es, x ≤ M) : scaleOf ds es =
    (let emax : Int := if ds = 3#3 then 8 else if ds = 4#3 then 15 else -1
     let x := max (-127) (min 127 (M - emax))
     ((x + 127).toNat, some x, false)) := by
  cases es with
  | nil => cases hm
  | cons h t => rw [scaleOf, foldl_max_eq hm hle]

theorem blockScale_of_zeros (h : ∀ x ∈ vs, ∃ sg e, x = .fin sg 0 e) : blockScale ds vs = (127, some 0, false) := by
  rw [blockScale_of_finite fun x hx => (h x hx).imp fun sg ⟨e, he⟩ => ⟨0, e, he⟩, List.filterMap_eq_nil_iff.2]
  · rfl
  · intro x hx
    obtain ⟨sg, e, rfl⟩ := h x hx
    rfl

theorem blockScale_of_greatest {sg : Bool} {m : Nat} {e : Int}
    (h : ∀ x ∈ vs, ∃ sg' m' e', x = .fin sg' m' e' ∧ (m' ≠ 0 → e' + m'.log2 ≤ e + m.log2)) (hx : .fin sg m e ∈ vs) (hm : m ≠ 0) :
    blockScale ds vs =
      (let emax : Int := if ds = 3#3 then 8 else if ds = 4#3 then 15 else -1
       let x := max (-127) (min 127 (e + m.log2 - emax))
       ((x + 127).toNat, some x, false)) := by
  rw [blockScale_of_finite fun x hx => (h x hx).imp fun sg ⟨m, e, he, _⟩ => ⟨m, e, he⟩]
  refine scaleOf_of_greatest (List.mem_filterMap.2 ⟨_, hx, if_neg hm⟩) fun y hy => ?_
  obtain ⟨x, hx, hy⟩ := List.mem_filterMap.1 hy
  obtain ⟨sg', m', e', rfl, hle⟩ := h x hx
  by_cases hm' : m' = 0
  · simp [finExponent, hm'] at hy
  · simp only [finExponent, if_neg hm', Option.some.injEq] at hy
    exact hy ▸ hle hm'

end Scale

/-! ### A packed element (R344) -/

section Element

variable {rm : BitVec 2} {sc m : Nat} {b sg : Bool} {e x : Int}

theorem packElem_float {ds : BitVec 3} {f : Fmt} (hm : m ≠ 0) (hf : ds = 3#3 ∧ f = e4m3 ∨ ds = 4#3 ∧ f = e5m2) :
    packElem ds rm (sc, some x, b) (.fin sg m e) =
      ((roundSat f rm true sg m (e - x)).1, (roundSat f rm true sg m (e - x)).2 &&& (fOF ||| fNX)) := by
  obtain ⟨rfl, rfl⟩ | ⟨rfl, rfl⟩ := hf
  · exact if_neg hm
  · exact if_neg hm

theorem packElem_int : packElem 7#3 rm (sc, some x, b) (.fin sg m e) =
    (let r := roundInt rm sg m (e + 7 - x)
     if satInt 8 r.1 = r.1 then (intBits 8 r.1, if r.2 then fNX else 0#5) else (intBits 8 (satInt 8 r.1), fOF ||| fNX)) := rfl

theorem packElem_int_of_fits {r : Int × Bool} (hr : roundInt rm sg m (e + 7 - x) = r) (hlo : -128 ≤ r.1) (hhi : r.1 ≤ 127) :
    packElem 7#3 rm (sc, some x, b) (.fin sg m e) = (intBits 8 r.1, if r.2 then fNX else 0#5) := by
  subst hr
  refine packElem_int.trans (if_pos ?_)
  unfold satInt
  split_ifs <;> omega

theorem packElem_int_of_saturated {n : Int} (hn : satInt 8 (roundInt rm sg m (e + 7 - x)).1 = n)
    (hne : n ≠ (roundInt rm sg m (e + 7 - x)).1) :
    packElem 7#3 rm (sc, some x, b) (.fin sg m e) = (intBits 8 n, fOF ||| fNX) := by
  subst hn
  exact packElem_int.trans (if_neg hne)

theorem satInt_of_below {n : Int} (h : n < -128) : satInt 8 n = -128 := if_pos h

theorem satInt_of_above {n : Int} (h : 127 < n) : satInt 8 n = 127 := by
  unfold satInt
  split_ifs <;> omega

end Element

/-! ### Operations on a single row -/

theorem shapedRows_of_ready {s : State} (h : shapeReady s) {n : Nat} {srcs : List (Nat × Src)} {dst : List Nat}
    (hs : ∀ e ∈ srcs, operandReady s n e.1 e.2) (hd : rowsOwned s dst) :
    (do
      let _ ← sh3Form s
      rowsCheck s n srcs dst : Except Trap Unit) = .ok () :=
  vecChecks_of_ready h (resv := .ok ()) rfl hs hd

theorem operandReady_single {s : State} {latch x : Nat} (h : canRead s (winRow s x)) : operandReady s 1 latch (.win x) := by
  refine ⟨fun h => (nomatch h), fun j hj r hr => ?_⟩
  obtain rfl : j = 0 := Nat.lt_one_iff.1 hj
  obtain rfl : winRow s x = r := Option.some.inj hr
  exact h

section Moves

variable {vb : Bool} {g : Guard} {s : State} (hk : laneMask g s ≠ 0#128) (h : shapeReady s)
include hk h

theorem laneOp_of_ready {d a : BitVec 6} {i : BitVec 14} {k : Nat} (hi : i.toNat % (vecRows s * lanesOf s) = k)
    (hd : rowsOwned s [winRow s (d.toNat + k / lanesOf s)]) :
    laneOp vb g d a i s = .next (laneEffect (laneMask g s) k (winRow s (d.toNat + k / lanesOf s)) a s s) := by
  subst hi
  exact vecFrame_of_on (bne_iff_ne.2 hk) (shapedRows_of_ready h (by simp) hd)

theorem extOp_of_ready {d a : BitVec 6} {i : BitVec 14} (hr : canRead s (winRow s (vextRow s a i))) :
    extOp vb g d a i s = .next (extEffect (laneMask g s) (i.toNat % (vecRows s * lanesOf s)) (vextRow s a i) d s
      (latched vb 1 (.win (vextRow s a i)) .none s)) :=
  vecFrame_of_on (bne_iff_ne.2 hk)
    (shapedRows_of_ready h (by simpa using operandReady_single hr) fun _ hx => nomatch hx)

theorem reduceOp_of_ready (sum : Bool) {d : BitVec 8} {a : VOp} (hf : pVft s.sq.prec ≠ 3)
    (ha : operandReady s (vecRows s) (latchNo false false) (srcOf a)) (hd : rowsOwned s (resultRows s d.toNat)) :
    reduceOp sum g d a s = .next (reduceEffect sum (laneMask g s) d a s (latched false (vecRows s) (srcOf a) .none s)) :=
  vecFrame_of_on (bne_iff_ne.2 hk) (vecChecks_of_ready h (vftOk_of_ne hf) (by simpa using ha) hd)

end Moves

/-- Settles O35: the scale and the element by their values, and every operation by the frame of its form. -/
theorem vectorMoves : Obligations.VectorMoves := by
  intro g d a b e c i ds sr p t s hk h m n win on row k val block packed
  have ready {vb : Bool} {x y : Src} {dst : Nat} (hon : on vb x y dst) : vecReady vb (laneMask g s != 0#128) s x y .none dst := by
    obtain ⟨hx, hy, hd⟩ := hon
    exact ⟨bne_iff_ne.2 hk, h, hx, hy, operandReady_none .., hd⟩
  have bare {vb : Bool} (hd : rowsOwned s (resultRows s d.toNat)) : on vb .none .none d.toNat :=
    ⟨operandReady_none .., operandReady_none .., hd⟩
  refine ⟨fun vs => blockScale_of_spoilt, fun vs => blockScale_of_zeros, fun vs sg mm ee hx => blockScale_of_greatest hx,
    fun rm sc b v => ⟨rfl, rfl, rfl⟩, fun rm sc b sg mm ee x hm => ⟨fun f => packElem_float hm, packElem_int_of_fits rfl,
      fun hlo => ?below, fun hhi => ?above⟩,
    fun hon => ?vmovVa, fun hon => ?vmovVb, fun hd => ?vbcst, fun hd => ⟨laneOp_of_ready hk h rfl hd, laneOp_of_ready hk h rfl hd⟩,
    fun hr => ⟨extOp_of_ready hk h hr, extOp_of_ready hk h hr⟩, fun hon => ?vperm, fun hf ⟨ha, _, hd⟩ =>
      ⟨reduceOp_of_ready hk h true hf ha hd, reduceOp_of_ready hk h false hf ha hd⟩, fun hon => ?unaryVa, fun hon => ?unaryVb⟩
  case below => exact packElem_int_of_saturated (satInt_of_below hlo) hlo.ne'
  case above => exact packElem_int_of_saturated (satInt_of_above hhi) hhi.ne
  case vbcst => exact ⟨vecOp_of_vecReady (ready (bare hd)) rfl, vecOp_of_vecReady (ready (bare hd)) rfl⟩
  case vmovVa | vmovVb | vperm => exact vecOp_of_vecReady (ready hon) rfl
  case unaryVa | unaryVb => and_intros <;> exact vecOp_of_vecReady (ready hon) rfl

/-! ### Indirect rows (R346) -/

theorem vldxRow_eq (a : Word) (i : Imm14) : vldxRow a i = (((a.toNat : Int) + (immS14 i).toInt) % 2304).toNat := rfl

section Indirect

variable {vb : Bool} {g : Guard} {d a : BitVec 6} {i : Imm14} {s : State} {x : Nat} (hk : laneMask g s ≠ 0#128) (h : shapeReady s)
  (hx : vldxRow (readS s a) i = x)
include hk h hx

theorem ldxOp_of_ready (hr : operandReady s (vecRows s) 4 (.abs x)) (hd : rowsOwned s (resultRows s d.toNat)) :
    ldxOp vb g d a i s = .next (vecEffect vb false 2 (laneMask g s) d.toNat .none .none (.abs x)
      (fun _ _ _ z l => lane (at' z l) 0#5) s s) := by
  subst hx
  exact vecOp_of_vecReady ⟨bne_iff_ne.2 hk, h, operandReady_none .., operandReady_none .., hr, hd⟩ rfl

theorem stxOp_of_ready (hr : operandReady s (vecRows s) 4 (.win d.toNat))
    (hd : rowsOwned s ((List.range (vecRows s)).map (fun j => (x + j) % 2304))) :
    stxOp vb g d a i s = .next (stxEffect (laneMask g s) d x s s) := by
  subst hx
  exact vecFrame_of_on (bne_iff_ne.2 hk) (shapedRows_of_ready h (by simpa using hr) hd)

end Indirect

/-! ### Tile views (R347, R348) -/

section Views

variable {vb : Bool} {g : Guard} {d a : BitVec 6} {t : BitVec 3} {r : BitVec 8} {s : State} {v : Word} (hk : laneMask g s ≠ 0#128)
  (hv : tabGet 0#64 s.sq.td t.toNat = v)

theorem viewSet_of_configured (hv : tabGet 0#64 s.sq.td t.toNat = v) (h : vNrow v ≠ 0) : viewSet s t = .ok v := by
  subst hv
  exact if_neg h

theorem viewSet_of_unconfigured (hv : tabGet 0#64 s.sq.td t.toNat = v) (h : vNrow v = 0) :
    viewSet s t = .error (viewFault s 0x01 t.toNat v (vBase v)) := by
  subst hv
  exact if_pos h

/-- A vector operation that is on and fails its checks traps. -/
theorem vecFrame_of_error {on : Bool} {n : Nat} {x y : Src} {chk : Except Trap Unit} {eff : State → State} {f : Trap} (h : on = true)
    (hc : chk = .error f) : vecFrame on vb n x y s chk eff = .next (takeTrap f s) := by
  rw [vecFrame, h, hc]
  rfl

include hk hv

theorem vtrOp_of_ready (write : Bool) {src dst : Nat} (h : shapeReady s) (hr : vNrow v ≠ 0)
    (hsrc : (if write then winRow s d.toNat else vtrRow s t a r) = src) (hdst : (if write then vtrRow s t a r else winRow s d.toNat) = dst)
    (hs : operandReady s 1 4 (.abs src)) (hd : rowsOwned s [dst]) :
    vtrOp vb write g d t a r s = .next (vtrEffect (laneMask g s) src dst s s) := by
  subst hsrc hdst
  refine vecFrame_of_on (bne_iff_ne.2 hk) ?_
  rw [viewSet_of_configured hv hr]
  exact shapedRows_of_ready h (by simpa using hs) hd

theorem vtrOp_of_unconfigured (write : Bool) (hr : vNrow v = 0) :
    vtrOp vb write g d t a r s = .next (takeTrap (viewFault s 0x01 t.toNat v (vBase v)) s) :=
  vecFrame_of_error (bne_iff_ne.2 hk) (by rw [viewSet_of_unconfigured hv hr]; rfl)

theorem vtcOp_of_unconfigured (write : Bool) (hr : vNrow v = 0) :
    vtcOp write g d t a s = .next (takeTrap (viewFault s 0x01 t.toNat v (vBase v)) s) :=
  vecFrame_of_error (bne_iff_ne.2 hk) (by rw [viewSet_of_unconfigured hv hr]; rfl)

theorem vtcOp_of_ready (write : Bool) {c : Nat} {srcs : List (Nat × Src)} {extra : List Nat} (h : shapeReady s) (hr : vNrow v ≠ 0)
    (hw : vW v = 8 ∨ vW v = 16 ∨ vW v = 32)
    (hf : ¬(s.sq.rdHold.1 ≤ s.ix.c ∧ s.ix.c < s.sq.rdHold.2)) (hc : (readS s a).toNat % vNcol v = c)
    (hsrcs : (if write then [(4, .win d.toNat)] else []) = srcs) (hextra : (if write then [] else [winRow s d.toNat]) = extra)
    (hs : ∀ e ∈ srcs, operandReady s 1 e.1 e.2) (hd : rowsOwned s ((List.range (vtcRows s v)).map (fun j => vtcRow s v j c) ++ extra)) :
    vtcOp write g d t a s = .next (vtcEffect write (laneMask g s) d v c s s) := by
  subst hv hc hsrcs hextra
  have hwidth : ¬(vW (tabGet 0#64 s.sq.td t.toNat) ≠ 8 ∧ vW (tabGet 0#64 s.sq.td t.toNat) ≠ 16 ∧
      vW (tabGet 0#64 s.sq.td t.toNat) ≠ 32) := by tauto
  refine vecFrame_of_on (bne_iff_ne.2 hk) ?_
  obtain ⟨_, hform⟩ := sh3Form_of_ready h
  rw [viewSet_of_configured rfl hr, hform, rowsCheck_of_ready hs hd]
  exact (if_neg hwidth).trans (if_neg hf)

end Views

/-- Settles O36: each operation passes its checks in their order, and an unconfigured view fails the first. -/
theorem vectorMemory : Obligations.VectorMemory := by
  intro g d a i t r s hk h m n k x v y col rows
  have one {latch : Nat} {z : Src} (hz : operandReady s 1 latch z) : ∀ e ∈ [(latch, z)], operandReady s 1 e.1 e.2 := by simpa using hz
  refine ⟨fun hr hd vb => ?ldx, fun hr hd vb => ?stx, fun hv hr hd vb => ?trd, fun hv hr hd vb => ?trw,
    fun hv hw hf hrows => ⟨fun hd => ?tcd, fun hr => ?tcw⟩,
    fun hv => ?unconfigured⟩
  case ldx => cases vb <;> exact ldxOp_of_ready hk h (vldxRow_eq ..) hr hd
  case stx => cases vb <;> exact stxOp_of_ready hk h (vldxRow_eq ..) hr hd
  case trd => cases vb <;> exact vtrOp_of_ready hk rfl false h hv rfl rfl hr hd
  case trw => cases vb <;> exact vtrOp_of_ready hk rfl true h hv rfl rfl hr hd
  case tcd =>
    refine vtcOp_of_ready hk rfl false h hv hw hf rfl rfl rfl (fun _ he => nomatch he) ?_
    exact List.forall_mem_append.2 ⟨hrows, hd⟩
  case tcw =>
    refine vtcOp_of_ready hk rfl true h hv hw hf rfl rfl rfl (one hr) ?_
    exact List.forall_mem_append.2 ⟨hrows, fun _ he => nomatch he⟩
  case unconfigured =>
    have tr {vb : Bool} (write : Bool) : vtrOp vb write g d t a r s = .next (takeTrap (viewFault s 0x01 t.toNat v (vBase v)) s) :=
      vtrOp_of_unconfigured hk rfl write hv
    exact ⟨vtcOp_of_unconfigured hk rfl false hv, vtcOp_of_unconfigured hk rfl true hv, tr false, tr false, tr true, tr true⟩

end Sys2Proof.Machine
end

section

/-! ## PREC, shapes and views (O23, O25) -/

namespace Sys2Proof.Machine

/-! ### A control register written with its shadow (R222) -/

theorem shadowed_eq (x : Nat) (v : Word) (s : State) :
    shadowed x v s = { s with sq := { s.sq with land := s.sq.land ++ [⟨s.ix.c, s.ix.cl + 3, .ctrl x v⟩] } } := rfl

theorem charge_shadowed (x : Nat) (v : Word) (s : State) :
    charge 5 1 (shadowed x v s) = scheduled s [⟨s.ix.c, s.ix.cl + 3, .ctrl x v⟩] := rfl

theorem charge_landS_shadowed (x : Nat) (v : Word) (d : BitVec 6) (y : Word) (s : State) :
    charge 5 1 (landS (shadowed x v s) 1 d y) = scheduled s (⟨s.ix.c, s.ix.cl + 3, .ctrl x v⟩ :: toS s 1 d y) := by
  refine (landS_eq (shadowed x v s) 1 d y).trans ?_
  exact congrArg (fun ls => charge 5 1 { s with sq := { s.sq with land := ls } }) (List.append_cons ..).symm

theorem finishOp_shadowed {g : Guard} {s : State} {x y : Nat} {v w : Word} (hp : predOn g s = true) (hx : x = y) (hv : v = w) :
    finishOp s (guarded (predOn g s) s (.ok (shadowed x v s))) = .next (scheduled s [⟨s.ix.c, s.ix.cl + 3, .ctrl y w⟩]) := by
  subst hx hv
  exact finishOp_guarded_of_ok hp rfl

/-- A scalar result of latency `l`, and nothing else. -/
theorem finishOp_landS {g : Guard} {s : State} {l : Nat} {d : BitVec 6} {v w : Word} (hp : predOn g s = true) (hv : v = w) :
    finishOp s (guarded (predOn g s) s (.ok (landS s l d v))) = .next (scheduled s (toS s l d w)) := by
  subst hv
  rw [← landS_eq]
  exact finishOp_guarded_of_ok hp rfl

theorem sat11_eq (v : Word) : sat11 v = min v.toNat 2047 := by
  unfold sat11
  split <;> omega

/-- Settles O23: PREC and PRECI are one write with its shadow, SHAPE and SHAPQ the word of their request. -/
theorem precAndShapes : Obligations.PrecAndShapes := by
  intro g d a b n i s hp old later qm qn
  have hqm : sat11 (readS s a) = qm := sat11_eq _
  have hqn : sat11 (readS s b) = qn := sat11_eq _
  refine ⟨?prec, finishOp_shadowed hp rfl rfl, finishOp_shadowed hp rfl rfl, finishOp_shadowed hp rfl rfl, finishOp_shadowed hp rfl rfl,
    finishOp_shadowed hp rfl ?shapeMat, finishOp_shadowed hp rfl ?shapeVec, fun hb => finishOp_landS hp ?shapqMat,
    finishOp_landS hp ?shapqVec⟩
  case prec =>
    refine (finishOp_guarded_of_ok hp rfl).trans ?_
    rw [charge_landS_shadowed]
    rfl
  case shapeMat =>
    rw [hqm, hqn]
    rfl
  case shapeVec =>
    rw [hqm]
    rfl
  case shapqMat =>
    rw [hqm, hqn, if_neg hb, beq_false_of_ne hb]
  case shapqVec =>
    rw [hqm]
    rfl

/-! ### VIEW, by the number of the view (R367) -/

theorem viewValue_eq (a b : Word) :
    viewValue a b = (a &&& ~~~0xFFF#64) ||| BitVec.ofNat 64 ((a.toNat % 4096 + b.toNat) % 4096) := by
  rw [viewValue, fieldN_low]
  rfl

section View

variable {g : Guard} {w : BitVec 5} {a b : BitVec 6} {s : State} {x y : Word} {t : Trap}
variable (hp : predOn g s = true) (hx : viewValue (readS s a) (readS s b) = x)
include hp hx

theorem execView_tile (hw : w.toNat ≤ 7) (hy : tileWrite s w.toNat x = .ok y) :
    execView g w a b s = .next (scheduled s [⟨s.ix.c, s.ix.cl + 3, .ctrl (0x10 + w.toNat) y⟩]) := by
  rw [execView, hx, if_pos hw, hy]
  exact finishOp_shadowed hp rfl rfl

theorem execView_acc (hw : 8 ≤ w.toNat) (hw' : w.toNat ≤ 11) (hy : accViewWrite s w.toNat x = .ok y) :
    execView g w a b s = .next (scheduled s [⟨s.ix.c, s.ix.cl + 3, .ctrl (0x18 + (w.toNat - 8)) y⟩]) := by
  rw [execView, hx, if_neg (by omega), if_pos hw', hy]
  exact finishOp_shadowed hp rfl rfl

theorem execView_window (hw : w.toNat = 12) (hy : vwinWrite s 12 x = .ok y) :
    execView g w a b s = .next (scheduled s [⟨s.ix.c, s.ix.cl + 3, .ctrl 0x05 y⟩]) := by
  rw [execView, hx, hw, if_neg (by omega), if_neg (by omega), hy]
  exact finishOp_shadowed hp rfl rfl

theorem execView_tile_refused (hw : w.toNat ≤ 7) (ht : tileWrite s w.toNat x = .error t) : execView g w a b s = .next (takeTrap t s) := by
  rw [execView, hx, if_pos hw, ht]
  exact finishOp_guarded_of_error hp rfl

theorem execView_acc_refused (hw : 8 ≤ w.toNat) (hw' : w.toNat ≤ 11) (ht : accViewWrite s w.toNat x = .error t) :
    execView g w a b s = .next (takeTrap t s) := by
  rw [execView, hx, if_neg (by omega), if_pos hw', ht]
  exact finishOp_guarded_of_error hp rfl

theorem execView_window_refused (hw : w.toNat = 12) (ht : vwinWrite s 12 x = .error t) :
    execView g w a b s = .next (takeTrap t s) := by
  rw [execView, hx, hw, if_neg (by omega), if_neg (by omega), ht]
  exact finishOp_guarded_of_error hp rfl

end View

/-- Settles O25: the three kinds of view with the checks of their registers; the geometry of a view with rows, zero for any other. -/
theorem views : Obligations.Views := by
  intro g w v d a b s hp x low later r
  have hx : viewValue (readS s a) (readS s b) = x := viewValue_eq _ _
  refine ⟨fun hw h hr => execView_tile hp hx hw (tileWrite_of_rows h hr), fun hw hr => execView_tile hp hx hw (tileWrite_of_noRows hr),
    fun hw h => ?refused, fun hw hw' h hf => execView_acc hp hx hw hw' (accViewWrite_of_fit h hf),
    fun hw hw' h hr h16 h32 => execView_acc_refused hp hx hw hw' (accViewWrite_of_width h hr h16 h32),
    fun hw h => execView_window hp hx hw (vwinWrite_of_row h), fun hw h => execView_window_refused hp hx hw (vwinWrite_of_noRow h),
    fun hr => finishOp_landS hp (if_pos hr), fun hr => finishOp_landS hp (if_neg hr)⟩
  case refused =>
    rcases Nat.lt_or_ge 7 w.toNat with hw' | hw'
    · exact execView_acc_refused hp hx hw' hw (accViewWrite_of_bad h)
    · exact execView_tile_refused hp hx hw' (tileWrite_of_bad h)

end Sys2Proof.Machine
end

section

/-! ## Status and clocks, custodian requests and matrix registers (O27, O28, O30) -/

namespace Sys2Proof.Machine

/-! ### STAT (R389) -/

theorem execStat_of_fits {g : Guard} {d : BitVec 6} {j : BitVec 2} {e : BitVec 4} {s : State} (hj : j.toNat < s.tk.g)
    (he : e = 0#4 → j = 0#2) : execStat g d j e s = finishOp s (guarded (predOn g s) s (.ok (landS s 1 d
      (if e = 0#4 then matrixStatus s else if e = 1#4 then unitStatus s (2 * j.toNat)
       else if e = 2#4 then unitStatus s (2 * j.toNat + 1) else 0#64)))) := by
  have hfit : ¬(decide (j.toNat ≥ s.tk.g) || (e == 0#4 && j != 0#2)) = true := by simpa [hj] using he
  rw [execStat, if_neg hfit]

theorem execStat_of_unfit {g : Guard} {d : BitVec 6} {j : BitVec 2} {e : BitVec 4} {s : State}
    (h : s.tk.g ≤ j.toNat ∨ (e = 0#4 ∧ j ≠ 0#2)) : execStat g d j e s = .next (takeTrap (illegal s 0x01) s) := by
  have hunfit : (decide (j.toNat ≥ s.tk.g) || (e == 0#4 && j != 0#2)) = true := by simpa using h
  rw [execStat, if_pos hunfit]
  rfl

/-- Settles O27: each reads its word, whose value lands at once; CDSC lands its descriptor. -/
theorem statusAndClocks : Obligations.StatusAndClocks := by
  intro g d a b j e c s hp
  refine ⟨fun hj he => (execStat_of_fits hj he).trans (finishOp_landS hp rfl), execStat_of_unfit, finishOp_landS hp rfl,
    finishOp_landS hp rfl, finishOp_landS hp ?lcr, finishOp_guarded_of_ok hp rfl⟩
  case lcr => rw [BitVec.ofNat_add, BitVec.ofNat_toNat, BitVec.setWidth_eq, w64]

/-! ### Custodian requests (R396) -/

/-- The state after a custodian request: the request, its reply outstanding, and the landing of its result. -/
def custodianSent (op : Nat) (d : BitVec 6) (x y : Word) (e : BitVec 256) (s : State) : State :=
  landIn (emit (.cust ⟨s.nextId, s.tid, s.tk.vf, 0, op, x, y, e, false, 0, none, []⟩) (newReply 1 s)) 1088 (.load d s.nextId kLoad)

section Custodian

variable {op : Nat} {g : Guard} {d a b : BitVec 6} {s : State}

theorem custodianOp_of_register (hc : s.tk.cust = true) (hp : predOn g s = true) (hop : op ≠ 30) :
    custodianOp op g d a b s = .next (charge 5 1 (custodianSent op d (readS s a) (readS s b) 0#256 s)) := by
  simp only [custodianOp, hc, if_neg hop]
  exact finishOp_guarded_of_ok hp rfl

/-- BTWR reads its entry from memory first. -/
theorem custodianOp_of_memory {e : BitVec 256} (hc : s.tk.cust = true) (hp : predOn g s = true)
    (he : check s true false false false kLoad (readS s b) 32 = .ok e) (ho : scalarOverlap s false (readS s b) 32 = .ok ()) :
    custodianOp 30 g d a b s = .next (charge 5 1 (custodianSent 30 d (readS s a) (readS s b) e s)) := by
  rw [custodianOp, hc, he, ho]
  exact finishOp_guarded_of_ok hp rfl

theorem custodianOp_of_other (op : Nat) (g : Guard) (d a b : BitVec 6) (hc : s.tk.cust = false) :
    custodianOp op g d a b s = .next (takeTrap (illegal s 0x0D) s) := by
  rw [custodianOp, hc]
  rfl

end Custodian

/-- Settles O28: the seven instructions are one operation with its number; the custodian bit is tested before the predicate. -/
theorem custodianIssue : Obligations.CustodianIssue := by
  intro g d a b s sent
  refine ⟨fun hc hp => ?sent, fun hc => ?refused⟩
  case sent =>
    exact ⟨custodianOp_of_register hc hp (by decide), custodianOp_of_register hc hp (by decide), custodianOp_of_register hc hp (by decide),
      custodianOp_of_register hc hp (by decide), custodianOp_of_register hc hp (by decide), custodianOp_of_register hc hp (by decide),
      fun e he ho => custodianOp_of_memory hc hp he ho⟩
  case refused =>
    exact ⟨custodianOp_of_other 25 g d a 0#6 hc, custodianOp_of_other 26 g d a b hc, custodianOp_of_other 27 g d a b hc,
      custodianOp_of_other 28 g d a b hc, custodianOp_of_other 29 g d a b hc, custodianOp_of_other 30 g d a b hc,
      custodianOp_of_other 31 g d a b hc⟩

/-! ### Matrix registers (R355, R357 to R360) -/

/-- The word MSTA reads of an accumulator: its sum, or its exponent and marks. -/
def accWord (marks : Bool) (x : Acc) : Word := if marks then w64 (x.e.toNat + bitN x.nan 16 + bitN x.ovm 17) else x.s

theorem accWord_of_bit (v : Word) (x : Acc) : accWord (v.getLsbD 16) x = if v.toNat / 2 ^ 16 % 2 = 0 then x.s
    else BitVec.ofNat 64 (x.e.toNat + (if x.nan then 2 ^ 16 else 0) + (if x.ovm then 2 ^ 17 else 0)) := by
  have hbit : v.getLsbD 16 = decide (v.toNat / 2 ^ 16 % 2 = 1) := by rw [BitVec.getLsbD, Nat.testBit_eq_decide_div_mod_eq]
  rcases Nat.mod_two_eq_zero_or_one (v.toNat / 2 ^ 16) with h | h
  · rw [hbit, h]
    rfl
  · rw [hbit, h]
    rfl

section Matrix

variable {g : Guard} {s : State} (hon : maskOn g s = true)

/-- A drain starts `k` cycles after a cost window (R355). -/
theorem bmuFree_of_past {k : Nat} (h : s.sq.win.2 = 0 ∨ s.sq.win.2 + k ≤ s.ix.c) : bmuFree s k = .ok () :=
  if_neg fun ⟨h0, hlt⟩ => by omega

include hon

theorem execMdrn_of_fit {f u sh : BitVec 2} {av gr : Word} (add : Bool) (hmode : pMode (atLast s).sq.prec ≠ 3)
    (hav : tabGet 0#64 s.sq.av u.toNat = av) (hr : vNrow av ≠ 0) (hw : vW av = drainW f) (hgr : tabGet 0#64 s.sq.sh sh.toNat = gr)
    (hg : shG gr = true) (hv : shVec gr = false) (hm : shGM gr = natM s.tk.g) (hn : shGN gr = natN s.tk.g)
    (hrows : shGM gr ≤ vNrow av) (hcols : shGN gr ≤ vNcol av) (hwin : s.sq.win.2 = 0 ∨ s.sq.win.2 + 4 ≤ s.ix.c)
    (ho : extentUnowned s.tk.g s.sq av = none) : execMdrn g f u sh add s = .next (drainEffect (atLast s).sq.prec av f add gr s) := by
  have htile : ¬(shGM gr ≠ natM s.tk.g ∨ shGN gr ≠ natN s.tk.g) := by
    simp only [not_or, not_not]
    exact ⟨hm, hn⟩
  have hcovers : ¬(shGM gr > vNrow av ∨ shGN gr > vNcol av) := by
    simp only [not_or, not_lt]
    exact ⟨hrows, hcols⟩
  simp only [execMdrn, hon, Bool.not_true, Bool.false_eq_true, if_false, precMatOk_of_mode hmode,
    accView_of_fit ((viewReg_acc s u).trans hav) hr hw, matGrant_of_matrix hgr hg hv, bmuFree_of_past hwin, extentOwned_of_owned ho,
    bind, Except.bind, if_neg htile, if_neg hcovers]
  rfl

section Closed

variable (hwin : s.sq.win.2 ≤ s.ix.c)
include hwin

theorem execMclr_of_closed : execMclr g s =
    .next (scheduled s [⟨s.ix.c, s.ix.cl, .accs []⟩, ⟨s.ix.c, s.ix.cl + 5, .stat true 0#16 0#4⟩]) := by
  rw [execMclr, bmuFree_of_closed hwin]
  refine (finishOp_guarded_of_on hon rfl).trans ?_
  exact congrArg (fun ls => Host.Outcome.next (charge 5 1 { s with sq := { s.sq with land := ls } })) (List.append_cons ..).symm

theorem execMsta_of_closed {d a : BitVec 6} : execMsta g d a s =
    .next (scheduled s (toS s 1 d (accWord ((readS s a).getLsbD 16)
      (getAcc s.sq.acc (fieldN (readS s a) 0 8 % natM s.tk.g) (fieldN (readS s a) 8 8 % natN s.tk.g))))) := by
  rw [execMsta, bmuFree_of_closed hwin, ← landS_eq]
  exact finishOp_guarded_of_on hon rfl

theorem execMscl_of_fit {o : Bool} {x : BitVec 3} {v : Word} (hx : tabGet 0#64 s.sq.td x.toNat = v) (hr : vNrow v ≠ 0) (hw : vW v = 8)
    (ho : extentUnowned s.tk.g s.sq v = none) :
    execMscl g o x s = .next (charge 1 (scaleRows o v s) (landIn s 4 (.scale o (scaleBytes o v s)))) := by
  simp only [execMscl, hon, Bool.not_true, Bool.false_eq_true, if_false, viewCfg_of_configured ((viewReg_tile s x).trans hx) hr, hw,
    bmuFree_of_closed hwin, extentOwned_of_owned ho, bind, Except.bind, ne_eq, not_true_eq_false]
  rfl

end Closed

end Matrix

/-- Settles O30: each passes its checks in their order and starts its effect. -/
theorem matrixRegisters : Obligations.MatrixRegisters := by
  intro g f u sh add o en x i d a s hon av gr v n acc
  refine ⟨fun hmode hr hw hg hv hm hn hrows hcols hwin ho =>
      execMdrn_of_fit hon add hmode rfl hr hw rfl hg hv hm hn hrows hcols hwin ho,
    fun hwin => ⟨execMclr_of_closed hon hwin, (execMsta_of_closed hon hwin).trans ?status,
      fun hr hw ho => execMscl_of_fit hon hwin rfl hr hw ho⟩, finishOp_guarded_of_on hon ?mvcn⟩
  case status =>
    rw [accWord_of_bit, fieldN_low, fieldN_eq]
    rfl
  case mvcn => cases en <;> rfl

end Sys2Proof.Machine
end

section

/-! ## Copies (O31) -/

namespace Sys2Proof.Machine

/-! ### What a copy instruction builds and checks (R371 to R376) -/

/-- The cycles from the start of a copy to its first landing (R373). -/
def copyLat (t : Task) (kind : Nat) (e e2 : BitVec 256) (off off2 step rows : Nat) : Nat :=
  match kind with
  | 1 => 6
  | 4 => rowsNominal t e off step rows + rowsNominal t e2 off2 128 rows
  | 7 => bufferNominal t e
  | 10 => rowsNominal t e off step rows + 64
  | _ => rowsNominal t e off step rows

/-- The copy that instruction `op` starts from descriptor `n`: CPS takes its kind from the descriptor and its start from `b`, every other
one adds `b` to its offset. -/
def copyOf (op : Nat) (rel : Bool) (u : BitVec 3) (n : BitVec 4) (b : Word) (s : State) : Copy :=
  let d := tabGet 0#128 s.sq.cd n.toNat
  let d2 := tabGet 0#128 s.sq.cd ((n.toNat + 1) % 16)
  let kind := if op == 6 then dKind d else op
  let idx := fieldN (dAddr d) 48 16
  let idx2 := fieldN (dAddr d2) 48 16
  let off := (fieldN (dAddr d) 0 48 + (if op == 6 then 0 else fieldN b 0 48)) % 2 ^ 48
  let off2 := fieldN (dAddr d2) 0 48
  let e := taskEntry s idx
  let e2 := taskEntry s idx2
  ⟨s.nextId, s.ix.c, s.ix.slot, u.toNat, kind, rel, n.toNat, if op == 6 then b.toNat else s.ix.c,
    copyLat s.tk kind e e2 off off2 (memStep kind d) (dNrows d), dNrows d, mvalidCut s.sq.mvalid, d, idx, e, off, memStep kind d,
    idx2, e2, off2, [], 0#6, false⟩

/-- Copy `c` passes every check of R374; `cps` for CPS. -/
structure CopyFits (s : State) (cps : Bool) (c : Copy) : Prop where
  valid : dV c.desc = true
  second : c.kind = 4 → dV (tabGet 0#128 s.sq.cd ((c.cd + 1) % 16)) = true
  fields : copyFields s cps c.kind c.cd c.off c.desc = .ok ()
  start : cps = true → s.ix.c < c.start ∧ c.start ≤ s.ix.c + 2 ^ 20
  free : unitFree s c.unit c.start (c.start + c.lat + c.rows - 1) = .ok ()
  owned : copyOwned s c.unit c.kind c.desc = .ok ()
  source : readsMem c.kind c.desc = true → c.kind ≠ 7 →
    ∃ r, checkRows s true false false kCopySrc c.index c.off c.step c.rows = .ok r
  second_target : c.kind = 4 → ∃ r, checkRows s false true false kCopyDst c.index2 c.off2 128 c.rows = .ok r
  target : c.kind ≠ 4 → writesMem c.kind c.desc = true →
    ∃ r, checkRows s false true (c.kind == 10) kCopyDst c.index c.off c.step c.rows = .ok r
  gather : c.kind = 7 → ∃ r, checkGather s c.index c.off = .ok r
  apart : copyMeets s.sq.copies (taskCopies s) c = none

section Fits

variable {s : State} {cps : Bool} {c : Copy} (h : CopyFits s cps c)
include h

theorem CopyFits.second_present : ¬(decide (c.kind = 4) && !dV (tabGet 0#128 s.sq.cd ((c.cd + 1) % 16))) = true := by
  simpa using h.second

theorem CopyFits.in_time : ¬(cps && (decide (c.start ≤ s.ix.c) || decide (c.start > s.ix.c + 2 ^ 20))) = true := by
  simpa using h.start

theorem CopyFits.source_passes (hr : (readsMem c.kind c.desc && c.kind != 7) = true) :
    ∃ r, checkRows s true false false kCopySrc c.index c.off c.step c.rows = .ok r := by
  obtain ⟨hreads, hkind⟩ := (Bool.and_eq_true ..).mp hr
  exact h.source hreads (by simpa using hkind)

theorem CopyFits.starts : (match copyMeets s.sq.copies (taskCopies s) c with
    | some k => throw (unitBusy s k.unit (w64 (copyEnd k + 1)))
    | none => .ok (copyEffect c s) : Eff) = .ok (copyEffect c s) := by
  rw [h.apart]

end Fits

/-! ### Checks in a row -/

theorem bind_of_passed {α β : Type} {x : Except Trap α} {f : α → Except Trap β} {r : α} {y : Except Trap β} (h : x = .ok r) (hf : f r = y) :
    (x >>= f) = y := by
  subst h
  exact hf

/-- A check that applies only under `p`. -/
theorem check_passed {α : Type} {p : Prop} [Decidable p] {x : Except Trap α} {k y : Eff} (h : p → ∃ r, x = .ok r) (hk : k = y) :
    (if p then x >>= fun _ => k else k) = y := by
  split
  case isTrue hp =>
    obtain ⟨r, hr⟩ := h hp
    exact bind_of_passed hr hk
  case isFalse => exact hk

/-- A check under `p` that stands before another. -/
theorem either_passed {α : Type} {p : Prop} [Decidable p] {x : Except Trap α} {k l y : Eff} (h : p → ∃ r, x = .ok r) (hk : k = y)
    (hl : ¬p → l = y) : (if p then x >>= fun _ => k else l) = y := by
  split
  case isTrue hp =>
    obtain ⟨r, hr⟩ := h hp
    exact bind_of_passed hr hk
  case isFalse hp => exact hl hp

section CopyOp

variable {op : Nat} {g : Guard} {rel : Bool} {u : BitVec 3} {n : BitVec 4} {b : Word} {s : State}
variable (hu : u.toNat < 2 * s.tk.g) (hon : maskOn g s = true)
include hu hon

theorem copyOp_of_invalid (hV : dV (tabGet 0#128 s.sq.cd n.toNat) = false) : copyOp op g rel u n b s =
    .next (takeTrap (timing s 0x01 9 (0xC0 + n.toNat) (seqCol s) never (w64 n.toNat)) s) := by
  rw [copyOp, if_neg (not_le.2 hu), hon, hV]
  rfl

theorem copyOp_of_secondInvalid (hV : dV (tabGet 0#128 s.sq.cd n.toNat) = true) (hk : (copyOf op rel u n b s).kind = 4)
    (hV2 : dV (tabGet 0#128 s.sq.cd ((n.toNat + 1) % 16)) = false) : copyOp op g rel u n b s =
    .next (takeTrap (timing s 0x01 9 (0xC0 + n.toNat) (seqCol s) never (w64 n.toNat)) s) := by
  have hmissing : ((decide ((copyOf op rel u n b s).kind = 4)) && !dV (tabGet 0#128 s.sq.cd ((n.toNat + 1) % 16))) = true := by
    simp [hk, hV2]
  rw [copyOp, if_neg (not_le.2 hu), hon, hV]
  exact congrArg (finish s) (if_pos hmissing)

theorem copyOp_of_fits (h : CopyFits s (op == 6) (copyOf op rel u n b s)) :
    copyOp op g rel u n b s = .next (copyEffect (copyOf op rel u n b s) s) := by
  have hV : dV (tabGet 0#128 s.sq.cd n.toNat) = true := h.valid
  rw [copyOp, if_neg (not_le.2 hu), hon, hV]
  refine congrArg (finish s) (a₂ := .ok (copyEffect (copyOf op rel u n b s) s)) ?_
  refine (if_neg h.second_present).trans (bind_of_passed h.fields ((if_neg h.in_time).trans (bind_of_passed h.free
    (bind_of_passed h.owned (check_passed h.source_passes (either_passed h.second_target
      (check_passed h.gather h.starts) fun hk => check_passed (h.target hk) (check_passed h.gather h.starts)))))))

end CopyOp

/-! ### The offsets, and the ten instructions -/

/-- An offset moved by a register is the sum of both within 48 bits. -/
theorem copyOff_eq (x b : Word) (cps : Bool) : (fieldN x 0 48 + (if cps then 0 else fieldN b 0 48)) % 2 ^ 48 =
    (x.toNat + (if cps then 0 else b.toNat)) % 2 ^ 48 := by
  cases cps
  · simp only [fieldN_low, Bool.false_eq_true, if_false, ← Nat.add_mod]
  · simp only [fieldN_low, if_true, Nat.add_zero, Nat.mod_mod]

/-- Settles O31: the ten instructions are one operation with its number; the copy it builds starts when it passes every check. -/
theorem copies : Obligations.Copies := by
  intro g rel u n b s run d d2 op hlo hhi hu hon kind bw start idx off idx2 off2 e e2 step lat c
  have hrun : run op = copyOp op g rel u n (if op = 1 then 0#64 else readS s b) s := by
    interval_cases op <;> rfl
  have hbw : (if op = 1 then 0#64 else readS s b).toNat = bw := apply_ite BitVec.toNat ..
  have hc : copyOf op rel u n (if op = 1 then 0#64 else readS s b) s = c := by
    simp only [copyOf, copyOff_eq]
    simp only [fieldN_index, fieldN_low, beq_iff_eq, hbw]
    rfl
  rw [hrun]
  refine ⟨fun hV => copyOp_of_invalid hu hon hV, fun hV hk hV2 => copyOp_of_secondInvalid hu hon hV ?second hV2,
    fun hV hV2 hfields hstart hfree howned hsrc hdst2 hdst hgather hmeets => ?fits⟩
  case second =>
    rw [hc]
    exact hk
  case fits =>
    have hfits : CopyFits s (op == 6) c := ⟨hV, hV2, hfields, fun h => hstart (eq_of_beq h), hfree, howned, hsrc, hdst2, hdst, hgather, hmeets⟩
    rw [← hc] at hfits ⊢
    exact copyOp_of_fits hu hon hfits

end Sys2Proof.Machine
end
